-- ==== Sys2Proof/Word.lean ====
section
/-!
DEFINITION. The plain types of the model: bytes, 64-bit words, and the association map every sparse
table of the state is held in.
-/
namespace Sys2Proof

/-- One byte (R5: multi-byte values are little-endian sequences of these). -/
abbrev Byte := BitVec 8

/-- One 64-bit word (a scalar register, an instruction word, a word of a plan image). -/
abbrev Word := BitVec 64

/-- A sparse table: a list of key and value pairs, at most one pair per key when built by `put`. -/
abbrev AMap (κ α : Type) := List (κ × α)

/-- The value a table holds at a key, if any. -/
def AMap.find {κ α : Type} [DecidableEq κ] : AMap κ α → κ → Option α
  | [], _ => none
  | (k, a) :: m, q => if k = q then some a else AMap.find m q

/-- The value a table holds at a key, `d` where it holds none. -/
def AMap.at {κ α : Type} [DecidableEq κ] (m : AMap κ α) (q : κ) (d : α) : α :=
  (AMap.find m q).getD d

/-- The table with `a` at key `q`: the pair is replaced in place, or added at the end. -/
def AMap.put {κ α : Type} [DecidableEq κ] : AMap κ α → κ → α → AMap κ α
  | [], q, a => [(q, a)]
  | (k, b) :: m, q, a => if k = q then (q, a) :: m else (k, b) :: AMap.put m q a

/-- The table without key `q`. -/
def AMap.drop {κ α : Type} [DecidableEq κ] (m : AMap κ α) (q : κ) : AMap κ α :=
  m.filter fun p => !decide (p.1 = q)

/-- The table with the value at `q` changed by `f` (`d` where it holds none). -/
def AMap.mod {κ α : Type} [DecidableEq κ] (m : AMap κ α) (q : κ) (d : α) (f : α → α) : AMap κ α :=
  AMap.put m q (f (AMap.at m q d))

end Sys2Proof
end

