-- ==== Sys2Proof/Config.lean ====
section
/-!
DEFINITION. What the manual fixes for every part (the figures of Table ARC-1 and the limits the chapters
state) and the free values: constants without a body for what the manual leaves open. No proof can see the
value of a free constant, so a claim holds for every value of it.
-/
namespace Sys2Proof.Config

/-- Clusters of the package (Table ARC-1, R16). -/
def clusters : Nat := 36
/-- Tahr cores of the package (Table ARC-1, R16). -/
def cores : Nat := 4608
/-- Link indices (R397): 4p + k for full ports, 576 + d for edge ports. -/
def links : Nat := 580
/-- Counters are 48 bits wide and saturate (R211, R323, R364, R404, R438, R474). -/
def ctrMax : Nat := 2 ^ 48 - 1
/-- Bytes of data SRAM of one core (Table ARC-1). -/
def sramBytes : Nat := 131072
/-- Granules of one die's range of offsets (R283). -/
def dieGranules : Nat := 0x14000000
/-- Granules of the internal area at the top of each die's range (R283). -/
def internalGranules : Nat := 0x00800000
/-- Bytes of the state store of a cluster controller (R196). -/
def stateStore : Nat := 4 * 1024 * 1024
/-- Words of program SRAM of one core (R109). -/
def programWords : Nat := 2048
/-- Answers a cluster queues (R210). -/
def answerQueue : Nat := 256
/-- Responses a serving cluster queues (R294). -/
def responseQueue : Nat := 256
/-- Refusals a serving cluster queues (R295). -/
def refusalQueue : Nat := 64
/-- Message entries of a serving cluster (R294). -/
def messageEntries : Nat := 1024
/-- Event records a mailbox queues (R543). -/
def eventQueue : Nat := 127
/-- Sample records the MP queues (R437). -/
def sampleQueue : Nat := 1024
/-- Entries of the digest ring (R469). -/
def digestRing : Nat := 65536
/-- Cells of the packet buffer of one die (R405). -/
def dieCells : Nat := 1048576
/-- Bytes of the slice ring of a core; the manual gives the ring no size outside the Pronk path
(DESIGN CHOICE, log entry 11). -/
def sliceRing : Nat := 16384
/-- Bytes of the Pronk inbound queue of a cluster (Table PRK-1). -/
def pronkInbound : Nat := 65536
/-- Bytes of the Trail transmit queue (R384). -/
def trailTxBytes : Nat := 262144
/-- Bytes of the Trail forward queue (R552). -/
def trailFwdBytes : Nat := 32768

/-- SHA-384, which R572 to R584 name and no rule of the manual spells out (log entry 3). -/
opaque sha384 : List Byte → BitVec 384
/-- HMAC-SHA-384, the function H of R583 (log entry 3). -/
opaque hmac384 : BitVec 384 → List Byte → BitVec 384
/-- ECDSA P-384 verification of a digest under a public key (R581; log entry 3). -/
opaque ecdsaVerify : List Byte → List Byte → BitVec 384 → Bool
/-- HSS verification under R577 and R581 (log entry 3). -/
opaque hssVerify : List Byte → List Byte → BitVec 384 → Bool
/-- The ECDSA P-384 public key formed from a 384-bit value (R583; log entry 3). -/
opaque ecdsaPublic : BitVec 384 → List Byte
/-- ECDSA P-384 signature of a digest with the key formed from a 384-bit value (R584, R585; log entry 3). -/
opaque ecdsaSign : BitVec 384 → BitVec 384 → List Byte
/-- The part of an HSS signature that the boot makes once: level count, upper-tree signature and lower public key, from the
upper secret, the lower secret and the upper leaf (R584, R585; log entry 3). -/
opaque hssUpper : BitVec 384 → BitVec 384 → Nat → List Byte
/-- The lower-tree signature of a message: lower secret, lower leaf, message (R585; log entry 3). -/
opaque lmsSign : BitVec 384 → Nat → List Byte → List Byte
/-- The 48-bit provisioned ID that GETPID returns; the manual gives no value (log entry 4). -/
opaque i3cPid : BitVec 48
/-- The bus characteristics register that GETBCR returns (log entry 4). -/
opaque i3cBcr : BitVec 8
/-- The device characteristics register that GETDCR returns (log entry 4). -/
opaque i3cDcr : BitVec 8
/-- The status word of the n-th GETSTATUS (log entry 4). -/
opaque i3cStatus : Nat → BitVec 16
/-- The n-th free word: an unstated result value of an instruction (log entry 5). -/
opaque freeWord : Nat → BitVec 512
/-- The byte at a place of a context slot in data SRAM that holds parked lanes, given by key, integer, flags and residue;
the manual lays out no lane there (R99; log entry 31). -/
opaque parkByte : List (Nat × Int × Nat × Nat) → Nat → BitVec 8
/-- The frequency correction, in 10^-9 of nominal, that the servo gives for an offset in 2^-16 ns and the correction
before; the loop gains are not stated (R455; log entry 6). -/
opaque servoRate : Int → Int → Int

/-- The split that a plan image gives a full port, modulo 3: 0 is 1 × 8, 1 is 2 × 4, 2 is 4 × 2. R325 says that the plan
sets it and no rule gives the image a field for it (log entry 33). -/
opaque planSplit : List (BitVec 8) → Nat → Nat
/-- Whether a plan image puts a link into reach class L (R331; log entry 33). -/
opaque planClassL : List (BitVec 8) → Nat → Bool
/-- The steps of 1,024 blocks that a plan image adds to a link's replay buffer (R345; log entry 33). -/
opaque planReach : List (BitVec 8) → Nat → Nat
/-- Blocks of a die's long-reach pool (R345). -/
def reachPool : Nat := 16384
/-- Blocks that a link holds unacknowledged at most (R345). -/
def heldMax : Nat := 8192

/-- FLITS of the CREDIT_INIT words that an edge port sends before the first plan; the manual sizes pools by the plan's
accounts only (R406, R556; log entry 19). -/
opaque bootFlits : BitVec 24

end Sys2Proof.Config
end

