-- ==== Sys2Proof/Syntax.lean ====
section
/-!
DEFINITION. The commands of the block: one constructor per row of the opcode table, with the operands the
row's rule names. `t` is the FT stamp in ns the event carries (R462); `g` a global core number (R18);
`cl` a cluster; `link` a link index (R397); `vc` a virtual channel; `m` a mailbox.
-/
namespace Sys2Proof

/-- The fields of a TSI instruction word (Table TSI-6, R112), but for the opcode. -/
structure TsiFields where
  d : BitVec 5
  a : BitVec 5
  b : BitVec 5
  c : BitVec 4
  fa : BitVec 4
  fd : BitVec 4
  rm : BitVec 3
  rms : BitVec 1
  msk : BitVec 3
  imm : BitVec 22
  deriving DecidableEq, Repr

/-- A fabric packet: its 32-byte header (Tables RTE-5, COL-4, MEM-4, MGT-1) and its payload. -/
structure Packet where
  hdr : BitVec 256
  payload : List Byte
  deriving DecidableEq, Repr

/-- A link block: eight flits of 64 B and the trailer of Table LNK-3 (R333). -/
structure Block where
  flits : List (BitVec 512)
  trailer : BitVec 128
  deriving DecidableEq, Repr

/-- What the FEC decoders of a link's lanes report with a block: whether the block overlaps a codeword that could not be
corrected, and per lane the uncorrectable codewords and the corrected symbols found since the block before (R332, R364). -/
structure FecReport where
  bad : Bool
  uncorr : List Nat
  corr : List Nat
  deriving DecidableEq, Repr

/-- What the PHY saw of a receive lane (R351): nanoseconds without signal, the loss of clock recovery or codeword lock, or
symbol errors before the FEC among the symbols of 10 ms. -/
inductive LaneWhy where
  | signal (ns : Nat)
  | lock
  | errors (errs symbols : Nat)
  deriving DecidableEq, Repr

/-- What the PHY saw of a receive lane, and of which. -/
structure LaneReport where
  lane : Nat
  why : LaneWhy
  deriving DecidableEq, Repr

/-- The lanes that have locked, and the skew between them in ns (R327, R359). -/
structure LanesLocked where
  good : Nat
  skew : Nat
  deriving DecidableEq, Repr

/-- What a retrain has found: the lanes locked in both directions, the skew between them in ns, and the partner's HELLO
(R327, R350). -/
structure Retrained where
  good : Nat
  skew : Nat
  hello : Option (BitVec 512)
  deriving DecidableEq, Repr

/-- The counter reading at which a memory request is decided, and what its own reads then find: granules with the number of
symbols in error (R278). -/
structure MemTime where
  t : Nat
  ups : List (Nat × Nat)
  deriving DecidableEq, Repr

/-- A Trail frame: the header of Table MGT-11, the payload and the CRC that arrived (R551). -/
structure Frame where
  hdr : BitVec 64
  payload : List Byte
  crc : BitVec 32
  deriving DecidableEq, Repr

/-- The unit an uncorrectable error of class C4 or C5 lies in (Table RES-1). -/
inductive UnitRef where
  | core (g : Nat)
  | clusterCtl (cl : Nat)
  | die (d : Nat)
  | bridge (d e : Nat)
  deriving DecidableEq, Repr

/-- A PLL of R605. -/
inductive PllRef where
  | die (d : Nat)
  | trail
  | lane (link lane : Nat)
  deriving DecidableEq, Repr

/-- The strap lands sampled at the release of PORST_N (R592). -/
structure Straps where
  planeSel : BitVec 5
  addrSel : BitVec 3
  bootSel : BitVec 2
  bootEp : BitVec 2
  deriving DecidableEq, Repr

/-- The commands the block takes, one per row of the opcode table. -/
inductive Instr where
  /-- RECV (R117): Copies n beats of the current slice from CURSOR into V registers and advances CURSOR. -/
  | recv (g : Nat) (f : TsiFields)
  /-- LDV (R118): Loads n beats of a LOCAL region into V registers. -/
  | ldv (g : Nat) (f : TsiFields)
  /-- STV (R118): Stores n V registers as beats of a LOCAL region. -/
  | stv (g : Nat) (f : TsiFields)
  /-- LDS (R118): Loads 8 aligned bytes of a LOCAL region or the slice into an S register. -/
  | lds (g : Nat) (f : TsiFields)
  /-- MOVI (R116): Writes a sign-extended immediate to an S register. -/
  | movi (g : Nat) (f : TsiFields)
  /-- SADDI (R116): Adds a sign-extended immediate to an S register. -/
  | saddi (g : Nat) (f : TsiFields)
  /-- VMOV (R116): Copies one V register to another. -/
  | vmov (g : Nat) (f : TsiFields)
  /-- MOVM (R116): Writes bits [31:0] of an S register to a mask register. -/
  | movm (g : Nat) (f : TsiFields)
  /-- VSPLAT (R119): Writes the low bits of an S register into every element of a V register. -/
  | vsplat (g : Nat) (f : TsiFields)
  /-- XADD (R120): Adds every unmasked element of a V register exactly into XS lanes. -/
  | xadd (g : Nat) (f : TsiFields)
  /-- XCIN (R121): Decodes 16 XC elements from the slice into the lanes of an XS register. -/
  | xcin (g : Nat) (f : TsiFields)
  /-- XCLR (R116): Clears the XS and XP registers named in the immediate. -/
  | xclr (g : Nat) (f : TsiFields)
  /-- XMOV (R122): Copies integer, flags and residue of an XS register. -/
  | xmov (g : Nat) (f : TsiFields)
  /-- XFOLD (R123): Adds each XP lane into the matching XS lane, rounding bits below the XS grid. -/
  | xfold (g : Nat) (f : TsiFields)
  /-- XPADD (R122): Adds each XS lane exactly into the matching XP lane. -/
  | xpadd (g : Nat) (f : TsiFields)
  /-- XSSUM (R122): Sums all 16 XS lanes exactly into lane 0 of the destination. -/
  | xssum (g : Nat) (f : TsiFields)
  /-- VBIT (R61): Applies bitwise AND, OR or XOR to two V registers. -/
  | vbit (g : Nat) (f : TsiFields)
  /-- DOT (R124): Adds exact, optionally scaled products of two V registers into XP lanes. -/
  | dot (g : Nat) (f : TsiFields)
  /-- SSQ (R124): Adds exact squares of the scaled elements of a V register into XP lanes. -/
  | ssq (g : Nat) (f : TsiFields)
  /-- XPSUM (R122): Sums all 16 XP lanes exactly into lane 0 of the destination. -/
  | xpsum (g : Nat) (f : TsiFields)
  /-- EXPAND (R126): Widens 64 narrow elements to BF16 into a V register pair. -/
  | expand (g : Nat) (f : TsiFields)
  /-- RND (R127): Checks residues, resolves specials and rounds XS or XP lanes once into the output format. -/
  | rnd (g : Nat) (f : TsiFields)
  /-- CVT (R129): Converts 32 elements from one format to another with one rounding. -/
  | cvt (g : Nat) (f : TsiFields)
  /-- MXQ (R130): Quantises one block of 32 values into an MX format and its scale. -/
  | mxq (g : Nat) (f : TsiFields)
  /-- XCENC (R131): Encodes 16 XS lanes as XC elements into an output buffer. -/
  | xcenc (g : Nat) (f : TsiFields)
  /-- VMAX (R133): Writes the elementwise maximum of two V registers. -/
  | vmax (g : Nat) (f : TsiFields)
  /-- VMIN (R133): Writes the elementwise minimum of two V registers. -/
  | vmin (g : Nat) (f : TsiFields)
  /-- HMAX (R134): Writes the largest unmasked element of a V register and its element number. -/
  | hmax (g : Nat) (f : TsiFields)
  /-- HMIN (R134): Writes the smallest unmasked element of a V register and its element number. -/
  | hmin (g : Nat) (f : TsiFields)
  /-- VFLAG (R135): Folds NAN and INF of unmasked elements into a flag record. -/
  | vflag (g : Nat) (f : TsiFields)
  /-- VCMP (R141): Compares two V registers elementwise and writes a mask. -/
  | vcmp (g : Nat) (f : TsiFields)
  /-- VCMPS (R143): Compares a V register with a scalar elementwise and writes a mask. -/
  | vcmps (g : Nat) (f : TsiFields)
  /-- MLOG (R138): Combines two mask registers by AND, OR, XOR or ANDN. -/
  | mlog (g : Nat) (f : TsiFields)
  /-- MPOP (R144): Counts the elements that a mask governs. -/
  | mpop (g : Nat) (f : TsiFields)
  /-- FILT (R145): Packs the unmasked elements of a V register and writes their count. -/
  | filt (g : Nat) (f : TsiFields)
  /-- FIDX (R145): Packs the element indices of the unmasked elements. -/
  | fidx (g : Nat) (f : TsiFields)
  /-- VSEL (R146): Selects elements from two V registers by mask. -/
  | vsel (g : Nat) (f : TsiFields)
  /-- MKREC (R148): Builds 16 sort records from keys and payloads. -/
  | mkrec (g : Nat) (f : TsiFields)
  /-- RINIT (R149): Fills a record group with sentinel records. -/
  | rinit (g : Nat) (f : TsiFields)
  /-- SORT (R152): Sorts a record group into the record order. -/
  | sort (g : Nat) (f : TsiFields)
  /-- MERGE (R153): Merges two sorted record groups and keeps the first 4r records. -/
  | merge (g : Nat) (f : TsiFields)
  /-- TOPK (R154): Sorts one record group and merges it into a running top group. -/
  | topk (g : Nat) (f : TsiFields)
  /-- UNREC (R155): Unpacks keys and payloads of 16 records into a V register pair. -/
  | unrec (g : Nat) (f : TsiFields)
  /-- GATH (R156): Gathers indexed elements of a LOCAL region or slice into a V register. -/
  | gath (g : Nat) (f : TsiFields)
  /-- SCAT (R157): Scatters elements of a V register to indexed places of a LOCAL region. -/
  | scat (g : Nat) (f : TsiFields)
  /-- KSEL (R159): Ranks records by dispatch rank, keeps up to capacity and drops the rest in place. -/
  | ksel (g : Nat) (f : TsiFields)
  /-- EMIT (R165): Writes V registers as beats of a positional output or a memory write. -/
  | emit (g : Nat) (f : TsiFields)
  /-- EMITA (R170): Appends elements to the core's segment of an append output. -/
  | emita (g : Nat) (f : TsiFields)
  /-- EMSC (R166): Writes an MX scale byte into a positional output. -/
  | emsc (g : Nat) (f : TsiFields)
  /-- END (R97): Waits for outstanding fetches and ends the handler. -/
  | endHandler (g : Nat) (f : TsiFields)
  /-- BR (R178): Branches unconditionally to an absolute offset. -/
  | br (g : Nat) (f : TsiFields)
  /-- BZ (R178): Branches when a scalar is zero or non-zero. -/
  | bz (g : Nat) (f : TsiFields)
  /-- BM (R178): Branches on whether any bit of a mask is set. -/
  | bm (g : Nat) (f : TsiFields)
  /-- LOOP (R178): Decrements a scalar and branches while it is not zero. -/
  | loop (g : Nat) (f : TsiFields)
  /-- SCALC (R179): Performs a scalar arithmetic or logic operation. -/
  | scalc (g : Nat) (f : TsiFields)
  /-- FETCH (R180): Issues a fabric memory read of beats into a LOCAL region. -/
  | fetch (g : Nat) (f : TsiFields)
  /-- WAITF (R182): Waits until every fetch of the handler has been answered. -/
  | waitf (g : Nat) (f : TsiFields)
  /-- SKIP (R183): Advances the CONTRIB cursor by a number of beats. -/
  | skip (g : Nat) (f : TsiFields)
  /-- STAT (R184): Reads the context's recorded status and later-fault count. -/
  | stat (g : Nat) (f : TsiFields)
  /-- RAISE (R185): Records a fault code for the context and stops the handler. -/
  | raise (g : Nat) (f : TsiFields)
  /-- PCNT (R186): Adds a scalar to one of the slot's program counters. -/
  | pcnt (g : Nat) (f : TsiFields)
  /-- OUTPUT_ROOM_RESUME (R177): An emit waiting for room in output assembly proceeds when room appears. -/
  | outputRoomResume (g : Nat) (t : Nat)
  /-- INIT_HANDLER (R96): Dispatches the INIT handler of a new context on a core. -/
  | initHandler (g slot inst chunk : Nat)
  /-- SLICE_HANDLER (R96): Dispatches the SLICE handler for a presented slice. -/
  | sliceHandler (g : Nat) (ecc : Bool) (t : Nat)
  /-- FINAL_HANDLER (R96): Dispatches the FINAL handler of a complete chunk's context. -/
  | finalHandler (g slot inst chunk : Nat) (ecc : Bool) (t : Nat)
  /-- WATCHDOG_TIMEOUT (R103): A handler exceeds its watchdog limit and stops with TIMEOUT. -/
  | watchdogTimeout (g waited : Nat)
  /-- DIRECT_ACCUMULATE (R230): The cluster adds a slice's elements directly into a Pronk core's XS lanes. -/
  | directAccumulate (g : Nat)
  /-- SPARSE_RUN_DECODE (R269): A core decodes a run of 16 sparse entries and passes addends to their owner cores. -/
  | sparseRunDecode (g : Nat)
  /-- CONTRIB_RX (R197): The owner cluster admits or refuses a steered collective packet. -/
  | contribRx (cl t : Nat)
  /-- CSTAT_MEMBER_RX (R220): A parent slot receives a child's CSTAT and aborts the current instance. -/
  | cstatMemberRx (cl t : Nat)
  /-- RESULT_RELAY (R219): A slot relays a RESULT or CSTAT from its PARENT to its relay range. -/
  | resultRelay (cl t : Nat)
  /-- CHUNK_TIMEOUT (R205): The chunk timer reaches its deadline and aborts the incomplete current instance. -/
  | chunkTimeout (cl slot chunk t : Nat)
  /-- CSTAT_SEND (R207): After the last running handler of a failed instance ends, the cluster sends CSTAT. -/
  | cstatSend (cl slot inst chunk t : Nat)
  /-- CHUNK_OUTPUT_FLUSH (R168): When every assigned core has retired, the cluster sends remaining output packets and writes records. -/
  | chunkOutputFlush (cl slot inst chunk t : Nat)
  /-- CHUNK_END (R203): Every context has retired and every result packet has left, so the instance ends and c advances. -/
  | chunkEnd (cl slot inst chunk t : Nat)
  /-- Q_PARTIAL_RX (R234): A fused owner receives a peer's exact partial of Q over the bridge sets. -/
  | qPartialRx (cl t : Nat)
  /-- SIDE_ABORT_RX (R235): A fused owner receives a side abort and ends or marks the instance failed. -/
  | sideAbortRx (cl t : Nat)
  /-- Q_PARTIAL_TIMEOUT (R236): A complete fused instance still lacks a peer partial at TIMEOUT and ends failed. -/
  | qPartialTimeout (cl slot inst chunk t : Nat)
  /-- TBARRIER_RELEASE (R246): A held TBARRIER RESULT is released at its release FT. -/
  | tbarrierRelease (link t : Nat)
  /-- READ (R289): The serving cluster admits and serves a memory READ request. -/
  | read (cl : Nat) (t : MemTime)
  /-- WRITE (R289): The serving cluster admits and applies a memory WRITE request. -/
  | write (cl : Nat) (t : MemTime)
  /-- WRITE_SIGNAL (R303): Admits a packet of a put-with-signal message and writes its data. -/
  | writeSignal (cl : Nat) (t : MemTime)
  /-- ATOMIC (R307): Applies an atomic operation to an aligned integer and returns the old value. -/
  | atomic (cl : Nat) (t : MemTime)
  /-- ACCUM (R310): Adds values exactly into consecutive XACC elements. -/
  | accum (cl : Nat) (t : MemTime)
  /-- ACCUM_SIGNAL (R310): Adds a message packet's values into XACC elements under message rules. -/
  | accumSignal (cl : Nat) (t : MemTime)
  /-- MESSAGE_TIMEOUT (R304): A message not applied SIGTO after its first absorption ends failed with a further response. -/
  | messageTimeout (cl src tag t : Nat)
  /-- MESSAGE_ENTRY_FREE (R305): A message entry is freed SIGTO after the message ends. -/
  | messageEntryFree (cl src tag t : Nat)
  /-- MIRROR_RESPONSE (R315): The buddy's answer to a mirror write arrives and the requester's response leaves. -/
  | mirrorResponse (cl t : Nat)
  /-- MIRROR_TIMEOUT (R316): A mirror write unanswered within MIRTO puts the region into SOLO. -/
  | mirrorTimeout (cl tag t : Nat)
  /-- PATROL_SCRUB (R322): Background scrub reads a granule and corrects or counts its errors. -/
  | patrolScrub (granule upset : Nat)
  /-- SNAPSHOT_TAKE_DONE (R318): Every write stamped before the seal FT has been answered, so the region is SEALED and D computed. -/
  | snapshotTakeDone (entry t : Nat)
  /-- SNAPSHOT_RESTORE_READ_RESP (R321): A restore read response arrives and its granules are written to the region. -/
  | snapshotRestoreReadResp (t : Nat)
  /-- EXPORT_WRITE_RESPONSE (R320): A response to a snapshot export WRITE arrives from the storage node. -/
  | exportWriteResponse (t : Nat)
  /-- FETCH_RESPONSE (R182): A READ response to a core's FETCH lands in the LOCAL region. -/
  | fetchResponse (cl t : Nat)
  /-- MEMWR_RESPONSE (R174): A response to a cluster's WRITE of a MEMWR output arrives. -/
  | memwrResponse (cl t : Nat)
  /-- REQUEST_RESEND (R618): A FETCH READ or output WRITE unanswered for 10 ms is resent or counted as TIMEOUT. -/
  | requestResend (cl tag t : Nat)
  /-- BLOCK_TX (R336): The sender fixes and starts transmitting the next link block. `parity`: the VC whose front packet shows a
  header parity error (R486). -/
  | blockTx (link : Nat) (parity : Option Nat) (t : Nat)
  /-- BLOCK_RX (R348): The receiver judges a link block and passes it on, discards it or requests replay. -/
  | blockRx (link : Nat) (b : Block) (fec : FecReport) (t : Nat)
  /-- REPLAY_TIMEOUT (R347): No ACK progress for T_REPLAY makes the sender resend, or retrain after the eighth replay. -/
  | replayTimeout (link t : Nat)
  /-- NAK_REPEAT (R348): A receiver in WAIT sends NAK again after T_REPLAY. -/
  | nakRepeat (link t : Nat)
  /-- LANE_FAIL (R351): A receive lane meets a failure condition and degrade or DOWN follows. -/
  | laneFail (link : Nat) (lane : LaneReport) (t : Nat)
  /-- DEGRADE_REPEAT (R349): An unanswered DEGRADE is repeated every 1 µs. -/
  | degradeRepeat (link t : Nat)
  /-- DEGRADE_TIMEOUT (R353): A DEGRADE unanswered for 100 µs sends the link to RETRAIN. -/
  | degradeTimeout (link t : Nat)
  /-- RETRAIN_DONE (R350): A retrain ends and the link returns to UP or goes DOWN. -/
  | retrainDone (link : Nat) (found : Retrained) (ack t : Nat)
  /-- SIGNAL_DETECT (R359): Signal is detected in SIGNAL and the link enters EQUALISE. -/
  | signalDetect (link t : Nat)
  /-- EQUALISE_DONE (R359): Equalisation completes and the link enters FEC_LOCK. -/
  | equaliseDone (link good t : Nat)
  /-- EQUALISE_TIMEOUT (R359): EQUALISE reaches its 20 ms limit and lanes fail. -/
  | equaliseTimeout (link good t : Nat)
  /-- FEC_LOCK_DONE (R359): Codeword lock and deskew complete and the link enters DISCOVER. -/
  | fecLockDone (link : Nat) (found : LanesLocked) (t : Nat)
  /-- FEC_LOCK_TIMEOUT (R359): FEC_LOCK exceeds 1 ms and the link goes DOWN with TRAIN_FAIL. -/
  | fecLockTimeout (link t : Nat)
  /-- DISCOVER_TIMEOUT (R359): DISCOVER exceeds 1 ms and the link goes DOWN. -/
  | discoverTimeout (link t : Nat)
  /-- INIT_TIMEOUT (R359): INIT does not reach UP within 100 µs and the link goes DOWN. -/
  | initTimeout (link t : Nat)
  /-- LINK_RESTART (R359): A DOWN link restarts through SIGNAL after 1 s. -/
  | linkRestart (link t : Nat)
  /-- STOPPING_ABORT_TIMEOUT (R359): STOPPING aborts packets still in progress after 10 µs. -/
  | stoppingAbortTimeout (link t : Nat)
  /-- STOPPING_DONE (R359): STOPPING turns the transmitters off and enters DISABLED. -/
  | stoppingDone (link t : Nat)
  /-- HELLO_REPEAT (R349): HELLO is sent again every 10 µs during discovery. -/
  | helloRepeat (link t : Nat)
  /-- TSYNC_SEND (R452): Every 16 µs a TSYNC word is sent in an empty block on each UP link. -/
  | tsyncSend (link t : Nat)
  /-- DIGEST_HEARTBEAT (R472): Every 1 ms a DIGEST word is sent on every UP link and over the Trail. -/
  | digestHeartbeat (t : Nat)
  /-- DIGEST_MISSING (R473): No DIGEST word on a USED link for 2 heartbeats is reported. -/
  | digestMissing (link t : Nat)
  /-- REPLAY_AGE_TIMEOUT (R392): A block unacknowledged for 2 ms takes the link DOWN with RETRY_EXHAUSTED. -/
  | replayAgeTimeout (link t : Nat)
  /-- NEIGHBOUR_MISSING_TIMEOUT (R401): An expected neighbour not at INIT within 1 s of PORT_ENABLE is MISSING. -/
  | neighbourMissingTimeout (link t : Nat)
  /-- PACKET_INGRESS (R382): A packet's head arrives and the ingress lookup gives its one outcome. `parity`: its header
  shows a parity error (R486). -/
  | packetIngress (link vc : Nat) (parity : Bool) (t : Nat)
  /-- PACKET_AGE_TIMEOUT (R392): A packet still inside a switch 7 ms after acceptance is dropped as AGED. -/
  | packetAgeTimeout (id t : Nat)
  /-- ROUTE_SET_DISCARD (R389): The previous route set is discarded 50 ms after the commit FT. -/
  | routeSetDiscard (t : Nat)
  /-- OUTPUT_ARBITRATION (R419): A channel's arbiter selects its next owner by deficit round robin. -/
  | outputArbitration (link vc t : Nat)
  /-- HOLD_CUT (R424): Hold cycles reach the limit and the copy is cut with ABORT. -/
  | holdCut (link vc cycles t : Nat)
  /-- STARVE (R425): A request waiting beyond STARVEUS sets the STARVE flag. -/
  | starve (link vc id t : Nat)
  /-- SHAPER_REFILL (R430): Every 256 ns each shaped channel's tokens are refilled. -/
  | shaperRefill (t : Nat)
  /-- GATE_TAKEOVER (R434): A committed gate list takes over at its TAKEOVER FT. -/
  | gateTakeover (link t : Nat)
  /-- QU_REFRESH (R386): Every 16 SWX cycles each die refreshes its copy of every up-link queue depth. -/
  | quRefresh (die : Nat)
  /-- CMAP_TAKE (R439): At each interval the MP takes and sends a congestion map. -/
  | cmapTake (t : Nat)
  /-- HOLDOVER_ENTRY (R454): No usable TSYNC from the active parent for 100 µs enters HOLDOVER. -/
  | holdoverEntry (t : Nat)
  /-- HOLDOVER_EXPIRY (R454): After 1 s in HOLDOVER the switch returns to UNSET. -/
  | holdoverExpiry (t : Nat)
  /-- DIGEST_ENTRY_TIMEOUT (R468): An instance digest entry open for 2 × TIMEOUT closes as PARTIAL. -/
  | digestEntryTimeout (slot inst t : Nat)
  /-- UNIT_ERROR (R489): An uncorrectable class C4 or C5 error fences every partition in its reach. -/
  | unitError (u : UnitRef) (t : Nat)
  /-- HEALTH_DECAY (R513): Every 60 s the health debt decays by one 128th. -/
  | healthDecay (t : Nat)
  /-- SHADOW_ACTIVATION (R494): At activation FT A the reserve starts shadowing its target. -/
  | shadowActivation (t : Nat)
  /-- SHADOW_IMAGE_TIMEOUT (R494): No complete target plan image within 1 s returns Fawn mode to OFF. -/
  | shadowImageTimeout (t : Nat)
  /-- SHADOW_NOTICE (R495): The reserve multicasts a shadow notice to its rack every 100 ms. -/
  | shadowNotice (t : Nat)
  /-- SHADOW_ROTATE (R500): After DWELL the reserve moves to the next target plane. -/
  | shadowRotate (t : Nat)
  /-- SHADOW_COMPARE_TIMEOUT (R499): An entry without its pair CMPTO after closing is counted as SKIP. -/
  | shadowCompareTimeout (cid inst pepoch t : Nat)
  /-- PLAN_READ_RESEND (R559): An unanswered PLAN_READ is resent after 10 ms, up to four times. -/
  | planReadResend (off t : Nat)
  /-- FUSED_QUERY_RESEND (R559): A FUSED_QUERY lacking entries 10 ms after A is resent. -/
  | fusedQueryResend (t : Nat)
  /-- TAKEOVER (R507): At the takeover FT the promotion plan commits and restore begins. -/
  | takeover (t : Nat)
  /-- RESTORE_READ_RESPONSE (R508): A granule of the buddy's secondary arrives and is written to the promoted region. -/
  | restoreReadResponse (t : Nat)
  /-- RESTORE_READ_RESEND (R558): A restore READ unanswered for 10 ms is resent. -/
  | restoreReadResend (tag t : Nat)
  /-- BUDDY_TIMEOUT (R511): The buddy fails during restore, regions become LOST and partitions are fenced. -/
  | buddyTimeout (t : Nat)
  /-- ARM_POINT (R519): At C − 500 µs the MP confirms every unit holds the staged plan. -/
  | armPoint (t : Nat)
  /-- COMMIT (R520): At the commit FT every unit replaces its active configuration. -/
  | commit (t : Nat)
  /-- OVERLAP_END (R521): The overlap window closes and the old epoch tag is no longer accepted. -/
  | overlapEnd (t : Nat)
  /-- STAGE_READ_RESPONSE (R547): A READ response carrying plan image bytes arrives during PLAN_STAGE. -/
  | stageReadResponse (t : Nat)
  /-- STAGE_READ_RESEND (R547): A plan image READ unanswered for 10 ms is resent or ends the stage. -/
  | stageReadResend (tag t : Nat)
  /-- STAGE_COMPLETE (R547): Every unit holds the staged configuration and PLAN_STAGE completes. -/
  | stageComplete (t : Nat)
  /-- PART_STARTED (R515): A partition's configuration is installed and it becomes ON. -/
  | partStarted (p t : Nat)
  /-- PART_STOPPED (R515): A partition's instances, messages and links have ended and it becomes OFF. -/
  | partStopped (p t : Nat)
  /-- CLUSTER_STARTED (R515): A cluster's cores are powered and loaded and become ON. -/
  | clusterStarted (cl t : Nat)
  /-- CLUSTER_STOPPED (R515): A cluster's cores are gated and become OFF. -/
  | clusterStopped (cl t : Nat)
  /-- SHADOW_STOPPED (R515): The final notice has passed and last entries are compared, so Fawn mode is OFF. -/
  | shadowStopped (t : Nat)
  /-- MBWR (R527): A management packet writes bytes to a mailbox request area. -/
  | mbwr (t : Nat)
  /-- MBRD (R532): A management packet reads bytes of a mailbox response area. -/
  | mbrd (t : Nat)
  /-- PLAN_STAGE (R547): Fetches, checks and stages a plan image. -/
  | planStage (m t : Nat)
  /-- PLAN_COMMIT (R518): Arms the switch to commit a staged plan at a commit FT. -/
  | planCommit (m t : Nat)
  /-- PLAN_ABORT (R523): Discards a staged plan or disarms the switch. -/
  | planAbort (m t : Nat)
  /-- PART_CREATE (R525): Starts a partition and assigns its mailbox. -/
  | partCreate (m t : Nat)
  /-- PART_DESTROY (R515): Stops a partition and frees its mailbox. -/
  | partDestroy (m t : Nat)
  /-- PORT_ENABLE (R359): Moves a link from DISABLED to SIGNAL. -/
  | portEnable (m t : Nat)
  /-- PORT_DISABLE (R359): Moves a link to STOPPING. -/
  | portDisable (m t : Nat)
  /-- CLUSTER_ENABLE (R515): Powers a cluster's cores and loads their programs. -/
  | clusterEnable (m t : Nat)
  /-- CLUSTER_DISABLE (R39): Gates a cluster's cores unless it owns chunks or ranges. -/
  | clusterDisable (m t : Nat)
  /-- MEM_REGION_MAP (R549): Edits a region entry of a staged plan. -/
  | memRegionMap (m t : Nat)
  /-- SHADOW_START (R493): Starts Fawn mode on a target plane or rotation. -/
  | shadowStart (m t : Nat)
  /-- SHADOW_STOP (R515): Stops Fawn mode. -/
  | shadowStop (m t : Nat)
  /-- RESERVE_PROMOTE (R506): Schedules promotion of a reserve to a logical plane at a takeover FT. -/
  | reservePromote (m t : Nat)
  /-- SNAPSHOT_TAKE (R318): Seals a snapshot region at a seal FT. -/
  | snapshotTake (m t : Nat)
  /-- SNAPSHOT_RESTORE (R321): Rewrites a snapshot region from storage and checks its digest. -/
  | snapshotRestore (m t : Nat)
  /-- SNAPSHOT_EXPORT (R320): Copies a sealed snapshot region to a storage node. -/
  | snapshotExport (m t : Nat)
  /-- DIGEST_READ (R469): Returns entries of the digest ring. -/
  | digestRead (m t : Nat)
  /-- COUNTER_READ (R539): Returns and optionally clears a counter group. -/
  | counterRead (m t : Nat)
  /-- TELEM_CONFIG (R439): Configures congestion maps or the event destination. -/
  | telemConfig (m t : Nat)
  /-- SAMPLE_SET (R436): Sets the sampling divisor of an ingress link. -/
  | sampleSet (m t : Nat)
  /-- HEALTH_READ (R513): Returns the health score, debt and event counts. -/
  | healthRead (m t : Nat)
  /-- TIME_SET (R450): Loads or adjusts FT at a grandmaster. -/
  | timeSet (m t : Nat)
  /-- POWER_STATE_SET (R567): Moves the part to another power state and sets its power cap. -/
  | powerStateSet (m t : Nat)
  /-- ATTEST_GET (R586): Makes or returns part of a signed attestation report. -/
  | attestGet (m t : Nat)
  /-- FW_INFO (R2): Returns stepping, lid variant, versions and serial number. -/
  | fwInfo (m t : Nat)
  /-- MP_HEARTBEAT (R564): The MP writes its 1 ms heartbeat to the Roe block. -/
  | mpHeartbeat (t : Nat)
  /-- MPSTOP (R564): No heartbeat for 1 s sets MPSTOP, logs and raises an IBI. -/
  | mpstop (t : Nat)
  /-- THERMAL_LEVEL_UP (R562): At 100 °C or more the thermal level rises by one every 100 µs. -/
  | thermalLevelUp (temp t : Nat)
  /-- THERMAL_LEVEL_DOWN (R562): At 97 °C or less the thermal level falls by one every 1 ms. -/
  | thermalLevelDown (temp t : Nat)
  /-- POWER_LEVEL_UP (R562): Package power above CAP raises the power level every 1 ms. -/
  | powerLevelUp (mw t : Nat)
  /-- POWER_LEVEL_DOWN (R562): Power below 0.95 × CAP lowers the power level every 10 ms. -/
  | powerLevelDown (mw t : Nat)
  /-- AVS_CONFIRM (R597): The regulator confirms a new VDD_CORE voltage and the frequency is raised. -/
  | avsConfirm (t : Nat)
  /-- AVS_CONFIRM_TIMEOUT (R597): No regulator confirmation within 50 µs and the frequency is raised anyway. -/
  | avsConfirmTimeout (t : Nat)
  /-- DRAM_THROTTLE_ON (R610): A stack at 95 °C or more has its bandwidth limited and refresh doubled. -/
  | dramThrottleOn (stack temp t : Nat)
  /-- DRAM_THROTTLE_OFF (R562): A stack at 92 °C or less leaves DRAM throttle. -/
  | dramThrottleOff (stack temp t : Nat)
  /-- THERMAL_TRIP (R562): Two raw samples at 115 °C stop the part and drive THERMTRIP_N low. -/
  | thermalTrip (raw0 raw1 t : Nat)
  /-- RAIL_FAULT (R562): A rail outside its fault window for 10 µs stops the part. -/
  | railFault (rail us t : Nat)
  /-- REFCLK_LOSS (R562): No reference edge for 1 µs stops the part. -/
  | refclkLoss (ns t : Nat)
  /-- LASER_FAULT (R330): Low laser input for 3 samples takes the engine's ports DOWN. -/
  | laserFault (engine samples t : Nat)
  /-- LASER_CLEAR (R614): Laser input at or above threshold for 3 samples clears the fault. -/
  | laserClear (engine samples t : Nat)
  /-- PLL_LOCK (R605): A die or TRAIL PLL achieves lock. -/
  | pllLock (u : PllRef) (t : Nat)
  /-- PLL_LOCK_LOSS (R605): A PLL loses lock and the error class of its die follows. -/
  | pllLockLoss (u : PllRef) (t : Nat)
  /-- POWER_TRANSITION_DONE (R567): A power state transition or S3 wake reaches its target state. -/
  | powerTransitionDone (t : Nat)
  /-- EDGE_WAKE_DETECT (R568): 1 ms of signal detect on an edge lane wakes the part from S3. -/
  | edgeWakeDetect (ep us t : Nat)
  /-- ROE_WAKE_WRITE (R568): A write of 1 to ROE_CTRL.WAKE wakes the part from S3. -/
  | roeWakeWrite (v : BitVec 32) (t : Nat)
  /-- FORCEBYP_WRITE (R554): A write of ROE_CTRL.FORCEBYP takes the part out of or into the Trail. -/
  | forcebypWrite (v : BitVec 32) (t : Nat)
  /-- DIAG_DATA_READ (R571): Returns word PTR of the diagnostic window and advances PTR. -/
  | diagDataRead
  /-- I3C_MAILBOX_WRITE (R529): An I3C write to MBX0_REQ writes mailbox 0 and may trigger a request. -/
  | i3cMailboxWrite (addr : Nat) (data : List Byte) (t : Nat)
  /-- REGISTER_WRITE (R570): An I3C private write to a sideband register without its own row. -/
  | registerWrite (addr : Nat) (v : BitVec 32)
  /-- ENTDAA (R569): I3C CCC that assigns a dynamic address. -/
  | entdaa (addr : Nat)
  /-- SETDASA (R569): I3C CCC that sets a dynamic address from the static address. -/
  | setdasa (addr : Nat)
  /-- SETNEWDA (R569): I3C CCC that changes the dynamic address. -/
  | setnewda (addr : Nat)
  /-- RSTDAA (R569): I3C CCC that resets the dynamic address. -/
  | rstdaa
  /-- GETPID (R569): I3C CCC that returns the provisioned ID. -/
  | getpid
  /-- GETBCR (R569): I3C CCC that returns the bus characteristics register. -/
  | getbcr
  /-- GETDCR (R569): I3C CCC that returns the device characteristics register. -/
  | getdcr
  /-- GETSTATUS (R569): I3C CCC that returns device status. -/
  | getstatus
  /-- ENEC (R569): I3C CCC that enables events such as IBIs. -/
  | enec (v : BitVec 8)
  /-- DISEC (R569): I3C CCC that disables events. -/
  | disec (v : BitVec 8)
  /-- RSTACT (R569): I3C CCC that defines the target reset action. -/
  | rstact (v : BitVec 8)
  /-- TRAIL_PKT_FRAME (R384): A PKT frame arrives and its packet is handled or forwarded. -/
  | trailPktFrame (f : Frame) (t : Nat)
  /-- TRAIL_TSYNC_FRAME (R457): A TSYNC frame from the Trail source updates a grandmaster's offset. -/
  | trailTsyncFrame (f : Frame) (t : Nat)
  /-- TRAIL_DIGEST_FRAME (R473): A DIGEST frame from a herd member is compared with the active plan. -/
  | trailDigestFrame (f : Frame) (t : Nat)
  /-- CENSUS_FRAME (R553): A CENSUS frame marks its sender present and may report LEAD_CONFLICT. -/
  | censusFrame (f : Frame) (t : Nat)
  /-- CENSUS_SEND (R553): Every 10 µs the member broadcasts a CENSUS frame. -/
  | censusSend (t : Nat)
  /-- MEMBER_ABSENT (R553): A member whose CENSUS is missing for 100 µs becomes ABSENT. -/
  | memberAbsent (plane t : Nat)
  /-- WAKE_FRAME (R557): A WAKE frame addressed to a member in S3 wakes it. -/
  | wakeFrame (f : Frame) (t : Nat)
  /-- SHADOW_ENTRY (R499): A reserve receives a target's digest entry and compares it. -/
  | shadowEntry (f : Frame) (t : Nat)
  /-- SHADOW_RESULT (R560): A target receives a MISMATCH result and records the event. -/
  | shadowResult (f : Frame) (t : Nat)
  /-- PLAN_READ (R559): The addressee answers with bytes of its active plan image. -/
  | planRead (f : Frame) (t : Nat)
  /-- PLAN_DATA (R559): A reserve receives bytes of the target's plan image. -/
  | planData (f : Frame) (t : Nat)
  /-- PLAN_NONE (R559): A reserve receives a refusal of its PLAN_READ. -/
  | planNone (f : Frame) (t : Nat)
  /-- FUSED_QUERY (R559): The addressee arranges to record its FUSED chunk states at A. -/
  | fusedQuery (f : Frame) (t : Nat)
  /-- FUSED_STATE_RECORD (R559): At A the addressee records its FUSED chunk states and sends FUSED_STATE frames. -/
  | fusedStateRecord (t : Nat)
  /-- FUSED_STATE (R559): A reserve receives entries of the target's FUSED chunk states. -/
  | fusedState (f : Frame) (t : Nat)
  /-- BOOT_READ (R580): The lead answers a boot image read from its verified copy. -/
  | bootRead (f : Frame) (t : Nat)
  /-- BOOT_DATA (R580): The boot ROM receives firmware image bytes over the Trail. -/
  | bootData (f : Frame) (t : Nat)
  /-- BOOT_NONE (R580): The boot ROM learns that the lead has no image yet. -/
  | bootNone (f : Frame) (t : Nat)
  /-- BOOT_NONE_RETRY (R580): After BOOT_NONE the ROM retries after 100 ms. -/
  | bootNoneRetry (t : Nat)
  /-- LEAD_WAIT_TIMEOUT (R580): No CENSUS with LEAD within 1 s fails a Trail boot attempt. -/
  | leadWaitTimeout (t : Nat)
  /-- TRAIL_INSERT (R554): After 10 µs of K28.5 the Roe block drives TRAIL_BYP_N high. -/
  | trailInsert (t : Nat)
  /-- PORST_N_ASSERT (R601): PORST_N low resets the part, closes the bypass and stops transmitters. -/
  | porstNAssert
  /-- PORST_N_RELEASE (R592): PORST_N release samples the straps and starts the boot ROM. -/
  | porstNRelease (st : Straps)
  /-- VDD_AON_UP (R601): VDD_AON enters range and the Roe block starts with the bypass closed. -/
  | vddAonUp
  /-- BOOT_FETCH_RESPONSE (R579): A READ response carrying firmware image bytes arrives at the boot ROM. -/
  | bootFetchResponse (t : Nat)
  /-- BOOT_READ_RESEND (R579): A boot READ unanswered for 10 ms is resent or ends the fetch. -/
  | bootReadResend (off t : Nat)
  /-- BOOT_RETRY (R582): After a failed attempt the ROM tries again after 1 s. -/
  | bootRetry (t : Nat)
  /-- SNAPSHOT_RESTORE_READ_RESEND (R321): A SNAPSHOT_RESTORE read of the shard that has had no response for 10 ms is resent, and after four resends the command completes with FETCH_FAIL. -/
  | snapshotRestoreReadResend (tag t : Nat)
  /-- BOOT_TRAIN_TIMEOUT (R589): The boot edge port does not train within 1 s, so the attempt fails with NO_SOURCE, or moves on to the Trail with BOOT_SEL 2. -/
  | bootTrainTimeout (t : Nat)
  /-- VDD_AON_DOWN (R602): VDD_AON is removed, so the Roe block, Trail and sideband stop and TRAIL_BYP_N becomes undriven. -/
  | vddAonDown
  /-- MP_STOPS_EXECUTING (R32): The MP stops executing, so configuration is frozen, mailbox requests and heartbeats cease, and the data path keeps running the active plan. -/
  | mpStopsExecuting
  /-- REFRESH_RATE_DOUBLED (R610): A stack sensor crosses 85 °C, and that stack's refresh rate doubles or returns to normal without any throttle. -/
  | refreshRateDoubled (stack temp t : Nat)
  deriving DecidableEq, Repr

end Sys2Proof
end

