-- ==== Sys2Proof/Decode.lean ====
section
/-!
DEFINITION. The block has no instruction words of its own: no row of the opcode table gives bits, so no word spells
a command. TSI words live in plan images and are compared with a row's fields where a core runs them (Table TSI-6).
-/
namespace Sys2Proof

/-- The command a word spells by the table's bits: none, for the table gives no row any bits. -/
def decodeTableWord (_nbits _w : Nat) : Option Instr := none

end Sys2Proof
end

