-- ==== Sys2Proof/Machine/State.lean ====
section
/-!
DEFINITION. The state of the block as plain data: every register, buffer, queue, mode and status the manual gives
the part, one structure per unit. A field's docstring gives what it is, its width, the rule that names it and its
reset value. Tables are sparse (`AMap`): what a table does not list reads as the stated reset value.
-/
namespace Sys2Proof.Machine

/-- Why a command stops the machine. -/
inductive Fault where
  /-- The command names a core, cluster, link, die, mailbox or other unit that Table ARC-1 (R16) does not give the
  part. Raised by every meaning that takes a unit number; safe. -/
  | noSuchUnit
  deriving DecidableEq, Repr

/-- Why a command has no meaning. -/
inductive Refusal where
  /-- The command has no meaning yet. Raised only by an arm of `exec` that stands in for one; safe. -/
  | notModelled (mnemonic : String)
  deriving DecidableEq, Repr

/-- The outcome of a command. -/
abbrev Out (σ : Type) := Host.Outcome σ Fault Refusal

/-- A value read in some format: NaN, an infinity, or an exact value `(-1)^neg * m * 2^k` (R45, R46). -/
inductive Val where
  | nan
  | inf (neg : Bool)
  | fin (neg : Bool) (m : Nat) (k : Int)
  deriving DecidableEq, Repr

/-- One lane of an exact accumulator (R54, R55, R57, R62, R88). -/
structure Lane where
  /-- integer X on the lane's grid, guard included (R54, R55, R57; 376 or 696 bits; reset 0) -/
  x : Int := 0
  /-- NaN seen (R62; 1 bit; reset 0) -/
  nan : Bool := false
  /-- +Inf seen (R62; 1 bit; reset 0) -/
  pinf : Bool := false
  /-- −Inf seen (R62; 1 bit; reset 0) -/
  ninf : Bool := false
  /-- residue modulo 2^61 − 1 (R88; 61 bits; reset 0) -/
  res : Nat := 0
  deriving DecidableEq, Repr

/-! ### Cores (chapters TSI, TSO) -/

/-- The three entry points of a program (R96). -/
inductive HKind where
  | init | slice | final
  deriving DecidableEq, Repr

/-- What a running handler waits for (R177, R180, R181, R182). -/
inductive Wait where
  | none | room | waitf | endf | fetchRoom | landing
  deriving DecidableEq, Repr

/-- The identity of a context (R96). -/
structure CtxId where
  slot : Nat
  inst : Nat
  chunk : Nat
  deriving DecidableEq, Repr

/-- A slice presented to a core (R96). -/
structure Slice where
  ctx : CtxId
  contrib : Nat
  data : List Byte
  deriving DecidableEq, Repr

/-- A fabric request of a core, a FETCH READ or a WRITE of a MEMWR output (R174, R180, R618). -/
structure CoreReq where
  /-- tag the request travels with (Table MEM-4) -/
  tag : Nat
  /-- descriptor: LOCAL target of a FETCH, MEMWR descriptor of a WRITE -/
  desc : Nat
  /-- first beat written or read -/
  beat : Nat
  /-- beats -/
  n : Nat
  /-- number of the FETCH it belongs to within the handler: one of more than 64 beats sends two READs -/
  no : Nat
  /-- status of the answer, once there is one -/
  status : Option Nat
  /-- FT of the last send (R618) -/
  sentAt : Nat
  /-- resends so far (R618) -/
  resends : Nat
  /-- the request packet, for a resend -/
  pkt : Packet
  deriving DecidableEq, Repr

/-- A context of a core: its parked accumulators and its recorded status (R96, R99, R137, R184). -/
structure Ctx where
  id : CtxId
  /-- epoch tag it is bound to (R105) -/
  etag : Nat
  /-- parked XS lanes, key 16n + k (R99; reset cleared) -/
  xs : AMap Nat Lane := []
  /-- parked XP lanes (R99; reset cleared) -/
  xp : AMap Nat Lane := []
  /-- INIT has run (R96) -/
  initDone : Bool := false
  /-- FINAL has started (R96) -/
  finalStarted : Bool := false
  /-- FINAL has ended (R99) -/
  finalEnded : Bool := false
  /-- first recorded fault status, 0x00 for none (R137, R184) -/
  status : Nat := 0
  /-- count of later faults (R137, R184; 16 bits saturating) -/
  later : Nat := 0
  /-- WRITEs of MEMWR outputs (R174) -/
  wrs : List CoreReq := []
  /-- place of its context slot in the context area (R99, R101; the lowest free one, DESIGN CHOICE) -/
  pos : Nat := 0
  deriving DecidableEq, Repr

/-- The handler a core is running (R97). -/
structure Run where
  ctx : CtxId
  kind : HKind
  /-- offset of the next instruction (R107, R178) -/
  pc : Nat
  /-- cycles spent, dispatch included (R102, R103, Table TSI-8) -/
  cycles : Nat
  /-- the slice of a SLICE handler -/
  slice : Option Slice
  /-- what the handler waits for -/
  wait : Wait
  /-- fetches issued, in order (R180, R182) -/
  fetches : List CoreReq
  /-- when the present wait began (R103, R177) -/
  waitAt : Nat := 0
  /-- cycle at which a register that was written becomes readable, by the register's number in `tsiReads` (R114; at
  entry none is waited for) -/
  ready : AMap Nat Nat := []
  deriving DecidableEq, Repr

/-- One Tahr core (Table TSI-1, R93). -/
structure Core where
  /-- V0–V31 (R93; 512 bits each; reset 0, DESIGN CHOICE) -/
  v : AMap Nat (BitVec 512) := []
  /-- S1–S15; S0 reads 0 (R93; 64 bits each; reset 0, DESIGN CHOICE) -/
  s : AMap Nat Word := []
  /-- M1–M7; M0 reads all ones (R93; 32 bits each; reset 0, DESIGN CHOICE) -/
  m : AMap Nat (BitVec 32) := []
  /-- XS0–XS7, lane k of XSn at key 16n + k (R93; reset cleared) -/
  xs : AMap Nat Lane := []
  /-- XP0–XP3, likewise (R93; reset cleared) -/
  xp : AMap Nat Lane := []
  /-- CURSOR of ST0–ST15 (R106; 16 bits; reset 0) -/
  cur : AMap Nat Nat := []
  /-- write cursor of MEMWR descriptors for XCENC (R174; reset 0) -/
  wcur : AMap Nat Nat := []
  /-- the running handler (R97; reset none) -/
  run : Option Run := none
  /-- the resident context (R99; reset none) -/
  resident : Option CtxId := none
  /-- live contexts, resident one included (R99; reset none) -/
  ctxs : List Ctx := []
  /-- slice ring (R199; reset empty) -/
  ring : List Slice := []
  /-- FT of the uncorrectable errors found within the last second (R485; reset none) -/
  eccAt : List Nat := []
  deriving DecidableEq, Repr

/-! ### Collectives (chapters COL, PRK, SPA) -/

/-- An absorbed packet of a contribution, kept until its slices have been presented (R96, R199). -/
structure AbsPkt where
  contrib : Nat
  pkt : Nat
  last : Bool
  payload : List Byte
  deriving DecidableEq, Repr

/-- States of a chunk instance (Table COL-6, R203). -/
inductive RecState where
  | filling | waiting | complete
  deriving DecidableEq, Repr

/-- A positional output being assembled (R165 to R169). -/
structure OutAsm where
  desc : Nat
  /-- runs of bytes written: byte offset and bytes, no byte twice (R167) -/
  wr : List (Nat × List Byte) := []
  /-- packet numbers already sent (R168) -/
  sent : List Nat := []
  deriving DecidableEq, Repr

/-- A core's segment of an append output (R170). -/
structure AppSeg where
  desc : Nat
  g : Nat
  s4 : Nat
  /-- elements at the width of the descriptor's FMT -/
  elems : List Nat := []
  /-- XCENC groups, zero padded to 64 bytes -/
  groups : List (List Byte) := []
  deriving DecidableEq, Repr

/-- A sparse entry dealt to a core: row, ordinal in its row, column and raw value bytes (R255, R269). -/
structure SEntry where
  row : Nat
  ord : Nat
  col : Nat
  raw : List Byte
  deriving DecidableEq, Repr

/-- A run of up to 16 sparse entries queued for decoding (R269). -/
structure SRun where
  ctx : CtxId
  contrib : Nat
  tile : Nat
  ents : List SEntry
  deriving DecidableEq, Repr

/-- What a contributor's segments have shown of a tile's row: contributor, tile, row and whether the segment may
repeat the row (R256). -/
structure SRow where
  contrib : Nat
  tile : Nat
  row : Nat
  multi : Bool
  deriving DecidableEq, Repr

/-- The sparse side of a chunk record (R253 to R267). -/
structure SparseRec where
  /-- exact sums by element index (R252; reset cleared) -/
  lanes : AMap Nat Lane := []
  /-- columns that some entry named, as a mask, by row 64t + r (R263) -/
  touched : AMap Nat Nat := []
  /-- PRES and FAULT bitmaps by contributor (Table SPA-2) -/
  dirs : AMap Nat (Nat × Nat) := []
  /-- rows seen (R256, R257) -/
  rows : List SRow := []
  /-- OR of RBM by tile (R260) -/
  union : AMap Nat Nat := []
  /-- lowest recorded fault by tile: contributor, row, entry, place in Table SPA-5, status (R259) -/
  faults : AMap Nat (Nat × Nat × Nat × Nat × Nat) := []
  deriving DecidableEq, Repr

/-- A chunk record (R194, R199, R203). -/
structure Rec where
  inst : Nat
  /-- epoch tag bound at the first absorption (R209) -/
  etag : Nat
  st : RecState := .filling
  /-- absorbed packets: the contribution bitmap and the bytes not yet presented (R194) -/
  pkts : List AbsPkt := []
  /-- expected packet counts (R194) -/
  counts : AMap Nat Nat := []
  /-- slices presented: core and contributor (R96) -/
  shown : List (Nat × Nat) := []
  /-- cause, once the instance has failed (R207) -/
  failed : Option Nat := none
  /-- lowest-numbered core with a recorded fault (R207) -/
  faultCore : Option Nat := none
  /-- CSTAT has been sent (R207) -/
  cstat : Bool := false
  /-- FT of the absorption that completed the instance (R206, R236, R245) -/
  doneT : Nat := 0
  /-- positional outputs -/
  outs : List OutAsm := []
  /-- append outputs -/
  apps : List AppSeg := []
  /-- flag tile records (R91, R92) -/
  flags : AMap Nat (BitVec 64) := []
  /-- flag tiles withheld (R89, R169) -/
  withheld : List Nat := []
  /-- every output withheld (R89) -/
  withAll : Bool := false
  /-- every result packet has been handed to the crossbar (R168) -/
  flushed : Bool := false
  /-- result packets handed over, as packet number and payload, for the digest (R467) -/
  results : List (Nat × List Byte) := []
  sparse : SparseRec := {}
  /-- exact sums of a FUSED instance by element (R232) -/
  fy : List Nat := []
  /-- quantised elements of a FUSED instance, then scales (R232) -/
  fz : List Nat := []
  deriving DecidableEq, Repr

/-- The state of one chunk at its owner cluster (R201, R203, R205, R239, R240). -/
structure ChunkSt where
  /-- current instance; none before a shadowed or promoted chunk has taken one (R201, R497, R510) -/
  cur : Option Nat := none
  /-- live records: current and next instance (R197) -/
  recs : List Rec := []
  /-- FT at which the timer started (R205) -/
  timer : Option Nat := none
  /-- side aborts kept for instances not yet current (R235) -/
  kept : List Nat := []
  /-- next instances that have ended before they became current (R235, R489) -/
  ended : List Nat := []
  /-- step count of a FUSED chunk (R239; reset 0) -/
  step : Nat := 0
  /-- stale mark of a FUSED chunk (R240; reset 0) -/
  stale : Bool := false
  /-- residual values in RFMT (R237; reset +0) -/
  resid : List Nat := []
  /-- partials of Q by instance and chunk (R234; reset none) -/
  parts : AMap (Nat × Nat) Lane := []
  deriving DecidableEq, Repr

/-- A relay record (R219). -/
structure RelayRec where
  cl : Nat
  slot : Nat
  chunk : Nat
  inst : Nat
  /-- RESULT packets relayed -/
  seen : Nat
  /-- COUNT once known -/
  total : Option Nat
  deriving DecidableEq, Repr

/-- A message between the owners of a fused set over the bridge sets (R234, R235). -/
structure SideMsg where
  dst : Nat
  slot : Nat
  inst : Nat
  /-- chunk of the sender -/
  chunk : Nat
  /-- the exact partial of Q; none for a side abort -/
  part : Option Lane
  deriving DecidableEq, Repr

/-- An instance digest entry that is still open (R468). -/
structure OpenDigest where
  slot : Nat
  inst : Nat
  sum : Word := 0
  chunks : Nat := 0
  /-- chunks that ended the instance, complete or failed -/
  ended : Nat := 0
  /-- lowest failed chunk and its cause -/
  failed : Option (Nat × Nat) := none
  flags : Nat := 0
  /-- FT at which the first chunk ended the instance -/
  since : Nat := 0
  deriving DecidableEq, Repr

/-- The collective units of all clusters. -/
structure Coll where
  /-- chunk states by cluster, slot and chunk (R203; reset IDLE at INST0) -/
  chunks : AMap (Nat × Nat × Nat) ChunkSt := []
  /-- relay records (R219; reset none) -/
  relays : List RelayRec := []
  /-- program counters of a slot (R186; 64 bits; reset 0, DESIGN CHOICE) -/
  pcnt : AMap (Nat × Nat) Word := []
  /-- messages on the bridge sets (R234, R235; reset none) -/
  side : List SideMsg := []
  /-- open digest entries (R468; reset none) -/
  open_ : List OpenDigest := []
  /-- closed slots and instances, for late chunk digests (R468) -/
  closed : List (Nat × Nat) := []
  /-- digest ring, newest first (R469; 65,536 × 256 bits; reset 0) -/
  ring : List (BitVec 256) := []
  /-- entries queued per core for sparse decoding (R269; reset none) -/
  runs : AMap Nat (List SRun) := []
  /-- data SRAM bytes, key 131072 g + byte (Table ARC-1; 128 KiB per core; reset 0, DESIGN CHOICE) -/
  sram : List Host.Cell := []
  deriving DecidableEq, Repr

/-! ### Fabric memory (chapter MEM) -/

/-- What a region is doing beside serving requests (R321, R508, R511, R512). -/
inductive RegPhase where
  | normal
  /-- a promoted primary reading granules from its buddy (R508): next granule to ask, granules landed -/
  | restoring (next landed : Nat)
  /-- the buddy failed during the restore (R511) -/
  | lost
  /-- a renewed primary copying to its buddy (R512): granules copied -/
  | resync (copied : Nat)
  /-- SNAPSHOT_RESTORE running (R321) -/
  | snapRestore
  /-- a failed SNAPSHOT_RESTORE (R321) -/
  | snapBad
  deriving DecidableEq, Repr

/-- The changing part of a region entry (Table MEM-2 STATE, R316, R318, R508). -/
structure RegDyn where
  /-- STATE of a MIRRORED primary: SOLO (R316; reset 0) -/
  solo : Bool := false
  /-- STATE of a SNAPSHOT region: SEALED (R318; reset 0) -/
  sealed : Bool := false
  /-- seal FT of a take in progress (R318) -/
  sealAt : Option Nat := none
  phase : RegPhase := .normal
  deriving DecidableEq, Repr

/-- A live or held message entry (R303, R305). -/
structure Msg where
  cl : Nat
  src : Nat
  tag : Nat
  /-- absorbed packet numbers (R303) -/
  got : List Nat := []
  /-- COUNT once known -/
  count : Option Nat := none
  /-- signal lead -/
  lead : List Byte := []
  /-- first failure status (R304) -/
  fail : Option Nat := none
  /-- FT of the first absorption -/
  since : Nat := 0
  /-- SIGTO in ns -/
  sigto : Nat := 0
  /-- FT at which the message ended (R304, R305) -/
  ended : Option Nat := none
  /-- region entry of its packets -/
  entry : Nat := 0
  /-- header of its first packet, for the further response (R304) -/
  hdr : BitVec 256 := 0
  /-- mirror writes of its packets not answered OK (R315) -/
  mirrors : Nat := 0
  /-- response to the packet that completed the count, until the signal is visible (R304) -/
  held : Option Packet := none
  deriving DecidableEq, Repr

/-- A mirror write that the buddy has not answered (R314, R315). -/
structure MirrorWr where
  cl : Nat
  tag : Nat
  /-- tag of the first write of the same request: a change of more than 64 granules takes several -/
  grp : Nat
  entry : Nat
  /-- granules of the primary that it carries -/
  grans : List Nat
  /-- response that leaves when the buddy has answered; none for a RESYNC copy, and once the requester has been told of a
  failure -/
  resp : Option Packet
  /-- the response belongs to the packet that completed its message: it goes on to wait for the signal (R304) -/
  last : Bool
  /-- message whose packet it carries: source and tag -/
  msg : Option (Nat × Nat)
  sentAt : Nat
  /-- a copy of RESYNC (R512) -/
  copy : Bool := false
  deriving DecidableEq, Repr

/-- A request of a bulk transfer by the MP or the boot ROM: offset within the object, length, last send, resends (R547,
R579). -/
structure BulkRead where
  off : Nat
  len : Nat
  tag : Nat
  sentAt : Nat
  first : Nat
  resends : Nat
  /-- ETAG of its header, which a resend bears again (R202) -/
  etag : Nat := 0
  /-- the last answer was BUSY, and it waits to be sent again (R202, R296) -/
  held : Bool := false
  /-- the last wait after BUSY, in ns (R202) -/
  wait : Nat := 0
  deriving DecidableEq, Repr

/-- A mailbox request whose outcome arrives later (R533). -/
structure Req where
  mbx : Nat
  seq : Nat
  op : Nat
  deriving DecidableEq, Repr

/-- The recorded fault of a weight entry (R276): tile row, tile column, row, group; and the loads that faulted. -/
structure WFault where
  pos : Option (List Nat) := none
  count : Nat := 0
  deriving DecidableEq, Repr

/-- A snapshot command in progress (R318, R320, R321). -/
structure SnapOp where
  req : Req
  /-- OPCODE: 0x0600 take, 0x0601 restore, 0x0602 export -/
  entry : Nat
  /-- seal FT, or the fabric address of the other side -/
  arg : Nat
  /-- expected D of a restore -/
  want : Nat
  /-- next granule to send or to ask for -/
  next : Nat
  /-- granules answered -/
  done : Nat
  reads : List BulkRead
  deriving DecidableEq, Repr

/-- The DRAM of the part and the memory side of its clusters. -/
structure MemSt where
  /-- DRAM bytes, key 64 × granule offset + byte (R278; 80 GiB; reset 0, DESIGN CHOICE) -/
  dram : List Host.Cell := []
  /-- granules whose check fails (R280; reset none) -/
  bad : List Nat := []
  /-- changing part of the region entries (Table MEM-2; reset 0) -/
  regs : AMap Nat RegDyn := []
  /-- message entries (R294, R303; reset none) -/
  msgs : List Msg := []
  /-- outstanding mirror writes (R315; reset none) -/
  mirrors : List MirrorWr := []
  /-- changes of a region in RESYNC whose granules the copy has yet to carry: their responses wait for it (R299, R512;
  reset none) -/
  later : List MirrorWr := []
  /-- fault and count of weight entries: tile row, tile column, row, group, and loads that faulted (R276; reset none) -/
  wfault : AMap Nat WFault := []
  /-- snapshot commands in progress (R321; reset none) -/
  snaps : List SnapOp := []
  /-- reads of a restore in progress, by region entry (R508, R558; reset none) -/
  restore : List (Nat × BulkRead) := []
  /-- next request tag of the part's own requests (reset 0, DESIGN CHOICE) -/
  tag : Nat := 0
  deriving DecidableEq, Repr

/-! ### Links (chapter LNK) -/

/-- Link states (Table LNK-8, R359). -/
inductive LState where
  | disabled | signal | equalise | fecLock | discover | init | up | retrain | down | stopping
  deriving DecidableEq, Repr

/-- Discovery states (Table RTE-13, R401). -/
inductive Disc where
  | used | extra | wrong | missing
  deriving DecidableEq, Repr

/-- Lifecycle states (R515). -/
inductive Life where
  | off | starting | on | stopping
  deriving DecidableEq, Repr

/-- Credits of a (VC, pool) pair at the sender (R342). -/
structure Cred where
  avail : Nat
  lastCcnt : Nat
  /-- FLITS of the partner's CREDIT_INIT (R421) -/
  size : Nat
  deriving DecidableEq, Repr

/-- A block held for replay: sequence number, block, FT of its first transmission (R345, R392). -/
structure HeldBlock where
  seq : Nat
  blk : Block
  at_ : Nat
  deriving DecidableEq, Repr

/-- What becomes of the flits of a packet whose head has been looked up before its tail arrived (R22, R26, R413). -/
inductive RxMode where
  /-- not looked up yet -/
  | waits
  /-- forwarded by cut-through under a buffer id -/
  | through (id : Nat)
  /-- taken by a unit of the part once its tail has arrived -/
  | gather
  /-- dropped: the rest is discarded as it arrives -/
  | drop
  deriving DecidableEq, Repr

/-- A packet being received on a VC (R327A): flits so far, flits in all, and what becomes of it. -/
structure RxPkt where
  flits : List (BitVec 512)
  total : Nat
  mode : RxMode
  deriving DecidableEq, Repr

/-- The start or stop requests of a function (R515 to R517). -/
structure Fn where
  st : Life := .off
  /-- enable whose COMPLETION is due -/
  start : Option Req := none
  /-- disables whose COMPLETION is due -/
  stops : List Req := []
  /-- queued enable and its arguments (R517) -/
  queued : Option (Req × List Nat) := none
  deriving DecidableEq, Repr

/-- One link (chapter LNK). -/
structure Link where
  /-- link state (Table LNK-8; reset DISABLED, edge ports SIGNAL: R556) -/
  st : LState := .disabled
  /-- last cause (Table MGT-6; reset 0, DESIGN CHOICE) -/
  cause : Nat := 0
  /-- FT at which the state was entered -/
  since : Nat := 0
  /-- active lane set (R352; reset 0 while not started) -/
  lanes : Nat := 0
  /-- good receive lanes (R351, R353) -/
  good : Nat := 0
  /-- discovery state (Table RTE-13; reset USED, DESIGN CHOICE) -/
  disc : Disc := .used
  /-- lifecycle bookkeeping of PORT_ENABLE and PORT_DISABLE (R515) -/
  fn : Fn := {}
  /-- FT of the last PORT_ENABLE, while an expected neighbour is awaited (R401) -/
  awaited : Option Nat := none
  /-- it stops at a takeover and starts again from DISABLED (R507; reset 0) -/
  restart : Bool := false
  /-- next SEQ to send (R335; 14 bits; reset 0, DESIGN CHOICE) -/
  txSeq : Nat := 0
  /-- replay buffer, oldest first (R345; reset empty) -/
  held : List HeldBlock := []
  /-- blocks of the replay still to be resent (R347) -/
  resend : List HeldBlock := []
  /-- COUNT of the sender's REPLAY state, 0 in NORMAL (Table LNK-5; reset 0) -/
  replay : Nat := 0
  /-- FT at which the current replay began (Table LNK-5) -/
  replayAt : Nat := 0
  /-- FT of the last ACK progress (R347) -/
  ackAt : Nat := 0
  /-- next SEQ expected (Table LNK-6; reset 0, DESIGN CHOICE) -/
  rxExp : Nat := 0
  /-- receiver is in WAIT (Table LNK-6; reset 0) -/
  rxWait : Bool := false
  /-- NAK to be set in the next trailer -/
  nak : Bool := false
  /-- FT of the last NAK (Table LNK-6) -/
  nakAt : Nat := 0
  /-- measured loop time in ns (R346; reset 0) -/
  loop : Nat := 0
  /-- the loop time has been measured since the link started (R346, R359; reset 0) -/
  looped : Bool := false
  /-- sender credits by VC and pool (R341, R342; reset none) -/
  cred : AMap (Nat × Nat) Cred := []
  /-- FREED counts of the receiver by VC and pool (R342; reset 0) -/
  freed : AMap (Nat × Nat) Nat := []
  /-- pairs whose FREED changed since their last report (R343) -/
  dirty : List (Nat × Nat) := []
  /-- blocks sent since the pairs were initialised (R343; reset 0) -/
  blkNo : Nat := 0
  /-- block with which a pair was last reported, by VC and pool (R343; reset 0) -/
  credAt : AMap (Nat × Nat) Nat := []
  /-- number of the next 16-byte unit of the transmit stream, modulo 8 (R326; reset 0, DESIGN CHOICE) -/
  unit : Nat := 0
  /-- packets being received, by VC (reset none) -/
  rx : AMap Nat RxPkt := []
  /-- received packets whose head waits for the lookup, by VC (link receive buffer; reset none) -/
  rxq : List (Nat × Packet) := []
  /-- sequenced control words waiting to be sent (R338) -/
  ctl : List (BitVec 128) := []
  /-- unsequenced control words and HELLO flits waiting for an empty block (R339) -/
  uctl : List (BitVec 512) := []
  /-- last HELLO of the partner (R361; reset none) -/
  hello : Option (BitVec 512) := none
  /-- VCMASK of the partner's READY (R344; reset none) -/
  ready : Option Nat := none
  /-- READY sent in INIT (R359) -/
  readySent : Bool := false
  /-- FT of the retrains within 100 ms (R349) -/
  retrains : List Nat := []
  /-- FT at which an unanswered DEGRADE began, and of its last repeat (R349, R353) -/
  degrade : Option (Nat × Nat) := none
  /-- counter readings of the uncorrectable codewords of a lane within the last 1 ms (R351; reset none) -/
  uncorrAt : AMap Nat (List Nat) := []
  /-- FT of the last HELLO sent (R349) -/
  helloAt : Nat := 0
  /-- TSYNC numbers sent and their stamps, newest first, at most four (R453) -/
  tsSent : List (Nat × Nat) := []
  /-- last TSYNC received: its SEQ and receive stamp (R451) -/
  tsRecv : Option (Nat × Nat) := none
  /-- counter reading at which the last usable TSYNC arrived (R453, R456; reset none) -/
  tsGood : Option Nat := none
  /-- FT of the last periodic TSYNC (R452) -/
  tsAt : Nat := 0
  /-- FT of the last DIGEST word received (R473) -/
  digAt : Option Nat := none
  /-- last comparison, code of Table TIM-9 row 0 to 4 (R473; reset 0, DESIGN CHOICE) -/
  digCmp : Nat := 0
  /-- the present conflict or skew has been counted as lasting (R473; reset 0) -/
  digLasting : Bool := false
  /-- sampling divisor N and count (R436; 24 bits; reset 0) -/
  sampN : Nat := 0
  sampCnt : Nat := 0
  /-- timed-release hold: release FT and buffered result (R246, Table PRK-1; 16 results; reset empty) -/
  hold : List (Nat × Packet) := []
  /-- block last transmitted (pin view; reset none) -/
  lastTx : Option Block := none
  /-- the 16-byte units of that block, each with the lane it went to (R326; pin view; reset none) -/
  lastUnits : List (Nat × List Byte) := []
  deriving DecidableEq, Repr

/-! ### Switch core (chapter SWC) -/

/-- The account a buffered packet is charged to (R406). -/
inductive Acct where
  | link (l pool : Nat)
  | cluster (c : Nat)
  | mp
  | trail
  deriving DecidableEq, Repr

/-- A copy of a buffered packet toward one output channel (R417, R422). -/
structure Copy where
  link : Nat
  vc : Nat
  hdr : BitVec 256
  /-- owner of its channel, or delivered (R415) -/
  started : Bool := false
  /-- flits moved into the prefetch -/
  moved : Nat := 0
  /-- counter reading at which its request began; none while an older packet of its queue holds the request (R418, R425) -/
  since : Option Nat := none
  /-- its wait has been counted in STARVE_EVENTS (R425) -/
  starved : Bool := false
  deriving DecidableEq, Repr

/-- A packet in the packet buffer of a die, or in a Pronk buffer (R405, R418). -/
structure BufPkt where
  id : Nat
  pkt : Packet
  vc : Nat
  acct : Acct
  die : Nat
  /-- FT at which the head was buffered (R392, R415) -/
  at_ : Nat
  /-- flits that have arrived -/
  got : Nat
  /-- flits in all (R405) -/
  flits : Nat
  /-- verdict of the ingress link was bad (R482) -/
  bad : Bool := false
  /-- its ingress link has gone DOWN since: its cells return no credit (R342, R358) -/
  stale : Bool := false
  /-- candidate set of an up-link packet, for R435 -/
  cand : Option Nat := none
  /-- flits that have crossed to another die with the first of its copies there (R24, R405; reset none) -/
  cross : AMap Nat Nat := []
  copies : List Copy
  deriving DecidableEq, Repr

/-- A flit in a prefetch: data, head mark, last mark, flits of its packet, packet id, pool, when the packet's head was
buffered, and its account, which a result flit of a cluster counts against (R392, R406, R417). A flit count of 0 marks an
ABORT word that ends the packet in place of its remaining flits (R355); the word is in the low bits of the data. -/
structure PFlit where
  data : BitVec 512
  head : Bool
  last : Bool
  n : Nat
  id : Nat
  pool : Nat
  at_ : Nat
  acct : Acct
  deriving DecidableEq, Repr

/-- An output channel (R417, R419, R425, R430). -/
structure Chan where
  /-- packet and copy that own the channel (R417; reset none) -/
  owner : Option (Nat × Nat) := none
  /-- packet and copy already selected to own it next (R419; reset none) -/
  next_ : Option (Nat × Nat) := none
  /-- arbiter pointer (R419; reset 0, DESIGN CHOICE) -/
  ptr : Nat := 0
  /-- deficit counters by requester (R419; reset 0, DESIGN CHOICE) -/
  def_ : AMap Nat Nat := []
  /-- prefetch or egress Pronk buffer (R417; reset empty) -/
  pre : List PFlit := []
  /-- STARVE flag (R425; reset 0) -/
  starve : Bool := false
  /-- shaper tokens (R430; signed; reset none, full at first use) -/
  tokens : Option Int := none
  /-- largest DEPTH since last read (R438; reset 0) -/
  depthMax : Nat := 0
  deriving DecidableEq, Repr

/-- The WFQ state of an egress link (R428). -/
structure Wfq where
  /-- virtual time V (R428; 48 bits; reset 0) -/
  v : Nat := 0
  /-- finish tags of the four classes (R428; 48 bits; reset 0) -/
  f : List Nat := [0, 0, 0, 0]
  /-- candidate packet of each class and its start tag S (R428; reset none) -/
  cand : List (Option (Nat × Nat)) := [none, none, none, none]
  /-- classes that have woken since their last selection -/
  woke : List Bool := [true, true, true, true]
  /-- VCs of the packets in service, first selected first (R426; reset none) -/
  serv : List Nat := []
  /-- MEM takes MREQ next (R427; reset MRSP first) -/
  memReq : Bool := false
  deriving DecidableEq, Repr

/-- A running gate list: base, cycle, entries as DUR and OPEN (R433, R434). -/
structure GateRun where
  base : Nat
  cycle : Nat
  ents : List (Nat × Nat)
  deriving DecidableEq, Repr

/-- A packet the part originated that waits for room in its account (R409). -/
structure OutPkt where
  pkt : Packet
  vc : Nat
  acct : Acct
  die : Nat
  /-- a refusal, which waits in the refusal queue of its cluster (R295) -/
  refusal : Bool := false
  deriving DecidableEq, Repr

/-- A packet the lookup has steered to a cluster (some) or to the MP (none) (Table ARC-2, R383). -/
structure Steered where
  dest : Option Nat
  vc : Nat
  pkt : Packet
  /-- ingress link, 580 for the Trail, 581 for a packet made inside the part -/
  link : Nat
  /-- verdict of the ingress link was bad (R482) -/
  bad : Bool
  /-- when it reached the unit (R200, R206) -/
  at_ : Nat := 0
  deriving DecidableEq, Repr

/-- The switch core. -/
structure Switch where
  /-- buffered packets, oldest first (R405; reset empty) -/
  buf : List BufPkt := []
  /-- next buffer id (reset 0, DESIGN CHOICE) -/
  id : Nat := 0
  /-- output channels by link and VC (R417) -/
  chans : AMap (Nat × Nat) Chan := []
  /-- WFQ state by link (R428) -/
  wfq : AMap Nat Wfq := []
  /-- running gate lists (R433; reset none: every gate open) -/
  gates : AMap Nat GateRun := []
  /-- committed gate lists that wait for TAKEOVER (R434; reset none) -/
  gateNext : AMap Nat (BitVec 128 × List (BitVec 64)) := []
  /-- shaper entries in force by link and VC (R431; reset none) -/
  shapers : AMap (Nat × Nat) (BitVec 64) := []
  /-- FT of the last shaper refill (R430; reset 0) -/
  refillAt : Nat := 0
  /-- copies of the up-link depths, by die, up-link and VC (R386; reset 0, DESIGN CHOICE) -/
  q : AMap (Nat × Nat × Nat) Nat := []
  /-- originated packets that wait for room (R409; reset empty) -/
  wait : List OutPkt := []
  /-- steered packets on their way (R26; reset empty) -/
  steer : List Steered := []
  /-- split in force of a port: 0 is 1 × 8, 1 is 2 × 4, 2 is 4 × 2 (R325; reset 0, DESIGN CHOICE) -/
  split : AMap Nat Nat := []
  /-- links that run in reach class L (R331; reset Class S: R556) -/
  classL : List Nat := []
  /-- blocks that a link holds of its die's long-reach pool (R345; reset 0) -/
  reach : AMap Nat Nat := []
  deriving DecidableEq, Repr

/-! ### Routes and plans (chapters RTE, MGT, RES) -/

/-- A variant of a route set (Table RTE-14). -/
structure Variant where
  fail : Nat
  reps : List (Nat × Nat)
  deriving DecidableEq, Repr

/-- A route set (R379). -/
structure Route where
  /-- Table RTE-6 -/
  hdr : BitVec 128
  lt : List (BitVec 16)
  st : List (BitVec 16)
  ct : List (BitVec 16)
  ut : List (BitVec 16)
  kt : List (BitVec 16)
  dt : List (BitVec 16)
  /-- candidate sets (R380) -/
  sets : List (BitVec 64)
  /-- link entries (Table RTE-11) -/
  links : List (BitVec 512)
  /-- neighbour entries (Table RTE-12) -/
  nbrs : List (BitVec 128)
  vars : List Variant
  deriving DecidableEq, Repr

/-- A slot entry of a plan: number, descriptor (Table COL-3), FLAGOFF0 to 3 (R176), extensions (Tables PRK-2, SPA-1). -/
structure SlotCfg where
  num : Nat
  desc : BitVec 384
  flagoff : List Nat
  pronk : Option (BitVec 128) := none
  sparse : Option (BitVec 128) := none
  deriving DecidableEq, Repr

/-- A PROGRAM record: cluster, 128-bit head, header words and instruction words (R107, R545). -/
structure ProgCfg where
  cluster : Nat
  head : BitVec 128
  h0 : Word
  h1 : Word
  code : List Word
  deriving DecidableEq, Repr

/-- A STREAM entry: cluster, its first 128 bits and the descriptor (R545). -/
structure StreamCfg where
  cluster : Nat
  head : BitVec 128
  desc : BitVec 128
  deriving DecidableEq, Repr

/-- A parsed plan image (R544, R545). -/
structure Plan where
  pepoch : Nat
  pdig : Word
  ldig : Word
  route : Route
  slots : List SlotCfg
  /-- CIDMAP entries (R545) -/
  cids : List (BitVec 64)
  /-- OWNER entries by cluster -/
  owners : List (Nat × BitVec 128)
  progs : List ProgCfg
  streams : List StreamCfg
  /-- region entries by number (Table MEM-2) -/
  regions : AMap Nat (BitVec 256)
  /-- account entries by die (Table SWC-1) -/
  accounts : AMap Nat (List (BitVec 64))
  /-- scheduler and shaper entries by link (Tables SWC-3, SWC-4) -/
  sched : List (BitVec 64 × List (BitVec 64))
  /-- gate lists by link (Tables SWC-5, SWC-6) -/
  gates : AMap Nat (BitVec 128 × List (BitVec 64))
  time : BitVec 128
  reserve : Option (BitVec 128)
  weights : List (BitVec 256)
  mgmt : Option (BitVec 64)
  /-- SRAMINIT records: cluster, core, first beat, data (R545) -/
  sram : List (Nat × Nat × Nat × List Byte)
  /-- split of the ports that it splits, as in `Switch.split` (R325, log entry 33) -/
  split : AMap Nat Nat := []
  /-- links in reach class L (R331, log entry 33) -/
  classL : List Nat := []
  /-- steps of 1,024 blocks that it adds to a link's replay buffer (R345, log entry 33) -/
  reach : AMap Nat Nat := []
  /-- the image itself, kept in the internal area of die 0 (R559) -/
  image : List Byte
  deriving DecidableEq, Repr

/-- A PLAN_STAGE in progress (R547). -/
structure StageOp where
  req : Req
  src : Nat
  len : Nat
  pepoch : Nat
  /-- bytes received, by offset -/
  got : List (Nat × List Byte)
  next : Nat
  reads : List BulkRead
  /-- the checked plan that is being written into the units -/
  plan : Option Plan
  deriving DecidableEq, Repr

/-- An armed commit (R518, R519). -/
structure Arm where
  req : Req
  pepoch : Nat
  c : Nat
  o : Nat
  /-- the arm point has passed (R519) -/
  passed : Bool
  /-- armed by RESERVE_PROMOTE (R507) -/
  promote : Bool
  deriving DecidableEq, Repr

/-- A held route set: the set, the FT of its commit and, once superseded, the FT at which it goes (R389). -/
structure HeldRoute where
  route : Route
  since : Nat
  until_ : Option Nat
  /-- failure set when last evaluated (R402) -/
  f : List Nat
  deriving DecidableEq, Repr

/-- Plans and route sets. -/
structure Plans where
  /-- active plan (R31; reset none) -/
  active : Option Plan := none
  /-- overlap window: the previous plan, none when the commit was the first, and the counter reading at which the window
  ends (R521; reset none) -/
  prev : Option (Option Plan × Nat) := none
  /-- older plans whose programs live contexts still run (R105, R110; reset none) -/
  old : List Plan := []
  /-- staged plan (R31; reset none) -/
  staged : Option Plan := none
  /-- stage in progress (R547; reset none) -/
  stage : Option StageOp := none
  /-- the active plan was promoted: a chunk without a current instance takes that of its first admitted packet (R510;
  reset 0) -/
  takes : Bool := false
  /-- armed commit (R518; reset none) -/
  arm : Option Arm := none
  /-- held route sets, newest first (R379; reset none) -/
  routes : List HeldRoute := []
  /-- counter reading at the commit of the last change of the route set (R390; reset none) -/
  routeAt : Option Nat := none
  deriving DecidableEq, Repr

/-! ### Time, Trail, Roe, sideband, boot (chapters TIM, MGT, SEC, ELE) -/

/-- Time states (Table TIM-3). -/
inductive TState where
  | unset | acquire | locked | holdover | gm
  deriving DecidableEq, Repr

/-- Fabric time (chapter TIM). -/
structure TimeSt where
  /-- time state (R454; reset UNSET) -/
  st : TState := .unset
  /-- FT counter in ns, loads left out: it measures every duration (R443, R446; 64 bits; reset 0) -/
  ft : Nat := 0
  /-- what loads of FT have added to the counter: FT is `ft + off` (R446; reset 0) -/
  off : Int := 0
  /-- counter reading at which FT stopped, in S3 and OFF (R44; reset none) -/
  stop : Option Nat := none
  /-- fraction of a nanosecond (R443; 16 bits; reset 0) -/
  frac : Nat := 0
  /-- frequency correction of the counter in 10^-9 of nominal (R455; reset 0) -/
  freq : Int := 0
  /-- offset still to be removed, in 2^-16 ns (R450, R455; reset 0) -/
  remove : Int := 0
  /-- consecutive offsets with |θ| ≤ 2 ns (R454; reset 0) -/
  good : Nat := 0
  /-- FT of the last usable TSYNC (R454) -/
  usable : Nat := 0
  /-- FT at which HOLDOVER was entered -/
  holdAt : Nat := 0
  /-- active parent link (R456; reset none) -/
  parent : Option Nat := none
  /-- hops from the grandmaster (R451; 8 bits; reset 0xFF) -/
  depth : Nat := 0xFF
  deriving DecidableEq, Repr

/-- What a member knows of another (R553, R473). -/
structure Member where
  /-- latest CENSUS payload -/
  census : BitVec 128
  at_ : Nat
  present : Bool
  /-- FT of the last WAKE sent (R557) -/
  wakeAt : Option Nat := none
  /-- last digest comparison, the last DIGEST word and when it arrived -/
  digCmp : Nat := 0
  digLasting : Bool := false
  dig : BitVec 128 := 0
  digAt : Option Nat := none
  deriving DecidableEq, Repr

/-- The Trail interface (R550 to R560). -/
structure Trail where
  /-- members by plane (R553; reset ABSENT) -/
  members : AMap Nat Member := []
  /-- transmit queue: own frames (R384; 256 KiB; reset empty) -/
  tx : List Frame := []
  /-- forward queue (R552; 32 KiB; reset empty) -/
  fwd : List Frame := []
  /-- forwarded frames sent since the last own frame (R552; reset 0) -/
  run : Nat := 0
  /-- frame last sent (pin view; reset none) -/
  lastTx : Option Frame := none
  /-- both Trail input lanes locked (TRAIL_STATUS.RXLOCK; reset 0) -/
  rxlock : Bool := false
  /-- FT of the last CENSUS sent (R553) -/
  censusAt : Nat := 0
  /-- TSYNC exchange with the Trail source (R457) -/
  tsSent : List (Nat × Nat) := []
  tsRecv : Option (Nat × Nat) := none
  /-- FT of the last TSYNC put in the queue for the Trail source (R452, R457) -/
  tsAt : Nat := 0
  deriving DecidableEq, Repr

/-- A change of the throttle level in progress at the core regulator (R597). -/
inductive AvsSt where
  | idle
  /-- the voltage has been raised to this level and the confirmation is awaited since this FT -/
  | raising (level since : Nat)
  deriving DecidableEq, Repr

/-- Power states (Table MGT-14). -/
inductive PState where
  | p0 | p1 | s1 | s3 | off
  deriving DecidableEq, Repr

/-- The Roe block, power and clocks (R561 to R568, R595 to R610). -/
structure Roe where
  /-- VDD_AON is within range (R601; reset 1: the part is powered) -/
  aon : Bool := true
  /-- PORST_N is low (R600; reset 0: reset has been released) -/
  porst : Bool := false
  /-- hottest filtered die sensor in 0.25 °C (`ROE_STATUS`.TMAX; 10 bits; reset 0) -/
  tmax : Nat := 0
  /-- thermal level (R562; 0 to 10; reset 0) -/
  tlevel : Nat := 0
  /-- counter reading at the last thermal step (R562) -/
  tlevelAt : Option Nat := none
  /-- power level (R562; 0 to 10; reset 0) -/
  plevel : Nat := 0
  plevelAt : Option Nat := none
  /-- level the CORE clock and voltage now follow (R563, R597; reset 0) -/
  applied : Nat := 0
  /-- change in progress at the regulator (R597; reset idle) -/
  avs : AvsSt := .idle
  /-- VDD_CORE set point in mV (R597; reset 750) -/
  vcore : Nat := 750
  /-- DRAM throttle of each die's stack (R562, R610; reset off) -/
  dramThr : List Nat := []
  /-- stacks whose refresh rate is doubled (R610; reset none) -/
  refresh2 : List Nat := []
  /-- `ROE_EVENT` (Table MGT-18; 32 bits; reset 0) -/
  event : BitVec 32 := 0
  /-- `ROE_CTRL`.EDGEWAKE (Table MGT-17; reset 0) -/
  edgewake : Bool := false
  /-- `ROE_CTRL`.FORCEBYP (Table MGT-17; reset 0) -/
  forcebyp : Bool := false
  /-- TRAIL_BYP_N: none undriven, some false low, some true high (R554; reset low) -/
  bypN : Option Bool := some false
  /-- FT since which the Trail output has sent K28.5 for insertion (R554) -/
  k28At : Nat := 0
  /-- THERMTRIP_N driven low (R603; reset 0) -/
  thermtrip : Bool := false
  /-- class C6 stop (R475, R562; reset 0) -/
  c6 : Bool := false
  /-- locked die PLLs (R605; reset none) -/
  diePll : List Nat := []
  /-- TRAIL PLL locked (R605; reset 0) -/
  trailPll : Bool := false
  /-- FT of the last MP heartbeat, and at first of the start of the firmware (R564; reset 0) -/
  beatAt : Nat := 0
  /-- the heartbeat has been lost and reported (R564; reset 0) -/
  mpLost : Bool := false
  /-- engines under LASER_FAULT (R330, R614; reset none) -/
  laser : List Nat := []
  /-- power state (Table MGT-14; reset P0) -/
  pstate : PState := .p0
  /-- transition in progress: target state and request (R567; reset none) -/
  trans : Option (PState × Req) := none
  /-- WAKETO of the command that entered S3 (R567; reset P0) -/
  waketo : PState := .p0
  /-- wake in progress (R568; reset 0) -/
  waking : Bool := false
  /-- links enabled when S3 was commanded: they train again after the wake (R567; reset none) -/
  wakeLinks : List Nat := []
  /-- CAP in W, 0 for none (R567; reset 0) -/
  cap : Nat := 0
  /-- diagnostic window 0: MP fault log, newest last (R571; 256 × 128 bits; reset empty) -/
  log : List (BitVec 128) := []
  deriving DecidableEq, Repr

/-- The I3C sideband (R569 to R571). -/
structure I3c where
  /-- dynamic address (R569; reset none) -/
  dyn : Option Nat := none
  /-- IBIs enabled by ENEC (Table MGT-18; reset 0, DESIGN CHOICE) -/
  ibiOn : Bool := false
  /-- in-band interrupts raised and not yet taken: their data bytes (R569; reset none) -/
  ibis : List Byte := []
  /-- defining byte of the last RSTACT (R569; reset 0) -/
  rstact : BitVec 8 := 0
  /-- last register address written (R569; reset 0) -/
  addr : Nat := 0
  /-- `DIAG_SEL`.WIN (Table MGT-20; 4 bits; reset 0) -/
  win : Nat := 0
  /-- `DIAG_SEL`.PTR (Table MGT-20; 16 bits; reset 0) -/
  ptr : Nat := 0
  /-- bytes returned by the last read or CCC (pin view; reset none) -/
  rdata : List Byte := []
  /-- GETSTATUS commands answered (the model's own count behind the free status value; reset 0, DESIGN CHOICE) -/
  nstat : Nat := 0
  deriving DecidableEq, Repr

/-- The fuse bank and the straps (R572, R592). -/
structure Fuse where
  /-- UDS (R572; 384 bits; Fuse; reset 0, DESIGN CHOICE) -/
  uds : BitVec 384 := 0
  /-- ROOT_ECC (R572; 384 bits; Fuse; reset 0, DESIGN CHOICE) -/
  rootEcc : BitVec 384 := 0
  /-- ROOT_LMS (R572; 384 bits; Fuse; reset 0, DESIGN CHOICE) -/
  rootLms : BitVec 384 := 0
  /-- SERIAL (R572; 64 bits; Fuse; reset 0, DESIGN CHOICE) -/
  serial : Word := 0
  /-- LIFECYCLE (R574; 4 bits; Fuse; reset 0b0011 PRODUCTION, DESIGN CHOICE) -/
  lifecycle : Nat := 3
  /-- DEBUG_LOCK (R572; 1 bit; Fuse; reset 1, DESIGN CHOICE) -/
  debugLock : Bool := true
  /-- MBX_RIGHTS (R572; 40 bits; Fuse; reset all ones, DESIGN CHOICE) -/
  mbxRights : BitVec 40 := BitVec.allOnes 40
  /-- set bits of SVN_FLOOR (R572; 64-bit thermometer; Fuse; reset 0, DESIGN CHOICE) -/
  floor : Nat := 0
  /-- set bits of LMS_CTR (R572; 4,096-bit thermometer; Fuse; reset 0, DESIGN CHOICE) -/
  lmsCtr : Nat := 0
  /-- integrity check of the bank passes (R574; reset 1, DESIGN CHOICE) -/
  intact : Bool := true
  /-- lid variant: 0 PQ144-80LC, 1 PQ144-80BL (R2; reset 0, DESIGN CHOICE) -/
  lid : Nat := 0
  /-- fused VDD_CORE set point at 1.1 GHz in mV, 700 to 780 (R597; reset 750, DESIGN CHOICE) -/
  v110 : Nat := 750
  /-- sampled straps (R592; reset 0: internal pull-downs) -/
  straps : Straps := { planeSel := 0, addrSel := 0, bootSel := 0, bootEp := 0 }
  deriving DecidableEq, Repr

/-- Boot phases (Table SEC-8). -/
inductive Phase where
  | start | fetch | verify | identity | firmware | halted
  deriving DecidableEq, Repr

/-- The boot ROM and the security engine (chapter SEC). -/
structure Boot where
  /-- `BOOT_STATUS`.PHASE (Table SEC-8; reset START) -/
  phase : Phase := .start
  /-- `BOOT_STATUS`.SOURCE: 1 the Trail (reset 0) -/
  trail : Bool := false
  /-- `BOOT_STATUS`.ERROR (8 bits; reset 0x00) -/
  error : Nat := 0
  /-- `BOOT_STATUS`.ATTEMPTS (8 bits saturating; reset 0) -/
  attempts : Nat := 0
  /-- FT at which the current attempt or wait began -/
  since : Nat := 0
  /-- a failed attempt waits for its retry (R582; reset 0) -/
  retry : Bool := false
  /-- BOOT_NONE was received and the ROM waits 100 ms (R580; reset 0) -/
  none_ : Bool := false
  /-- plane of the lead, once seen (R580; reset none) -/
  lead : Option Nat := none
  /-- image bytes received by offset (R579, R580; reset none) -/
  got : List (Nat × List Byte) := []
  /-- next offset to ask for -/
  next : Nat := 0
  reads : List BulkRead := []
  /-- UDS is locked (R573; reset 0) -/
  udsLock : Bool := false
  /-- `FWMEAS` of the running image (Table SEC-7; 384 bits; reset 0) -/
  fwmeas : BitVec 384 := 0
  /-- `SEC_STATUS`.FWSVN (Table SEC-9; reset 0) -/
  fwsvn : Nat := 0
  /-- FWVER of the running image (R576; reset 0, DESIGN CHOICE) -/
  fwver : Nat := 0
  /-- ENTRY that the ROM jumped to (R581; reset none) -/
  entry : Option Nat := none
  /-- verified image kept for BOOT_READ (R580; reset none) -/
  image : List Byte := []
  /-- alias private key value, kept by the engine (R584; reset none) -/
  alias_ : Option (BitVec 384) := none
  /-- lower tree secret, kept by the engine, and the upper part of this boot's HSS signatures (R584; reset none) -/
  lower : Option (BitVec 384 × List Byte) := none
  /-- ALIASEND (R584; 768 bits; reset none) -/
  aliasEnd : List Byte := []
  /-- q of this boot (R584; reset 0, DESIGN CHOICE) -/
  q : Nat := 0
  /-- `LMS_STATUS`.LOWUSED (Table SEC-10; reset 0) -/
  lowUsed : Nat := 0
  /-- `LMS_STATUS`.LMS_LOW (reset 0) -/
  lmsLow : Bool := false
  /-- `LMS_STATUS`.LMS_OUT (reset 0) -/
  lmsOut : Bool := false
  deriving DecidableEq, Repr

/-! ### Management (chapter MGT) and Fawn mode (chapter RES) -/

/-- A mailbox (R524, R528, R543). -/
structure Mbox where
  /-- request area (R524; 4 KiB; reset 0, DESIGN CHOICE) -/
  req : List Host.Cell := []
  /-- response area (R530; 4 KiB; reset SEQ 0xFFFF, otherwise 0) -/
  rsp : List Host.Cell := [(2, 255), (3, 255)]
  /-- EXECUTING (R524; reset IDLE) -/
  busy : Bool := false
  /-- partition of a partition mailbox (R524; reset unassigned) -/
  part : Option Nat := none
  /-- header of the triggering MBWR; none for I3C (R531) -/
  from_ : Option (BitVec 256) := none
  /-- event queue, oldest first (R543; 127 × 256 bits; reset empty) -/
  events : List (BitVec 256) := []
  /-- next ESEQ (R542; 16 bits; reset 0, DESIGN CHOICE) -/
  eseq : Nat := 0
  /-- event destination (R543; reset none) -/
  dest : Option (Nat × Nat) := none
  /-- last attestation report and its nonce (R586; reset none) -/
  report : Option (List Byte × List Byte) := none
  deriving DecidableEq, Repr

/-- A partition (R489, R515, R541). -/
structure Part where
  fn : Fn := {}
  /-- its mailbox, 0 for none (R525; reset 0) -/
  mbx : Nat := 0
  /-- FENCED (R489; reset 0) -/
  fenced : Bool := false
  /-- dies whose class C5 error has fenced it (R490; reset none) -/
  c5 : List Nat := []
  deriving DecidableEq, Repr

/-- Congestion maps (R439 to R442). -/
structure Telem where
  fn : Fn := {}
  /-- destination coordinate (R439; reset none) -/
  dest : Option Nat := none
  /-- interval in µs (R439; reset 100) -/
  interval : Nat := 100
  part : Nat := 0
  /-- SEQ of the next map (Table SWC-9; 32 bits; reset 0) -/
  seq : Nat := 0
  /-- FT of the last map -/
  at_ : Option Nat := none
  deriving DecidableEq, Repr

/-- The management processor (chapter MGT). -/
structure Mp where
  /-- the MP executes firmware (R32; reset 0: the boot ROM runs first) -/
  running : Bool := false
  /-- mailboxes 0 to 7 (R524) -/
  boxes : AMap Nat Mbox := []
  /-- triggered requests in the order of their triggers (R534; reset none) -/
  triggers : List Nat := []
  /-- partitions (R515; reset OFF) -/
  parts : AMap Nat Part := []
  /-- cluster cores (R515; reset ON, DESIGN CHOICE: an unlisted cluster is ON) -/
  clusters : AMap Nat Fn := []
  telem : Telem := {}
  /-- health debt D (R513; 0 to 1,000,000; reset 0) -/
  debt : Nat := 0
  /-- counts of the health events, in the row order of Table RES-6 (R538; reset 0) -/
  health : AMap Nat Nat := []
  /-- FT minute at which the debt last decayed (R513; reset 0) -/
  decayed : Nat := 0
  /-- sample queue, oldest first (R437; 1,024 × 160 B; reset empty) -/
  samples : List (List Byte) := []
  /-- heartbeat DIGEST words last sent at (R472) -/
  digAt : Nat := 0
  deriving DecidableEq, Repr

/-- An entry that waits for its pair (R499). -/
structure CmpEntry where
  /-- closed by the target -/
  target : Bool
  ent : BitVec 256
  at_ : Nat
  /-- plane of the target it belongs to -/
  plane : Nat
  deriving DecidableEq, Repr

/-- Fawn mode and promotion (R492 to R511, R559). -/
structure Fawn where
  fn : Fn := {}
  /-- target plane (R493; reset none) -/
  target : Option Nat := none
  pin : Bool := false
  /-- activation FT A (R494; reset none) -/
  act : Option Nat := none
  /-- counter reading at which the target was chosen, and once shadowing has begun, of its activation (R494, R500) -/
  since : Nat := 0
  /-- image transfer: LENGTH once known, bytes received, next offset, reads (R559) -/
  len : Option Nat := none
  got : List (Nat × List Byte) := []
  next : Nat := 0
  reads : List BulkRead := []
  /-- shadow configuration (R494; reset none) -/
  plan : Option Plan := none
  /-- FUSED_QUERY resends and its last send (R559) -/
  query : Option (Nat × Nat) := none
  /-- FUSED states received: slot, chunk, instance, step; and the total (R559) -/
  fused : List (Nat × Nat × Nat × Nat) := []
  fusedAll : Option Nat := none
  /-- CLEAN count (R502; 16 bits saturating; reset 0) -/
  clean : Nat := 0
  /-- entries that wait for their pair (R499; reset none) -/
  cmp : List CmpEntry := []
  /-- NSEQ of the next notice (Table RES-4; 8 bits; reset 0, DESIGN CHOICE) -/
  nseq : Nat := 0
  /-- FT of the last notice (R495) -/
  noticeAt : Nat := 0
  /-- FROM and TPLANE of the notice in force (Table RES-4; reset none) -/
  notice : Option (Nat × Nat) := none
  /-- shadowing of the target has begun: its activation FT has come (R494; reset 0) -/
  live : Bool := false
  /-- FROM of the final notice while STOPPING (R515) -/
  finalAt : Option Nat := none
  /-- reserve plane that shadows this switch as target (R499; reset none) -/
  watcher : Option Nat := none
  /-- FUSED_QUERY to answer: plane and A (R559; reset none) -/
  asked : List (Nat × Nat) := []
  /-- FUSED states recorded at an A: A, entries (R559; reset none) -/
  recorded : List (Nat × List (Nat × Nat × Nat × Nat)) := []
  /-- RESERVE_PROMOTE whose restore is in progress (R507, R511; reset none) -/
  promote : Option Req := none
  deriving DecidableEq, Repr

/-- Names of the counters (Tables COL-7, MEM-12, LNK-10, RTE-15, SWC-8, TIM-10 and R247, R482, R486, R497, R499,
R517, R543, R551, R552, R557). The key of a counter is its name and one or two indices. -/
inductive Ctr where
  | absorbed | dup | late | busy | epoch | index | metaF | length | check | part | relayed | done | aborted | answerLost
  | releaseLate | digestLate | shadowRefused
  | reads | writes | atomics | accums | msgApplied | msgFailed | mDup | mLate | mBusy | mRefused | refuseLost | eccCorr
  | eccUncorr | mirrorFail
  | blocksTx | blocksRx | badBlocks | dupBlocks | replays | naksTx | retrains | degrades | fecCorr | fecUncorr | abortsRx
  | abortsTx | lostBlocks | vcAbsent | ctrlUnknown
  | malformed | unknownColl | spoof | unroutable | noRoute | fenceIn | fenceOut | epochEsc | epochDrop | aged | trailTx
  | trailFull | mcCopies
  | txPkts | txFlits | rxPkts | rxFlits | stallCredit | stallGate | stallShape | tailDrop | pushout | holdCuts | starveEvents
  | linkFlush | gateLate | sampled | sampleLost | cmapSent | cmapLost
  | tsyncTx | tsyncRx | tsyncUnused | timeUnset | holdovers | parentSwitch | planConflict | planSkew | digestMissing
  | checkIn | checkEg | mpCheck | checkInt | hdrParity | shadowDrop | shadowSkip | reqReplaced | eventLost | trailBad
  | trailNodest | trailLoop | trailFwdDrop | trailSleepDrop
  deriving DecidableEq, Repr

/-- Key of a counter: name, first index (link, slot, cluster), second index (VC, lane, cluster of the slot). -/
structure CKey where
  name : Ctr
  i : Nat
  j : Nat
  deriving DecidableEq, Repr

/-- The state of the block. -/
structure State where
  /-- commands that wait, first in first out (the block's queue; reset empty) -/
  pending : List Instr := []
  fuse : Fuse := {}
  boot : Boot := {}
  roe : Roe := {}
  i3c : I3c := {}
  trail : Trail := {}
  time : TimeSt := {}
  plans : Plans := {}
  mp : Mp := {}
  fawn : Fawn := {}
  /-- links by index (R397) -/
  links : AMap Nat Link := []
  sw : Switch := {}
  coll : Coll := {}
  /-- cores by global number (R18) -/
  cores : AMap Nat Core := []
  mem : MemSt := {}
  /-- counters (48 bits saturating; reset 0) -/
  cnt : AMap CKey Nat := []
  /-- free values drawn so far: the model's own field behind `Config.freeWord` (reset 0, DESIGN CHOICE) -/
  free : Nat := 0
  deriving DecidableEq, Repr

/-- The part right after reset: PORST_N has just been released with every strap at its pull-down, the boot ROM
starts, edge ports train (R444, R556, R592, R600), and nothing else has happened. -/
def State.reset : State :=
  { links := [(576, { st := .signal }), (577, { st := .signal }), (578, { st := .signal }), (579, { st := .signal })] }

end Sys2Proof.Machine
end

