-- ==== Sys2Proof/Machine/Bits.lean ====
section
/-!
DEFINITION. Bit fields, byte order, sign extension, CRC-32C and mix64: the small helpers every other file reads and
builds encodings with (R4, R5, R75).
-/
namespace Sys2Proof.Machine

/-- Bits [hi:lo] of a natural number, bit 0 the least significant (R4). -/
def bits (x hi lo : Nat) : Nat := (x >>> lo) % 2 ^ (hi + 1 - lo)

/-- Bit `i` of a natural number. -/
def bit (x i : Nat) : Bool := x.testBit i

/-- Field [hi:lo] of a bit vector, ends included (R4). -/
def fld {n : Nat} (b : BitVec n) (hi lo : Nat) : Nat := bits b.toNat hi lo

/-- `x` with bits [hi:lo] replaced by the low bits of `v`. -/
def setBits (x hi lo v : Nat) : Nat :=
  x - (bits x hi lo) <<< lo + (v % 2 ^ (hi + 1 - lo)) <<< lo

/-- A bit vector with field [hi:lo] replaced by the low bits of `v`. -/
def setFld {n : Nat} (b : BitVec n) (hi lo v : Nat) : BitVec n :=
  BitVec.ofNat n (setBits b.toNat hi lo v)

/-- 1 for true. -/
def b2n (b : Bool) : Nat := if b then 1 else 0

/-- The signed value of the low `w` bits of `x`. -/
def sext (w x : Nat) : Int :=
  if bit x (w - 1) then (x % 2 ^ w : Nat) - (2 ^ w : Nat) else (x % 2 ^ w : Nat)

/-- The two's complement pattern of an integer in `w` bits. -/
def wrap (w : Nat) (x : Int) : Nat := (x % (2 ^ w : Nat)).toNat

/-- The value of a little-endian byte string (R5). -/
def ofLE : List Byte → Nat
  | [] => 0
  | b :: bs => b.toNat + 256 * ofLE bs

/-- The `n` low bytes of a number, lowest first (R5). -/
def toLE : Nat → Nat → List Byte
  | 0, _ => []
  | n + 1, x => BitVec.ofNat 8 x :: toLE n (x / 256)

/-- `n` zero bytes. -/
def zeros (n : Nat) : List Byte := List.replicate n 0

/-- Bytes `off` to `off + n − 1` of a string; what lies past its end reads as zero. -/
def slice (bs : List Byte) (off n : Nat) : List Byte :=
  let r := (bs.drop off).take n
  r ++ zeros (n - r.length)

/-- The little-endian number in `n` bytes at `off`. -/
def leAt (bs : List Byte) (off n : Nat) : Nat := ofLE ((bs.drop off).take n)

/-- A string with the bytes at `off` replaced; a write past its end is cut. -/
def splice (bs : List Byte) (off : Nat) (w : List Byte) : List Byte :=
  let w' := w.take (bs.length - off)
  bs.take off ++ w' ++ bs.drop (off + w'.length)

/-- A string cut into pieces of `n` bytes, at most `k` of them. -/
def chunksOf : Nat → Nat → List Byte → List (List Byte)
  | 0, _, _ => []
  | k + 1, n, bs => if bs.isEmpty then [] else bs.take n :: chunksOf k n (bs.drop n)

/-- The smaller of a list of numbers, none of an empty list. -/
def minOf : List Nat → Option Nat
  | [] => none
  | x :: xs => match minOf xs with
    | none => some x
    | some y => some (min x y)

/-- The number of one bits among the low `w` bits of `x`. -/
def popcount : Nat → Nat → Nat
  | 0, _ => 0
  | w + 1, x => x % 2 + popcount w (x / 2)

/-- The numbers of the one bits among the low `w` bits of `x`, lowest first. -/
def onBits (w x : Nat) : List Nat := (List.range w).filter fun i => bit x i

/-- Trailing zero bits of a non-zero number. -/
def tz (x : Nat) : Nat := (x ^^^ (x - 1)).log2

/-- The smallest multiple of `n` that is at least `x`. -/
def roundUp (x n : Nat) : Nat := (x + n - 1) / n * n

/-- Division rounded up. -/
def cdiv (x n : Nat) : Nat := (x + n - 1) / n

/-- One step of the reflected CRC-32C register. -/
def crcBit (c : Nat) : Nat := if c % 2 = 1 then (c / 2) ^^^ 0x82F63B78 else c / 2

/-- A byte entered into the reflected CRC-32C register. -/
def crcByte (c : Nat) (b : Byte) : Nat :=
  crcBit (crcBit (crcBit (crcBit (crcBit (crcBit (crcBit (crcBit (c ^^^ b.toNat))))))))

/-- CRC-32C of a byte string, reflected, initial and final all ones (R333, Table LNK-3). -/
def crc32c (bs : List Byte) : Nat := (bs.foldl crcByte 0xFFFFFFFF) ^^^ 0xFFFFFFFF

/-- One round of mix64 (R75). -/
def mixRound (p : BitVec 64 × BitVec 64) : BitVec 64 × BitVec 64 :=
  let a := p.1 + p.2
  let b := p.2.rotateLeft 20 ^^^ a
  (a.rotateLeft 32, b)

/-- mix64 (R75). -/
def mix64 (k0 k1 : BitVec 64) : BitVec 64 :=
  let p := mixRound (mixRound (mixRound (mixRound (k0 ^^^ 0x9E3779B97F4A7C15#64, k1 ^^^ 0x6C8E9CF570932BD5#64))))
  p.1 ^^^ p.2

/-- Bits of a byte string [hi:lo], bit 0 the least significant bit of byte 0 (R47). -/
def bitsOf (bs : List Byte) (hi lo : Nat) : Nat :=
  bits (ofLE ((bs.drop (lo / 8)).take (hi / 8 + 1 - lo / 8))) (hi - lo / 8 * 8) (lo % 8)

/-- An element put into its place in a list, before the first element it does not follow. -/
def insBy {α : Type} (le : α → α → Bool) (x : α) : List α → List α
  | [] => [x]
  | y :: ys => if le x y then x :: y :: ys else y :: insBy le x ys

/-- A list in the order of `le`; equal elements keep their order. -/
def sortBy {α : Type} (le : α → α → Bool) : List α → List α
  | [] => []
  | x :: xs => insBy le x (sortBy le xs)

end Sys2Proof.Machine
end

