-- ==== Sys2Proof/Machine/Exact.lean ====
section
/-!
DEFINITION. Number formats, exact lanes, the one rounding, conversions, MX quantisation, order keys and the XC
encoding (chapter ARI, R45 to R90). A value is `Val`: an exact signed `m × 2^k`, an infinity or NaN.
-/
namespace Sys2Proof.Machine

/-! ### Formats (R45, R46, Table SCO-5) -/

/-- A floating-point format of Table ARI-1. -/
structure Fp where
  width : Nat
  ebits : Nat
  fbits : Nat
  bias : Int
  hasInf : Bool
  hasNan : Bool
  deriving DecidableEq, Repr

/-- Table ARI-1 by format code; MXFP8, MXFP6 and MXFP4 give their element formats (R48). -/
def fpOf (code : Nat) : Option Fp :=
  match code with
  | 0x0 => some ⟨32, 8, 23, 127, true, true⟩
  | 0x1 => some ⟨16, 8, 7, 127, true, true⟩
  | 0x2 => some ⟨16, 5, 10, 15, true, true⟩
  | 0x3 => some ⟨8, 4, 3, 7, false, true⟩
  | 0x4 => some ⟨8, 5, 2, 15, true, true⟩
  | 0x5 => some ⟨6, 3, 2, 3, false, false⟩
  | 0x6 => some ⟨4, 2, 1, 1, false, false⟩
  | 0xB => some ⟨8, 4, 3, 7, false, true⟩
  | 0xC => some ⟨6, 3, 2, 3, false, false⟩
  | 0xD => some ⟨4, 2, 1, 1, false, false⟩
  | _ => none

/-- Width in bits of an integer format (R46); 0 for the others. -/
def intBits (code : Nat) : Nat :=
  if code = 0x7 then 8 else if code = 0x8 then 4 else if code = 0xA then 32 else 0

/-- Width in bits of an element of a format (Tables ARI-1, SCO-5); 0 for XC and the reserved code. -/
def elemBits (code : Nat) : Nat :=
  match fpOf code with
  | some f => f.width
  | none => if code = 0x9 then 4 else intBits code

/-- Exponent of the smallest normal value. -/
def Fp.emin (f : Fp) : Int := 1 - f.bias

/-- Exponent of the largest finite value. -/
def Fp.emax (f : Fp) : Int := (2 ^ f.ebits : Nat) - (if f.hasInf then 2 else 1) - f.bias

/-- Whether an exponent field and fraction form the E4M3 NaN pattern, or a NaN or infinity of an IEEE style format. -/
def Fp.special (f : Fp) (e m : Nat) : Bool :=
  if f.hasInf then decide (e = 2 ^ f.ebits - 1)
  else f.hasNan && decide (e = 2 ^ f.ebits - 1) && decide (m = 2 ^ f.fbits - 1)

/-- Significand of the largest finite value, `fbits + 1` bits wide. -/
def Fp.maxSig (f : Fp) : Nat := 2 ^ (f.fbits + 1) - (if !f.hasInf && f.hasNan then 2 else 1)

/-- The raw encoding of the largest finite value with a sign. -/
def Fp.maxRaw (f : Fp) (neg : Bool) : Nat :=
  b2n neg <<< (f.width - 1) + ((f.emax + f.bias).toNat <<< f.fbits) + (f.maxSig - 2 ^ f.fbits)

/-- The raw encoding of an infinity. -/
def Fp.infRaw (f : Fp) (neg : Bool) : Nat :=
  b2n neg <<< (f.width - 1) + ((2 ^ f.ebits - 1) <<< f.fbits)

/-- The canonical quiet NaN (Table ARI-5). -/
def Fp.nanRaw (f : Fp) : Nat :=
  if f.hasInf then ((2 ^ f.ebits - 1) <<< f.fbits) + 2 ^ (f.fbits - 1) else 2 ^ (f.width - 1) - 1

/-- The value of a floating-point encoding (R45); an FP32 encoding with exponent field 0 is a zero with its sign (R65). -/
def Fp.value (f : Fp) (raw : Nat) : Val :=
  let neg := bit raw (f.width - 1)
  let e := bits raw (f.width - 2) f.fbits
  let m := bits raw (f.fbits - 1) 0
  if f.special e m then
    if f.hasInf && decide (m = 0) then .inf neg else .nan
  else if e = 0 then
    if f.width = 32 then .fin neg 0 0 else .fin neg m (f.emin - f.fbits)
  else .fin neg (2 ^ f.fbits + m) ((e : Int) - f.bias - f.fbits)

/-- The value of an element of a format other than XC; integers are exact (R46, R60). -/
def elemVal (code raw : Nat) : Val :=
  match fpOf code with
  | some f => f.value raw
  | none =>
    if intBits code = 0 then .fin false raw 0
    else let x := sext (intBits code) raw; .fin (decide (x < 0)) x.natAbs 0

/-- The value of an E8M0 scale (R48). -/
def e8m0 (c : Nat) : Val := if c = 0xFF then .nan else .fin false 1 ((c : Int) - 127)

/-- The exact product of two values with the special cases of Table ARI-3 (R55, R62). -/
def Val.mul (a b : Val) : Val :=
  match a, b with
  | .nan, _ => .nan
  | _, .nan => .nan
  | .inf s, .inf t => .inf (s != t)
  | .inf s, .fin t m _ => if m = 0 then .nan else .inf (s != t)
  | .fin s m _, .inf t => if m = 0 then .nan else .inf (s != t)
  | .fin s m k, .fin t n l => .fin (s != t) (m * n) (k + l)

/-- An MX element read with its block's scale (R48, R50): a NaN scale makes every element NaN. -/
def mxVal (code raw scale : Nat) : Val := (e8m0 scale).mul (elemVal code raw)

/-! ### Lanes (R54 to R66, R88) -/

/-- The modulus of the residue (R88). -/
def resM : Nat := 2 ^ 61 - 1

/-- The bits of weight below 2^n of `a`, rounded to nearest with ties to even. -/
def rneShift (a n : Nat) : Nat :=
  let m := a >>> n
  let d := a % 2 ^ n
  if 2 * d > 2 ^ n ∨ (2 * d = 2 ^ n ∧ m % 2 = 1) then m + 1 else m

/-- A magnitude `m × 2^k` on the grid `2^-w`, rounded by RNE where it has bits below the grid (R56). -/
def onGrid (w m : Nat) (k : Int) : Nat :=
  let e := k + w
  if 0 ≤ e then m <<< e.toNat else rneShift m (-e).toNat

/-- The signed integer of a sign and a magnitude. -/
def signed (neg : Bool) (a : Nat) : Int := if neg then -(a : Int) else a

/-- A residue modulo M of a signed magnitude at bit position `e` (R88), formed from its significand: `m` is multiplied
by `2^(e mod 61)`. -/
def resOf (neg : Bool) (m e : Nat) : Nat :=
  let r := (m * 2 ^ (e % 61)) % resM
  if neg then (resM - r) % resM else r

/-- X mod M as a value from 0 to M − 1 (R89). -/
def resInt (x : Int) : Nat := (x % (resM : Int)).toNat

/-- The lane with an exact integer of known residue added. -/
def Lane.addInt (l : Lane) (x : Int) (r : Nat) : Lane :=
  { l with x := l.x + x, res := (l.res + r) % resM }

/-- A finite operand added on the grid `2^-w` (R54, R56, R88). -/
def Lane.addFin (w : Nat) (l : Lane) (neg : Bool) (m : Nat) (k : Int) : Lane :=
  let e := k + w
  if 0 ≤ e then l.addInt (signed neg (m <<< e.toNat)) (resOf neg m e.toNat)
  else let a := onGrid w m k; l.addInt (signed neg a) (resOf neg a 0)

/-- An operand added to a lane of the grid `2^-w`: specials set their flag and leave the integer (R62). -/
def Lane.add (w : Nat) (l : Lane) (v : Val) : Lane :=
  match v with
  | .nan => { l with nan := true }
  | .inf false => { l with pinf := true }
  | .inf true => { l with ninf := true }
  | .fin neg m k => l.addFin w neg m k

/-- The grid of XS (R54). -/
def wXS : Nat := 150
/-- The grid of XP (R55). -/
def wXP : Nat := 300

/-- A product added to an XP lane: 2^280 or more counts as an infinity of its sign (R56). -/
def Lane.addProd (l : Lane) (v : Val) : Lane :=
  match v with
  | .fin neg m k =>
    if m ≠ 0 ∧ (m.log2 : Int) + k ≥ 280 then l.add wXP (.inf neg) else l.add wXP v
  | _ => l.add wXP v

/-- The lane `b` added exactly to lane `a`: integers, flags and residues (R122). -/
def Lane.plus (a b : Lane) : Lane :=
  { x := a.x + b.x, nan := a.nan || b.nan, pinf := a.pinf || b.pinf, ninf := a.ninf || b.ninf,
    res := (a.res + b.res) % resM }

/-- The value of a lane of the grid `2^-w`: its flags decide first, and an exact zero is +0 (Table ARI-4, R63, R66). -/
def Lane.val (w : Nat) (l : Lane) : Val :=
  if l.nan || (l.pinf && l.ninf) then .nan
  else if l.pinf then .inf false
  else if l.ninf then .inf true
  else .fin (decide (l.x < 0)) l.x.natAbs (-(w : Int))

/-- The residue compare of R89. -/
def Lane.resOk (l : Lane) : Bool := decide (resInt l.x = l.res)

/-- Whether any special flag is set. -/
def Lane.flagged (l : Lane) : Bool := l.nan || l.pinf || l.ninf

/-! ### Rounding (R67 to R77) -/

/-- Numerical flag bits (Table ARI-10). -/
def flNan : Nat := 1
def flInf : Nat := 2
def flOvf : Nat := 4
def flUfl : Nat := 8
def flInexact : Nat := 16

/-- How a value is converted: mode (Table ARI-6), the E4M3 overflow option (R72), wrapping (R60) and the 32-bit random
number of R77. -/
structure RndOpt where
  mode : Nat
  nanOpt : Bool := false
  wrap : Bool := false
  r : Nat := 0
  deriving DecidableEq, Repr

/-- Whether the discarded part `d` of `2^n` rounds the magnitude `m` up (R68). -/
def roundsUp (o : RndOpt) (neg : Bool) (m d n : Nat) : Bool :=
  decide (d > 0) &&
  (if o.mode = 0 then decide (2 * d > 2 ^ n ∨ (2 * d = 2 ^ n ∧ m % 2 = 1))
   else if o.mode = 2 then !neg
   else if o.mode = 3 then neg
   else if o.mode = 4 then decide (d * 2 ^ 32 / 2 ^ n + o.r ≥ 2 ^ 32)
   else false)

/-- A magnitude `a × 2^w` cut at weight `2^q`: the rounded significand and whether bits were lost (R68). -/
def roundAt (o : RndOpt) (neg : Bool) (a : Nat) (w q : Int) : Nat × Bool :=
  let n := q - w
  if n ≤ 0 then (a <<< (-n).toNat, false)
  else
    let m := a >>> n.toNat
    let d := a % 2 ^ n.toNat
    (m + b2n (roundsUp o neg m d n.toNat), decide (d > 0))

/-- The result and flags of an overflow (R71, R72, Table ARI-7). -/
def overflow (code : Nat) (f : Fp) (o : RndOpt) (neg : Bool) : Nat × Nat :=
  if f.hasInf then
    if o.mode = 0 ∨ o.mode = 4 ∨ (o.mode = 2 ∧ !neg) ∨ (o.mode = 3 ∧ neg) then
      (f.infRaw neg, flInf + flOvf + flInexact)
    else (f.maxRaw neg, flOvf + flInexact)
  else if code = 0x3 ∧ o.nanOpt then (f.nanRaw, flNan + flOvf + flInexact)
  else (f.maxRaw neg, flOvf + flInexact)

/-- A non-zero magnitude `a × 2^w` rounded once into a floating-point format: encoding and flags (R68 to R72). -/
def roundFp (code : Nat) (f : Fp) (o : RndOpt) (neg : Bool) (a : Nat) (w : Int) : Nat × Nat :=
  let e := (a.log2 : Int) + w
  let isF32 := f.width = 32
  let q := (if isF32 then e else max e f.emin) - f.fbits
  let rr := roundAt o neg a w q
  let m := rr.1
  let sign := b2n neg <<< (f.width - 1)
  let tiny := e < f.emin
  let inex := if rr.2 then flInexact else 0
  if m = 0 then (sign, flUfl + flInexact)
  else
    let e' := (m.log2 : Int) + q
    if e' < f.emin then
      if isF32 then (sign, flUfl + flInexact)
      else (sign + m, inex + (if rr.2 then flUfl else 0))
    else
      let sig := m <<< (f.fbits - m.log2) >>> (m.log2 - f.fbits)
      if e' > f.emax ∨ (e' = f.emax ∧ sig > f.maxSig) then overflow code f o neg
      else (sign + (e' + f.bias).toNat <<< f.fbits + (sig - 2 ^ f.fbits),
            inex + (if tiny ∧ (rr.2 ∨ isF32) then flUfl else 0))

/-- Whether a magnitude `a × 2^w` exceeds `lim`. -/
def magAbove (a : Nat) (w : Int) (lim : Nat) : Bool :=
  if 0 ≤ w then decide (lim < a <<< w.toNat) else decide (lim <<< (-w).toNat < a)

/-- A magnitude `a × 2^w` rounded to an integer format, wrapped or saturated (R60, R74): OVF is set when the exact value
lies outside the range of the format. -/
def roundInt (n : Nat) (o : RndOpt) (neg : Bool) (a : Nat) (w : Int) : Nat × Nat :=
  let rr := roundAt o neg a w 0
  let x := signed neg rr.1
  let hi : Int := (2 ^ (n - 1) : Nat) - 1
  let lo : Int := -(2 ^ (n - 1) : Nat)
  let out := if o.wrap then x else max lo (min hi x)
  (wrap n out,
    if magAbove a w (if neg then 2 ^ (n - 1) else 2 ^ (n - 1) - 1) then flOvf + flInexact else if rr.2 then flInexact else 0)

/-- The one conversion of a value into an output format: encoding and flags (R63, R64, R66, R68 to R74). A zero keeps
the sign the value carries; a lane's zero carries none. -/
def convert (code : Nat) (o : RndOpt) (v : Val) : Nat × Nat :=
  match fpOf code with
  | some f =>
    match v with
    | .nan => if f.hasNan then (f.nanRaw, flNan) else (0, flNan)
    | .inf neg => if f.hasInf then (f.infRaw neg, flInf) else (f.maxRaw neg, flInf)
    | .fin neg m k => if m = 0 then (b2n neg <<< (f.width - 1), 0) else roundFp code f o neg m k
  | none =>
    let n := if intBits code = 0 then 32 else intBits code
    match v with
    | .nan => (0, flNan)
    | .inf neg => (if neg then 2 ^ (n - 1) else 2 ^ (n - 1) - 1, flInf)
    | .fin neg m k => roundInt n o neg m k

/-- The random number of R76 and R77: seed, instance, collective ID, element index and chunk. -/
def srRandom (seed inst cid elem chunk : Nat) : Nat :=
  let k0 := BitVec.ofNat 64 (seed % 2 ^ 32 + (inst % 2 ^ 16) <<< 32 + (cid % 2 ^ 16) <<< 48)
  let k1 := BitVec.ofNat 64 (elem % 2 ^ 32 + (chunk % 2 ^ 20) <<< 32 + (bits cid 23 16) <<< 52)
  (mix64 k0 k1).toNat >>> 32

/-! ### MX quantisation (R78 to R80) -/

/-- floor(log2) of a non-zero finite value. -/
def finExp (m : Nat) (k : Int) : Int := (m.log2 : Int) + k

/-- The larger exponent of a list of values, over finite non-zero values only. -/
def maxExp : List Val → Option Int
  | [] => none
  | .fin _ m k :: vs =>
    if m = 0 then maxExp vs
    else match maxExp vs with
      | none => some (finExp m k)
      | some e => some (max e (finExp m k))
  | _ :: vs => maxExp vs

/-- emax of R78. -/
def mxEmax (code : Nat) : Int := if code = 0xB then 8 else if code = 0xC then 4 else 2

/-- The scale exponent e of a block (R78), none when it holds no finite non-zero value. -/
def mxExp (code : Nat) (vs : List Val) : Option Int :=
  match maxExp vs with
  | none => none
  | some e => some (max (-127) (min 127 (e - mxEmax code)))

/-- One element of a quantised block (R79, R80): a value past the largest finite value takes that value with INEXACT
and no OVF. -/
def mxElem (code : Nat) (o : RndOpt) (e : Int) (v : Val) : Nat × Nat :=
  match fpOf code with
  | none => (0, 0)
  | some f =>
    match v with
    | .nan => (f.nanRaw, flNan)
    | .inf neg => (f.maxRaw neg, flInf)
    | .fin neg m k =>
      let r := convert code o (.fin neg m (k - e))
      (r.1, if bit r.2 2 then flInexact else r.2)

/-- A block of values quantised: scale code, then element encodings and flags in order (R78 to R80). DESIGN CHOICE (log
entry 43): an MXFP6 or MXFP4 block that holds a NaN and an infinity is written as R80 says of the NaN: every element 0
with NAN alone. -/
def mxBlock (code : Nat) (o : Nat → RndOpt) (vs : List Val) : Nat × List (Nat × Nat) :=
  if code ≠ 0xB ∧ vs.any (· == .nan) then (0xFF, vs.map fun _ => (0, flNan))
  else
    let e := (mxExp code vs).getD 0
    ((e + 127).toNat, vs.zipIdx.map fun p => mxElem code (o p.2) e p.1)

/-! ### Order (R81 to R84) -/

/-- The place of a non-NaN value in the order by value with −0 before +0: every format value is a multiple of 2^-150
below 2^170. -/
def Val.key (v : Val) : Int :=
  match v with
  | .nan => 0
  | .inf neg => signed neg (2 ^ 400)
  | .fin neg m k =>
    let a := 2 * onGrid wXS m k
    if neg then -(a : Int) - 1 else a

/-- NaN test. -/
def Val.isNan (v : Val) : Bool := v == .nan

/-- `a` stands before `b` in the total order of R83 (ascending) or R84 (descending), contributor and element index
aside. -/
def Val.before (desc : Bool) (a b : Val) : Bool :=
  match a.isNan, b.isNan with
  | true, _ => false
  | false, true => true
  | false, false => if desc then decide (b.key < a.key) else decide (a.key < b.key)

/-! ### Exact carry (R85 to R87) -/

/-- The bytes of a lane as an XC element (R86). -/
def xcEnc (l : Lane) : List Byte :=
  if l.flagged then toLE 16 (b2n l.nan + 2 * b2n l.pinf + 4 * b2n l.ninf)
  else if l.x = 0 then toLE 16 0
  else
    let p := min (tz l.x.natAbs / 8) 30
    let w := l.x / (2 ^ (8 * p) : Nat)
    if -(2 ^ 119 : Nat) ≤ w ∧ w < (2 ^ 119 : Nat) then toLE 16 (p <<< 3 + wrap 120 w <<< 8)
    else toLE 48 (31 <<< 3 + wrap 376 l.x <<< 8)

/-- The length of the XC element whose header byte is `h` (R87). -/
def xcLen (h : Nat) : Nat := if bits h 7 3 = 31 then 48 else 16

/-- The lane an XC element decodes to (R85, R87, R88). -/
def xcDec (bs : List Byte) : Lane :=
  let h := leAt bs 0 1
  let x : Int := if bits h 7 3 = 31 then sext 376 (leAt bs 1 47)
    else sext 120 (leAt bs 1 15) * (2 ^ (8 * bits h 7 3) : Nat)
  { x := x, nan := bit h 0, pinf := bit h 1, ninf := bit h 2, res := resInt x }

end Sys2Proof.Machine
end

