-- ==== Sys2Proof/Machine/Ops.lean ====
section
/-!
DEFINITION. The named operations over memory, counters, tables and time that every meaning uses.
-/
namespace Sys2Proof.Machine

/-! ### Byte memories (R278, Table ARC-1): one canonical form, an unlisted byte reads 0 (log entry 2) -/

/-- The byte at an address. -/
def memGet : List Host.Cell → Nat → Byte
  | [], _ => 0
  | (k, b) :: m, a => if k = a then b else memGet m a

/-- The memory with address `a` no longer listed. -/
def memDel : List Host.Cell → Nat → List Host.Cell
  | [], _ => []
  | (k, b) :: m, a => if k = a then m else if a < k then (k, b) :: m else (k, b) :: memDel m a

/-- The memory with a byte other than 0 listed at address `a`, in its place. -/
def memIns : List Host.Cell → Nat → Byte → List Host.Cell
  | [], a, x => [(a, x)]
  | (k, b) :: m, a, x =>
    if k = a then (a, x) :: m else if a < k then (a, x) :: (k, b) :: m else (k, b) :: memIns m a x

/-- The memory with byte `x` at address `a`. -/
def memPut (m : List Host.Cell) (a : Nat) (x : Byte) : List Host.Cell :=
  if x = 0 then memDel m a else memIns m a x

/-- Bytes `a` to `a + n − 1`. -/
def memRead (m : List Host.Cell) (a : Nat) : Nat → List Byte
  | 0 => []
  | n + 1 => memGet m a :: memRead m (a + 1) n

/-- The memory with a byte string written from address `a` on. -/
def memWrite (m : List Host.Cell) (a : Nat) : List Byte → List Host.Cell
  | [] => m
  | x :: xs => memWrite (memPut m a x) (a + 1) xs

/-- Addresses above `lo` rise strictly and no listed byte is 0. -/
def memFrom (lo : Nat) : List Host.Cell → Bool
  | [] => true
  | (k, b) :: m => decide (lo ≤ k) && decide (b ≠ 0) && memFrom (k + 1) m

/-- The canonical form of a byte memory: addresses strictly rising, no entry equal to what an unlisted address reads. -/
def Memory.wf (m : List Host.Cell) : Bool := memFrom 0 m

/-! ### Units -/

/-- The outcome of a command whose unit must exist (R16): a fault otherwise. -/
def onUnit (ok : Bool) (s : State) : Out State := if ok then .next s else .fault .noSuchUnit

/-- The effect where a condition of the manual holds, otherwise no change (log entry 7). -/
def when_ (ok : Bool) (s : State) (s' : State) : State := if ok then s' else s

/-! ### Time (R443, R462) -/

/-- The state at an event stamped `t` ns: FT never runs backward within a run of commands (log entry 8). -/
def State.tick (s : State) (t : Nat) : State := { s with time := { s.time with ft := max s.time.ft t } }

/-- The counter that measures durations, in ns: a load of FT moves every pending deadline with it (R446), so durations are
kept on the counter without the loads. -/
def State.now (s : State) : Nat := s.time.ft

/-- FT at a reading of the counter, in ns; FT stands still in S3 and OFF (R44). -/
def State.ftAt (s : State) (t : Nat) : Nat := (((s.time.stop.getD t : Nat) : Int) + s.time.off).toNat

/-- FT now, in ns. -/
def State.ftNow (s : State) : Nat := s.ftAt s.now

/-- FT is set (R444). -/
def State.ftSet (s : State) : Bool := decide (s.time.st ≠ .unset)

/-! ### Counters (48 bits, saturating) -/

/-- The value of a counter. -/
def State.ctr (s : State) (c : Ctr) (i j : Nat) : Nat := s.cnt.at ⟨c, i, j⟩ 0

/-- A counter raised by `n`, saturating at 2^48 − 1 (R211, R323, R364, R404, R438). -/
def State.countN (s : State) (c : Ctr) (i j n : Nat) : State :=
  { s with cnt := s.cnt.put ⟨c, i, j⟩ (min Config.ctrMax (s.ctr c i j + n)) }

/-- A counter raised by one. -/
def State.count (s : State) (c : Ctr) (i j : Nat) : State := s.countN c i j 1

/-! ### Units of the state -/

/-- A core. -/
def State.core (s : State) (g : Nat) : Core := s.cores.at g {}
/-- A core replaced. -/
def State.setCore (s : State) (g : Nat) (c : Core) : State := { s with cores := s.cores.put g c }
/-- A link. -/
def State.link (s : State) (l : Nat) : Link := s.links.at l {}
/-- A link replaced. -/
def State.setLink (s : State) (l : Nat) (k : Link) : State := { s with links := s.links.put l k }
/-- A mailbox. -/
def State.box (s : State) (m : Nat) : Mbox := s.mp.boxes.at m {}
/-- A mailbox replaced. -/
def State.setBox (s : State) (m : Nat) (b : Mbox) : State := { s with mp := { s.mp with boxes := s.mp.boxes.put m b } }
/-- A partition. -/
def State.part (s : State) (p : Nat) : Part := s.mp.parts.at p {}
/-- A partition replaced. -/
def State.setPart (s : State) (p : Nat) (x : Part) : State :=
  { s with mp := { s.mp with parts := s.mp.parts.put p x } }
/-- The changing part of a region entry. -/
def State.reg (s : State) (e : Nat) : RegDyn := s.mem.regs.at e {}
/-- The changing part of a region entry replaced. -/
def State.setReg (s : State) (e : Nat) (r : RegDyn) : State :=
  { s with mem := { s.mem with regs := s.mem.regs.put e r } }
/-- A chunk at its owner cluster. -/
def State.chunk (s : State) (cl slot h : Nat) : ChunkSt := s.coll.chunks.at (cl, slot, h) {}
/-- A chunk replaced. -/
def State.setChunk (s : State) (cl slot h : Nat) (c : ChunkSt) : State :=
  { s with coll := { s.coll with chunks := s.coll.chunks.put (cl, slot, h) c } }
/-- The lifecycle of a cluster's cores; an unlisted cluster is ON (R515). -/
def State.clusterFn (s : State) (cl : Nat) : Fn := s.mp.clusters.at cl { st := .on }
/-- A cluster is disabled: its cores are OFF or on the way to it (R38, R515). -/
def State.clusterOff (s : State) (cl : Nat) : Bool := decide ((s.clusterFn cl).st = .off ∨ (s.clusterFn cl).st = .stopping)
/-- Collective packets are admitted: the part is in P0 and stays there (Table MGT-14, R566). -/
def State.collOpen (s : State) : Bool :=
  decide (s.roe.pstate = .p0) && s.roe.trans.all fun x => decide (x.1 = .p0)
/-- Memory requests are admitted: the part is in P0 or P1 and stays in one of them (Table MGT-14, R566). -/
def State.memOpen (s : State) : Bool :=
  decide (s.roe.pstate = .p0 ∨ s.roe.pstate = .p1) && s.roe.trans.all fun x => decide (x.1 = .p0 ∨ x.1 = .p1)
/-- The die a cluster lies on (R17). -/
def dieOf (cl : Nat) : Nat := cl / 9
/-- The die a link lies on (R17, R397). -/
def dieOfLink (l : Nat) : Nat := if l < 576 then l / 144 else l - 576
/-- The cluster a core lies in (R18). -/
def clusterOf (g : Nat) : Nat := g / 128

/-- The first element of a list that passes a test, and the list without it. -/
def takeFirst {α : Type} (p : α → Bool) : List α → Option (α × List α)
  | [] => none
  | x :: xs =>
    if p x then some (x, xs)
    else match takeFirst p xs with
      | none => none
      | some (y, ys) => some (y, x :: ys)

/-- The elements that pass a test replaced. -/
def modWhere {α : Type} (p : α → Bool) (f : α → α) (xs : List α) : List α :=
  xs.map fun x => if p x then f x else x

/-- A fold over the numbers below `n`, lowest first. -/
def foldRange {α : Type} (n : Nat) (f : Nat → α → α) (a : α) : α :=
  (List.range n).foldl (fun acc k => f k acc) a

/-- A fresh free word of the given width (log entry 5), and the state that has drawn it. -/
def State.drawFree (s : State) (w : Nat) : Nat × State :=
  ((Config.freeWord s.free).toNat % 2 ^ w, { s with free := s.free + 1 })

end Sys2Proof.Machine
end

