-- ==== Sys2Proof/Machine/Layouts.lean ====
section
/-!
DEFINITION. The fields of packet headers, descriptors and plan entries, by the manual's tables.
-/
namespace Sys2Proof.Machine

/-! ### Packet headers (Tables RTE-5, COL-4, MEM-4, MGT-1) -/

/-- DST (Table RTE-5). -/
def hDst (h : BitVec 256) : Nat := fld h 31 0
/-- SRC. -/
def hSrc (h : BitVec 256) : Nat := fld h 63 32
/-- LEN, payload bytes. -/
def hLen (h : BitVec 256) : Nat := fld h 76 64
/-- AXIS. -/
def hAxis (h : BitVec 256) : Nat := fld h 78 77
/-- MCNT; 0 unicast. -/
def hMcnt (h : BitVec 256) : Nat := fld h 86 79
/-- PART. -/
def hPart (h : BitVec 256) : Nat := fld h 92 87
/-- REPOCH. -/
def hRepoch (h : BitVec 256) : Nat := fld h 94 93
/-- KIND. -/
def hKind (h : BitVec 256) : Nat := fld h 99 96
/-- FMT (Tables COL-4, MEM-4). -/
def hFmt (h : BitVec 256) : Nat := fld h 103 100
/-- ETAG (Tables COL-4, MEM-4). -/
def hEtag (h : BitVec 256) : Nat := fld h 111 104
/-- CID (Table COL-4). -/
def hCid (h : BitVec 256) : Nat := fld h 135 112
/-- INST. -/
def hInst (h : BitVec 256) : Nat := fld h 151 136
/-- CHUNK. -/
def hChunk (h : BitVec 256) : Nat := fld h 171 152
/-- CONTRIB. -/
def hContrib (h : BitVec 256) : Nat := fld h 187 172
/-- PKT (Tables COL-4, MEM-4). -/
def hPkt (h : BitVec 256) : Nat := fld h 199 188
/-- LAST. -/
def hLast (h : BitVec 256) : Bool := bit h.toNat 200
/-- COUNT. -/
def hCount (h : BitVec 256) : Nat := fld h 212 201
/-- STATUS. -/
def hStatus (h : BitVec 256) : Nat := fld h 220 213
/-- CHECK. -/
def hCheck (h : BitVec 256) : Nat := fld h 255 224
/-- MOP (Table MEM-4). -/
def hMop (h : BitVec 256) : Nat := fld h 114 112
/-- AOP. -/
def hAop (h : BitVec 256) : Nat := fld h 117 115
/-- TAG. -/
def hTag (h : BitVec 256) : Nat := fld h 135 120
/-- OFFSET. -/
def hOffset (h : BitVec 256) : Nat := fld h 167 136
/-- BOFF. -/
def hBoff (h : BitVec 256) : Nat := fld h 173 168
/-- LEN of a memory request (MLEN). -/
def hMlen (h : BitVec 256) : Nat := fld h 186 174
/-- RCLR. -/
def hRclr (h : BitVec 256) : Bool := bit h.toNat 187
/-- MBX (Table MGT-1). -/
def hMbx (h : BitVec 256) : Nat := fld h 102 100
/-- AOFF. -/
def hAoff (h : BitVec 256) : Nat := fld h 115 104
/-- RLEN. -/
def hRlen (h : BitVec 256) : Nat := fld h 128 116

/-- A field of a header under construction. -/
structure HF where
  hi : Nat
  lo : Nat
  v : Nat
  deriving DecidableEq, Repr

/-- A header with the given fields; every other bit is zero (R8). -/
def mkHdr (fs : List HF) : BitVec 256 := fs.foldl (fun h f => setFld h f.hi f.lo f.v) 0

/-- The check value of a payload (R479): its CRC-32C, 0 for an empty one. -/
def checkOf (p : List Byte) : Nat := if p.isEmpty then 0 else crc32c p

/-- A packet with a given header whose payload length and check value are filled in. -/
def mkPkt (h : BitVec 256) (payload : List Byte) : Packet :=
  { hdr := setFld (setFld h 76 64 payload.length) 255 224 (checkOf payload), payload := payload }

/-! ### Slot descriptor (Table COL-3) -/

/-- OP. -/
def SlotCfg.op (c : SlotCfg) : Nat := fld c.desc 3 0
/-- OPER. -/
def SlotCfg.oper (c : SlotCfg) : Nat := fld c.desc 7 4
/-- FIN. -/
def SlotCfg.fin (c : SlotCfg) : Nat := fld c.desc 11 8
/-- FOUT. -/
def SlotCfg.fout (c : SlotCfg) : Nat := fld c.desc 15 12
/-- RMODE. -/
def SlotCfg.rmode (c : SlotCfg) : Nat := fld c.desc 18 16
/-- CARRY. -/
def SlotCfg.carry (c : SlotCfg) : Bool := bit c.desc.toNat 19
/-- ROLE. -/
def SlotCfg.role (c : SlotCfg) : Nat := fld c.desc 21 20
/-- PRONK. -/
def SlotCfg.isPronk (c : SlotCfg) : Bool := bit c.desc.toNat 22
/-- E4OVF. -/
def SlotCfg.e4ovf (c : SlotCfg) : Bool := bit c.desc.toNat 23
/-- SPLIT. -/
def SlotCfg.split (c : SlotCfg) : Nat := fld c.desc 25 24
/-- Group size G. -/
def SlotCfg.g (c : SlotCfg) : Nat := fld c.desc 39 32 + 1
/-- CHUNK4K. -/
def SlotCfg.chunk4k (c : SlotCfg) : Nat := fld c.desc 56 48
/-- NCHUNK; 0 means 2^20. -/
def SlotCfg.nchunk (c : SlotCfg) : Nat := let n := fld c.desc 83 64; if n = 0 then 2 ^ 20 else n
/-- INST0. -/
def SlotCfg.inst0 (c : SlotCfg) : Nat := fld c.desc 99 84
/-- TIMEOUT in ns; 0 means 10 ms. -/
def SlotCfg.timeout (c : SlotCfg) : Nat := let n := fld c.desc 119 100; (if n = 0 then 10000 else n) * 1000
/-- SEED. -/
def SlotCfg.seed (c : SlotCfg) : Nat := fld c.desc 159 128
/-- RECQ. -/
def SlotCfg.recq (c : SlotCfg) : Nat := fld c.desc 175 160
/-- DONERING; 0 means 1. -/
def SlotCfg.donering (c : SlotCfg) : Nat := let n := fld c.desc 191 176; if n = 0 then 1 else n
/-- DONEADDR. -/
def SlotCfg.doneaddr (c : SlotCfg) : Nat := fld c.desc 255 192
/-- MBASE. -/
def SlotCfg.mbase (c : SlotCfg) : Nat := fld c.desc 287 256
/-- MAXIS. -/
def SlotCfg.maxis (c : SlotCfg) : Nat := fld c.desc 289 288
/-- RAXIS. -/
def SlotCfg.raxis (c : SlotCfg) : Nat := fld c.desc 291 290
/-- RCOUNT. -/
def SlotCfg.rcount (c : SlotCfg) : Nat := fld c.desc 299 292
/-- RDEST. -/
def SlotCfg.rdest (c : SlotCfg) : Nat := fld c.desc 351 320
/-- PARENT. -/
def SlotCfg.parent (c : SlotCfg) : Nat := fld c.desc 383 352

/-! ### Extensions (Tables PRK-2, SPA-1) -/

/-- The Pronk extension, all zero where the slot has none. -/
def SlotCfg.px (c : SlotCfg) : BitVec 128 := c.pronk.getD 0
/-- MODE: 0 PLAIN, 1 FUSED, 2 TBARRIER. -/
def SlotCfg.pmode (c : SlotCfg) : Nat := fld c.px 1 0
/-- FUSED. -/
def SlotCfg.fused (c : SlotCfg) : Bool := c.isPronk && decide (c.pmode = 1)
/-- TBARRIER. -/
def SlotCfg.tbarrier (c : SlotCfg) : Bool := c.isPronk && decide (c.pmode = 2)
/-- DIRECT. -/
def SlotCfg.direct (c : SlotCfg) : Bool := c.isPronk && bit c.px.toNat 2
/-- RES. -/
def SlotCfg.res (c : SlotCfg) : Bool := bit c.px.toNat 3
/-- RFMT. -/
def SlotCfg.rfmt (c : SlotCfg) : Nat := fld c.px 7 4
/-- PELEM. -/
def SlotCfg.pelem (c : SlotCfg) : Nat := fld c.px 18 8
/-- K, chunks of a fused set. -/
def SlotCfg.k (c : SlotCfg) : Nat := fld c.px 21 19 + 1
/-- RPERIOD. -/
def SlotCfg.rperiod (c : SlotCfg) : Nat := fld c.px 47 32
/-- RBASE in 64-byte units. -/
def SlotCfg.rbase (c : SlotCfg) : Nat := fld c.px 63 48
/-- RDELAY in ns. -/
def SlotCfg.rdelay (c : SlotCfg) : Nat := fld c.px 95 64
/-- The sparse extension, all zero where the slot has none. -/
def SlotCfg.sx (c : SlotCfg) : BitVec 128 := c.sparse.getD 0
/-- SPARSE_ALLREDUCE. -/
def SlotCfg.isSparse (c : SlotCfg) : Bool := decide (c.op = 0x8)
/-- Tile width TW. -/
def SlotCfg.tw (c : SlotCfg) : Nat := 2 ^ fld c.sx 3 0
/-- Tiles per chunk NT. -/
def SlotCfg.nt (c : SlotCfg) : Nat := fld c.sx 15 4 + 1
/-- THR. -/
def SlotCfg.thr (c : SlotCfg) : Nat := fld c.sx 23 16
/-- Cores per tile NC. -/
def SlotCfg.nc (c : SlotCfg) : Nat := fld c.sx 27 24 + 1

/-- Bytes of a chunk (CHUNK4K). -/
def SlotCfg.chunkBytes (c : SlotCfg) : Nat := c.chunk4k * 4096

/-- Element count E of a chunk (R193, R228, R249). -/
def SlotCfg.elems (c : SlotCfg) : Nat :=
  if c.isSparse then c.nt * 64 * c.tw
  else if c.isPronk ∧ c.pelem ≠ 0 then c.pelem
  else if elemBits c.fout = 0 then 0 else c.chunkBytes * 8 / elemBits c.fout

/-- Maximum payload P of a packet of the slot (R191). -/
def SlotCfg.maxPay (c : SlotCfg) : Nat := if c.isPronk then 2048 else 4096

/-- Length L in bytes of a positional contribution (R193, R228). -/
def SlotCfg.contribLen (c : SlotCfg) : Nat :=
  if c.op = 0x5 then 0
  else if c.isPronk ∧ c.pelem ≠ 0 then c.pelem * elemBits c.fin / 8
  else if c.op = 0x3 then c.chunkBytes / c.g
  else (c.elems * elemBits c.fin + 7) / 8

/-- Largest packet count PMAX of one contribution (R194). -/
def SlotCfg.pmax (c : SlotCfg) : Nat :=
  if c.split = 0 then max 1 (cdiv c.contribLen c.maxPay)
  else if c.split = 1 then cdiv (cdiv c.elems 16) (if c.isPronk then 2 else 5)
  else cdiv c.chunkBytes c.maxPay

/-- Bytes of a chunk record (R194). -/
def SlotCfg.recBytes (c : SlotCfg) : Nat := 64 + 64 * cdiv (c.g * c.pmax) 512 + 64 * cdiv c.g 16

/-! ### OWNER, PROGRAM and STREAM entries (R545) -/

/-- slot of an OWNER entry. -/
def owSlot (o : BitVec 128) : Nat := fld o 13 0
/-- first chunk. -/
def owFirst (o : BitVec 128) : Nat := fld o 35 16
/-- last chunk. -/
def owLast (o : BitVec 128) : Nat := fld o 55 36
/-- CORE0. -/
def owCore0 (o : BitVec 128) : Nat := fld o 70 64
/-- NCORE. -/
def owNcore (o : BitVec 128) : Nat := fld o 78 71
/-- EPC. -/
def owEpc (o : BitVec 128) : Nat := fld o 95 80

/-- slot of a PROGRAM or STREAM head. -/
def heSlot (h : BitVec 128) : Nat := fld h 13 0
/-- CORE0. -/
def heCore0 (h : BitVec 128) : Nat := fld h 22 16
/-- NCORE. -/
def heNcore (h : BitVec 128) : Nat := fld h 30 23
/-- words of a PROGRAM record. -/
def heWords (h : BitVec 128) : Nat := fld h 95 64
/-- descriptor number of a STREAM entry. -/
def heDesc (h : BitVec 128) : Nat := fld h 35 32
/-- ASTEP. -/
def heAstep (h : BitVec 128) : Nat := fld h 63 48

/-- Slot numbers from 16,384 on stand for the slots of the shadow configuration (R494; log entry 18). -/
def shadowBase : Nat := 16384
/-- The number of a slot in its own plan. -/
def slotNo (slot : Nat) : Nat := slot % shadowBase
/-- Whether a slot number belongs to the shadow configuration. -/
def isShadow (slot : Nat) : Bool := decide (shadowBase ≤ slot)

/-- The OWNER entry of a cluster that covers a chunk of a slot. -/
def Plan.owner (p : Plan) (cl slot h : Nat) : Option (BitVec 128) :=
  (p.owners.find? fun o => decide (o.1 = cl ∧ owSlot o.2 = slotNo slot ∧ owFirst o.2 ≤ h ∧ h ≤ owLast o.2)).map (·.2)

/-- The cluster that owns a chunk of a slot (R34). -/
def Plan.ownerOf (p : Plan) (slot h : Nat) : Option Nat :=
  (p.owners.find? fun o => decide (owSlot o.2 = slotNo slot ∧ owFirst o.2 ≤ h ∧ h ≤ owLast o.2)).map (·.1)

/-- The descriptor of a slot. -/
def Plan.slot (p : Plan) (n : Nat) : Option SlotCfg := p.slots.find? fun c => decide (c.num = slotNo n)

/-- The slot and partition of a collective ID (R545). -/
def Plan.cid (p : Plan) (cid : Nat) : Option (Nat × Nat) :=
  (p.cids.find? fun e => decide (fld e 23 0 = cid)).map fun e => (fld e 37 24, fld e 43 38)

/-- The collective ID of a slot: the lowest that the map gives it. -/
def Plan.cidOf (p : Plan) (slot : Nat) : Nat :=
  ((p.cids.find? fun e => decide (fld e 37 24 = slotNo slot)).map fun e => fld e 23 0).getD 0

/-- The partition of a slot. -/
def Plan.partOf (p : Plan) (slot : Nat) : Nat :=
  ((p.cids.find? fun e => decide (fld e 37 24 = slotNo slot)).map fun e => fld e 43 38).getD 0

/-- The program of a slot on core `k` of a cluster (R545). -/
def Plan.prog (p : Plan) (cl slot k : Nat) : Option ProgCfg :=
  p.progs.find? fun r =>
    decide (r.cluster = cl ∧ heSlot r.head = slotNo slot ∧ heCore0 r.head ≤ k ∧ k < heCore0 r.head + heNcore r.head)

/-! ### Stream descriptors (Tables TSI-3, TSO-3, TSO-4) -/

/-- KIND. -/
def dKind (d : BitVec 128) : Nat := fld d 3 0
/-- FMT. -/
def dFmt (d : BitVec 128) : Nat := fld d 7 4
/-- RMODE. -/
def dRmode (d : BitVec 128) : Nat := fld d 10 8
/-- E4OVF. -/
def dE4ovf (d : BitVec 128) : Bool := bit d.toNat 11
/-- FLAGREC. -/
def dFlagrec (d : BitVec 128) : Bool := bit d.toNat 12
/-- LEN in beats. -/
def dLen (d : BitVec 128) : Nat := fld d 31 16
/-- ADDR of a LOCAL region. -/
def dAddr (d : BitVec 128) : Nat := fld d 80 64
/-- DEST of an output. -/
def dDest (d : BitVec 128) : Nat := fld d 95 64
/-- AXIS of a multicast output. -/
def dAxis (d : BitVec 128) : Nat := fld d 97 96
/-- COUNT of a multicast output. -/
def dCount (d : BitVec 128) : Nat := fld d 105 98
/-- APPEND. -/
def dAppend (d : BitVec 128) : Bool := bit d.toNat 106
/-- MXBLK. -/
def dMxblk (d : BitVec 128) : Nat := fld d 122 107
/-- FADDR of a memory stream. -/
def dFaddr (d : BitVec 128) : Nat := fld d 127 64

/-- The descriptor stepped for core CORE0 + j (R545). -/
def stepDesc (d : BitVec 128) (j astep : Nat) : BitVec 128 :=
  if dKind d = 2 then setFld d 80 64 (dAddr d + j * astep * 64)
  else if dKind d = 3 ∨ dKind d = 4 then setFld d 95 64 (fld d 95 64 + j * astep)
  else d

/-- Descriptor `n` of a slot on core `k` of a cluster; KIND NONE where the plan gives none. -/
def Plan.stream (p : Plan) (cl slot k n : Nat) : BitVec 128 :=
  match p.streams.find? fun r =>
    decide (r.cluster = cl ∧ heSlot r.head = slotNo slot ∧ heDesc r.head = n ∧ heCore0 r.head ≤ k ∧
      k < heCore0 r.head + heNcore r.head) with
  | none => 0
  | some r => stepDesc r.desc (k - heCore0 r.head) (heAstep r.head)

end Sys2Proof.Machine
end

