-- ==== Sys2Proof/Machine/Lookup.lean ====
section
/-!
DEFINITION. Coordinates, route sets and the ingress lookup: where a packet goes (chapter RTE).
-/
namespace Sys2Proof.Machine

/-! ### Coordinates (Table RTE-1) -/

/-- PLANE of a coordinate. -/
def cPlane (c : Nat) : Nat := bits c 31 27
/-- POD. -/
def cPod (c : Nat) : Nat := bits c 26 19
/-- RACK. -/
def cRack (c : Nat) : Nat := bits c 18 12
/-- SLOT. -/
def cSlot (c : Nat) : Nat := bits c 11 4
/-- FUNCTION. -/
def cFn (c : Nat) : Nat := bits c 3 0
/-- A coordinate of its fields. -/
def mkCoord (plane pod rack slot fn : Nat) : Nat := plane <<< 27 + pod <<< 19 + rack <<< 12 + slot <<< 4 + fn

/-- A switch of a plane (R367, R370). -/
inductive SwId where
  | leaf (pod rack : Nat)
  | spine (pod idx : Nat)
  | core (g k : Nat)
  deriving DecidableEq, Repr

/-- Number of an internal endpoint (R368). -/
def intNum (c : Nat) : Nat := 16 * (cSlot c - 248) + cFn c

/-- Whether a coordinate names an internal endpoint. -/
def isInternal (c : Nat) : Bool := decide (248 ≤ cSlot c ∧ cSlot c ≤ 252)

/-- The leaf of a pod and rack, or the core that those fields name from POD 144 on (R370). -/
def leafOrCore (c : Nat) : SwId :=
  if 144 ≤ cPod c then .core (cPod c - 144) (cRack c) else .leaf (cPod c) (cRack c)

/-- The owning switch of a coordinate (R370). -/
def ownerSw (c : Nat) : SwId :=
  if cSlot c = 253 then .core (cPod c - 144) (cRack c)
  else if cSlot c = 254 then .spine (cPod c) (cRack c)
  else if cSlot c = 255 then .leaf (cPod c) (cRack c)
  else if isInternal c then
    if (36 ≤ intNum c ∧ intNum c < 72) ∨ intNum c = 73 then .spine (cPod c) (cRack c) else leafOrCore c
  else leafOrCore c

/-- Two coordinates have the same owning switch of the same plane (R370). -/
def sameOwner (a b : Nat) : Bool := decide (cPlane a = cPlane b ∧ ownerSw a = ownerSw b)

/-- DST names a reserved slot or a reserved internal endpoint (R366, R368). -/
def badDst (c : Nat) : Bool :=
  decide (148 ≤ cSlot c ∧ cSlot c ≤ 247) || (isInternal c && decide (74 ≤ intNum c))

/-! ### Route sets (Table RTE-6) -/

/-- SELF. -/
def Route.self (r : Route) : Nat := fld r.hdr 31 0
/-- ROLE. -/
def Route.role (r : Route) : Nat := fld r.hdr 33 32
/-- RMAP. -/
def Route.rmap (r : Route) : Nat := fld r.hdr 35 34
/-- REPOCH. -/
def Route.repoch (r : Route) : Nat := fld r.hdr 37 36
/-- Length of axis 1. -/
def Route.nracks (r : Route) : Nat := fld r.hdr 46 40 + 1
/-- Length of axis 2. -/
def Route.npods (r : Route) : Nat := fld r.hdr 54 47 + 1
/-- AX1SET. -/
def Route.ax1 (r : Route) : Nat := fld r.hdr 63 56
/-- AX2SET. -/
def Route.ax2 (r : Route) : Nat := fld r.hdr 71 64

/-- A-ports or down-ports of a role map (Table RTE-4). -/
def aports (rmap : Nat) : Nat := if rmap = 0 then 128 else if rmap = 1 then 120 else if rmap = 2 then 112 else 144

/-- Link entry of a link (Table RTE-11). -/
def Route.linkEnt (r : Route) (l : Nat) : BitVec 512 := (r.links[l]?).getD 0
/-- Neighbour entry of a link (Table RTE-12). -/
def Route.nbr (r : Route) (l : Nat) : BitVec 128 := (r.nbrs[l]?).getD 0
/-- PARTMASK bit of a partition. -/
def lePart (e : BitVec 512) (p : Nat) : Bool := bit e.toNat p
/-- OWNPART. -/
def leOwn (e : BitVec 512) : Nat := fld e 69 64
/-- OWNVALID. -/
def leOwnValid (e : BitVec 512) : Bool := bit e.toNat 70
/-- POOLMAP entry of a partition, when VALID. -/
def lePool (e : BitVec 512) (p : Nat) : Option Nat :=
  if bit e.toNat (72 + 5 * p + 4) then some (fld e (72 + 5 * p + 3) (72 + 5 * p)) else none

/-- Whether a link is an endpoint link, by the role and its position (R617). -/
def Route.endpointLink (r : Route) (l : Nat) : Bool :=
  let leafish := decide (r.role = 0 ∨ r.role = 3)
  if 576 ≤ l then decide (r.role ≠ 1) else leafish && decide (l / 4 < aports r.rmap)

/-- Sub-ports of a port under a split (R325). -/
def subPorts (k : Nat) : Nat := if k = 1 then 2 else if k = 2 then 4 else 1

/-- FUNCTION with the bits that select sub-port `j` under a split (R369). -/
def subFn (k j fn : Nat) : Nat := if k = 1 then setBits fn 3 3 j else if k = 2 then setBits fn 3 2 j else fn

/-- Whether an index names a link under the splits of a plan (R397). -/
def namesUnder (split : AMap Nat Nat) (l : Nat) : Bool :=
  if 576 ≤ l then decide (l < 580) else decide (l % 4 < subPorts (split.at (l / 4) 0))

/-- Whether an index names a link under the splits of the active plan; no port is split before the first plan (R397,
R556). -/
def State.namesLink (s : State) (l : Nat) : Bool :=
  namesUnder (match s.plans.active with | none => [] | some p => p.split) l

/-- The link of a port, with the sub-port that FUNCTION names on a split port (R369, R397). -/
def portLink (s : State) (p fn : Nat) : Nat :=
  let k := s.sw.split.at p 0
  if k = 1 then 4 * p + bits fn 3 3 else if k = 2 then 4 * p + bits fn 3 2 else 4 * p

/-- The link of up-link `u` (R371). -/
def Route.upLink (r : Route) (u : Nat) : Nat := 4 * (aports r.rmap + u)

/-- The held set whose epoch is `e` (R388). -/
def State.routeOf (s : State) (e : Nat) : Option Route :=
  (s.plans.routes.find? fun h => decide (h.route.repoch = e)).map (·.route)

/-- The newest held set (R391). -/
def State.newest (s : State) : Option Route := s.plans.routes.head?.map (·.route)

/-- A HELLO agrees with a neighbour entry (Table RTE-13). -/
def helloMatches (e : BitVec 128) (h : BitVec 512) : Bool :=
  let role := fld h 15 8
  let anon := decide (8 ≤ role ∧ role ≤ 10 ∧ fld h 63 32 = 0xFFFFFFFF)
  decide (role = fld e 39 32) && (anon || decide (fld h 63 36 = fld e 31 4)) && decide (fld h 105 96 = fld e 49 40) &&
  decide (fld h 107 106 = fld e 51 50) && (decide (fld e 127 64 = 0) || decide (fld h 183 120 = fld e 127 64))

/-- What a HELLO shows against the neighbour entry of a link in a route set (R401, Table RTE-13). -/
def Route.discOf (r : Route) (l : Nat) (h : BitVec 512) : Disc :=
  if fld (r.nbr l) 39 32 = 0xFF then .extra else if helloMatches (r.nbr l) h then .used else .wrong

/-- The link has reached INIT and not stopped since, so its partner's HELLO has been compared (R401). -/
def Link.compared (k : Link) : Bool := decide (k.st = .init ∨ k.st = .up ∨ k.st = .retrain ∨ k.st = .stopping)

/-- The failure set F of a route set (R402): its links that are MISSING, or whose partner is WRONG by the set's own
neighbour entry (log entry 20). -/
def State.failedOn (s : State) (r : Route) : List Nat :=
  (s.links.filter fun p => decide (p.2.disc = .missing) ||
    (p.2.compared && (p.2.hello.any fun h => decide (r.discOf p.1 h = .wrong)))).map (·.1)

/-- A list of link indices as a mask. -/
def maskOf (ls : List Nat) : Nat := ls.foldl (fun m l => m ||| 2 ^ l) 0

/-- The mask of a candidate set after an active variant has replaced it (R380, R403). -/
def Route.setMask (r : Route) (f : List Nat) (n : Nat) : Nat :=
  let own := fld ((r.sets[n]?).getD 0) 31 0
  if f.isEmpty then own
  else match r.vars.find? fun v => decide (v.fail = maskOf f) with
    | none => own
    | some v => ((v.reps.find? fun p => decide (p.1 = n)).map (·.2)).getD own

/-- Whether up-link `u` is eligible for a partition (R385, R403): in the mask, UP, not in the failure set `f`, its neighbour
the expected one, and the pool map valid. -/
def eligible (s : State) (r : Route) (f : List Nat) (mask part u : Nat) : Bool :=
  let l := r.upLink u
  bit mask u && decide ((s.link l).st = .up) && decide ((s.link l).disc = .used) && !f.contains l &&
    (lePool (r.linkEnt l) part).isSome

/-- The spread value h of R386. -/
def spread (h : BitVec 256) : Nat := (mix64 (BitVec.ofNat 64 (hSrc h * 2 ^ 32 + hDst h)) 0).toNat >>> 59

/-- The cost of an up-link as die `d` sees it (R386). -/
def upCost (s : State) (r : Route) (d vc u : Nat) : Nat :=
  s.sw.q.at (d, u, vc) 0 * 8 / max 1 (popcount 8 (s.link (r.upLink u)).lanes)

/-- The better of two up-links (R386). -/
def betterUp (s : State) (r : Route) (d vc h u v : Nat) : Nat :=
  let cu := upCost s r d vc u
  let cv := upCost s r d vc v
  if cu < cv ∨ (cu = cv ∧ (u + 32 - h) % 32 < (v + 32 - h) % 32) then u else v

/-- The up-link chosen from a candidate set (R386, R394): by cost, or on VC6 the lowest eligible one. -/
def chooseUp (s : State) (r : Route) (f : List Nat) (d vc set : Nat) (hdr : BitVec 256) : Option Nat :=
  let us := (List.range 32).filter fun u => eligible s r f (r.setMask f set) (hPart hdr) u
  if vc = 6 then us.head?
  else match us with
    | [] => none
    | u :: rest => some (rest.foldl (fun b v => betterUp s r d vc (spread hdr) v b) u)

/-! ### The ingress lookup -/

/-- What the lookup gives one packet or copy (Table ARC-2). -/
inductive Hit where
  | drop (c : Ctr)
  | port (link : Nat) (cand : Option Nat)
  | cluster (c : Nat)
  | mp
  | trail (plane : Nat)
  deriving DecidableEq, Repr

/-- The result of a target entry (R381): a down port or an up-link of a candidate set. -/
def target16 (s : State) (r : Route) (d vc : Nat) (hdr : BitVec 256) (e : Option (BitVec 16)) : Hit :=
  let e := e.getD 0
  let val := fld e 9 2
  if fld e 1 0 = 1 then
    let l := portLink s val (cFn (hDst hdr))
    if (s.failedOn r).contains l then .drop .noRoute else .port l none
  else if fld e 1 0 = 2 then
    match chooseUp s r (s.failedOn r) d vc val hdr with
    | none => .drop .noRoute
    | some u => .port (r.upLink u) (some val)
  else .drop .noRoute

/-- A candidate set named by the set header (Table RTE-10). -/
def setHit (s : State) (r : Route) (d vc set : Nat) (hdr : BitVec 256) : Hit :=
  match chooseUp s r (s.failedOn r) d vc set hdr with
  | none => .drop .noRoute
  | some u => .port (r.upLink u) (some set)

/-- A local port (R382, R403): NO_ROUTE when it has failed. -/
def localPort (s : State) (r : Route) (l : Nat) : Hit := if (s.failedOn r).contains l then .drop .noRoute else .port l none

/-- The plan whose epoch tag is `e`: the active one, or the previous one during the overlap window (R209, R521). -/
def State.planOfTag (s : State) (e : Nat) : Option Plan :=
  match s.plans.active with
  | none => none
  | some a =>
    if a.pepoch % 256 = e then some a
    else match s.plans.prev with
      | none => none
      | some (some b, fin) => if b.pepoch % 256 = e ∧ s.now < fin then some b else none
      | some (none, _) => none

/-- The cluster that serves an offset (R36): 9d on die d (log entry 16). -/
def servingCluster (off : Nat) : Nat := if off < 4 * Config.dieGranules then 9 * (off / Config.dieGranules) else 0

/-- The plan whose tables look up a collective packet: its tag's, or the active one when no tag matches (R209). -/
def State.collPlan (s : State) (h : BitVec 256) : Option Plan :=
  match s.planOfTag (hEtag h) with
  | some p => some p
  | none => s.plans.active

/-- The owner cluster of a collective packet by CID and chunk (Table ARC-4), none when the CID maps to no slot of its
partition (R197). A chunk without an owner is decided by the first cluster of the ingress die (log entry 17). -/
def State.collCluster (s : State) (d : Nat) (h : BitVec 256) : Option Nat :=
  match s.collPlan h with
  | none => none
  | some p => match p.cid (hCid h) with
    | none => none
    | some (slot, part) => if part = hPart h then some ((p.ownerOf slot (hChunk h)).getD (9 * d)) else none

/-- Whether a KIND is a contribution, a result or a CSTAT. -/
def isCollKind (k : Nat) : Bool := decide (k = 1 ∨ k = 2 ∨ k = 4)

/-- A management packet: one of VC0, or one of KIND 0xA to 0xD that has escaped to VC6 and is treated by its KIND (R394). -/
def isMgmt (vc : Nat) (h : BitVec 256) : Bool := decide (vc = 0 ∨ (vc = 6 ∧ 10 ≤ hKind h ∧ hKind h ≤ 13))

/-- A packet resolved to LOCAL (R383, Table RTE-9). -/
def localHit (s : State) (d vc : Nat) (h : BitVec 256) : Hit :=
  let dst := hDst h
  if isInternal dst then
    if hKind h = 3 ∨ hKind h = 6 ∨ isMgmt vc h then
      if intNum dst < 72 then .cluster (intNum dst % 36) else .mp
    else .drop .unroutable
  else if cSlot dst < 253 then .drop .unroutable
  else if isMgmt vc h then (if cFn dst = 0 then .mp else .drop .unroutable)
  else if isCollKind (hKind h) then
    match s.collCluster d h with
    | none => .drop .unknownColl
    | some c => .cluster c
  else if hKind h = 5 then .cluster (servingCluster (hOffset h))
  else .drop .unroutable

/-- The switch's own identity in a route set. -/
def Route.id (r : Route) : SwId := ownerSw r.self

/-- Unicast lookup of destination `dst` by Table RTE-8, for a packet with header `h`. -/
def unicast (s : State) (r : Route) (d vc dst : Nat) (h : BitVec 256) : Hit :=
  let slot := cSlot dst
  let edgeOrLocal : Hit :=
    if 144 ≤ slot ∧ slot ≤ 147 then localPort s r (576 + (slot - 144)) else localHit s d vc h
  let t16 := target16 s r d vc h
  match r.id, ownerSw dst with
  | .leaf p q, .leaf p' q' =>
    if p = p' ∧ q = q' then
      if slot < aports r.rmap then localPort s r (portLink s slot (cFn dst))
      else if slot < 144 then .drop .unroutable
      else edgeOrLocal
    else t16 r.lt[128 * p' + q']?
  | .leaf _ _, .spine _ t => t16 r.st[t]?
  | .leaf _ _, .core g _ => t16 r.ct[g]?
  | .spine p i, .spine q j =>
    if p = q ∧ i = j then localHit s d vc h
    else if i = j then t16 r.ut[q]?
    else .drop .unroutable
  | .spine p _, .leaf q rk => if p = q then t16 r.dt[rk]? else t16 r.ut[q]?
  | .spine _ i, .core g k => if g = i then t16 r.kt[k]? else .drop .unroutable
  | .core g k, .core g' k' =>
    if g = g' ∧ k = k' then edgeOrLocal else .drop .unroutable
  | .core _ _, .leaf q _ => t16 r.dt[q]?
  | .core g _, .spine q i => if i = g then t16 r.dt[q]? else .drop .unroutable

/-- Axis length (Table RTE-10). -/
def Route.axisLen (r : Route) (axis : Nat) : Nat :=
  if axis = 0 then aports r.rmap else if axis = 1 then r.nracks else r.npods

/-- Position of a coordinate on an axis. -/
def axisPos (axis c : Nat) : Nat := if axis = 0 then cSlot c else if axis = 1 then cRack c else cPod c

/-- A coordinate with its position on an axis replaced. -/
def setAxisPos (axis c x : Nat) : Nat :=
  if axis = 0 then setBits c 11 4 x else if axis = 1 then setBits c 18 12 x else setBits c 26 19 x

/-- Whether this switch is the replicator of a multicast (Table RTE-10). -/
def Route.replicates (r : Route) (axis dst : Nat) : Bool :=
  match axis, r.id with
  | 0, .leaf p q => decide (p = cPod dst ∧ q = cRack dst)
  | 1, .spine p _ => decide (p = cPod dst)
  | 2, .core _ _ => true
  | _, _ => false

/-- The headers of the copies a replicator makes (R396). -/
def copies (r : Route) (h : BitVec 256) : List (BitVec 256) :=
  let n := r.axisLen (hAxis h)
  let b := axisPos (hAxis h) (hDst h)
  (List.range (min (hMcnt h) n)).map fun i =>
    setFld (setFld (setFld h 31 0 (setAxisPos (hAxis h) (hDst h) ((b + i) % n))) 78 77 0) 86 79 0

/-- A multicast before its replicator (Table RTE-10). -/
def towardReplicator (s : State) (r : Route) (d vc : Nat) (h : BitVec 256) : Hit :=
  let dst := hDst h
  let t16 := target16 s r d vc h
  match hAxis h, r.id with
  | 0, _ => unicast s r d vc (setBits dst 11 4 255) h
  | 1, .leaf p _ => if p = cPod dst then setHit s r d vc r.ax1 h else t16 r.lt[128 * cPod dst + cRack dst]?
  | 1, .spine _ _ => t16 r.ut[cPod dst]?
  | 1, .core _ _ => t16 r.dt[cPod dst]?
  | _, _ => setHit s r d vc r.ax2 h

/-- Where a packet whose DST lies in another plane goes (R384). -/
def otherPlane (r : Route) (h : BitVec 256) : Hit :=
  if ownerSw (hDst h) = r.id then .trail (cPlane (hDst h)) else .drop .unroutable

/-- The lookup of a packet under a route set: each copy with its header (R382, R384, R395, R396). -/
def lookup (s : State) (r : Route) (d vc : Nat) (h : BitVec 256) : List (BitVec 256 × Hit) :=
  if cPlane (hDst h) ≠ cPlane r.self then [(h, otherPlane r h)]
  else if hMcnt h = 0 then [(h, unicast s r d vc (hDst h) h)]
  else if r.replicates (hAxis h) (hDst h) then
    if r.axisLen (hAxis h) ≤ axisPos (hAxis h) (hDst h) then [(h, .drop .unroutable)]
    else (copies r h).map fun c => (c, unicast s r d vc (hDst c) c)
  else [(h, towardReplicator s r d vc h)]

/-- The set that routes a packet and gives its pools: that of its REPOCH, or the newest (R388, R394). -/
def State.setOf (s : State) (h : BitVec 256) : Option Route :=
  match s.routeOf (hRepoch h) with
  | some r => some r
  | none => s.newest

/-- The pool whose credits a packet uses on a link (R388, R399). -/
def State.poolOn (s : State) (l v : Nat) (h : BitVec 256) : Nat :=
  if v = 0 then 0 else match s.setOf h with
    | none => 0
    | some r => if r.endpointLink l then 0 else (lePool (r.linkEnt l) (hPart h)).getD 0

/-- The boot coordinate (R556). -/
def State.bootCoord (s : State) : Nat := mkCoord s.fuse.straps.planeSel.toNat 0 0 255 0

/-- The switch's coordinate: the newest route set's, or the boot coordinate before the first commit (R367, R556). -/
def State.selfCoord (s : State) : Nat := match s.newest with | some r => r.self | none => s.bootCoord

/-- Coordinate of internal endpoint `i` of this switch (R368). -/
def State.internal (s : State) (i : Nat) : Nat :=
  let c := s.selfCoord
  let n := match ownerSw c with | .spine _ _ => if i = 72 then 73 else i + 36 | _ => i
  mkCoord (cPlane c) (cPod c) (cRack c) (248 + n / 16) (n % 16)

/-- Where a packet comes from. -/
inductive From where
  | link (l : Nat)
  | trail
  | inside
  deriving DecidableEq, Repr

/-- The routes before the first plan (R556). -/
def bootLookup (s : State) (src : From) (vc : Nat) (h : BitVec 256) : Hit :=
  let dst := hDst h
  let own := s.bootCoord
  let here := decide (cPod dst = 0 ∧ cRack dst = 0)
  let lead := decide (s.fuse.straps.planeSel = 0)
  if vc ≠ 0 ∧ vc ≠ 3 ∧ vc ≠ 4 then .drop .unroutable
  else if !here then .drop .unroutable
  else if cPlane dst = cPlane own then
    if dst = own ∨ (isInternal dst ∧ intNum dst = 72) then .mp
    else if 144 ≤ cSlot dst ∧ cSlot dst ≤ 147 then .port (576 + (cSlot dst - 144)) none
    else .drop .unroutable
  else match src with
    | .inside => .trail (cPlane dst)
    | .trail => .trail (cPlane dst)
    | .link l => if lead && decide (576 ≤ l) then .trail (cPlane dst) else .drop .unroutable

/-- LEN, AXIS, MCNT, DST or format code make the packet malformed (R15, R377). -/
def malformed (vc : Nat) (h : BitVec 256) : Bool :=
  decide (hLen h > 4096) || (decide (vc = 1) && decide (hLen h > 2048)) || decide (hAxis h = 3) ||
  (decide (hAxis h ≠ 0) && decide (hMcnt h = 0)) || decide (hMcnt h > 144) || badDst (hDst h) ||
  (decide (hFmt h = 15) && (decide (1 ≤ hKind h ∧ hKind h ≤ 6)))

end Sys2Proof.Machine
end

