-- ==== Sys2Proof/Machine/Send.lean ====
section
/-!
DEFINITION. Buffers and accounts, the Trail transmit queue, and how a packet enters the part from a link, from the
Trail or from a unit of the part (chapters RTE, SWC; R22, R376, R384, R405 to R416).
-/
namespace Sys2Proof.Machine

/-! ### Accounts (R405 to R410) -/

/-- Flits and cells of a packet (R405). -/
def flitsOf (len : Nat) : Nat := cdiv (32 + len) 64

/-- Links of a die that name a link under a plan's splits, except the edge port of a spine (R397, R406). -/
def dieLinks (split : AMap Nat Nat) (role d : Nat) : List Nat :=
  ((List.range 36).flatMap fun q =>
    let p := 36 * d + q
    (List.range (subPorts (split.at p 0))).map fun j => 4 * p + j) ++
  (if role = 1 then [] else [576 + d])

/-- Distinct pools of the VALID entries of a link, ascending (R406); pool 0 alone on an endpoint link. -/
def linkPools (r : Route) (l : Nat) : List Nat :=
  if r.endpointLink l then [0]
  else (List.range 16).filter fun p => (List.range 64).any fun x => decide (lePool (r.linkEnt l) x = some p)

/-- The accounts that a plan gives a die, in the order of R406, each with its VC. -/
def dieAccounts (p : Plan) (d : Nat) : List (Nat × Acct) :=
  ((dieLinks p.split p.route.role d).flatMap fun l =>
    (0, Acct.link l 0) :: (List.range 7).flatMap fun v => (linkPools p.route l).map fun q => (v + 1, Acct.link l q)) ++
  ((List.range 9).flatMap fun c => (List.range 8).map fun v => (v, Acct.cluster (9 * d + c))) ++
  (if d = 0 then (List.range 8).map fun v => (v, Acct.mp) else [])

/-- SIZE of an account entry (Table SWC-1). -/
def aeSize (e : BitVec 64) : Nat := fld e 23 0
/-- MIN. -/
def aeMin (e : BitVec 64) : Nat := fld e 47 24
/-- AW. -/
def aeAw (e : BitVec 64) : Nat := fld e 51 48

/-- The account entry of a (VC, account) of a die; none before the first plan. -/
def acctEntry (s : State) (d vc : Nat) (a : Acct) : Option (BitVec 64) :=
  match s.plans.active with
  | none => none
  | some p =>
    let es := p.accounts.at d []
    match ((dieAccounts p d).zip es).find? fun x => decide (x.1 = (vc, a)) with
    | none => none
    | some x => some x.2

/-- A VC whose packets may be dropped (R408). -/
def droppable (vc : Nat) : Bool := decide (vc = 5 ∨ vc = 7)

/-- Flits that every copy of a packet on a die has moved. -/
def BufPkt.lowOn (b : BufPkt) (d : Nat) : Nat :=
  (minOf ((b.copies.filter fun k => decide (dieOfLink k.link = d)).map (·.moved))).getD b.flits

/-- Flits of a packet that another die no longer awaits: they have crossed to it, or no copy there needs them (R24). -/
def BufPkt.crossed (b : BufPkt) (d : Nat) : Nat := max (b.cross.at d 0) (b.lowOn d)

/-- Flits of a packet that its own die no longer holds: every copy on that die has moved them and they have crossed to
every other die with a copy (R24, R412). -/
def BufPkt.gone (b : BufPkt) : Nat :=
  b.copies.foldl (fun n k => min n (if dieOfLink k.link = b.die then k.moved else b.crossed (dieOfLink k.link))) b.flits

/-- Flits of a packet that have arrived and are freed (R412). -/
def BufPkt.freed (b : BufPkt) : Nat := min b.got b.gone

/-- Cells that a buffered packet holds on its own die: a droppable one holds all it will need from its head on, another
those of the flits that have arrived (R405, R413, R414). -/
def BufPkt.cells (b : BufPkt) : Nat := if droppable b.vc then b.flits - b.gone else b.got - b.freed

/-- Cells that a packet holds on a die that it has crossed to, for the copies there that have not moved yet (R24, R405). -/
def BufPkt.cellsOn (b : BufPkt) (d : Nat) : Nat :=
  if b.die = d ∨ b.vc = 1 then 0 else b.cross.at d 0 - b.lowOn d

/-- Result flits of a cluster that wait in the egress Pronk buffers (R406). -/
def pronkFlits (s : State) (a : Acct) : Nat :=
  s.sw.chans.foldl (fun n x => if x.1.2 = 1 then n + (x.2.pre.filter fun f => decide (f.acct = a ∧ f.n ≠ 0)).length else n) 0

/-- Cells in use by an account, or entries and flits of a VC1 account (R406). -/
def used (s : State) (d vc : Nat) (a : Acct) : Nat :=
  let held := (s.sw.buf.filter fun b => decide (b.die = d ∧ b.vc = vc ∧ b.acct = a)).foldl (fun n b => n + b.cells) 0
  match vc, a with
  | 1, .cluster _ => held + pronkFlits s a
  | _, _ => held

/-- ΣMIN of a die over the accounts other than those of VC1 (R407). -/
def sumMin (s : State) (d : Nat) : Nat :=
  match s.plans.active with
  | none => 0
  | some p => ((dieAccounts p d).zip (p.accounts.at d [])).foldl
      (fun n x => if x.1.1 = 1 then n else n + aeMin x.2) 0

/-- The (VC, account) pairs that hold cells on a die. -/
def holders (s : State) (d : Nat) : List (Nat × Acct) :=
  ((s.sw.buf.filter fun b => decide (b.die = d ∧ b.vc ≠ 1)).map fun b => (b.vc, b.acct)).eraseDups

/-- Cells of a die that hold packets of the other dies (R24, R405); they are shared cells (log entry 34). -/
def guests (s : State) (d : Nat) : Nat := s.sw.buf.foldl (fun n b => n + b.cellsOn d) 0

/-- Shared cells of a die that are free (R407). -/
def freeShared (s : State) (d : Nat) : Nat :=
  let inUse := (holders s d).foldl (fun n h =>
    n + (used s d h.1 h.2 - ((acctEntry s d h.1 h.2).map aeMin).getD 0)) 0
  (Config.dieCells - sumMin s d) - (inUse + guests s d)

/-- Whether a cluster or the MP may place `n` cells (R409); an unplanned account has room. -/
def hasRoom (s : State) (d vc : Nat) (a : Acct) (n : Nat) : Bool :=
  match acctEntry s d vc a with
  | none => true
  | some e => decide (used s d vc a + n ≤ aeSize e)

/-- Flits released to the sender of a link: FREED rises and its report is due (R342, R412). -/
def State.freeCredits (s : State) (l vc pool n : Nat) : State :=
  if n = 0 then s
  else
    let k := s.link l
    s.setLink l { k with
      freed := k.freed.put (vc, pool) ((k.freed.at (vc, pool) 0 + n) % 65536)
      dirty := if k.dirty.contains (vc, pool) then k.dirty else k.dirty ++ [(vc, pool)] }

/-- Cells of a buffered packet's account released. -/
def release (s : State) (b : BufPkt) (n : Nat) : State :=
  match b.acct with
  | .link l pool => if b.stale then s else s.freeCredits l b.vc pool n
  | _ => s

/-- The droppable packet that push-out evicts: of the die's VC5 packets that have not started, the one whose head came
last, and of equal heads the one from the highest link (R414, R415). -/
def evictee (s : State) (d : Nat) : Option BufPkt :=
  let c := s.sw.buf.filter fun b => decide (b.die = d ∧ b.vc = 5) && b.copies.all fun k => !k.started
  let rank (b : BufPkt) : Nat × Nat := (b.at_, match b.acct with | .link l _ => l | _ => 0)
  c.foldl (fun best b => match best with
    | none => some b
    | some x => if (rank x).1 < (rank b).1 ∨ ((rank x).1 = (rank b).1 ∧ (rank x).2 < (rank b).2) then some b else some x) none

/-- The place of an account in the fixed ring (R419). -/
def acctKey : Acct → Nat
  | .link l p => 16 * l + p
  | .cluster c => 9280 + c
  | .mp => 9316
  | .trail => 9317

/-- The copies that hold the standing requests of the virtual output queues toward a channel, oldest packet first: of each
account the oldest packet with a copy that waits for the channel (R418). -/
def State.heads (s : State) (l v : Nat) : List (BufPkt × Nat) :=
  s.sw.buf.foldl (fun rs b =>
    match b.copies.findIdx? fun k => decide (k.link = l ∧ k.vc = v) && !k.started && decide (k.moved = 0) with
    | none => rs
    | some k => if rs.any fun r => decide (r.1.acct = b.acct ∧ r.1.vc = b.vc) then rs else rs ++ [(b, k)]) []

/-- A copy of a packet changed. -/
def BufPkt.modCopy (b : BufPkt) (k : Nat) (f : Copy → Copy) : BufPkt :=
  { b with copies := b.copies.zipIdx.map fun x => if x.2 = k then f x.1 else x.1 }

/-- The standing requests toward a channel that begin now are stamped (R418, R425). -/
def State.beginRequests (s : State) (l v : Nat) : State :=
  (s.heads l v).foldl (fun s r =>
    let b := r.1.modCopy r.2 fun k => if k.since.isNone then { k with since := some s.now } else k
    { s with sw := { s.sw with buf := modWhere (fun x : BufPkt => decide (x.id = b.id)) (fun _ => b) s.sw.buf } }) s

/-- One VC5 packet evicted: every copy is discarded, its cells are released and PUSHOUT is counted (R415). -/
def evict (s : State) (b : BufPkt) : State :=
  let s := { s with sw := { s.sw with buf := s.sw.buf.filter fun x => x.id ≠ b.id } }
  b.copies.foldl (fun s k => (s.count .pushout k.link 0).beginRequests k.link k.vc) (release s b (b.got - b.freed))

/-- Push-out until `n` shared cells are free (R414). -/
def pushOut (d n : Nat) : Nat → State → State
  | 0, s => s
  | k + 1, s =>
    if n ≤ freeShared s d then s
    else match evictee s d with
      | none => s
      | some b => pushOut d n k (evict s b)

/-- Shared cells a packet of `n` cells needs beside its account's reservation (R407). -/
def needShared (s : State) (d vc : Nat) (a : Acct) (n : Nat) : Nat :=
  n - (((acctEntry s d vc a).map aeMin).getD 0 - used s d vc a)

/-- An output channel. -/
def State.chan (s : State) (l v : Nat) : Chan := s.sw.chans.at (l, v) {}

/-- An output channel replaced. -/
def State.setChan (s : State) (l v : Nat) (c : Chan) : State := { s with sw := { s.sw with chans := s.sw.chans.put (l, v) c } }

/-- Flits of a buffered packet that are queued toward a channel: those of its copies that have arrived and not moved. -/
def BufPkt.toward (b : BufPkt) (l v : Nat) : Nat :=
  b.copies.foldl (fun n k => if k.link = l ∧ k.vc = v then n + (b.got - k.moved) else n) 0

/-- Flits in the virtual output queues of all dies toward a channel; packets of VC1 never enter one (R225, R386, R438). -/
def State.voq (s : State) (l v : Nat) : Nat := if v = 1 then 0 else s.sw.buf.foldl (fun n b => n + b.toward l v) 0

/-- DEPTH of a channel (Table SWC-8). -/
def State.depth (s : State) (l v : Nat) : Nat := s.voq l v + (s.chan l v).pre.length

/-- DEPTH_MAX of a channel brought up to date. -/
def State.noteDepth (s : State) (l v : Nat) : State :=
  let c := s.chan l v
  if c.depthMax < s.depth l v then s.setChan l v { c with depthMax := s.depth l v } else s

/-- A packet put into the buffer of a die. -/
def State.putBuf (s : State) (b : BufPkt) : State :=
  b.copies.foldl (fun s k => (s.beginRequests k.link k.vc).noteDepth k.link k.vc)
    { s with sw := { s.sw with buf := s.sw.buf ++ [{ b with id := s.sw.id }], id := s.sw.id + 1 } }

/-! ### The Trail transmit queue (R384, R551, R557) -/

/-- Header of a Trail frame (Table MGT-11). -/
def frameHdr (type splane dplane bcast len : Nat) : BitVec 64 :=
  BitVec.ofNat 64 (type + splane <<< 4 + dplane <<< 9 + bcast <<< 14 + len <<< 16)

/-- A frame with its CRC (R551). -/
def mkFrame (h : BitVec 64) (payload : List Byte) : Frame :=
  { hdr := h, payload := payload, crc := BitVec.ofNat 32 (crc32c (toLE 8 h.toNat ++ payload)) }

/-- Bytes a frame occupies in a queue. -/
def Frame.size (f : Frame) : Nat := 12 + f.payload.length

/-- Bytes of a list of frames. -/
def framesSize (fs : List Frame) : Nat := fs.foldl (fun n f => n + Frame.size f) 0

/-- Own plane on the Trail: the plane of the switch's coordinate. -/
def State.plane (s : State) : Nat := cPlane s.selfCoord

/-- A frame of the member's own put into the transmit queue, when it fits. -/
def State.trailPut (s : State) (f : Frame) : State :=
  if framesSize s.trail.tx + Frame.size f ≤ Config.trailTxBytes then
    { s with trail := { s.trail with tx := s.trail.tx ++ [f] } }
  else s

/-- A frame of the member's own of a type to one plane. -/
def State.trailSend (s : State) (type plane : Nat) (payload : List Byte) : State :=
  s.trailPut (mkFrame (frameHdr type s.plane plane 0 payload.length) payload)

/-- A broadcast frame of the member's own. -/
def State.trailCast (s : State) (type : Nat) (payload : List Byte) : State :=
  s.trailPut (mkFrame (frameHdr type s.plane 0 1 payload.length) payload)

/-- A WAKE frame first, for a member whose latest CENSUS shows S3, at most once per 1 ms (R557). -/
def State.wakeFirst (s : State) (plane : Nat) : State :=
  match s.trail.members.find plane with
  | none => s
  | some m =>
    if decide (fld m.census 75 73 = 3) && (m.wakeAt.all fun t => decide (t + 1000000 ≤ s.now)) then
      let s := s.trailSend 0x7 plane []
      { s with trail := { s.trail with members := s.trail.members.put plane { m with wakeAt := some s.now } } }
    else s

/-- The bytes of a packet: header, then payload. -/
def packetBytes (p : Packet) : List Byte := toLE 32 p.hdr.toNat ++ p.payload

/-- A packet handed to the Trail interface (R384); `i` is the counter index of its ingress. -/
def State.toTrail (s : State) (i plane : Nat) (p : Packet) : State :=
  let s := s.wakeFirst plane
  let f := mkFrame (frameHdr 0x1 s.plane plane 0 (32 + p.payload.length)) (packetBytes p)
  if framesSize s.trail.tx + Frame.size f ≤ Config.trailTxBytes then
    ({ s with trail := { s.trail with tx := s.trail.tx ++ [f] } }).count .trailTx i 0
  else s.count .trailFull i 0

/-! ### Delivery of a looked-up packet -/

/-- The counter index of a source: its link, 580 the Trail, 581 a unit of the part (R404, R539). -/
def From.idx : From → Nat
  | .link l => l
  | .trail => 580
  | .inside => 581

/-- Whether the fences let a copy out on a link (R398, R489); `exempt` for packets with status FENCE. -/
def egressOpen (s : State) (r : Route) (exempt : Bool) (l part : Nat) : Bool :=
  lePart (r.linkEnt l) part && (lePool (r.linkEnt l) part).isSome && (exempt || !(s.part part).fenced)

/-- A steered packet behind those that came before it: of packets of one instant, the one from the lower input stands
first (R200; the input number is the ingress link's, log entry 29). -/
def steerIn (x : Steered) : List Steered → List Steered
  | [] => [x]
  | y :: ys => if y.at_ = x.at_ ∧ x.link < y.link then x :: y :: ys else y :: steerIn x ys

/-- A hit on a unit of the part delivered; ports are taken together by `deliver`. -/
def deliverUnit (s : State) (src : From) (vc : Nat) (p : Packet) (bad : Bool) (hit : Hit) : State :=
  let steer (dest : Option Nat) : State :=
    { s with sw := { s.sw with steer := steerIn { dest := dest, vc := vc, pkt := p, link := src.idx, bad := bad, at_ := s.now } s.sw.steer } }
  match hit with
  | .drop c => s.count c src.idx 0
  | .cluster c => steer (some c)
  | .mp => steer none
  | .trail pl => s.toTrail src.idx pl p
  | .port _ _ => s

/-- The copies of a packet that leave by ports, after the egress fence (R398, R422). -/
def portCopies (s : State) (r : Option Route) (exempt : Bool) (hs : List (BitVec 256 × Hit)) (vc : Nat) :
    State × List Copy × Option Nat :=
  hs.foldl (fun acc x =>
    match x.2 with
    | .port l cand =>
      let ok := match r with | none => true | some r => egressOpen acc.1 r exempt l (hPart x.1)
      if ok then (acc.1, acc.2.1 ++ [{ link := l, vc := vc, hdr := x.1 }], cand)
      else (acc.1.count .fenceOut l 0, acc.2.1, acc.2.2)
    | _ => acc) (s, [], none)

/-! ### A unit of the part originates a packet (R376, R409) -/

/-- What becomes of a packet by its epoch: a counted drop, or VC, header, route set, and whether it escapes (R393). -/
inductive Entry where
  | drop (c : Ctr)
  | go (vc : Nat) (hdr : BitVec 256) (r : Route) (esc : Bool)

/-- The set that routes a packet, and its VC, by its epoch (R388, R393, R394). -/
def byEpoch (s : State) (newest : Route) (vc : Nat) (h : BitVec 256) : Entry :=
  match s.routeOf (hRepoch h) with
  | some r => .go vc h r false
  | none =>
    if vc = 6 then .go 6 h newest false
    else if vc = 1 ∨ vc = 5 ∨ vc = 7 then .drop .epochDrop
    else .go 6 h newest true

/-- The way of a packet of the part: its VC, its route set and its lookup; it is routed by its epoch as any packet is, and
one without a set is dropped or escapes (R388, R393). -/
structure Way where
  vc : Nat
  r : Option Route
  hits : List (BitVec 256 × Hit)
  ctr : Option Ctr

/-- The way of a packet that a unit of the part originates. -/
def State.wayOf (s : State) (d vc : Nat) (h : BitVec 256) : Way :=
  match s.newest with
  | none => { vc := vc, r := none, hits := [(h, bootLookup s .inside vc h)], ctr := none }
  | some n => match byEpoch s n vc h with
    | .drop c => { vc := vc, r := some n, hits := [], ctr := some c }
    | .go v h r esc => { vc := v, r := some r, hits := lookup s r d v h, ctr := if esc then some .epochEsc else none }

/-- Copies made by the switch as replicator, counted at index `i` (R395, R404): a copy's MCNT is 0. -/
def State.noteCopies (s : State) (i : Nat) (h : BitVec 256) (hs : List (BitVec 256 × Hit)) : State :=
  let n := (hs.filter fun x => decide (hMcnt x.1 = 0)).length
  if hMcnt h = 0 ∨ n = 0 then s else s.countN .mcCopies i 0 n

/-- RELEASE_LATE counted for a barrier result (R247). -/
def State.releaseLate (s : State) (h : BitVec 256) : State :=
  match s.collPlan h with
  | none => s
  | some pl => match pl.cid (hCid h) with
    | none => s
    | some (slot, _) => s.count .releaseLate slot ((pl.ownerOf slot (hChunk h)).getD 0)

/-- Whether a header is that of a RESULT of a TBARRIER slot (R245). -/
def isTbarrier (s : State) (h : BitVec 256) : Bool :=
  decide (hKind h = 2) && (match s.collPlan h with
    | none => false
    | some pl => match pl.cid (hCid h) with
      | none => false
      | some (slot, _) => match (pl.slot slot).bind (·.pronk) with | none => false | some x => decide (fld x 1 0 = 2))

/-- A TBARRIER result toward an endpoint waits for its release FT in the port's timed-release hold (R246, R247). -/
def holdTbarrier (s : State) (cps : List Copy) (p : Packet) : State × List Copy :=
  if !isTbarrier s p.hdr then (s, cps)
  else
    let t := leAt p.payload 0 8
    cps.foldl (fun acc k =>
      if (s.newest.any fun r => r.endpointLink k.link) then
        let lk := acc.1.link k.link
        if acc.1.ftSet = true ∧ acc.1.ftNow < t ∧ lk.hold.length < 16 then
          (acc.1.setLink k.link { lk with hold := lk.hold ++ [(t, { p with hdr := k.hdr })] }, acc.2)
        else (acc.1.releaseLate p.hdr, acc.2 ++ [k])
      else (acc.1, acc.2 ++ [k])) (s, [])

/-- Whether a packet bears the status or the cause FENCE and so passes the fence (R489). -/
def fenceExempt (p : Packet) : Bool :=
  decide (hStatus p.hdr = 0x40) || (decide (hKind p.hdr = 4) && decide (leAt p.payload 4 1 = 0x40))

/-- Whether a packet of the part passes the fence: as above, or as a WRITE of the MP, which only a snapshot export sends
(R489, R490). -/
def OutPkt.exempt (o : OutPkt) : Bool :=
  fenceExempt o.pkt || decide (o.acct = .mp ∧ hKind o.pkt.hdr = 5 ∧ hMop o.pkt.hdr = 1)

/-- Room for a packet of `n` cells that a unit of the part places (R409): its account takes all of them; a lossless one
pushes out where the shared cells are full, a droppable one needs them free, and one of VC1 holds none (R408, R411, R413,
R414). -/
def makeRoom (s : State) (d vc : Nat) (a : Acct) (n : Nat) : Option State :=
  if !hasRoom s d vc a n then none
  else if vc = 1 then some s
  else if droppable vc then (if needShared s d vc a n ≤ freeShared s d then some s else none)
  else some (pushOut d (needShared s d vc a n) s.sw.buf.length s)

/-- A packet placed where its lookup sends it; none when its account lacks room (R409). -/
def place (s : State) (o : OutPkt) : Option State :=
  let w := s.wayOf o.die o.vc o.pkt.hdr
  let s := match w.ctr with | none => s | some c => s.count c 581 0
  let s := w.hits.foldl (fun s x => deliverUnit s .inside w.vc { o.pkt with hdr := x.1 } false x.2) s
  let s := s.noteCopies 581 o.pkt.hdr w.hits
  let pc := portCopies s w.r o.exempt w.hits w.vc
  let ht := holdTbarrier pc.1 pc.2.1 o.pkt
  if ht.2.isEmpty then some ht.1
  else
    let n := flitsOf o.pkt.payload.length
    (makeRoom ht.1 o.die o.vc o.acct n).map fun s =>
      s.putBuf { id := 0, pkt := o.pkt, vc := o.vc, acct := o.acct, die := o.die, at_ := s.now, got := n,
                 flits := n, cand := pc.2.2, copies := ht.2 }

/-- A packet that a unit of the part originates: it is placed, or waits for room behind those of its account. -/
def originate (s : State) (o : OutPkt) : State :=
  let behind := s.sw.wait.any fun w => decide (w.acct = o.acct ∧ w.vc = o.vc)
  let waits : State := { s with sw := { s.sw with wait := s.sw.wait ++ [o] } }
  if behind then waits else (place s o).getD waits

/-- Waiting packets placed in order, as room allows (R409). -/
def drainWait (s : State) : State :=
  s.sw.wait.foldl (fun s o => originate s o) { s with sw := { s.sw with wait := [] } }

/-- Injection epoch (R391). -/
def State.injEpoch (s : State) : Nat := match s.newest with | none => 0 | some r => r.repoch

/-- A packet from cluster `cl` on a VC, under a partition. -/
def State.fromCluster (s : State) (cl vc part : Nat) (p : Packet) (refusal : Bool := false) : State :=
  let h := setFld (setFld (setFld p.hdr 63 32 (s.internal cl)) 92 87 part) 94 93 s.injEpoch
  originate s { pkt := { p with hdr := h }, vc := vc, acct := .cluster cl, die := dieOf cl, refusal := refusal }

/-- A packet from the MP on a VC, under a partition. -/
def State.fromMp (s : State) (vc part : Nat) (p : Packet) : State :=
  let h := setFld (setFld (setFld p.hdr 63 32 (s.internal 72)) 92 87 part) 94 93 s.injEpoch
  originate s { pkt := { p with hdr := h }, vc := vc, acct := .mp, die := 0 }

/-- Whether the output assembly of a cluster has room: none of its packets waits for its account (R177, R409). -/
def outRoom (s : State) (cl : Nat) : Bool := !(s.sw.wait.any fun w => decide (w.acct = .cluster cl))

/-! ### Arrival (R376, R377, R393, R398, R436, R497) -/

/-- Coordinate of the endpoint on a link, as far as R376 compares it. -/
def linkCoord (s : State) (r : Route) (l : Nat) : Nat :=
  let c := r.self
  let slot := if 576 ≤ l then 144 + (l - 576) else l / 4
  let k := s.sw.split.at (l / 4) 0
  let fn := if l < 576 then (if k = 1 then (l % 4) <<< 3 else if k = 2 then (l % 4) <<< 2 else 0) else 0
  mkCoord (cPlane c) (cPod c) (cRack c) slot fn

/-- Whether SRC is the coordinate of its endpoint link (R376). -/
def srcOk (s : State) (r : Route) (l src : Nat) : Bool :=
  let c := linkCoord s r l
  let k := if l < 576 then s.sw.split.at (l / 4) 0 else 0
  let lo := if k = 1 then 3 else if k = 2 then 2 else 4
  decide (src >>> lo = c >>> lo)

/-- A sample record (Table SWC-7) queued at the MP (R437). -/
def State.sample (s : State) (l vc outcome : Nat) (p : Packet) : State :=
  if s.mp.samples.length < Config.sampleQueue then
    let r := toLE 8 s.ftNow ++ toLE 2 l ++ toLE 1 vc ++ toLE 1 outcome ++ toLE 2 (hLen p.hdr) ++ zeros 18 ++
      slice (packetBytes p) 0 128
    ({ s with mp := { s.mp with samples := s.mp.samples ++ [r] } }).count .sampled l 0
  else s.count .sampleLost l 0

/-- Outcome code of Table SWC-7 over the copies of a packet: Forward when a copy goes to a port, else what takes it. A
packet handed to the Trail, for which Tables ARC-2 and SWC-7 list no outcome, counts as Forward: DESIGN CHOICE (log entry
37). -/
def outcomeCode (vc : Nat) (hs : List Hit) : Nat :=
  if hs.any fun x => match x with | .port _ _ => true | .trail _ => true | _ => false then 0
  else if hs.any fun x => match x with | .cluster _ => true | _ => false then (if vc = 1 then 2 else 1)
  else if hs.contains .mp then 3 else 4

/-- Sampling of a packet at its ingress lookup; `counts`: it passes R376 and R377, and the link counts it unless it is one
of VC0 (R436). -/
def State.sampleTick (s : State) (l vc : Nat) (counts : Bool) (hs : List Hit) (p : Packet) : State :=
  let k := s.link l
  if k.sampN = 0 || vc = 0 || !counts then s
  else if k.sampCnt + 1 < k.sampN then s.setLink l { k with sampCnt := k.sampCnt + 1 }
  else (s.setLink l { k with sampCnt := 0 }).sample l vc (outcomeCode vc hs) p

/-- An endpoint link is dark: OWNPART is not assigned, or its partition is OFF (Table RTE-11, R541). -/
def State.darkLink (s : State) (r : Route) (l : Nat) : Bool :=
  !leOwnValid (r.linkEnt l) || decide ((s.part (leOwn (r.linkEnt l))).fn.st = .off)

/-- What stands before the lookup of an arriving packet: malformed, fence, source and epoch (R376, R377, R393, R398). -/
def admission (s : State) (r : Route) (src : From) (vc : Nat) (h : BitVec 256) : Entry :=
  if malformed vc h then .drop .malformed
  else match src with
    | .link l =>
      if (s.link l).disc ≠ .used then .drop .fenceIn
      else if r.endpointLink l then
        if s.darkLink r l then .drop .fenceIn
        else if !srcOk s r l (hSrc h) then .drop .spoof
        else byEpoch s r vc (setFld (setFld h 92 87 (leOwn (r.linkEnt l))) 94 93 r.repoch)
      else
        let set := (s.routeOf (hRepoch h)).getD r
        if lePart (set.linkEnt l) (hPart h) then byEpoch s r vc h else .drop .fenceIn
    | _ => byEpoch s r vc h

/-- A packet on a port or toward the Trail of a FENCED partition is dropped at ingress (R489). -/
def fencedHits (s : State) (exempt : Bool) (hs : List (BitVec 256 × Hit)) : List (BitVec 256 × Hit) :=
  hs.map fun x => match x.2 with
    | .port _ _ => if (s.part (hPart x.1)).fenced && !exempt then (x.1, .drop .fenceIn) else x
    | _ => x

/-- A looked-up packet delivered and buffered: `total` flits in all, `got` of them here (R22, R413, R414). `vin` is the
VC it came on, whose account holds its cells, and `vc` the one it goes on (R393). Answers the state and the id under which
the rest of a cut-through packet is added. -/
def enter (s : State) (src : From) (vin vc total got : Nat) (p : Packet) (bad : Bool) (r : Option Route)
    (hs : List (BitVec 256 × Hit)) : State × Option Nat :=
  let s := hs.foldl (fun s x => deliverUnit s src vc { p with hdr := x.1 } bad x.2) s
  let s := s.noteCopies src.idx p.hdr hs
  let pc := portCopies s r false hs vc
  let ht := if total ≤ got then holdTbarrier pc.1 pc.2.1 p else (pc.1, pc.2.1)
  if ht.2.isEmpty then (ht.1, none)
  else
    let s := ht.1
    let d := match src with | .link l => dieOfLink l | _ => 0
    let a : Acct := match src with
      | .link l => .link l (s.poolOn l vin p.hdr)
      | .trail => .trail
      | .inside => .mp
    let b : BufPkt := { id := 0, pkt := p, vc := vin, acct := a, die := d, at_ := s.now, got := got, flits := total,
                        bad := bad, cand := pc.2.2, copies := ht.2 }
    if droppable vin then
      if needShared s d vin a total ≤ freeShared s d then (s.putBuf b, some s.sw.id)
      else (s.count .tailDrop src.idx 0, none)
    else if vin = 1 then (s.putBuf b, some s.sw.id)
    else
      let s := pushOut d (needShared s d vin a got) s.sw.buf.length s
      (s.putBuf b, some s.sw.id)

/-- An MREQ for the boot coordinate is refused with NO_REGION (R556): the response of Table MEM-4. -/
def bootRefusal (s : State) (p : Packet) : State :=
  if hKind p.hdr = 5 then
    s.fromMp 4 0 (mkPkt (mkHdr [⟨31, 0, hSrc p.hdr⟩, ⟨99, 96, 6⟩, ⟨114, 112, hMop p.hdr⟩,
      ⟨135, 120, hTag p.hdr⟩, ⟨167, 136, hOffset p.hdr⟩, ⟨199, 188, hPkt p.hdr⟩, ⟨220, 213, 0x60⟩]) [])
  else s

/-- Whether SRC is that of an A-port's endpoint with the PLANE of the link taken as the target's (R376, R497). -/
def fawnSrcOk (s : State) (l tp : Nat) (r : Route) (src : Nat) : Bool :=
  decide (cPlane src = tp) && srcOk s r l (setBits src 31 27 (cPlane r.self))

/-- The outcome of a packet on an A-port of a reserve leaf in Fawn mode (R497): contributions to the target's leaf are taken
by the shadow configuration, everything else is dropped. -/
def fawnHit (s : State) (l tp : Nat) (r : Route) (vc : Nat) (h : BitVec 256) : Hit :=
  let dst := hDst h
  if malformed vc h then .drop .malformed
  else if !leOwnValid (r.linkEnt l) ∨ (s.link l).disc ≠ .used then .drop .fenceIn
  else if !fawnSrcOk s l tp r (hSrc h) then .drop .spoof
  else if hKind h = 1 ∧ cPlane dst = tp ∧ ownerSw dst = r.id ∧ s.fawn.live then
    let c := match s.fawn.plan with
      | none => none
      | some pl => match pl.cid (hCid h) with
        | none => none
        | some (slot, _) => pl.ownerOf slot (hChunk h)
    .cluster (c.getD (9 * dieOfLink l))
  else .drop .shadowDrop

/-- The effect of R497 on a packet from an A-port. -/
def fawnArrive (s : State) (l tp : Nat) (r : Route) (vc : Nat) (p : Packet) (bad : Bool) : State :=
  match fawnHit s l tp r vc p.hdr with
  | .drop .shadowDrop => s.count .shadowDrop 0 0
  | x => deliverUnit s (.link l) vc { p with hdr := setFld p.hdr 92 87 (leOwn (r.linkEnt l)) } bad x

/-- The target plane when an arrival falls under R497. -/
def fawnTarget (s : State) (src : From) (r : Route) : Option (Nat × Nat) :=
  match src, s.fawn.target with
  | .link l, some t =>
    if s.fawn.fn.st = .on ∧ r.role = 3 ∧ l < 576 ∧ l / 4 < aports r.rmap then some (l, t) else none
  | _, _ => none

/-- The answer to a refused collective packet (R208): the echoed fields, the status and the active epoch tag. -/
def answerPkt (s : State) (h : BitVec 256) (st : Nat) : Packet :=
  let tag := match s.plans.active with | none => 0 | some p => p.pepoch % 256
  mkPkt (mkHdr [⟨31, 0, hSrc h⟩, ⟨99, 96, 3⟩, ⟨111, 104, tag⟩, ⟨135, 112, hCid h⟩, ⟨151, 136, hInst h⟩,
    ⟨171, 152, hChunk h⟩, ⟨187, 172, hContrib h⟩, ⟨199, 188, hPkt h⟩, ⟨220, 213, st⟩]) []

/-- Answers that a cluster has queued (R210). -/
def State.answers (s : State) (cl : Nat) : Nat :=
  (s.sw.wait.filter fun w => decide (w.acct = .cluster cl ∧ hKind w.pkt.hdr = 3)).length

/-- An answer queued by a cluster, or lost when its answer queue is full (R208, R210). -/
def State.sendAnswer (s : State) (cl vc part : Nat) (p : Packet) : State :=
  if s.answers cl < Config.answerQueue then s.fromCluster cl vc part p else s.count .answerLost cl 0

/-- A collective packet whose CID maps to no slot of its partition is answered by the ingress die (R197, R223). -/
def answerUnknown (s : State) (src : From) (hs : List (BitVec 256 × Hit)) : State :=
  let d := match src with | .link l => dieOfLink l | _ => 0
  hs.foldl (fun s x =>
    if x.2 = .drop .unknownColl ∧ isCollKind (hKind x.1) then s.sendAnswer (9 * d) 2 (hPart x.1) (answerPkt s x.1 0x10) else s) s

/-- A packet sampled at its ingress lookup when it came on a link (R436). -/
def State.sampled (s : State) (src : From) (vc : Nat) (counts : Bool) (hs : List Hit) (p : Packet) : State :=
  match src with | .link l => s.sampleTick l vc counts hs p | _ => s

/-- A packet passes R376 and R377; on an endpoint link by its SRC. -/
def passesSrc (s : State) (r : Route) (src : From) (vc : Nat) (h : BitVec 256) : Bool :=
  !malformed vc h && (match src with | .link l => !r.endpointLink l || srcOk s r l (hSrc h) | _ => true)

/-- The lookup of an admitted packet, after what R384 and R489 drop. -/
def admittedHits (s : State) (r r' : Route) (src : From) (vc : Nat) (p : Packet) : List (BitVec 256 × Hit) :=
  let h := p.hdr
  let d := match src with | .link l => dieOfLink l | _ => 0
  fencedHits s (fenceExempt p) (match src with
    | .trail => if ownerSw (hDst h) = r.id ∧ cPlane (hDst h) = cPlane r.self then lookup s r' d vc h else [(h, .drop .unroutable)]
    | _ => lookup s r' d vc h)

/-- The rest of an arrival whose packet is whole or whose head has come: lookup, sampling and delivery. -/
def arrive (s : State) (src : From) (vc total got : Nat) (p : Packet) (bad : Bool) : State × Option Nat :=
  match s.newest with
  | none =>
    let h := if malformed vc p.hdr then .drop .malformed else bootLookup s src vc p.hdr
    let s := s.sampled src vc (!malformed vc p.hdr) [h] p
    if h = .mp ∧ hKind p.hdr = 5 then (bootRefusal s p, none)
    else enter s src vc vc total got p bad none [(p.hdr, h)]
  | some r => match fawnTarget s src r with
   | some (l, t) =>
     let s := s.sampled src vc (!malformed vc p.hdr && fawnSrcOk s l t r (hSrc p.hdr)) [fawnHit s l t r vc p.hdr] p
     (fawnArrive s l t r vc p bad, none)
   | none => match admission s r src vc p.hdr with
    | .drop c => ((s.sampled src vc (passesSrc s r src vc p.hdr) [.drop c] p).count c src.idx 0, none)
    | .go vc' h r' esc =>
      let s := if esc then s.count .epochEsc src.idx 0 else s
      let p := { p with hdr := h }
      let hs := admittedHits s r r' src vc' p
      let s := s.sampled src vc true (hs.map (·.2)) p
      enter (answerUnknown s src hs) src vc vc' total got p bad (some r') hs

end Sys2Proof.Machine
end

