-- ==== Sys2Proof/Machine/Events.lean ====
section
/-!
DEFINITION. Event records, completions and health events of the management processor (R513, R542, R543).
-/
namespace Sys2Proof.Machine

/-! ### Event codes (Table MGT-8) -/

/-- COMPLETION. -/
def evCompletion : Nat := 0x0001
/-- PART_FENCED. -/
def evPartFenced : Nat := 0x0010
/-- PART_DEGRADED. -/
def evPartDegraded : Nat := 0x0011
/-- NBR_EXTRA. -/
def evNbrExtra : Nat := 0x0020
/-- NBR_WRONG. -/
def evNbrWrong : Nat := 0x0021
/-- NBR_MISSING. -/
def evNbrMissing : Nat := 0x0022
/-- LINK_STATE. -/
def evLinkState : Nat := 0x0023
/-- HOLD_CUT. -/
def evHoldCut : Nat := 0x0030
/-- STARVE. -/
def evStarve : Nat := 0x0031
/-- PLAN_CONFLICT. -/
def evPlanConflict : Nat := 0x0040
/-- PLAN_SKEW. -/
def evPlanSkew : Nat := 0x0041
/-- DIGEST_MISSING. -/
def evDigestMissing : Nat := 0x0042
/-- SHADOW_MISMATCH. -/
def evMismatch : Nat := 0x0050
/-- THROTTLE. -/
def evThrottle : Nat := 0x0060
/-- ERROR_CLASS. -/
def evErrorClass : Nat := 0x0061
/-- TIME_STATE. -/
def evTimeState : Nat := 0x0070
/-- LEAD_CONFLICT. -/
def evLeadConflict : Nat := 0x0071

/-- A record as Table MGT-7 lays it out. -/
def eventRec (ft code status mbx eseq op seq detail : Nat) : BitVec 256 :=
  BitVec.ofNat 256 (ft % 2 ^ 64 + code <<< 64 + status <<< 80 + mbx <<< 88 + eseq <<< 96 + op <<< 112 + seq <<< 128 +
    (detail % 2 ^ 112) <<< 144)

/-- A record given to one mailbox: sent as an MEVENT when the mailbox has a destination, else queued, the oldest
record giving way in a full queue (R543). -/
def State.eventTo (s : State) (m code status op seq detail : Nat) : State :=
  let b := s.box m
  let e := eventRec s.ftNow code status m b.eseq op seq detail
  let b' := { b with eseq := (b.eseq + 1) % 65536 }
  match b.dest with
  | some (dst, part) =>
    (s.setBox m b').fromMp 0 part (mkPkt (mkHdr [⟨31, 0, dst⟩, ⟨99, 96, 0xD⟩, ⟨102, 100, m⟩]) (toLE 32 e.toNat))
  | none =>
    if b.events.length < Config.eventQueue then s.setBox m { b' with events := b.events ++ [e] }
    else (s.setBox m { b' with events := b.events.drop 1 ++ [e] }).count .eventLost 0 0

/-- The partition mailboxes of a list of partitions. -/
def State.boxesOf (s : State) (parts : List Nat) : List Nat :=
  (List.range 8).filter fun m => decide (m ≠ 0) && (match (s.box m).part with | none => false | some p => parts.contains p)

/-- An event of the part: mailbox 0 queues it, and so do the mailboxes of the partitions it concerns (R543). The MP
reports nothing while it does not execute (R32). -/
def State.event (s : State) (code status detail : Nat) (parts : List Nat) : State :=
  if s.mp.running then
    (0 :: s.boxesOf parts).foldl (fun s m => s.eventTo m code status 0 0 detail) s
  else s

/-- The COMPLETION of a deferred request (R533, R543). -/
def State.complete (s : State) (r : Req) (status detail : Nat) : State :=
  if s.mp.running then
    (if r.mbx = 0 then [0] else [0, r.mbx]).foldl (fun s m => s.eventTo m evCompletion status r.op r.seq detail) s
  else s

/-- Weights of the health events in the row order of Table RES-6. -/
def healthWeights : List Nat := [1, 1, 2, 5, 5, 10, 10, 20, 50, 50, 100, 200, 300, 400, 800]

/-- `n` health events of a row of Table RES-6: they are counted and their weight is added to the debt (R513). -/
def State.health (s : State) (row n : Nat) : State :=
  if s.mp.running then
    { s with mp := { s.mp with
      health := s.mp.health.mod row 0 fun x => x + n
      debt := min 1000000 (s.mp.debt + n * (healthWeights[row]?).getD 0) } }
  else s

/-- Rows of Table RES-6. -/
def hFecUncorr : Nat := 0
/-- CHECK_IN. -/
def hCheckIn : Nat := 1
/-- Thermal throttle entered. -/
def hThrottle : Nat := 2
/-- RETRAINS. -/
def hRetrain : Nat := 3
/-- HOLD_CUT. -/
def hHoldCut : Nat := 4
/-- MIRROR_FAIL. -/
def hMirror : Nat := 5
/-- NBR_WRONG, NBR_MISSING, PART_DEGRADED. -/
def hNbr : Nat := 6
/-- DEGRADES; link DOWN not by command. -/
def hDegrade : Nat := 7
/-- ECC_UNCORR. -/
def hEcc : Nat := 8
/-- PLAN_CONFLICT or PLAN_SKEW lasting past the overlap window. -/
def hPlan : Nat := 9
/-- CHECK_INT, HDR_PARITY. -/
def hInternal : Nat := 10
/-- RESIDUE_FAIL. -/
def hResidue : Nat := 11
/-- SHADOW_MISMATCH. -/
def hMismatch : Nat := 12
/-- Class C4 error. -/
def hC4 : Nat := 13
/-- Class C5 error. -/
def hC5 : Nat := 14

/-- The partitions that an endpoint link's events concern. -/
def State.linkParts (s : State) (l : Nat) : List Nat :=
  match s.plans.active with
  | none => []
  | some p =>
    let e := p.route.linkEnt l
    if p.route.endpointLink l && leOwnValid e then [leOwn e] else []

/-- An internal class C2 error counted (R483). -/
def State.checkInt (s : State) : State := (s.count .checkInt 0 0).health hInternal 1

end Sys2Proof.Machine
end

