-- ==== Sys2Proof/Machine/CollGeo.lean ====
section
/-!
DEFINITION. Where a chunk lies and how it is cut: owners, cores, contributors, slices, headers of collective packets
and the requests of the part's own units (R34, R35, R96, R190 to R193, R218, R282, R288).
-/
namespace Sys2Proof.Machine

/-! ### Status codes (Table SCO-4) -/

/-- TIMEOUT. -/
def stTimeout : Nat := 0x20
/-- EPOCH_MISMATCH. -/
def stEpoch : Nat := 0x21
/-- DUPLICATE. -/
def stDuplicate : Nat := 0x22
/-- LATE. -/
def stLate : Nat := 0x23
/-- BUSY. -/
def stBusy : Nat := 0x24
/-- ABORTED. -/
def stAborted : Nat := 0x25
/-- CHECK_FAIL. -/
def stCheck : Nat := 0x30
/-- RESIDUE_FAIL. -/
def stResidueFail : Nat := 0x31
/-- FENCE. -/
def stFence : Nat := 0x40
/-- NOT_STAGED. -/
def stNotStaged : Nat := 0x41
/-- QUEUED. -/
def stQueued : Nat := 0x42
/-- DENIED. -/
def stDenied : Nat := 0x43

/-! ### Plans of records -/

/-- The plan that the instances bound to an epoch tag run under (R105, R209, R494). -/
def State.planBound (s : State) (slot etag : Nat) : Option Plan :=
  if isShadow slot then s.fawn.plan
  else (s.plans.active.toList ++ (s.plans.prev.bind (·.1)).toList ++ s.plans.old).find? fun p => decide (p.pepoch % 256 = etag)

/-- The current instance of a chunk; none where it takes that of its first admitted packet (R201, R497, R510). -/
def State.curInst (s : State) (cfg : SlotCfg) (slot : Nat) (c : ChunkSt) : Option Nat :=
  match c.cur with
  | some i => some i
  | none => if isShadow slot || s.plans.takes then none else some cfg.inst0

/-- The record of an instance. -/
def ChunkSt.recOf (c : ChunkSt) (inst : Nat) : Option Rec := c.recs.find? fun r => decide (r.inst = inst)
/-- A record replaced. -/
def ChunkSt.putRec (c : ChunkSt) (r : Rec) : ChunkSt := { c with recs := modWhere (fun x => decide (x.inst = r.inst)) (fun _ => r) c.recs }

/-- A chunk at its owner cluster, with the plan its instance runs under. -/
structure CEnv where
  plan : Plan
  cfg : SlotCfg
  cl : Nat
  slot : Nat
  h : Nat

/-- The chunk under the plan bound to an epoch tag. -/
def State.cenv (s : State) (cl slot h etag : Nat) : Option CEnv :=
  match s.planBound slot etag with
  | none => none
  | some p => (p.slot slot).map fun c => ⟨p, c, cl, slot, h⟩

/-- Its state. -/
def State.ch (s : State) (e : CEnv) : ChunkSt := s.chunk e.cl e.slot e.h
/-- Its state replaced. -/
def State.setCh (s : State) (e : CEnv) (c : ChunkSt) : State := s.setChunk e.cl e.slot e.h c
/-- Collective ID. -/
def CEnv.cid (e : CEnv) : Nat := e.plan.cidOf e.slot
/-- Partition. -/
def CEnv.part (e : CEnv) : Nat := e.plan.partOf e.slot

/-! ### Core assignment (Table ARC-4, R545) -/

/-- The cores of a cluster that the assignment of a chunk names. -/
def CEnv.cores (e : CEnv) : List Nat :=
  match e.plan.owner e.cl e.slot e.h with
  | none => []
  | some o => (List.range (owNcore o)).map (owCore0 o + ·)

/-- The elements [lo, hi) of the chunk that core `k` owns (R35). -/
def CEnv.range (e : CEnv) (k : Nat) : Nat × Nat :=
  match e.plan.owner e.cl e.slot e.h with
  | none => (0, 0)
  | some o => let lo := (k - owCore0 o) * owEpc o; (min lo e.cfg.elems, min (lo + owEpc o) e.cfg.elems)

/-- The program of the slot on core `k`. -/
def CEnv.prog (e : CEnv) (k : Nat) : Option ProgCfg := e.plan.prog e.cl e.slot k

/-- Whether core `k` holds a context of the chunk: it runs a program, or a FUSED slot accumulates on it. -/
def CEnv.hasCtx (e : CEnv) (k : Nat) : Bool := (e.prog k).isSome || e.cfg.fused

/-- Global core number. -/
def CEnv.g (e : CEnv) (k : Nat) : Nat := 128 * e.cl + k

/-- NINST of a program (Table TSI-5). -/
def ProgCfg.ninst (p : ProgCfg) : Nat := fld p.h0 10 0
/-- ENTRY_INIT; none when the program has no INIT. -/
def ProgCfg.init (p : ProgCfg) : Option Nat := let x := fld p.h0 26 16; if x = 0x7FF then none else some x
/-- ENTRY_SLICE. -/
def ProgCfg.slice (p : ProgCfg) : Nat := fld p.h0 42 32
/-- ENTRY_FINAL. -/
def ProgCfg.final (p : ProgCfg) : Nat := fld p.h0 58 48
/-- CTX_XS. -/
def ProgCfg.ctxXs (p : ProgCfg) : Nat := fld p.h1 7 0
/-- CTX_XP. -/
def ProgCfg.ctxXp (p : ProgCfg) : Nat := fld p.h1 11 8
/-- CTX_BASE in 64-byte units. -/
def ProgCfg.ctxBase (p : ProgCfg) : Nat := fld p.h1 26 16
/-- CTX_COUNT. -/
def ProgCfg.ctxCount (p : ProgCfg) : Nat := fld p.h1 29 27
/-- Watchdog limit in cycles. -/
def ProgCfg.limit (p : ProgCfg) : Nat := let w := fld p.h1 47 32; (if w = 0 then 256 else w) * 256

/-! ### Contributors (R193, R218) -/

/-- Coordinate of contributor `k`: MBASE advanced by k along MAXIS, modulo the axis length. -/
def memberCoord (p : Plan) (c : SlotCfg) (k : Nat) : Nat :=
  setAxisPos c.maxis c.mbase ((axisPos c.maxis c.mbase + k) % max 1 (p.route.axisLen c.maxis))

/-- Whether two coordinates name the same sender: the same endpoint, FUNCTION aside, or two units of one switch. -/
def sameSender (a b : Nat) : Bool :=
  if cSlot b < 148 then decide (a >>> 4 = b >>> 4) else sameOwner a b

/-- Whether a source is member `k` of a slot. -/
def isMember (p : Plan) (c : SlotCfg) (src k : Nat) : Bool := decide (k < c.g) && sameSender src (memberCoord p c k)

/-- Whether a source is the PARENT of a slot. -/
def isParent (c : SlotCfg) (src : Nat) : Bool := decide (c.role = 1 ∨ c.role = 2) && sameOwner src c.parent

/-- The slot's own contributor index in the parent's group: its place on the axis above MAXIS. -/
def upIndex (s : State) (c : SlotCfg) : Nat :=
  if c.maxis = 0 then cRack s.selfCoord else if c.maxis = 1 then cPod s.selfCoord else 0

/-- Contributors that are not complete, as the MISSING bitmap (Table COL-8). -/
def missingMask (ks : List Nat) : Nat := ks.foldl (fun m k => m ||| 2 ^ k) 0

/-! ### Progress of a record (R194, R203) -/

/-- The packets of a contributor. -/
def Rec.of (r : Rec) (j : Nat) : List AbsPkt := r.pkts.filter fun p => decide (p.contrib = j)
/-- A contributor is complete when its LAST packet and all COUNT of its packets have been absorbed. -/
def Rec.full (r : Rec) (j : Nat) : Bool :=
  match r.counts.find j with
  | none => false
  | some n => decide ((r.of j).length = n)
/-- Contributors that are not complete. -/
def Rec.lacking (r : Rec) (g : Nat) : List Nat := (List.range g).filter fun j => !r.full j

/-- Bytes of a packet of a contributor. -/
def Rec.pay (r : Rec) (j p : Nat) : Option (List Byte) :=
  (r.pkts.find? fun x => decide (x.contrib = j ∧ x.pkt = p)).map (·.payload)

/-- The payloads of packets `i` to `i + n − 1` of a contributor joined; none when one is lacking. -/
def Rec.join (r : Rec) (j i : Nat) : Nat → Option (List Byte)
  | 0 => some []
  | n + 1 => match r.pay j i with
    | none => none
    | some b => (r.join j (i + 1) n).map (b ++ ·)

/-! ### Slices (R96) -/

/-- ELEMENT: the contribution's bytes within the elements that core `k` owns, once every packet that holds one has come. -/
def CEnv.elemSlice (e : CEnv) (r : Rec) (j k : Nat) : Option (List Byte) :=
  let c := e.cfg
  let len := c.contribLen
  let w := if c.op = 0x3 then elemBits c.fout else elemBits c.fin
  let base := if c.op = 0x3 then j * len else 0
  let rg := e.range k
  let a := rg.1 * w / 8 - base
  let b := min (cdiv (rg.2 * w) 8 - base) len
  if b ≤ a then none
  else
    let i := a / c.maxPay
    (r.join j i ((b - 1) / c.maxPay + 1 - i)).map fun bs => (bs.drop (a - i * c.maxPay)).take (b - a)

/-- Length of an XC run of `n` elements at the start of a byte string (R87); what is cut off counts as it stands. -/
def xcRun : Nat → List Byte → Nat
  | 0, _ => 0
  | n + 1, bs => match bs with
    | [] => 0
    | b :: _ => let l := xcLen b.toNat; l + xcRun n (bs.drop l)

/-- Length of an XC run of `n` elements that stand whole at the start of a byte string; none where one is cut off (R87). -/
def xcWhole : Nat → List Byte → Option Nat
  | 0, _ => some 0
  | n + 1, bs => match bs with
    | [] => none
    | b :: _ => let l := xcLen b.toNat; if bs.length < l then none else (xcWhole n (bs.drop l)).map (l + ·)

/-- The bytes after the lead of an XC packet are whole groups of 16 elements, each padded with zero bytes to a multiple of
64 (R192); the first argument bounds their number. -/
def xcFramed : Nat → List Byte → Bool
  | 0, bs => bs.isEmpty
  | n + 1, bs =>
    bs.isEmpty || (match xcWhole 16 bs with
      | none => false
      | some l => let m := roundUp l 64
        decide (m ≤ bs.length) && ((bs.take m).drop l).all (· == 0) && xcFramed n (bs.drop m))

/-- The groups of an XC packet after its lead: element index and bytes, padding included (R192). -/
def xcGroups : Nat → Nat → List Byte → List (Nat × List Byte)
  | 0, _, _ => []
  | n + 1, idx, bs =>
    if bs.isEmpty then []
    else let l := roundUp (xcRun 16 bs) 64; (idx, bs.take l) :: xcGroups n (idx + 16) (bs.drop l)

/-- The XC groups of every absorbed packet of a contributor. -/
def Rec.groups (r : Rec) (j : Nat) : List (Nat × List Byte) :=
  (r.of j).flatMap fun p => xcGroups 16 (leAt p.payload 0 4) (p.payload.drop 16)

/-- XC: the groups of the elements that core `k` owns in ascending order, once there is one for every 16 of them, counted
from its first. A core whose first element is no multiple of 16 has no such groups (DESIGN CHOICE, log entry 29). -/
def CEnv.xcSlice (e : CEnv) (r : Rec) (j k : Nat) : Option (List Byte) :=
  let rg := e.range k
  let gs := (r.groups j).filter fun x => decide (rg.1 ≤ x.1 ∧ x.1 < rg.2)
  let starts := (List.range (cdiv (rg.2 - rg.1) 16)).map fun i => rg.1 + 16 * i
  if rg.2 ≤ rg.1 then none
  else if starts.all fun x => gs.any fun y => decide (y.1 = x) then
    some ((sortBy (fun a b => decide (a.1 ≤ b.1)) gs).flatMap (·.2))
  else none

/-- WHOLE: the whole contribution, once the contributor is complete. -/
def CEnv.wholeSlice (r : Rec) (j : Nat) : Option (List Byte) :=
  match r.counts.find j with
  | none => none
  | some n => r.join j 0 n

/-- The slice of contribution `j` for core `k`, when it is ready (R96). -/
def CEnv.slice (e : CEnv) (r : Rec) (j k : Nat) : Option (List Byte) :=
  if e.cfg.split = 0 then e.elemSlice r j k
  else if e.cfg.split = 1 then e.xcSlice r j k
  else if e.cfg.split = 2 then CEnv.wholeSlice r j
  else none

/-- The slices of contribution `j` that are ready and not yet presented: core and bytes. -/
def CEnv.newSlices (e : CEnv) (r : Rec) (j : Nat) : List (Nat × List Byte) :=
  (e.cores.filter fun k => e.hasCtx k && !r.shown.contains (k, j)).filterMap fun k =>
    (e.slice r j k).map fun b => (k, b)

/-! ### Headers of collective packets (Table COL-4) -/

/-- Destination of a packet: coordinate, axis and multicast count. -/
structure Dest where
  dst : Nat
  axis : Nat := 0
  cnt : Nat := 0
  deriving DecidableEq, Repr

/-- The destination that an output descriptor names (Tables TSI-4, TSO-3). -/
def destOf (d : BitVec 128) : Option Dest :=
  if dKind d = 5 then some { dst := dDest d }
  else if dKind d = 6 then some { dst := dDest d, axis := dAxis d, cnt := dCount d }
  else none

/-- Fields of a collective header under construction. -/
def collHdr (d : Dest) (kind fmt etag cid inst chunk contrib : Nat) (more : List HF) : BitVec 256 :=
  mkHdr ([⟨31, 0, d.dst⟩, ⟨78, 77, d.axis⟩, ⟨86, 79, d.cnt⟩, ⟨99, 96, kind⟩, ⟨103, 100, fmt⟩, ⟨111, 104, etag⟩,
    ⟨135, 112, cid⟩, ⟨151, 136, inst⟩, ⟨171, 152, chunk⟩, ⟨187, 172, contrib⟩] ++ more)

/-- VC of a slot's packets (R173, R208, R223). -/
def SlotCfg.vc (c : SlotCfg) : Nat := if c.isPronk then 1 else 2

/-- A packet sent by the owner cluster; a shadow slot sends nothing (R498). -/
def State.collSend (s : State) (e : CEnv) (p : Packet) : State :=
  if isShadow e.slot then s else s.fromCluster e.cl e.cfg.vc e.part p

/-- A result packet of the slot, or its partial toward PARENT when its ROLE is UP (R212, R218). -/
def resultPkt (s : State) (e : CEnv) (d : Dest) (fmt etag inst pkt count : Nat) (payload : List Byte) : Packet :=
  let up := decide (e.cfg.role = 1)
  mkPkt (collHdr d (if up then 1 else 2) fmt etag e.cid inst e.h (if up then upIndex s e.cfg else 0)
    [⟨199, 188, pkt⟩, ⟨200, 200, b2n (decide (pkt + 1 = count))⟩, ⟨212, 201, if pkt + 1 = count then count else 0⟩]) payload

/-! ### Requests of the part's own units (R282, R288) -/

/-- Memory operations (Table MEM-4). -/
def mopRead : Nat := 0
/-- WRITE. -/
def mopWrite : Nat := 1

/-- An MREQ of the part: READ or WRITE of `n` bytes at byte `b` from a fabric address. -/
def reqPkt (mop etag tag faddr b n : Nat) (payload : List Byte) : Packet :=
  mkPkt (mkHdr [⟨31, 0, faddr >>> 32⟩, ⟨99, 96, 5⟩, ⟨111, 104, etag⟩, ⟨114, 112, mop⟩, ⟨135, 120, tag⟩,
    ⟨167, 136, (faddr % 2 ^ 32 + b / 64) % 2 ^ 32⟩, ⟨173, 168, b % 64⟩, ⟨186, 174, n⟩, ⟨200, 200, 1⟩, ⟨212, 201, 1⟩]) payload

/-- A fresh request tag (Table MEM-4), and the state that has used it. -/
def State.newTag (s : State) : Nat × State :=
  (s.mem.tag, { s with mem := { s.mem with tag := (s.mem.tag + 1) % 65536 } })

/-- Epoch tag of the active plan, 0 before the first plan. -/
def State.activeTag (s : State) : Nat := match s.plans.active with | none => 0 | some p => p.pepoch % 256

/-- Time without a response after which a read or write of the part is sent again (R547, R579, R618). -/
def resendNs : Nat := 10000000

end Sys2Proof.Machine
end

