-- ==== Sys2Proof/Machine/PlanImage.lean ====
section
/-!
DEFINITION. The plan image: its header, its directory and the plan that its sections give (R544 to R546, Tables MGT-9 and
MGT-10).
-/
namespace Sys2Proof.Machine

/-! ### Header and directory (Table MGT-9) -/

/-- FORMAT. -/
def imFormat (img : List Byte) : Nat := leAt img 0 4
/-- PEPOCH. -/
def imPepoch (img : List Byte) : Nat := leAt img 4 4
/-- PDIG. -/
def imPdig (img : List Byte) : Word := BitVec.ofNat 64 (leAt img 8 8)
/-- LDIG. -/
def imLdig (img : List Byte) : Word := BitVec.ofNat 64 (leAt img 16 8)
/-- LENGTH. -/
def imLength (img : List Byte) : Nat := leAt img 24 4
/-- NSECT. -/
def imNsect (img : List Byte) : Nat := leAt img 28 2
/-- SERIAL. -/
def imSerial (img : List Byte) : Word := BitVec.ofNat 64 (leAt img 32 8)

/-- A directory entry: its number, TYPE, INDEX, OFFSET and LEN. -/
structure Sect where
  j : Nat
  ty : Nat
  idx : Nat
  off : Nat
  len : Nat
  deriving DecidableEq, Repr

/-- The directory. -/
def sects (img : List Byte) : List Sect :=
  (chunksOf (imNsect img) 16 (img.drop 64)).zipIdx.map fun x =>
    { j := x.2, ty := leAt x.1 0 2, idx := leAt x.1 2 2, off := leAt x.1 8 4, len := leAt x.1 12 4 }

/-- The bytes of a section. -/
def Sect.bytes (c : Sect) (img : List Byte) : List Byte := (img.drop c.off).take c.len

/-- The sections of a type. -/
def ofType (ss : List Sect) (ty : Nat) : List Sect := ss.filter fun c => decide (c.ty = ty)

/-- The bytes of the sections of a type, whatever their INDEX (one at most for types without INDEX). -/
def sectBytes (img : List Byte) (ss : List Sect) (ty : Nat) : List Byte := (ofType ss ty).flatMap fun c => c.bytes img

/-- The entries of the sections of a type, with INDEX. -/
def sectEntries (img : List Byte) (ss : List Sect) (ty size : Nat) : List (Nat × List Byte) :=
  (ofType ss ty).flatMap fun c => (chunksOf (c.len / size) size (c.bytes img)).map fun b => (c.idx, b)

/-- A byte string as a bit vector. -/
def bvOf (n : Nat) (bs : List Byte) : BitVec n := BitVec.ofNat n (ofLE bs)

/-! ### Structure (R546) -/

/-- INDEX values of a type: dies, clusters or links as the type states, otherwise 0 alone. -/
def indexLimit (ty : Nat) : Nat :=
  if ty = 0x09 then 4 else if ty = 0x05 ∨ ty = 0x06 ∨ ty = 0x07 ∨ ty = 0x10 then 36 else if ty = 0x0B then 580 else 1

/-- Two sections share bytes. -/
def sectsMeet (a b : Sect) : Bool := decide (a.off < b.off + b.len ∧ b.off < a.off + a.len)

/-- What R546 says of one directory entry, given those before it: whether it fails, and the image offset reported. -/
def sectBad (length dirEnd : Nat) (before : List Sect) (c : Sect) : Option Nat :=
  let at_ := 64 + 16 * c.j
  if c.ty = 0 ∨ 0x10 < c.ty then some at_
  else if c.off % 8 ≠ 0 ∨ length < c.off + c.len then some c.off
  else if (decide (0 < c.len) && decide (c.off < dirEnd)) || before.any (sectsMeet c) then some c.off
  else if indexLimit c.ty ≤ c.idx then some at_
  else if before.any fun b => decide (b.ty = c.ty ∧ b.idx = c.idx) then some at_
  else none

/-- The first directory entry that fails R546: its number and the image offset. -/
def sectsBad (length dirEnd : Nat) : List Sect → List Sect → Option (Nat × Nat)
  | _, [] => none
  | before, c :: rest =>
    match sectBad length dirEnd before c with
    | some o => some (c.j, o)
    | none => sectsBad length dirEnd (c :: before) rest

/-- The sections that every image holds. -/
def needed : List (Nat × Nat) := [(0x01, 0), (0x0C, 0), (0x0A, 0), (0x09, 0), (0x09, 1), (0x09, 2), (0x09, 3)]

/-- The structure of an image fails R546: directory entry and offset. -/
def structureBad (img : List Byte) : Option (Nat × Nat) :=
  let n := imNsect img
  let ss := sects img
  if imFormat img ≠ 1 ∨ n = 0 ∨ 4096 < n ∨ imLength img < 64 + 16 * n then some (0, 0)
  else match sectsBad (imLength img) (64 + 16 * n) [] ss with
    | some x => some x
    | none =>
      if needed.all fun k => ss.any fun c => decide (c.ty = k.1 ∧ c.idx = k.2) then none else some (0, 0)

/-! ### Sections (Table MGT-10) -/

/-- Entries of the target tables of a role, in image order: LT, ST, CT, UT, KT, DT (Table RTE-7). -/
def tableSizes (role : Nat) : List Nat :=
  if role = 1 then [0, 0, 0, 144, 16, 128] else if role = 2 then [0, 0, 0, 0, 0, 144] else [18432, 32, 32, 0, 0, 0]

/-- The tables cut from a byte string, and what is left. -/
def takeTables : List Nat → List Byte → List (List (BitVec 16)) × List Byte
  | [], bs => ([], bs)
  | n :: ns, bs =>
    let r := takeTables ns (bs.drop (2 * n))
    ((chunksOf n 2 (bs.take (2 * n))).map (bvOf 16) :: r.1, r.2)

/-- Variants (Table RTE-14) and what is left. -/
def takeVariants : Nat → List Byte → List Variant × List Byte
  | 0, bs => ([], bs)
  | n + 1, bs =>
    let head := ofLE (bs.take 96)
    let nrep := bits head 646 640
    let rest := bs.drop 96
    let reps := (chunksOf nrep 8 (rest.take (8 * nrep))).map fun b => (bits (ofLE b) 7 0, bits (ofLE b) 39 8)
    let r := takeVariants n (rest.drop (8 * nrep))
    ({ fail := bits head 579 0, reps := reps } :: r.1, r.2)

/-- A route set from a ROUTE section. -/
def routeOf (bs : List Byte) : Route :=
  let hdr := bvOf 128 (bs.take 16)
  let t := takeTables (tableSizes (fld hdr 33 32)) (bs.drop 16)
  let tab (i : Nat) : List (BitVec 16) := (t.1[i]?).getD []
  let sets := t.2
  let links := sets.drop 2048
  let nbrs := links.drop (580 * 64)
  { hdr := hdr, lt := tab 0, st := tab 1, ct := tab 2, ut := tab 3, kt := tab 4, dt := tab 5
    sets := (chunksOf 256 8 (sets.take 2048)).map (bvOf 64)
    links := (chunksOf 580 64 (links.take (580 * 64))).map (bvOf 512)
    nbrs := (chunksOf 580 16 (nbrs.take (580 * 16))).map (bvOf 128)
    vars := (takeVariants (fld hdr 78 72) (nbrs.drop (580 * 16))).1 }

/-- Bytes of a ROUTE section by its header and its variants; none when it ends too early. -/
def variantBytes : Nat → List Byte → Option Nat
  | 0, _ => some 0
  | n + 1, bs =>
    if bs.length < 96 then none
    else
      let k := 96 + 8 * bits (ofLE (bs.take 96)) 646 640
      if bs.length < k then none else (variantBytes n (bs.drop k)).map (k + ·)

/-- Whether a ROUTE section has exactly the bytes its contents take. -/
def routeFits (bs : List Byte) : Bool :=
  let hdr := bvOf 128 (bs.take 16)
  let fixed := 16 + 2 * (tableSizes (fld hdr 33 32)).foldl (· + ·) 0 + 2048 + 580 * 64 + 580 * 16
  decide (16 ≤ bs.length) && (variantBytes (fld hdr 78 72) (bs.drop fixed) == some (bs.length - fixed)) &&
    decide (fixed ≤ bs.length)

/-- Records of a section whose head of `hb` bytes gives the number of units of `ub` bytes that follow; none when a record
runs past the end. -/
def takeRecords (hb ub : Nat) (units : Nat → Nat) : Nat → List Byte → Option (List (Nat × List Byte))
  | 0, bs => if bs.isEmpty then some [] else none
  | n + 1, bs =>
    if bs.isEmpty then some []
    else if bs.length < hb then none
    else
      let h := ofLE (bs.take hb)
      let k := ub * units h
      let rest := bs.drop hb
      if rest.length < k then none
      else (takeRecords hb ub units n (rest.drop k)).map fun r => (h, rest.take k) :: r

/-- PROGRAM records of a section. -/
def progRecords (bs : List Byte) : Option (List (Nat × List Byte)) :=
  takeRecords 16 8 (fun h : Nat => bits h 95 64) (bs.length / 16 + 1) bs
/-- SRAMINIT records of a section. -/
def sramRecords (bs : List Byte) : Option (List (Nat × List Byte)) :=
  takeRecords 8 64 (fun h : Nat => bits h 47 32) (bs.length / 8 + 1) bs

/-- A program from its record. -/
def progOf (cl : Nat) (r : Nat × List Byte) : ProgCfg :=
  let ws := (chunksOf (r.2.length / 8) 8 r.2).map (bvOf 64)
  { cluster := cl, head := BitVec.ofNat 128 r.1, h0 := (ws[0]?).getD 0, h1 := (ws[1]?).getD 0, code := ws.drop 2 }

/-- The extension of a kind that the SLOTEXT section gives a slot. -/
def extOf (exts : List (List Byte)) (slot kind : Nat) : Option (BitVec 128) :=
  (exts.find? fun b => decide (leAt b 0 2 = slot ∧ leAt b 2 1 = kind)).map fun b => bvOf 128 (b.drop 8)

/-- A bit vector with the fields in a list zeroed: reserved bits are ignored when they are read (R8). -/
def zeroed {n : Nat} (fs : List (Nat × Nat)) (x : BitVec n) : BitVec n := fs.foldl (fun x f => setFld x f.1 f.2 0) x

/-- A route set without its reserved bits (R8, Tables RTE-6, RTE-11, RTE-12, R380, R381). -/
def Route.clean (r : Route) : Route :=
  let tab (t : List (BitVec 16)) : List (BitVec 16) := t.map (zeroed [(15, 10)])
  { r with
    hdr := zeroed [(39, 38), (55, 55), (127, 79)] r.hdr
    lt := tab r.lt, st := tab r.st, ct := tab r.ct, ut := tab r.ut, kt := tab r.kt, dt := tab r.dt
    sets := r.sets.map (zeroed [(63, 32)])
    links := r.links.map (zeroed [(71, 71), (511, 392)])
    nbrs := r.nbrs.map (zeroed [(63, 52)]) }

/-- A slot descriptor without its reserved bits (R8, Table COL-3). -/
def cleanSlot (d : BitVec 384) : BitVec 384 :=
  zeroed ([(31, 26), (47, 40), (63, 57), (127, 120), (319, 300)] ++ (if fld d 21 20 = 1 then [] else [(383, 352)])) d

/-- A stream descriptor without its reserved bits (R8, Tables TSI-3, TSO-3, TSO-4); CURSOR is the part's own. -/
def cleanDesc (d : BitVec 128) : BitVec 128 :=
  let k := dKind d
  let mx := fld d 7 4 = 0xB ∨ fld d 7 4 = 0xC ∨ fld d 7 4 = 0xD
  zeroed ([(15, 13), (63, 32)] ++
    (if k = 2 then [(127, 81)]
     else if k = 3 ∨ k = 4 then []
     else if k = 5 ∨ k = 6 then
       [(127, 123)] ++ (if k = 5 then [(105, 96)] else []) ++ (if mx then [] else [(122, 107)])
     else [(127, 64)])) d

/-- A gate list without its reserved bits (R8, Tables SWC-5, SWC-6). -/
def cleanGate (g : BitVec 128 × List (BitVec 64)) : BitVec 128 × List (BitVec 64) :=
  (zeroed [(127, 103)] g.1, g.2.map (zeroed [(63, 40)]))

/-- The plan that an image gives. -/
def planOf (img : List Byte) : Plan :=
  let ss := sects img
  let ent := sectEntries img ss
  let exts := (ent 0x03 24).map (·.2)
  { pepoch := imPepoch img, pdig := imPdig img, ldig := imLdig img
    route := (routeOf (sectBytes img ss 0x01)).clean
    slots := (ent 0x02 72).map fun e =>
      let n := leAt e.2 0 2
      { num := n, desc := cleanSlot (bvOf 384 ((e.2.drop 8).take 48))
        flagoff := (List.range 4).map fun d => leAt e.2 (56 + 4 * d) 4
        pronk := (extOf exts n 0).map (zeroed [(31, 22), (127, 96)]), sparse := (extOf exts n 1).map (zeroed [(127, 28)]) }
    cids := (ent 0x04 8).map fun e => bvOf 64 e.2
    owners := (ent 0x05 16).map fun e => (e.1, bvOf 128 e.2)
    progs := (ofType ss 0x06).flatMap fun c => ((progRecords (c.bytes img)).getD []).map (progOf c.idx)
    streams := (ent 0x07 32).map fun e =>
      { cluster := e.1, head := bvOf 128 (e.2.take 16), desc := cleanDesc (bvOf 128 (e.2.drop 16)) }
    regions := (ent 0x08 40).map fun e => (leAt e.2 0 2, bvOf 256 (e.2.drop 8))
    accounts := (ofType ss 0x09).map fun c => (c.idx, (chunksOf (c.len / 8) 8 (c.bytes img)).map (bvOf 64))
    sched := (ent 0x0A 72).map fun e => (bvOf 64 (e.2.take 8), (chunksOf 8 8 (e.2.drop 8)).map (bvOf 64))
    gates := (ofType ss 0x0B).map fun c =>
      let bs := c.bytes img
      (c.idx, cleanGate (bvOf 128 (bs.take 16), (chunksOf (c.len / 8 - 2) 8 (bs.drop 16)).map (bvOf 64)))
    time := bvOf 128 (sectBytes img ss 0x0C)
    reserve := if (ofType ss 0x0D).isEmpty then none else some (bvOf 128 (sectBytes img ss 0x0D))
    weights := (ent 0x0E 32).map fun e => bvOf 256 e.2
    mgmt := if (ofType ss 0x0F).isEmpty then none else some (bvOf 64 (sectBytes img ss 0x0F))
    sram := (ofType ss 0x10).flatMap fun c => ((sramRecords (c.bytes img)).getD []).map fun r =>
      (c.idx, bits r.1 6 0, bits r.1 31 16, r.2)
    split := ((List.range 144).map fun p => (p, Config.planSplit img p % 3)).filter fun x => decide (x.2 ≠ 0)
    classL := (List.range 580).filter (Config.planClassL img)
    reach := ((List.range 580).map fun l => (l, Config.planReach img l)).filter fun x => decide (x.2 ≠ 0)
    image := img }

/-- Whether a section's length is that of whole entries, or of the records it opens (log entry 20). -/
def sectFits (img : List Byte) (c : Sect) : Bool :=
  let bs := c.bytes img
  let whole (n : Nat) : Bool := decide (c.len % n = 0)
  if c.ty = 0x01 then routeFits bs
  else if c.ty = 0x02 then whole 72
  else if c.ty = 0x03 then whole 24
  else if c.ty = 0x04 then whole 8
  else if c.ty = 0x05 then whole 16
  else if c.ty = 0x06 then (progRecords bs).isSome
  else if c.ty = 0x07 then whole 32
  else if c.ty = 0x08 then whole 40
  else if c.ty = 0x09 then whole 8
  else if c.ty = 0x0A then decide (c.len = 72 * 580)
  else if c.ty = 0x0B then decide (16 ≤ c.len) && decide (c.len = 16 + 8 * bits (ofLE (bs.take 16)) 102 96)
  else if c.ty = 0x0C then decide (c.len = 16)
  else if c.ty = 0x0D then decide (c.len = 16)
  else if c.ty = 0x0E then whole 32 && decide (c.len ≤ 32 * 256)
  else if c.ty = 0x0F then decide (c.len = 8)
  else (sramRecords bs).isSome

/-! ### The image digest (R471) -/

/-- The hashes of an image's words from word `w` on, LDIG left out. -/
def imageSum : Nat → Nat → List Byte → Word
  | 0, _, _ => 0
  | n + 1, w, bs =>
    (if w = 2 then 0 else mix64 (BitVec.ofNat 64 w) (BitVec.ofNat 64 (leAt bs 0 8))) + imageSum n (w + 1) (bs.drop 8)

/-- The digest of an image. -/
def imageDigest (img : List Byte) : Word := imageSum (img.length / 8) 0 img

end Sys2Proof.Machine
end

