-- ==== Sys2Proof/Machine/Bulk.lean ====
section
/-!
DEFINITION. Bulk reads by the MP and by the boot ROM: up to 4,096 B each, at most 16 outstanding (R547, R559, R579, R580).
-/
namespace Sys2Proof.Machine

/-! ### Reads in groups (R547) -/

/-- READs of up to 4,096 B issued while fewer than 16 are outstanding: next offset, reads and state. -/
def issueGo (send : BulkRead → State → State) (total : Nat) : Nat → Nat × List BulkRead × State → Nat × List BulkRead × State
  | 0, x => x
  | k + 1, (next, rs, s) =>
    if rs.length < 16 ∧ next < total then
      let t := s.newTag
      let r : BulkRead := { off := next, len := min 4096 (total - next), tag := t.1, sentAt := s.now, first := s.now, resends := 0,
                            etag := s.activeTag }
      issueGo send total k (next + r.len, rs ++ [r], send r t.2)
    else (next, rs, s)

/-- READs issued. -/
def issueReads (send : BulkRead → State → State) (total next : Nat) (rs : List BulkRead) (s : State) : Nat × List BulkRead × State :=
  issueGo send total 16 (next, rs, s)

/-- A READ of the MP sent from its internal endpoint; `src` is the fabric address of the object. -/
def State.mpRead (s : State) (part src : Nat) (r : BulkRead) : State :=
  s.fromMp 3 part (reqPkt mopRead r.etag r.tag src r.off r.len [])

/-- The reads without the one of a tag. -/
def dropRead (rs : List BulkRead) (tag : Nat) : List BulkRead := rs.filter fun r => !decide (r.tag = tag)

/-- A read noted as sent again; `count` for a resend that R547 counts. -/
def againRead (rs : List BulkRead) (tag now : Nat) (count : Bool) : List BulkRead :=
  modWhere (fun r : BulkRead => decide (r.tag = tag))
    (fun r => { r with sentAt := now, resends := r.resends + b2n count, held := false }) rs

/-- A request answered BUSY: it waits 1 µs before it is sent again, and after each further BUSY twice as long, up to 64 µs
(R202, R296). -/
def busyRead (rs : List BulkRead) (tag now : Nat) : List BulkRead :=
  modWhere (fun r : BulkRead => decide (r.tag = tag))
    (fun r => { r with sentAt := now, held := true, wait := if r.wait = 0 then 1000 else min 64000 (2 * r.wait) }) rs

/-- A request whose wait after BUSY is over. -/
def BulkRead.due (r : BulkRead) (now : Nat) : Bool := r.held && decide (r.sentAt + r.wait ≤ now)

/-- The requests whose wait is over noted as sent again. -/
def dueRead (rs : List BulkRead) (now : Nat) : List BulkRead :=
  modWhere (fun r : BulkRead => r.due now) (fun r => { r with sentAt := now, held := false }) rs

/-! ### Reads of the boot ROM (R576, R579, R580) -/

/-- Bytes of the image that the ROM knows to exist: the header, then the signed part with its keys, then all of it. -/
def bootGoal (got : List (Nat × List Byte)) : Nat :=
  let have_ : Nat := (got.map fun b : Nat × List Byte => b.2.length).foldl (· + ·) 0
  let bs := (sortBy (fun a b : Nat × List Byte => decide (a.1 ≤ b.1)) got).flatMap fun b : Nat × List Byte => b.2
  let n := leAt bs 4 4
  if have_ < 64 then 64 else if have_ < n + 256 then n + 256 else n + 256 + leAt bs (n + 252) 4

/-- The edge port of the boot straps. -/
def State.bootLink (s : State) : Nat := 576 + s.fuse.straps.bootEp.toNat

/-- A read of the ROM sent: a READ to the host at the boot edge port, or a BOOT_READ to the lead. -/
def State.bootSend (s : State) (r : BulkRead) : State :=
  if s.boot.trail then
    match s.boot.lead with
    | none => s
    | some p => s.trailSend 0x6 p (toLE 1 0x10 ++ zeros 3 ++ toLE 4 r.off ++ toLE 2 r.len ++ zeros 6)
  else
    let host := mkCoord s.fuse.straps.planeSel.toNat 0 0 (144 + s.fuse.straps.bootEp.toNat) 0
    s.fromMp 3 0 (reqPkt mopRead 0 r.tag (host <<< 32) r.off r.len [])

/-- Reads of the ROM issued up to the bytes it knows of. -/
def State.bootIssue (s : State) : State :=
  let x := issueReads (fun r s => s.bootSend r) (bootGoal s.boot.got) s.boot.next s.boot.reads s
  let s : State := x.2.2
  { s with boot := { s.boot with next := x.1, reads := x.2.1 } }

/-- The ROM waits to begin reading from its edge port. -/
def State.bootWaitsEdge (s : State) : Bool :=
  decide (s.boot.phase = .fetch ∧ s.boot.next = 0) && !s.boot.trail && !s.boot.retry

/-- The boot edge port has come UP: reading begins (R579). -/
def State.bootUp (s : State) (l : Nat) : State := if l = s.bootLink && s.bootWaitsEdge then s.bootIssue else s

end Sys2Proof.Machine
end

