-- ==== Sys2Proof/Machine/SwitchOps.lean ====
section
/-!
DEFINITION. Output channels of the switch core: prefetch, arbitration, cuts and aborts, class scheduling, gates, shapers
and what becomes of the packets of a link that stops (R355, R356, R412, R417 to R435).
-/
namespace Sys2Proof.Machine

/-! ### Buffered packets and their copies -/

/-- A buffered packet by id. -/
def State.bufOf (s : State) (id : Nat) : Option BufPkt := s.sw.buf.find? fun b => decide (b.id = id)

/-- Whether every copy of a packet has moved or been discarded and its tail has arrived. -/
def BufPkt.past (b : BufPkt) : Bool := decide (b.flits ≤ b.got) && b.copies.all fun k => decide (b.flits ≤ k.moved)

/-- A buffered packet replaced: the flits that it no longer holds are freed, a packet that is over leaves the buffer, and
the requests that this lets begin are stamped (R412, R418, R422). -/
def State.setBufPkt (s : State) (old new : BufPkt) : State :=
  let kept := if new.past then s.sw.buf.filter (fun b => b.id ≠ new.id)
    else modWhere (fun b : BufPkt => decide (b.id = new.id)) (fun _ => new) s.sw.buf
  let s := release { s with sw := { s.sw with buf := kept } } new (new.freed - old.freed)
  (old.copies ++ new.copies).foldl (fun s k => s.beginRequests k.link k.vc) s

/-- Flit `i` of a packet under a copy's header (R327A). -/
def flitData (h : BitVec 256) (p : List Byte) (i : Nat) : BitVec 512 :=
  BitVec.ofNat 512 (ofLE (slice (toLE 32 h.toNat ++ p) (64 * i) 64))

/-- Flits a channel's prefetch holds (R417, Table PRK-1). -/
def preCap (v : Nat) : Nat := if v = 1 then 128 else 16

/-- An ABORT word (Table LNK-4). -/
def abortWord (v cause : Nat) : BitVec 128 := BitVec.ofNat 128 (0x01 + v <<< 8 + cause <<< 16)

/-- The mark in a prefetch that ends a packet with ABORT (R355). -/
def abortMark (v cause id : Nat) : PFlit :=
  { data := BitVec.ofNat 512 (abortWord v cause).toNat, head := false, last := true, n := 0, id := id, pool := 0, at_ := 0,
    acct := .mp }

/-- The owner of a channel gives way to the packet already selected. -/
def Chan.handOver (c : Chan) : Chan := { c with owner := c.next_, next_ := none }

/-- A copy of a packet has moved its next flit: one on another die takes it across the bridge set when it is the first there
to need it (R24). -/
def BufPkt.moveCopy (b : BufPkt) (k : Nat) (cp : Copy) : BufPkt :=
  let d := dieOfLink cp.link
  let n := cp.moved + 1
  let b := if d = b.die then b else { b with cross := b.cross.put d (max (b.crossed d) n) }
  b.modCopy k fun x => { x with moved := n }

/-- Room on the die of a copy for the flit that moves next: one that another copy there still awaits takes a shared cell
there, for which a lossless packet pushes out (R24, R405, R414, log entry 34). None when there is no such cell. -/
def State.crossRoom (s : State) (old new : BufPkt) (d : Nat) : Option State :=
  if new.cellsOn d ≤ old.cellsOn d then some s
  else
    let s := if droppable new.vc then s else pushOut d 1 s.sw.buf.length s
    if 1 ≤ freeShared s d then some s else none

/-- One flit of the owner moves into the prefetch; none when it may not. The last flit moves only when the payload
matches its check value; otherwise ABORT takes its place, and a packet of one flit is not sent at all (R417, R482). -/
def State.moveFlit (s : State) (l v : Nat) : Option State :=
  let c := s.chan l v
  match c.owner with
  | none => none
  | some (id, k) => match s.bufOf id with
    | none => some (s.setChan l v c.handOver)
    | some b => match b.copies[k]? with
      | none => some (s.setChan l v c.handOver)
      | some cp =>
        if b.flits ≤ cp.moved then some (s.setChan l v c.handOver)
        else if b.got ≤ cp.moved ∨ preCap v ≤ c.pre.length then none
        else match s.crossRoom b (b.moveCopy k cp) (dieOfLink l) with
         | none => none
         | some s =>
          let last := decide (cp.moved + 1 = b.flits)
          let wrong := last && decide (checkOf b.pkt.payload ≠ hCheck cp.hdr)
          let f : PFlit := { data := flitData cp.hdr b.pkt.payload cp.moved, head := decide (cp.moved = 0), last := last,
                             n := b.flits, id := id, pool := s.poolOn l v cp.hdr, at_ := b.at_, acct := b.acct }
          let pre := if wrong then (if cp.moved = 0 then c.pre else c.pre ++ [abortMark v 0x30 id]) else c.pre ++ [f]
          let c := { c with pre := pre }
          let s := s.setChan l v (if last then c.handOver else c)
          let s := if wrong then (let s := s.count .checkEg l 0; if b.bad then s else s.checkInt) else s
          some (s.setBufPkt b (b.moveCopy k cp))

/-- Flits move into a channel's prefetch while they may. -/
def fillPre (l v : Nat) : Nat → State → State
  | 0, s => s
  | n + 1, s => match s.moveFlit l v with
    | none => s
    | some s' => fillPre l v n s'

/-- Every channel of a link filled. -/
def State.fillLink (s : State) (l : Nat) : State := (List.range 8).foldl (fun s v => fillPre l v 300 s) s

/-! ### Ends of copies -/

/-- A copy ends before its last flit has moved: its buffered flits are discarded, and later ones as they arrive. With a
cause, a copy whose head has moved is ended with ABORT behind the flits in the prefetch (R355, R356, R424). -/
def State.endCopy (s : State) (id k : Nat) (cause : Option Nat) : State :=
  match s.bufOf id with
  | none => s
  | some b => match b.copies[k]? with
    | none => s
    | some cp =>
      if b.flits ≤ cp.moved then s
      else
        let c := s.chan cp.link cp.vc
        let c := match cause with
          | some x => if 0 < cp.moved then { c with pre := c.pre ++ [abortMark cp.vc x id] } else c
          | none => c
        let c := if c.owner = some (id, k) then c.handOver else if c.next_ = some (id, k) then { c with next_ := none } else c
        (s.setChan cp.link cp.vc c).setBufPkt b (b.modCopy k fun x => { x with moved := b.flits })

/-- A packet whose tail can no longer come: every copy ends, with ABORT where its head has moved (R356, R358). -/
def State.endPacket (s : State) (id cause : Nat) : State :=
  match s.bufOf id with
  | none => s
  | some b =>
    let s := (List.range b.copies.length).foldl (fun s k => s.endCopy id k (some cause)) s
    match s.bufOf id with
    | none => s
    | some b' => { s with sw := { s.sw with buf := s.sw.buf.filter fun x => x.id ≠ b'.id } }

/-- A flit arrives for a packet forwarded by cut-through; with the last one the verdict of its ingress link is known. A flit
of a lossless VC takes a cell, for which the part pushes out; one that no copy needs any more is freed as it comes
(R412 to R414, R424, R482). -/
def State.addFlit (s : State) (id : Nat) (d : BitVec 512) (last bad : Bool) : State :=
  match s.bufOf id with
  | none => s
  | some b =>
    let pay := (b.pkt.payload ++ toLE 64 d.toNat).take (hLen b.pkt.hdr)
    let new := { b with pkt := { b.pkt with payload := pay }, got := b.got + 1, bad := b.bad || bad,
                        flits := if last then b.got + 1 else b.flits }
    let s := if droppable b.vc ∨ b.vc = 1 ∨ b.got < b.gone then s
      else pushOut b.die (needShared s b.die b.vc b.acct 1) s.sw.buf.length s
    let s := s.setBufPkt b new
    b.copies.foldl (fun s k => (fillPre k.link k.vc 300 s).noteDepth k.link k.vc) s

/-! ### Arbitration (R418 to R420) -/

/-- A standing request: ring place of its account, packet, copy, flits, weight. -/
structure ReqCopy where
  key : Nat
  id : Nat
  k : Nat
  flits : Nat
  aw : Nat

/-- AW of an account, 1 before the first plan. -/
def State.awOf (s : State) (d v : Nat) (a : Acct) : Nat := max 1 (((acctEntry s d v a).map aeAw).getD 1)

/-- The standing requests of the virtual output queues toward a channel (R418). -/
def State.requests (s : State) (l v : Nat) : List ReqCopy :=
  (s.heads l v).map fun x =>
    { key := acctKey x.1.acct, id := x.1.id, k := x.2, flits := x.1.flits, aw := s.awOf x.1.die x.1.vc x.1.acct }

/-- The selection loop of R419 over the ring `ring`; answers the place selected and the deficits. -/
def selectGo (rs : List ReqCopy) (ring : List Nat) : Nat → List Nat → AMap Nat Nat → Option (Nat × AMap Nat Nat)
  | 0, _, _ => none
  | n + 1, [], defs => selectGo rs ring n ring defs
  | n + 1, i :: rest, defs => match rs.find? fun r => decide (r.key = i) with
    | none => selectGo rs ring n rest (defs.drop i)
    | some r =>
      if r.flits ≤ defs.at i 0 then some (i, defs.put i (defs.at i 0 - r.flits))
      else selectGo rs ring n rest (defs.put i (defs.at i 0 + 16 * r.aw))

/-- The request that the channel's arbiter selects, and the channel with its pointer and deficits. -/
def selectNext (c : Chan) (rs : List ReqCopy) : Option (ReqCopy × Chan) :=
  if rs.isEmpty then none
  else
    let keys := sortBy (fun a b : Nat => decide (a ≤ b)) ((rs.map (·.key)) ++ c.def_.map (·.1)).eraseDups
    let ring := (keys.filter fun x => decide (c.ptr ≤ x)) ++ keys.filter fun x => decide (x < c.ptr)
    match selectGo rs ring (16 * (ring.length + 1)) ring c.def_ with
    | none => none
    | some (i, defs) => (rs.find? fun r => decide (r.key = i)).map fun r => (r, { c with ptr := i, def_ := defs })

/-- The WFQ class of a VC (R427). -/
def wfqClass (v : Nat) : Option Nat :=
  if v = 2 then some 0 else if v = 3 ∨ v = 4 then some 1 else if v = 5 then some 2 else if v = 7 then some 3 else none

/-- The VCs of a class, MRSP before MREQ. -/
def classVcs (k : Nat) : List Nat := if k = 0 then [2] else if k = 1 then [4, 3] else if k = 2 then [5] else [7]

/-- A list with an element replaced. -/
def listSet {α : Type} (xs : List α) (i : Nat) (a : α) : List α := xs.zipIdx.map fun x => if x.2 = i then a else x.1

/-- The WFQ state of a link. -/
def State.wfqOf (s : State) (l : Nat) : Wfq := s.sw.wfq.at l {}
/-- The WFQ state replaced. -/
def State.setWfq (s : State) (l : Nat) (w : Wfq) : State := { s with sw := { s.sw with wfq := s.sw.wfq.put l w } }

/-- A class that had no channel with an owner wakes when one of its channels gets one (R427). -/
def State.wake (s : State) (l v : Nat) : State :=
  match wfqClass v with
  | none => s
  | some k =>
    if (classVcs k).any fun x => (s.chan l x).owner.isSome then s
    else
      let w := s.wfqOf l
      s.setWfq l { w with woke := listSet w.woke k true, memReq := if k = 1 then false else w.memReq }

/-- Flits an owner has left to move. -/
def State.leftToMove (s : State) (o : Nat × Nat) : Nat :=
  match s.bufOf o.1 with
  | none => 0
  | some b => match b.copies[o.2]? with | none => 0 | some k => b.flits - k.moved

/-- The moments at which the arbiter of a channel selects (R419). -/
def State.mayselect (s : State) (l v : Nat) : Bool :=
  let c := s.chan l v
  match c.owner with
  | none => true
  | some o => c.next_.isNone && decide (s.leftToMove o ≤ 24)

/-- One selection of a channel's arbiter; the copy granted has started, and the next of its queue begins its request. -/
def State.arbitrate (s : State) (l v : Nat) : State :=
  if !s.mayselect l v then s
  else match selectNext (s.chan l v) (s.requests l v) with
    | none => s
    | some (r, c) =>
      let s := s.wake l v
      let o := some (r.id, r.k)
      let s := s.setChan l v (if c.owner.isNone then { c with owner := o } else { c with next_ := o })
      match s.bufOf r.id with
      | none => s
      | some b =>
        fillPre l v 300 (s.setBufPkt b (b.modCopy r.k fun x => { x with started := true }))

/-! ### Scheduler entries, gates and shapers (R423, R429 to R434) -/

/-- Scheduler entry and shapers of a link in the active plan. -/
def State.schedOf (s : State) (l : Nat) : BitVec 64 × List (BitVec 64) :=
  match s.plans.active with
  | none => (0, [])
  | some p => (p.sched[l]?).getD (0, [])

/-- Weight of a class; 1 before the first plan. -/
def State.weight (s : State) (l k : Nat) : Nat := max 1 (fld (s.schedOf l).1 (8 * k + 7) (8 * k))

/-- Hold limit in µs. -/
def State.holdUs (s : State) (l : Nat) : Nat := let n := fld (s.schedOf l).1 47 32; if n = 0 then 50 else n

/-- Starvation threshold in ns. -/
def State.starveNs (s : State) (l : Nat) : Nat := let n := fld (s.schedOf l).1 63 48; (if n = 0 then 100 else n) * 1000

/-- The block period of a link in ps (Table LNK-1). -/
def blockPs (lanes : Nat) : Nat := if popcount 8 lanes = 8 then 4366 else if popcount 8 lanes = 4 then 8731 else 17463

/-- Time in ns until a VC's gate closes, counted from `pos` within the first entry: over the run of consecutive entries
that keep it open, at most `fuel` of them. -/
def openRun (es : List (Nat × Nat)) (v : Nat) : Nat → Nat → Nat → Nat
  | 0, _, _ => 0
  | n + 1, i, pos => match es[i % es.length]? with
    | none => 0
    | some e => if bit e.2 v then (e.1 - pos) + openRun es v n (i + 1) 0 else 0

/-- The entry that covers a time within the cycle, and the position within it. -/
def gateAt : List (Nat × Nat) → Nat → Nat → Nat × Nat
  | [], i, x => (i, x)
  | e :: es, i, x => if x < e.1 then (i, x) else gateAt es (i + 1) (x - e.1)

/-- A gate list as it runs from a base (Tables SWC-5, SWC-6). -/
def gateRun (base : Nat) (g : BitVec 128 × List (BitVec 64)) : GateRun :=
  { base := base, cycle := fld g.1 95 64, ents := (g.2.take (fld g.1 102 96)).map fun e => (fld e 31 0, fld e 39 32) }

/-- The gate list in force on a link: a committed one from its TAKEOVER on (R434, R461). -/
def State.gateOf (s : State) (l : Nat) : Option GateRun :=
  match s.sw.gateNext.find l with
  | none => s.sw.gates.find l
  | some g => if fld g.1 63 0 ≤ s.ftNow then some (gateRun (fld g.1 63 0) g) else s.sw.gates.find l

/-- Whether a head flit of a packet of `n` flits may start through its gate; the stretch of a VC that every entry keeps open
has no end (R433). -/
def State.gateOpen (s : State) (l v n : Nat) : Bool :=
  if v = 0 || !s.ftSet then true
  else match s.gateOf l with
    | none => true
    | some g =>
      if g.ents.isEmpty ∨ g.cycle = 0 then true
      else
        let a := gateAt g.ents 0 ((s.ftNow - g.base) % g.cycle)
        let left := openRun g.ents v (g.ents.length + 1) a.1 a.2
        let isOpen := match g.ents[a.1]? with | none => false | some e => bit e.2 v
        (g.ents.all fun e => bit e.2 v) || (isOpen && decide (n * blockPs (s.link l).lanes ≤ left * 8000))

/-- EN of a shaper entry. -/
def shEn (e : BitVec 64) : Bool := bit e.toNat 0
/-- RATE. -/
def shRate (e : BitVec 64) : Nat := fld e 31 16
/-- BURST. -/
def shBurst (e : BitVec 64) : Nat := fld e 55 32

/-- The shaper entry in force on a channel (R431). -/
def State.shaper (s : State) (l v : Nat) : BitVec 64 := s.sw.shapers.at (l, v) 0

/-- Tokens of a shaped channel. -/
def State.tokens (s : State) (l v : Nat) : Int := ((s.chan l v).tokens).getD (shBurst (s.shaper l v))

/-- Whether a channel's shaper lets a head flit start (R430). -/
def State.shaped (s : State) (l v : Nat) : Bool := !shEn (s.shaper l v) || decide (1 ≤ s.tokens l v)

/-! ### Slot scheduling (R421, R426 to R428) -/

/-- Whether the next flit of a channel is ready. -/
def State.flitReady (s : State) (l v : Nat) : Bool :=
  match (s.chan l v).pre with
  | [] => false
  | f :: _ =>
    if f.n = 0 then false
    else match (s.link l).cred.find (v, f.pool) with
      | none => false
      | some c =>
        decide (1 ≤ c.avail) &&
        (if f.head then (decide (v ≤ 1) || decide (min f.n c.size ≤ c.avail)) && s.gateOpen l v f.n && s.shaped l v else true)

/-- Whether the next flit of a channel is a head. -/
def State.headNext (s : State) (l v : Nat) : Bool :=
  match (s.chan l v).pre with | [] => false | f :: _ => f.head

/-- The VC whose head is the candidate of a class: MEM alternates between MRSP and MREQ when both are ready. -/
def State.candVc (s : State) (l k : Nat) : Option Nat :=
  let rs := (classVcs k).filter fun v => s.headNext l v && s.flitReady l v
  match rs with
  | [] => none
  | [v] => some v
  | _ => some (if (s.wfqOf l).memReq then 3 else 4)

/-- The packet whose head is the candidate of a class: the ready one, or else the first that waits. -/
def State.candOf (s : State) (l k : Nat) : Option Nat :=
  let v := match s.candVc l k with | some v => some v | none => (classVcs k).find? fun v => s.headNext l v
  match v with
  | none => none
  | some v => ((s.chan l v).pre.head?).map (·.id)

/-- Start tags given to the classes whose candidate is a packet that has none yet (R428). -/
def State.tagHeads (s : State) (l : Nat) : State :=
  (List.range 4).foldl (fun s k =>
    let w := s.wfqOf l
    match s.candOf l k with
    | none => s
    | some id =>
      if ((w.cand[k]?).getD none).any fun x => decide (x.1 = id) then s
      else
        let st := if (w.woke[k]?).getD true then w.v else (w.f[k]?).getD 0
        s.setWfq l { w with cand := listSet w.cand k (some (id, st)) }) s

/-- The finish tag of a class's candidate (R428). -/
def State.finishTag (s : State) (l k v : Nat) : Nat :=
  let st := match ((s.wfqOf l).cand[k]?).getD none with | none => 0 | some x => x.2
  let n := match (s.chan l v).pre with | [] => 0 | f :: _ => f.n
  (st + cdiv (n * 65536) (s.weight l k)) % 2 ^ 48

/-- Tag `a` comes before tag `b`: the sign of their difference modulo 2^48. -/
def tagBefore (a b : Nat) : Bool := decide (2 ^ 47 ≤ (a + 2 ^ 48 - b) % 2 ^ 48)

/-- The class candidate with the smallest finish tag: class, VC and tag. -/
def State.wfqPick (s : State) (l : Nat) : Option (Nat × Nat × Nat) :=
  (List.range 4).foldl (fun best k =>
    match s.candVc l k with
    | none => best
    | some v =>
      let t := s.finishTag l k v
      match best with
      | none => some (k, v, t)
      | some b => if tagBefore t b.2.2 then some (k, v, t) else best) none

/-- A flit leaves a channel's prefetch for a slot: it spends a credit and a token (R342, R430). -/
def State.popFlit (s : State) (l v : Nat) : Option (BitVec 512) × State :=
  let c := s.chan l v
  match c.pre with
  | [] => (none, s)
  | f :: rest =>
    let k := s.link l
    let cred := match k.cred.find (v, f.pool) with
      | none => k.cred
      | some x => k.cred.put (v, f.pool) { x with avail := x.avail - 1 }
    let tok := if shEn (s.shaper l v) then some (s.tokens l v - 1) else c.tokens
    let w := s.wfqOf l
    let s := (s.setLink l { k with cred := cred }).setChan l v { c with pre := rest, tokens := tok }
    let s := if f.last then s.setWfq l { w with serv := w.serv.filter fun x => x ≠ v } else s
    let s := s.count .txFlits l v
    let s := if f.head then s.count .txPkts l v else s
    (some f.data, fillPre l v 300 s)

/-- The VC and flit for one slot by the order of R426. -/
def State.pickSlot (s : State) (l : Nat) : Option (Nat × BitVec 512 × State) :=
  let s := s.tagHeads l
  let take (v : Nat) (s : State) : Option (Nat × BitVec 512 × State) :=
    match s.popFlit l v with
    | (none, _) => none
    | (some d, s) => some (v, d, s)
  match [0, 1, 6].find? fun v => s.flitReady l v with
  | some v => take v s
  | none => match (s.wfqOf l).serv.find? fun v => s.flitReady l v with
    | some v => take v s
    | none => match s.wfqPick l with
      | none => none
      | some (k, v, t) =>
        let w := s.wfqOf l
        let one := match (s.chan l v).pre with | [] => true | f :: _ => f.last
        take v (s.setWfq l { w with v := t, f := listSet w.f k t, cand := listSet w.cand k none, woke := listSet w.woke k false,
                                    serv := if one then w.serv else w.serv ++ [v],
                                    memReq := if k = 1 then decide (v = 4) else w.memReq })

/-- Marks at the front of a prefetch become ABORT words of the link (R355, R364). -/
def State.drainAborts (s : State) (l : Nat) : State :=
  (List.range 8).foldl (fun s v =>
    let c := s.chan l v
    match c.pre with
    | [] => s
    | f :: rest =>
      if f.n = 0 then
        let k := s.link l
        let w := s.wfqOf l
        let s := (s.setChan l v { c with pre := rest }).setLink l { k with ctl := k.ctl ++ [BitVec.ofNat 128 f.data.toNat] }
        fillPre l v 300 ((s.setWfq l { w with serv := w.serv.filter fun x => x ≠ v }).count .abortsTx l 0)
      else s) s

/-! ### Links that stop (R344, R435) -/

/-- The counter index of a buffered packet's ingress. -/
def Acct.idx : Acct → Nat
  | .link l _ => l
  | .trail => 580
  | _ => 581

/-- A copy that has not started leaves a stopped link: an up-link packet goes to the tail of the queue of another up-link of
its candidate set, in the set of its epoch, or is dropped with NO_ROUTE; any other copy is discarded (R388, R435). -/
def State.rehome (s : State) (b : BufPkt) (k : Nat) (cp : Copy) : State :=
  match b.cand, s.setOf cp.hdr with
  | some set, some r => match chooseUp s r (s.failedOn r) b.die cp.vc set cp.hdr with
    | some u =>
      let new := b.modCopy k fun x => { x with link := r.upLink u, since := none, started := false }
      let buf := (s.sw.buf.filter fun x => x.id ≠ b.id) ++ [b]
      ({ s with sw := { s.sw with buf := buf } }).setBufPkt b new
    | none => (s.endCopy b.id k none).count .noRoute b.acct.idx 0
  | _, _ => (s.endCopy b.id k none).count .linkFlush cp.link 0

/-- The packets queued for a link that has stopped (R435); `keep`: packets in progress go on. -/
def State.flushLink (s : State) (l : Nat) (keep : Bool) : State :=
  let s := (List.range 8).foldl (fun s v =>
    let c := s.chan l v
    let back (s : State) (o : Option (Nat × Nat)) : State := match o with
      | none => s
      | some (id, k) => match s.bufOf id with
        | none => s
        | some b => s.setBufPkt b (b.modCopy k fun x => { x with started := decide (0 < x.moved) })
    if keep then
      let idle := match c.owner with | none => false | some o => decide (s.leftToMove o ≠ 0) && (match s.bufOf o.1 with
        | none => false
        | some b => match b.copies[o.2]? with | none => false | some k => decide (k.moved = 0))
      let s := back (if idle then back s c.owner else s) c.next_
      s.setChan l v { c with next_ := none, owner := if idle then none else c.owner }
    else
      let busy := c.owner.isSome || !c.pre.isEmpty
      let s := back (s.setChan l v { c with pre := [] }) c.next_
      let s := match c.owner with
        | none => s
        | some (id, k) => match s.bufOf id with
          | none => s
          | some b => match b.copies[k]? with
            | none => s
            | some cp => if cp.moved = 0 then back s c.owner else s.endCopy id k none
      let s := s.setChan l v { s.chan l v with owner := none, next_ := none, pre := [] }
      if busy then s.count .linkFlush l 0 else s) s
  let s := if keep then s else s.setWfq l { s.wfqOf l with serv := [] }
  s.sw.buf.foldl (fun s b => b.copies.zipIdx.foldl (fun s x =>
    if x.1.link = l ∧ x.1.moved = 0 then
      match s.bufOf b.id with
      | none => s
      | some b => match b.copies[x.2]? with
        | none => s
        | some cp => if cp.started || decide (cp.moved ≠ 0) then s else s.rehome b x.2 cp
    else s) s) s

/-- Copies that need a VC which the partner's READY left out are dropped at egress (R344). -/
def State.dropVc (s : State) (l v : Nat) : State :=
  (s.requests l v).foldl (fun s r => (s.endCopy r.id r.k none).count .vcAbsent l 0) s

end Sys2Proof.Machine
end

