-- ==== Sys2Proof/Machine/TimeOps.lean ====
section
/-!
DEFINITION. Fabric time: loads of FT, the TSYNC exchange, the servo and the time states (R443 to R457, R620).
-/
namespace Sys2Proof.Machine

/-! ### FT with its fraction (R443, R446) -/

/-- FT in 2^-16 ns at a reading of the counter. -/
def State.ftFine (s : State) (t : Nat) : Int := (((s.time.stop.getD t : Nat) : Int) + s.time.off) * 65536 + s.time.frac

/-- FT moved by `d` in 2^-16 ns, and not below 0; durations are kept on the counter, so they do not change (R446). -/
def State.loadFt (s : State) (d : Int) : State :=
  let x := max 0 (s.ftFine s.now + d)
  { s with time := { s.time with off := x / 65536 - s.now, frac := (x % 65536).toNat } }

/-- The time entry of the active plan (Table TIM-1). -/
def State.timeEnt (s : State) : Option (BitVec 128) := s.plans.active.map (·.time)

/-- GM. -/
def teGm (e : BitVec 128) : Bool := bit e.toNat 0
/-- TRAILSRC. -/
def teTrail (e : BitVec 128) : Bool := bit e.toNat 1
/-- TPLANE. -/
def teTplane (e : BitVec 128) : Nat := fld e 6 2
/-- TLINK; 0x3FF none. -/
def teLink (e : BitVec 128) : Nat := fld e 17 8
/-- TLINK2; 0x3FF none. -/
def teLink2 (e : BitVec 128) : Nat := fld e 27 18
/-- The delay asymmetry in bits [lo + 15:lo], in 2^-16 ns. -/
def teAsym (e : BitVec 128) (lo : Nat) : Int := 256 * sext 16 (fld e (lo + 15) lo)

/-- TSTATE codes (Table TIM-2). -/
def TState.code : TState → Nat
  | .unset => 0 | .acquire => 1 | .locked => 2 | .holdover => 3 | .gm => 4

/-! ### Time states (Table TIM-3) -/

/-- A commit whose FT has passed while FT was UNSET is missed: the switch keeps its plans and completes it with
NOT_STAGED (R445, R519, R522). -/
def State.missCommit (s : State) : State :=
  match s.plans.arm with
  | none => s
  | some a =>
    if s.ftSet ∧ a.c ≤ s.ftNow then
      ({ s with plans := { s.plans with arm := none } }).complete a.req 0x41 0
    else s

/-- A time state entered and reported (Table MGT-8). -/
def State.enterTime (s : State) (st : TState) : State :=
  let s := { s with time := { s.time with st := st, good := 0 } }
  let s := match st with
    | .unset => ({ s with time := { s.time with depth := 0xFF, remove := 0, freq := 0 } }).count .timeUnset 0 0
    | .holdover => ({ s with time := { s.time with holdAt := s.now, remove := 0 } }).count .holdovers 0 0
    | .gm => { s with time := { s.time with depth := 0 } }
    | _ => s
  s.event evTimeState 0 st.code []

/-- The servo: an offset in 2^-16 ns sets the frequency correction, within 200 ppm, and the removal (R455). -/
def State.servo (s : State) (theta : Int) : State :=
  let f := max (-200000) (min 200000 (Config.servoRate theta s.time.freq))
  { s with time := { s.time with freq := f, remove := theta } }

/-- An offset computed from the source at hop count `depth`; `gm`: the switch is a grandmaster with a Trail source
(R454, R455, R457). -/
def State.useOffset (s : State) (theta : Int) (depth : Nat) (gm : Bool) : State :=
  let dep := if gm then 0 else min 0xFF (depth + 1)
  let seen (s : State) : State := { s with time := { s.time with usable := s.now, depth := dep } }
  if !s.ftSet then
    (((s.loadFt (-theta)).enterTime (if gm then .gm else .acquire)) |> seen).missCommit
  else if theta.natAbs > 1000 * 65536 then s.enterTime .unset
  else
    let s := seen (s.servo theta)
    match s.time.st with
    | .holdover => s.enterTime .acquire
    | .acquire =>
      let n := if theta.natAbs ≤ 2 * 65536 then s.time.good + 1 else 0
      if 8 ≤ n then s.enterTime .locked else { s with time := { s.time with good := n } }
    | _ => s

/-! ### TSYNC words (R451, R453) -/

/-- A TSYNC word sent at counter reading `t`: its number, the last one received (number and stamp). -/
def State.tsyncWord (s : State) (t seq : Nat) (recv : Option (Nat × Nat)) : BitVec 128 :=
  let x := (s.ftFine t).toNat
  let eseq := match recv with | none => 0 | some r => r.1
  let turn := match recv with
    | none => 0xFFFFFFFF
    | some r => if t - r.2 ≤ 64000 then (t - r.2) * 256 else 0xFFFFFFFF
  let depth := if s.time.st = .unset then 0xFF else s.time.depth
  BitVec.ofNat 128 (0x20 + (seq % 16) <<< 8 + eseq <<< 12 + turn <<< 16 + s.time.st.code <<< 48 + depth <<< 56 +
    (x % 65536 / 4096 * 4096) <<< 64 + (x / 65536 % 2 ^ 48) <<< 80)

/-- TXNS extended to the value nearest a given FT (R451). -/
def extendNs (ft ns : Nat) : Nat :=
  let b := ft / 2 ^ 48 * 2 ^ 48 + ns
  if b + 2 ^ 47 < ft then b + 2 ^ 48 else if ft + 2 ^ 47 < b ∧ 2 ^ 48 ≤ b then b - 2 ^ 48 else b

/-- The offset of R453 in 2^-16 ns: own stamps t1 and t4, the answer's stamp t3, its turnaround and the asymmetry. -/
def offsetOf (t1 t4 t3 turn a : Int) : Int := t4 - (t3 + ((t4 - t1) - turn + a) / 2)

/-- What R453 asks of a word beside the link that it came on: TURN, ESEQ and TSTATE; the own stamp of ESEQ. -/
def tsyncMatch (w : BitVec 128) (sent : List (Nat × Nat)) : Option Nat :=
  if fld w 47 16 = 0xFFFFFFFF ∨ !(fld w 51 48 = 2 ∨ fld w 51 48 = 4) then none
  else ((sent.take 4).find? fun x => decide (x.1 = fld w 15 12)).map (·.2)

/-- The offset of a word received at counter reading `t` whose ESEQ was sent at reading `t1`. -/
def State.tsyncTheta (s : State) (w : BitVec 128) (t1 t : Nat) (a : Int) : Int :=
  let t4 := s.ftFine t
  let t3 := (extendNs (s.ftAt t) (fld w 127 80) : Int) * 65536 + fld w 79 64
  offsetOf (t4 - ((t : Int) - t1) * 65536) t4 t3 ((fld w 47 16 : Int) * 256) a

/-- A TSYNC number noted with its stamp, the last four kept. -/
def noteSent (sent : List (Nat × Nat)) (seq t : Nat) : List (Nat × Nat) := ((seq % 16, t) :: sent).take 4

/-- The next TSYNC number after those sent. -/
def nextSeq (sent : List (Nat × Nat)) : Nat := match sent with | [] => 0 | x :: _ => (x.1 + 1) % 16

/-- The link time entry under which a link is a parent: its asymmetry. -/
def State.parentAsym (s : State) (l : Nat) : Option Int :=
  match s.timeEnt with
  | none => none
  | some e =>
    if teGm e then none
    else if teLink e = l then some (teAsym e 32)
    else if teLink2 e = l then some (teAsym e 48)
    else none

/-- TLINK is UP and has given a usable TSYNC within the last 100 µs (R456). -/
def State.tlinkUsable (s : State) (e : BitVec 128) : Bool :=
  let k := s.link (teLink e)
  decide (k.st = .up) && (match k.tsGood with | none => false | some x => decide (s.now < x + 100000))

/-- Whether a link may give the next offset: the active parent, and with no parent in use TLINK, or TLINK2 while TLINK
is not usable (R454, R456). -/
def State.isParent (s : State) (l : Nat) : Bool :=
  match s.timeEnt with
  | none => false
  | some e =>
    match s.time.st with
    | .acquire => decide (s.time.parent = some l)
    | .locked => decide (s.time.parent = some l)
    | .gm => false
    | _ => decide (l = teLink e) || (decide (l = teLink2 e) && !s.tlinkUsable e)

/-- A TSYNC word received on a link (R451, R453, R456, R474). -/
def State.tsyncRx (s : State) (l : Nat) (w : BitVec 128) (t : Nat) : State :=
  let k := s.link l
  let s := (s.setLink l { k with tsRecv := some (fld w 11 8, t) }).count .tsyncRx l 0
  match s.parentAsym l with
  | none => s
  | some a =>
    if !s.isParent l then
      match tsyncMatch w k.tsSent with
      | none => s
      | some _ => s.setLink l { s.link l with tsGood := some t }
    else match tsyncMatch w k.tsSent with
      | none => s.count .tsyncUnused l 0
      | some t1 =>
        let s := s.setLink l { s.link l with tsGood := some t }
        let s := match s.time.parent with
          | some p => if p = l then s else s.count .parentSwitch 0 0
          | none => s
        let s := { s with time := { s.time with parent := some l } }
        s.useOffset (s.tsyncTheta w t1 t a) (fld w 63 56) false

/-- The loop time that an exchange shows: from a word's transmission to its answer, without the turnaround (R346). -/
def loopOf (w : BitVec 128) (sent : List (Nat × Nat)) (t : Nat) : Option Nat :=
  if fld w 47 16 = 0xFFFFFFFF then none
  else match (sent.take 4).find? fun x => decide (x.1 = fld w 15 12) with
    | none => none
    | some x => some (t - x.2 - fld w 47 16 / 256)

/-! ### The rows of the time states -/

/-- HOLDOVER_ENTRY: no usable TSYNC from the active parent for 100 µs (R454). -/
def execHoldoverEntry (t : Nat) (s : State) : Out State :=
  let s := s.tick t
  .next (when_ (decide ((s.time.st = .acquire ∨ s.time.st = .locked) ∧ s.time.usable + 100000 ≤ s.now)) s
    (s.enterTime .holdover))

/-- HOLDOVER_EXPIRY: 1 s in HOLDOVER (R454). -/
def execHoldoverExpiry (t : Nat) (s : State) : Out State :=
  let s := s.tick t
  .next (when_ (decide (s.time.st = .holdover ∧ s.time.holdAt + 1000000000 ≤ s.now)) s (s.enterTime .unset))

end Sys2Proof.Machine
end

