-- ==== Sys2Proof/Machine/LinkOps.lean ====
section
/-!
DEFINITION. The link layer: lane sets, training, discovery, blocks, replay, credits, control words and what a link that
goes DOWN or stops leaves behind (R325 to R364, R399 to R403, R435, R452, R472, R473).
-/
namespace Sys2Proof.Machine

/-! ### Lanes (R325, R352) -/

/-- The lanes of a link, in the lane numbers of its port. -/
def State.fullLanes (s : State) (l : Nat) : Nat :=
  if 576 ≤ l then 0x03
  else
    let k := s.sw.split.at (l / 4) 0
    if k = 1 then 0x0F <<< (4 * (l % 4)) else if k = 2 then 3 <<< (2 * (l % 4)) else 0xFF

/-- The lane sets that R352 tries, in its order, the full set first. -/
def laneSets (full : Nat) : List Nat :=
  if full = 0xFF then [0xFF, 0x0F, 0xF0, 0x03, 0x0C, 0x30, 0xC0]
  else if full = 0x0F then [0x0F, 0x03, 0x0C]
  else if full = 0xF0 then [0xF0, 0x30, 0xC0]
  else [full]

/-- The first lane set whose lanes are all good, at most `width` lanes wide (R352, R354). -/
def chooseSet (full width good : Nat) : Option Nat :=
  (laneSets full).find? fun c => decide (c &&& good = c ∧ popcount 8 c ≤ width)

/-- Blocks of a replay buffer without the long-reach pool (R345). -/
def replayBase (lanes : Nat) : Nat :=
  let w := popcount 8 lanes
  if w = 8 then 1024 else if w = 4 then 512 else 256

/-- Blocks of the replay buffer: its own and those of the long-reach pool (R345). -/
def State.replayCap (s : State) (l : Nat) : Nat := min Config.heldMax (replayBase (s.fullLanes l) + s.sw.reach.at l 0)

/-- T_REPLAY in ns (Table LNK-9). -/
def Link.tReplay (k : Link) : Nat := max 2000 (k.loop + 1000)

/-! ### Reports -/

/-- Codes of the link states: the row order of Table LNK-8, with STOPPING after it (log entry 20). -/
def LState.code : LState → Nat
  | .disabled => 0 | .signal => 1 | .equalise => 2 | .fecLock => 3 | .discover => 4 | .init => 5 | .up => 6
  | .retrain => 7 | .down => 8 | .stopping => 9

/-- Codes of the discovery states (Table MGT-6). -/
def Disc.code : Disc → Nat
  | .used => 0 | .extra => 1 | .wrong => 2 | .missing => 3

/-- LINK_STATE reported (Table MGT-8). -/
def State.linkEvent (s : State) (l : Nat) : State :=
  let k := s.link l
  s.event evLinkState k.cause (l + k.st.code <<< 16 + k.cause <<< 24) (s.linkParts l)

/-- A link moved to a state, with a cause. -/
def State.toState (s : State) (l : Nat) (st : LState) (cause : Nat) : State :=
  s.setLink l { s.link l with st := st, cause := cause, since := s.now }

/-! ### The failure set (R402, R403) -/

/-- PART_DEGRADED for each partition that a link of the failure set `f` of a held set carries (R403). -/
def State.partDegraded (s : State) (r : Route) (f : List Nat) : State :=
  (List.range 64).foldl (fun s p =>
    if f.any fun l => lePart (r.linkEnt l) p then
      (s.event evPartDegraded 0 (p + r.repoch <<< 8) [p]).health hNbr 1
    else s) s

/-- F evaluated again for every held set, each by its own entries (R402, R403). -/
def State.reevalF (s : State) : State :=
  let old := s.plans.routes
  let s := { s with plans := { s.plans with routes := old.map fun h => { h with f := s.failedOn h.route } } }
  old.foldl (fun s h =>
    let f := s.failedOn h.route
    if h.f = f ∨ f.isEmpty ∨ h.route.vars.any fun v => decide (v.fail = maskOf f) then s
    else s.partDegraded h.route f) s

/-- The discovery state of a link changed, reported, and F evaluated again (R401, R402). -/
def State.setDisc (s : State) (l : Nat) (d : Disc) : State :=
  let k := s.link l
  let s := s.setLink l { k with disc := d }
  if k.disc = d then s
  else
    let det := match k.hello with
      | none => l
      | some h => l + fld h 63 32 <<< 16 + fld h 183 120 <<< 48
    let s := match d with
      | .used => s
      | .extra => s.event evNbrExtra 0 det (s.linkParts l)
      | .wrong => (s.event evNbrWrong 0 det (s.linkParts l)).health hNbr 1
      | .missing => (s.event evNbrMissing 0 l (s.linkParts l)).health hNbr 1
    s.reevalF

/-! ### DOWN, RETRAIN and STOPPING -/

/-- The PORT_ENABLE of a link completed (R359). -/
def State.completeEnable (s : State) (l status : Nat) : State :=
  let k := s.link l
  match k.fn.start with
  | none => s
  | some r => (s.setLink l { k with fn := { k.fn with start := none } }).complete r status 0

/-- A link with fresh state, as each start through SIGNAL gives it (R350, R354). -/
def Link.fresh (k : Link) : Link :=
  { k with lanes := 0, good := 0, txSeq := 0, held := [], resend := [], replay := 0, replayAt := 0, ackAt := 0, rxExp := 0,
           rxWait := false, nak := false, nakAt := 0, loop := 0, looped := false, cred := [], freed := [], dirty := [],
           blkNo := 0, credAt := [], unit := 0, rx := [], ctl := [], uctl := [], hello := none, ready := none,
           readySent := false, degrade := none, uncorrAt := [], tsSent := [], tsRecv := none, tsGood := none }

/-- A link enters SIGNAL. -/
def State.enterSignal (s : State) (l : Nat) : State :=
  (s.setLink l (s.link l).fresh).toState l .signal (s.link l).cause

/-- Whole packets of a link that wait for their lookup are looked up. -/
def State.ingressAll (s : State) (l : Nat) : State :=
  let q := (s.link l).rxq
  q.foldl (fun s x =>
    let n := flitsOf x.2.payload.length
    let r := arrive s (.link l) x.1 n n x.2 (decide (checkOf x.2.payload ≠ hCheck x.2.hdr))
    match r.2 with
    | some _ => r.1
    | none => r.1.freeCredits l x.1 (s.poolOn l x.1 x.2.hdr) n) (s.setLink l { s.link l with rxq := [] })

/-- Packets of a link that can no longer be completed: those forwarded by cut-through end with ABORT, and the others are
dropped (R356, R358). -/
def State.cutIngress (s : State) (l cause : Nat) : State :=
  let s := (s.link l).rx.foldl (fun s x => match x.2.mode with | .through id => s.endPacket id cause | _ => s) s
  s.setLink l { s.link l with rx := [] }

/-- Buffered packets of a link no longer return credits to it. -/
def State.staleCells (s : State) (l : Nat) : State :=
  let mine (b : BufPkt) : Bool := match b.acct with | .link x _ => decide (x = l) | _ => false
  let buf := modWhere mine (fun b => { b with stale := true }) s.sw.buf
  { s with sw := { s.sw with buf := buf } }

/-- A link goes DOWN not by command (R358, R359, R401, R435). -/
def State.linkDown (s : State) (l cause : Nat) : State :=
  let k := s.link l
  let wasUp := decide (k.st = .up ∨ k.st = .retrain)
  let s := (s.ingressAll l).cutIngress l 0x50
  let s := (s.staleCells l).countN .lostBlocks l 0 k.held.length
  let s := s.setLink l { s.link l with held := [], resend := [], replay := 0, cred := [], freed := [], dirty := [],
                                       ctl := [], uctl := [], degrade := none, awaited := none }
  let s := (s.toState l .down cause).flushLink l false
  let s := if wasUp then s.health hDegrade 1 else s
  let s := if s.newest.isSome then s.setDisc l .missing else s
  (s.linkEvent l).completeEnable l cause

/-- The optical engine of a link (R328, R329). -/
def engineOf (l : Nat) : Nat := if l < 576 then l / 16 else 9 * (l - 576) + 4

/-- A link starts through SIGNAL; on an engine under LASER_FAULT, and in a part that has stopped, it
goes DOWN at once (R330, R359, R475). -/
def State.startLink (s : State) (l : Nat) : State :=
  let s := s.enterSignal l
  if s.roe.c6 then s.linkDown l 0x50
  else if s.roe.laser.contains (engineOf l) then s.linkDown l 0x56 else s

/-! ### Starts from DISABLED: the plan's split, reach class and long-reach blocks (R325, R331, R345) -/

/-- The split that the active plan gives a port; none before the first plan (R325, R556). -/
def State.planSplit (s : State) (p : Nat) : Nat := match s.plans.active with | none => 0 | some x => x.split.at p 0

/-- The active plan puts a link into Class L (R331). -/
def State.planClassL (s : State) (l : Nat) : Bool := s.plans.active.any fun x : Plan => x.classL.contains l

/-- Another link of the same port is not DISABLED. -/
def State.portBusy (s : State) (l : Nat) : Bool :=
  (List.range 4).any fun j => decide (4 * (l / 4) + j ≠ l ∧ (s.link (4 * (l / 4) + j)).st ≠ .disabled)

/-- Blocks of a die's long-reach pool that its links do not hold. -/
def State.poolLeft (s : State) (d : Nat) : Nat :=
  Config.reachPool - (s.sw.reach.filter fun x => decide (dieOfLink x.1 = d)).foldl (fun n x => n + x.2) 0

/-- Blocks that a link gets from the long-reach pool: what the plan adds to a Class L link, in steps of 1,024, within what
is left of the pool (R345, log entry 33). -/
def State.reachGrant (s : State) (l : Nat) : Nat :=
  match s.plans.active with
  | none => 0
  | some p => if p.classL.contains l then min (1024 * p.reach.at l 0) (s.poolLeft (dieOfLink l)) / 1024 * 1024 else 0

/-- A link about to start from DISABLED takes the plan's reach class and long-reach blocks, and its port the plan's split
once no other link of the port is in use (R325, R331, R345). -/
def State.adopt (s : State) (l : Nat) : State :=
  let split := if 576 ≤ l || s.portBusy l then s.sw.split else s.sw.split.put (l / 4) (s.planSplit (l / 4))
  let others := s.sw.classL.filter fun x => decide (x ≠ l)
  { s with sw := { s.sw with
      split := split
      classL := if s.planClassL l then l :: others else others
      reach := if s.reachGrant l = 0 then s.sw.reach.drop l else s.sw.reach.put l (s.reachGrant l) } }

/-- A link starts from DISABLED; one that the split in force lacks stays DISABLED, since the split change awaits a start of
the whole port (R325, R359, Table LNK-10A). -/
def State.startOff (s : State) (l : Nat) : State :=
  let s := s.adopt l
  if namesUnder s.sw.split l then s.startLink l
  else (s.setLink l { s.link l with cause := 0x59, awaited := none }).completeEnable l 0x59

/-- A commit whose plan gives a link in use another split or reach class: the change awaits a start from DISABLED
(R325, R331, Table LNK-10A). -/
def State.awaitStart (s : State) (l : Nat) : State :=
  let k := s.link l
  let other := (decide (l < 576) && decide (s.sw.split.at (l / 4) 0 ≠ s.planSplit (l / 4))) ||
    decide (s.sw.classL.contains l ≠ s.planClassL l)
  if other && decide (k.st ≠ .disabled) then s.setLink l { k with cause := 0x59 } else s

/-! ### HELLO and TSYNC queued (R349, R360, R369) -/

/-- PORT and SUB of a link's HELLO. -/
def State.helloPort (s : State) (l : Nat) : Nat × Nat :=
  if 576 ≤ l then (0x100 + (l - 576), 0) else (l / 4, if s.sw.split.at (l / 4) 0 = 0 then 0 else l % 4)

/-- The coordinate that the plan gives a link's partner; on a split port it carries the bits of the sub-port (R360, R369).
-/
def State.peerOf (s : State) (l : Nat) : Nat :=
  match s.newest with
  | none => 0xFFFFFFFF
  | some r =>
    if fld (r.nbr l) 39 32 = 0xFF then 0xFFFFFFFF
    else if l < 576 ∧ r.endpointLink l then subFn (s.sw.split.at (l / 4) 0) (l % 4) (fld (r.nbr l) 31 0)
    else fld (r.nbr l) 31 0

/-- The part's HELLO on a link (Table LNK-7). -/
def State.helloFlit (s : State) (l : Nat) : BitVec 512 :=
  let role := match s.newest with | none => 0 | some r => r.role
  let p := s.helloPort l
  let epoch := match s.plans.active with | none => 0 | some x => x.pepoch
  BitVec.ofNat 512 (0x80 + role <<< 8 + b2n (s.sw.classL.contains l) <<< 16 + (s.link l).lanes <<< 24 + s.selfCoord <<< 32 +
    s.peerOf l <<< 64 + p.1 <<< 96 + p.2 <<< 106 + 1 <<< 112 + s.fuse.serial.toNat <<< 120 + (epoch % 2 ^ 32) <<< 184)

/-- HELLO queued. -/
def State.sendHello (s : State) (l : Nat) : State :=
  let k := s.link l
  s.setLink l { k with uctl := k.uctl ++ [s.helloFlit l], helloAt := s.now }

/-- A TSYNC queued: its fields are filled in when it is sent (R340). -/
def State.queueTsync (s : State) (l : Nat) : State :=
  let k := s.link l
  s.setLink l { k with uctl := k.uctl ++ [0x20], tsAt := s.now }

/-- A link enters RETRAIN and repeats HELLO; the fourth within 100 ms takes it DOWN instead (R349, R350). -/
def State.enterRetrain (s : State) (l cause : Nat) (tell : Bool) : State :=
  let k := s.link l
  let rs := k.retrains.filter fun x => decide (s.now < x + 100000000)
  if 3 ≤ rs.length then s.linkDown l 0x55
  else
    let w : BitVec 512 := BitVec.ofNat 512 (0x05 + cause <<< 16)
    let s := s.setLink l { k with retrains := s.now :: rs, degrade := none, uctl := if tell then k.uctl ++ [w] else k.uctl }
    ((((s.count .retrains l 0).health hRetrain 1).toState l .retrain cause).linkEvent l).sendHello l

/-- A link moved to STOPPING (R359, R435). -/
def State.linkStop (s : State) (l : Nat) : State :=
  let k := s.link l
  let live := decide (k.st = .up ∨ k.st = .retrain)
  let s := match k.fn.start with
    | none => s
    | some r => (s.setLink l { k with fn := { k.fn with start := none } }).complete r 0x25 0
  let s := s.setLink l { s.link l with awaited := none, degrade := none }
  (s.toState l .stopping 0).flushLink l live

/-- A link enters DISABLED; the disables complete, and a queued enable runs, or the start of a takeover (R359, R507, R516,
R517). -/
def State.linkOff (s : State) (l : Nat) : State :=
  let s := ((s.ingressAll l).cutIngress l 0x5A).staleCells l
  let k := s.link l
  let s := s.setLink l { k.fresh with st := .disabled, since := s.now, fn := {}, restart := false }
  let s : State := { s with sw := { s.sw with reach := s.sw.reach.drop l } }
  let s := (s.flushLink l false).setDisc l .used
  let s := k.fn.stops.foldl (fun s r => s.complete r 0 0) s
  let s := s.linkEvent l
  match k.fn.queued with
  | none => if k.restart then (s.setLink l { s.link l with awaited := some s.now }).startOff l else s
  | some (r, _) =>
    let s := s.setLink l { s.link l with fn := { start := some r }, awaited := some s.now }
    s.startOff l

/-! ### Training and discovery (R359 to R361, R401) -/

/-- A training state has judged the lanes: the link goes on, on the lane set of R352, or DOWN with TRAIN_FAIL. -/
def State.judgeLanes (s : State) (l good : Nat) (next : LState) : State :=
  let full := s.fullLanes l
  match chooseSet full 8 (good &&& full) with
  | none => s.linkDown l 0x51
  | some set => (s.setLink l { s.link l with good := good &&& full, lanes := set }).toState l next 0

/-- Discovery against the plan when a link reaches INIT (R401). -/
def State.compareNbr (s : State) (l : Nat) (h : BitVec 512) : State :=
  s.setDisc l (match s.newest with | none => .used | some r => r.discOf l h)

/-- The (VC, pool) pairs that the part initialises on a link, with their FLITS (R341, R399, R406, R556). -/
def State.linkPairs (s : State) (l : Nat) : List (Nat × Nat × Nat) :=
  match s.newest with
  | none => [0, 3, 4].map fun v => (v, 0, Config.bootFlits.toNat)
  | some r =>
    let size (v q : Nat) : Nat := ((acctEntry s (dieOfLink l) v (.link l q)).map aeSize).getD 0
    (0, 0, size 0 0) :: (List.range 7).flatMap fun v => (linkPools r l).map fun q => (v + 1, q, size (v + 1) q)

/-- A CREDIT_INIT word. -/
def creditInit (x : Nat × Nat × Nat) : BitVec 512 := BitVec.ofNat 512 (0x03 + x.1 <<< 8 + x.2.1 <<< 12 + x.2.2 <<< 16)

/-- A link enters INIT: CREDIT_INIT for every pair, then READY (R341, R344, R359). -/
def State.enterInit (s : State) (l : Nat) (h : BitVec 512) : State :=
  let ps := s.linkPairs l
  let mask := if s.newest.isNone then 0x19 else 0xFF
  let k := s.link l
  let s := s.setLink l { k with
    awaited := none
    dirty := []
    blkNo := 0
    credAt := []
    freed := ps.foldl (fun f x => f.put (x.1, x.2.1) 0) []
    uctl := k.uctl ++ ps.map creditInit ++ [BitVec.ofNat 512 (0x04 + mask <<< 8)] }
  (s.toState l .init 0).compareNbr l h

/-- A HELLO received in DISCOVER is checked; one that passes takes the link to INIT, once the loop time has been measured
(R346, R359, R361). -/
def State.checkHello (s : State) (l : Nat) (h : BitVec 512) : State :=
  if fld h 119 112 ≠ 1 then s.linkDown l 0x53
  else if bit h.toNat 16 ≠ s.sw.classL.contains l then s.linkDown l 0x52
  else if fld h 31 24 ≠ (s.link l).lanes then s.linkDown l 0x51
  else if (s.link l).looped then s.enterInit l h
  else s

/-- The loop time that a received TSYNC shows (R346); in DISCOVER it was all that a checked HELLO waited for. A word that
answers none of the part's own is answered while the partner may still measure, in DISCOVER and INIT (R346, R359). -/
def State.measureLoop (s : State) (l t : Nat) (w : BitVec 128) : State :=
  let k := s.link l
  let training := decide (k.st = .discover ∨ k.st = .init)
  match loopOf w k.tsSent t with
  | none => if training then s.queueTsync l else s
  | some n =>
    let s := s.setLink l { k with loop := n, looped := true }
    match k.hello with
    | none => s
    | some h => if k.st = .discover then s.checkHello l h else s

/-- INIT ends in UP once both READYs have passed (R359); the boot ROM may then read its image (R579). -/
def State.upCheck (s : State) (l : Nat) : State :=
  let k := s.link l
  if k.st = .init ∧ k.readySent = true ∧ k.ready.isSome = true then
    (((s.toState l .up (if k.lanes = s.fullLanes l then 0 else 0x57)).linkEvent l).completeEnable l 0).bootUp l
  else s

/-! ### Degrade (R351 to R354) -/

/-- A DEGRADE word. -/
def degradeWord (good : Nat) (ack : Bool) (set swseq : Nat) : BitVec 512 :=
  BitVec.ofNat 512 (0x02 + good <<< 8 + b2n ack <<< 16 + set <<< 17 + swseq <<< 32)

/-- A link changes to a lane set, on which the stream starts again (R353, R354). -/
def State.useSet (s : State) (l set : Nat) : State :=
  let k := s.link l
  if k.lanes = set then s.setLink l { k with degrade := none }
  else (((s.setLink l { k with lanes := set, unit := 0, degrade := none, cause := 0x57 }).count .degrades l 0).health hDegrade
    1).linkEvent l

/-- DEGRADE asked for, or repeated. -/
def State.askDegrade (s : State) (l : Nat) (first : Nat) : State :=
  let k := s.link l
  s.setLink l { k with degrade := some (first, s.now), uctl := k.uctl ++ [degradeWord k.good false 0 0] }

/-- A DEGRADE word received (R353). -/
def State.degradeRx (s : State) (l : Nat) (w : BitVec 128) : State :=
  let k := s.link l
  if bit w.toNat 16 then
    if k.degrade.isSome then s.useSet l (fld w 24 17) else s
  else match chooseSet (s.fullLanes l) (popcount 8 k.lanes) (k.good &&& fld w 15 8) with
    | none => s.linkDown l 0x50
    | some set =>
      let s := s.setLink l { k with uctl := k.uctl ++ [degradeWord k.good true set k.txSeq] }
      s.useSet l set

/-- A receive lane has failed: DEGRADE follows, or DOWN when no lane set is left; a link in RETRAIN or STOPPING only notes
it (R350 to R353). -/
def State.laneFailed (s : State) (l lane : Nat) : State :=
  let k := s.link l
  let good := k.good - (k.good &&& 2 ^ lane)
  let s := s.setLink l { k with good := good }
  if !bit k.lanes lane || decide (k.st = .stopping ∨ k.st = .retrain) then s
  else match chooseSet (s.fullLanes l) (popcount 8 k.lanes) good with
    | none => s.linkDown l 0x50
    | some _ => s.askDegrade l (match k.degrade with | none => s.now | some x => x.1)

/-- Uncorrectable codewords of a lane: the fourth within 1 ms fails it (R351). -/
def State.uncorrOn (s : State) (l lane n : Nat) : State :=
  let k := s.link l
  let at_ := ((List.replicate (min n 4) s.now) ++ ((k.uncorrAt.at lane []).filter fun x => decide (s.now < x + 1000000))).take 4
  let s := s.setLink l { k with uncorrAt := k.uncorrAt.put lane at_ }
  if 0 < n ∧ 4 ≤ at_.length ∧ bit k.good lane then s.laneFailed l lane else s

/-! ### Digests on links (R472, R473) -/

/-- The part's DIGEST word (Table TIM-8). -/
def State.digestWord (s : State) : BitVec 128 :=
  let pe := match s.plans.active with | none => 0 | some p => p.pepoch
  let pd := match s.plans.active with | none => 0 | some p => p.pdig.toNat
  let ov := match s.plans.prev with | none => false | some x => decide (s.now < x.2)
  BitVec.ofNat 128 (0x21 + (pe % 256) <<< 8 + b2n ov <<< 16 + (pe % 2 ^ 32) <<< 32 + pd <<< 64)

/-- The result of Table TIM-9 for a partner's word: 0 CONSISTENT, 1 PLAN_CONFLICT, 2 TRANSITION, 3 PLAN_SKEW. -/
def State.digestCompare (s : State) (w : BitVec 128) : Nat :=
  let own := s.digestWord
  if fld w 63 32 = fld own 63 32 then (if fld w 127 64 = fld own 127 64 then 0 else 1)
  else
    let d := (fld w 63 32 + 2 ^ 32 - fld own 63 32) % 2 ^ 32
    if (d = 1 ∨ d = 2 ^ 32 - 1) ∧ (bit w.toNat 16 || bit own.toNat 16) = true then 2 else 3

/-- Whether the part is within an overlap window. -/
def State.overlap (s : State) : Bool := match s.plans.prev with | none => false | some x => decide (s.now < x.2)

/-- A conflict or skew lasts past the overlap window: it was there at the comparison before and no window is open. -/
def State.lasting (s : State) (cmp old : Nat) (was : Bool) : Bool :=
  decide ((cmp = 1 ∨ cmp = 3) ∧ (old = 1 ∨ old = 3)) && (was || !s.overlap)

/-- A comparison counted and reported; `i` is the counter index, `det` the event's detail (R473, R474). One that has become
lasting is one health event (Table RES-6). -/
def State.digestResult (s : State) (i det cmp : Nat) (was lasting : Bool) (parts : List Nat) : State :=
  let s := if lasting && !was then s.health hPlan 1 else s
  if cmp = 1 then (s.count .planConflict i 0).event evPlanConflict 0 det parts
  else if cmp = 3 then (s.count .planSkew i 0).event evPlanSkew 0 det parts
  else s

/-- A DIGEST word received on a link. -/
def State.digestRx (s : State) (l : Nat) (w : BitVec 128) : State :=
  let k := s.link l
  let c := s.digestCompare w
  let lst := s.lasting c k.digCmp k.digLasting
  let s := s.setLink l { k with digAt := some s.now, digCmp := c, digLasting := lst }
  s.digestResult l (l + fld w 63 32 <<< 24) c k.digLasting lst (s.linkParts l)

/-! ### Control words received (R338, R356) -/

/-- The header of a packet being received, from its first flit. -/
def RxPkt.hdr (p : RxPkt) : BitVec 256 := match p.flits with | [] => 0 | f :: _ => BitVec.ofNat 256 f.toNat

/-- ABORT received on a VC (R356). -/
def State.abortRx (s : State) (l v cause : Nat) : State :=
  let k := s.link l
  match k.rx.find v with
  | none => s.count .ctrlUnknown l 0
  | some p =>
    let s := (s.setLink l { k with rx := k.rx.drop v }).count .abortsRx l 0
    match p.mode with
    | .through id => s.endPacket id cause
    | .waits =>
      s.freeCredits l v (s.poolOn l v p.hdr) p.flits.length
    | _ => s

/-- A control word received at counter reading `t`. -/
def State.ctlRx (s : State) (l t : Nat) (w : BitVec 128) : State :=
  let c := fld w 7 0
  let k := s.link l
  if c = 0x00 then s
  else if c = 0x01 then s.abortRx l (fld w 10 8) (fld w 23 16)
  else if c = 0x02 then (if k.st = .up ∨ k.st = .discover ∨ k.st = .init then s.degradeRx l w else s)
  else if c = 0x03 then
    if k.st = .discover ∨ k.st = .init then
      s.setLink l { k with cred := k.cred.put (fld w 10 8, fld w 15 12) { avail := fld w 39 16, lastCcnt := 0, size := fld w 39 16 } }
    else s
  else if c = 0x04 then
    if k.st = .discover ∨ k.st = .init then (s.setLink l { k with ready := some (fld w 15 8) }).upCheck l else s
  else if c = 0x05 then (if k.st = .up then s.enterRetrain l (fld w 23 16) false else s)
  else if c = 0x20 then (s.tsyncRx l w t).measureLoop l t w
  else if c = 0x21 then s.digestRx l w
  else s.count .ctrlUnknown l 0

/-- A control flit received: four words, or one HELLO; another whole-flit type is reserved. -/
def State.ctlFlit (s : State) (l t : Nat) (d : BitVec 512) : State :=
  if fld d 7 0 = 0x80 then
    let k := s.link l
    let s := s.setLink l { k with hello := some d }
    if k.st = .discover then s.checkHello l d else s
  else if 0x80 ≤ fld d 7 0 then s.count .ctrlUnknown l 0
  else (List.range 4).foldl (fun s i => s.ctlRx l t (BitVec.ofNat 128 (fld d (128 * i + 127) (128 * i)))) s

/-! ### Packet flits received (R327A, R438, R482) -/

/-- The packet that a list of flits carries. -/
def flitsPacket (fs : List (BitVec 512)) : Packet :=
  let bs := fs.flatMap fun f => toLE 64 f.toNat
  let h := BitVec.ofNat 256 (ofLE (bs.take 32))
  { hdr := h, payload := slice bs 32 (hLen h) }

/-- Whether a packet's check value fails. -/
def badCheck (p : Packet) : Bool := decide (checkOf p.payload ≠ hCheck p.hdr)

/-- A whole packet looked up: its flits are freed unless the buffer holds them (R412). -/
def State.ingressWhole (s : State) (l v : Nat) (p : Packet) (free : Bool) : State :=
  let n := flitsOf p.payload.length
  let r := arrive s (.link l) v n n p (badCheck p)
  match r.2 with
  | some _ => r.1
  | none => if free then r.1.freeCredits l v (s.poolOn l v p.hdr) n else r.1

/-- A flit of a packet forwarded by cut-through; one whose packet has been pushed out is freed as it arrives (R412, R415).
-/
def State.throughFlit (s : State) (l v id : Nat) (h : BitVec 256) (d : BitVec 512) (last bad : Bool) : State :=
  if (s.bufOf id).isSome then s.addFlit id d last bad else s.freeCredits l v (s.poolOn l v h) 1

/-- A packet whose tail has arrived. -/
def State.tailRx (s : State) (l v : Nat) (p : RxPkt) (d : BitVec 512) : State :=
  let k := s.link l
  let q := flitsPacket (p.flits ++ [d])
  let s := (s.setLink l { k with rx := k.rx.drop v }).count .rxPkts l v
  let s := if (badCheck q) then (s.count .checkIn l 0).health hCheckIn 1 else s
  let pool := s.poolOn l v q.hdr
  match p.mode with
  | .waits => s.setLink l { s.link l with rxq := (s.link l).rxq ++ [(v, q)] }
  | .through id => s.throughFlit l v id q.hdr d true (badCheck q)
  | .gather => (s.freeCredits l v pool 1).ingressWhole l v q false
  | .drop => s.freeCredits l v pool 1

/-- A packet flit received on a VC. -/
def State.flitRx (s : State) (l v : Nat) (d : BitVec 512) : State :=
  let s := s.count .rxFlits l v
  let k := s.link l
  let p := (k.rx.find v).getD { flits := [], total := flitsOf (hLen (BitVec.ofNat 256 d.toNat)), mode := .waits }
  if p.total ≤ p.flits.length + 1 then s.tailRx l v p d
  else
    let s := s.setLink l { k with rx := k.rx.put v { p with flits := p.flits ++ [d] } }
    match p.mode with
    | .waits => s
    | .through id => s.throughFlit l v id p.hdr d false false
    | _ => s.freeCredits l v (s.poolOn l v p.hdr) 1

/-! ### Blocks (R333 to R337, R343, R345, R347, R348) -/

/-- Bytes of a block that its CRC covers, given the low 96 bits of the trailer. -/
def blockBytes (fs : List (BitVec 512)) (low : Nat) : List Byte := (fs.flatMap fun f => toLE 64 f.toNat) ++ toLE 12 low

/-- The FTAG code of flit `i`. -/
def ftag (b : Block) (i : Nat) : Nat := fld b.trailer (4 * i + 3) (4 * i)

/-- A block is good by its own bits: eight flits, no reserved FTAG code and a matching CRC (R334). -/
def blockGood (b : Block) : Bool :=
  decide (b.flits.length = 8) && ((List.range 8).all fun i => decide (8 ≤ ftag b i ∨ ftag b i ≤ 1)) &&
  decide (crc32c (blockBytes b.flits (fld b.trailer 95 0)) = fld b.trailer 127 96)

/-- Whether a control flit holds a sequenced word. -/
def flitSeqd (d : BitVec 512) : Bool :=
  decide (fld d 7 0 < 0x80) && (List.range 4).any fun i => decide (fld d (128 * i + 7) (128 * i) = 0x01)

/-- A sequenced block (R335). -/
def blockSeqd (b : Block) : Bool :=
  b.flits.zipIdx.any fun x => decide (8 ≤ ftag b x.2) || (decide (ftag b x.2 = 1) && flitSeqd x.1)

/-- A sealed block: flits, FTAG, SEQ, ACK, two credit slots, NAK and CRC (Table LNK-3). -/
def sealBlock (fs : List (BitVec 512)) (tag seq ack : Nat) (c0 c1 : Nat × Nat × Nat) (nak : Bool) : Block :=
  let low := tag + seq <<< 32 + ack <<< 46 + c0.1 <<< 60 + c0.2.1 <<< 63 + c0.2.2 <<< 67 + c1.1 <<< 77 + c1.2.1 <<< 80 +
    c1.2.2 <<< 84 + b2n nak <<< 94
  { flits := fs, trailer := BitVec.ofNat 128 (low + crc32c (blockBytes fs low) <<< 96) }

/-- The initialised pair that was reported longest ago. -/
def Link.oldestPair (k : Link) : Option (Nat × Nat) :=
  k.freed.foldl (fun best x => match best with
    | none => some x.1
    | some p => if k.credAt.at x.1 0 < k.credAt.at p 0 then some x.1 else some p) none

/-- A pair reported in a credit slot. -/
def Link.report (k : Link) (p : Nat × Nat) : (Nat × Nat × Nat) × Link :=
  ((p.1, p.2, k.freed.at p 0 % 1024),
    { k with dirty := k.dirty.filter fun x => decide (x ≠ p), credAt := k.credAt.put p k.blkNo })

/-- One credit slot filled: an initialised pair whose last report is 4,032 blocks old, else a pair whose count has changed,
oldest change first, else the pair reported longest ago. With at most 128 pairs and two slots a block, a changed pair is
reported within 64 blocks and each pair within 4,096 (R341, R343). -/
def Link.creditSlot (k : Link) : (Nat × Nat × Nat) × Link :=
  match k.oldestPair with
  | none => ((0, 0, 0), k)
  | some p =>
    if k.credAt.at p 0 + 4032 ≤ k.blkNo then k.report p
    else match k.dirty with
      | q :: _ => k.report q
      | [] => k.report p

/-- The active lanes of a lane set, in ascending order. -/
def activeLanes (set : Nat) : List Nat := (List.range 8).filter fun i => bit set i

/-- The 16-byte units of a block, each with its lane: unit `u` of the stream goes to active lane `u mod W`, and the block's
first unit is `u` (R326). -/
def blockUnits (set u : Nat) (b : Block) : List (Nat × List Byte) :=
  let lanes := activeLanes set
  let bytes := (b.flits.flatMap fun f => toLE 64 f.toNat) ++ toLE 16 b.trailer.toNat
  (chunksOf 33 16 bytes).zipIdx.map fun x => ((lanes[(u + x.2) % max 1 lanes.length]?).getD 0, x.1)

/-- A block sent: its trailer is made now, and its units go to the lanes (R326, R336). A new sequenced block is held for
replay; `old`: it is a resent one. -/
def State.sendBlock (s : State) (l : Nat) (fs : List (BitVec 512)) (tag : Nat) (seqd : Bool) (old : Option Nat) : State :=
  let k := s.link l
  let k := { k with blkNo := k.blkNo + 1 }
  let fs := fs ++ List.replicate (8 - fs.length) 0
  let a := k.creditSlot
  let b := a.2.creditSlot
  let k := b.2
  let seq := old.getD k.txSeq
  let blk := sealBlock fs tag seq ((k.rxExp + 16383) % 16384) a.1 b.1 k.nak
  let s := if k.nak then s.count .naksTx l 0 else s
  let s := if seqd then s.count .blocksTx l 0 else s
  let new := seqd && old.isNone
  s.setLink l { k with
    nak := false
    nakAt := if k.nak then s.now else k.nakAt
    lastTx := some blk
    lastUnits := blockUnits k.lanes k.unit blk
    unit := (k.unit + 33) % 8
    txSeq := if new then (k.txSeq + 1) % 16384 else k.txSeq
    held := if new then k.held ++ [{ seq := seq, blk := blk, at_ := s.now }] else k.held }

/-- Control words in one flit, the first lowest (R338). -/
def packWords (ws : List (BitVec 128)) : BitVec 512 :=
  BitVec.ofNat 512 (ws.zipIdx.foldl (fun x w => x + w.1.toNat <<< (128 * w.2)) 0)

/-- The next slot of a block: up to four waiting control words, or a flit of the channels; its tag, its flit and the state
after. -/
def State.nextSlot (s : State) (l : Nat) : Option ((Nat × BitVec 512) × State) :=
  let s := s.drainAborts l
  let k := s.link l
  if k.ctl.isEmpty then
    match s.pickSlot l with
    | none => none
    | some (v, d, s) => some ((8 + v, d), s)
  else some ((1, packWords (k.ctl.take 4)), s.setLink l { k with ctl := k.ctl.drop 4 })

/-- One more slot: the state, the tags and flits so far, and whether a slot found nothing to carry. -/
def fillOne (l : Nat) (x : State × List (Nat × BitVec 512) × Bool) : State × List (Nat × BitVec 512) × Bool :=
  if x.2.2 then x
  else match x.1.nextSlot l with
    | none => (x.1.drainAborts l, x.2.1, true)
    | some (y, s) => (s, x.2.1 ++ [y], false)

/-- Up to `n` slots filled: the state after, and the tags and flits. -/
def fillSlots (l n : Nat) (s : State) : State × List (Nat × BitVec 512) :=
  let x := (List.range n).foldl (fun x _ => fillOne l x) (s, [], false)
  (x.1, x.2.1)

/-- A resent block leaves; REPLAY ends once every held block has been resent and an ACK has covered one (Table LNK-5). -/
def State.sendOld (s : State) (l : Nat) (h : HeldBlock) (rest : List HeldBlock) : State :=
  let s := s.sendBlock l h.blk.flits (fld h.blk.trailer 31 0) true (some h.seq)
  let k := s.link l
  let done := rest.isEmpty && decide (k.replayAt < k.ackAt)
  s.setLink l { k with resend := rest, replay := if done then 0 else k.replay }

/-- The unsequenced words that wait, up to one per flit, sent in an empty block (R339); a TSYNC gets its stamps now and
READY is noted (R340, R359). -/
def State.sendUctl (s : State) (l : Nat) : State :=
  let k := s.link l
  let ws := k.uctl.take 8
  let s := s.setLink l { k with uctl := k.uctl.drop 8 }
  let r := ws.foldl (fun (acc : State × List (BitVec 512)) w =>
    let s := acc.1
    let k := s.link l
    if fld w 7 0 = 0x20 then
      let q := nextSeq k.tsSent
      let x := s.tsyncWord s.now q k.tsRecv
      ((s.setLink l { k with tsSent := noteSent k.tsSent q s.now }).count .tsyncTx l 0, acc.2 ++ [BitVec.ofNat 512 x.toNat])
    else if fld w 7 0 = 0x04 then (s.setLink l { k with readySent := true }, acc.2 ++ [w])
    else (s, acc.2 ++ [w])) (s, [])
  let tag := (List.range ws.length).foldl (fun n i => n + 1 <<< (4 * i)) 0
  (r.1.sendBlock l r.2 tag false none).upCheck l

/-- A parity error in the header of the packet at the front of a channel: a packet whose head flit has not left is dropped,
another is ended with ABORT in place of what is left of it (R486). -/
def State.headerParity (s : State) (l v : Nat) : State :=
  let c := s.chan l v
  let noted (s : State) : State := (s.count .hdrParity 0 0).health hInternal 1
  match c.pre, c.owner with
  | f :: _, _ =>
    if f.n = 0 then s
    else
      let s := match s.bufOf f.id with
        | none => s
        | some b => match b.copies.findIdx? fun k : Copy => decide (k.link = l ∧ k.vc = v) with
          | none => s
          | some k => s.endCopy f.id k none
      let c := s.chan l v
      let rest := c.pre.filter fun x => decide (x.id ≠ f.id)
      fillPre l v 300 (noted (s.setChan l v { c with pre := if f.head then rest else abortMark v 0x30 f.id :: rest }))
  | [], some o => fillPre l v 300 (noted (s.endCopy o.1 o.2 (some 0x30)))
  | [], none => s

/-- The next block of a link (R336, R345, R347, R452). -/
def State.blockTx (s : State) (l : Nat) : State :=
  let k := s.link l
  let traffic := decide (k.st = .up ∨ k.st = .stopping)
  match k.resend, traffic with
  | h :: rest, true => s.sendOld l h rest
  | _, _ =>
    let urgent := traffic && (s.flitReady l 0 || s.flitReady l 1) && decide (s.now < k.tsAt + 1000)
    if !k.uctl.isEmpty && !urgent then s.sendUctl l
    else if traffic && decide (k.held.length < s.replayCap l) then
      let r := fillSlots l 8 s
      let tag := r.2.zipIdx.foldl (fun n x => n + x.1.1 <<< (4 * x.2)) 0
      r.1.sendBlock l (r.2.map (·.2)) tag (!r.2.isEmpty) none
    else s.sendBlock l [] 0 false none

/-! ### Replay (Tables LNK-5, LNK-6) -/

/-- A replay begins at the oldest held block; the ninth goes to RETRAIN, which a link in STOPPING does not enter (R347,
R359). -/
def State.startReplay (s : State) (l count : Nat) : State :=
  let k := s.link l
  if k.held.isEmpty then s
  else if 9 ≤ count ∧ k.st ≠ .stopping then s.enterRetrain l 0x55 true
  else (s.setLink l { k with resend := k.held, replay := count, replayAt := s.now }).count .replays l 0

/-- ACK and NAK of a trailer (Table LNK-5). -/
def State.ackRx (s : State) (l a : Nat) (nak : Bool) : State :=
  let k := s.link l
  let free (h : HeldBlock) : Bool := decide ((a + 16384 - h.seq) % 16384 < 8192)
  let moved := k.held.any free
  let held := k.held.filter fun h => !free h
  let rest := k.resend.filter fun h => !free h
  let done := moved && rest.isEmpty
  let s := s.setLink l { k with held := held, resend := rest, ackAt := if moved then s.now else k.ackAt,
                                replay := if done then 0 else k.replay }
  if !nak then s
  else if k.replay = 0 ∨ moved then s.startReplay l 1
  else if s.now < k.replayAt + k.tReplay then s
  else s.startReplay l (k.replay + 1)

/-- One credit slot of a trailer (R342). -/
def State.creditRx (s : State) (l v q c : Nat) : State :=
  let k := s.link l
  match k.cred.find (v, q) with
  | none => s
  | some x => s.setLink l { k with
      cred := k.cred.put (v, q) { x with avail := x.avail + (c + 1024 - x.lastCcnt) % 1024, lastCcnt := c } }

/-- The flits of a block passed on in slot order (R337). -/
def State.passFlits (s : State) (l t : Nat) (b : Block) : State :=
  b.flits.zipIdx.foldl (fun s x =>
    let c := ftag b x.2
    if 8 ≤ c then s.flitRx l (c - 8) x.1 else if c = 1 then s.ctlFlit l t x.1 else s) s

/-- NAK asked for, and WAIT entered. -/
def State.askReplay (s : State) (l : Nat) : State :=
  s.setLink l { s.link l with nak := true, rxWait := true, nakAt := s.now }

/-- A good block at the receiver (Table LNK-6). -/
def State.goodBlock (s : State) (l t : Nat) (b : Block) : State :=
  let s := s.ackRx l (fld b.trailer 59 46) (bit b.trailer.toNat 94)
  let s := s.creditRx l (fld b.trailer 62 60) (fld b.trailer 66 63) (fld b.trailer 76 67)
  let s := s.creditRx l (fld b.trailer 79 77) (fld b.trailer 83 80) (fld b.trailer 93 84)
  let k := s.link l
  let q := fld b.trailer 45 32
  if q = k.rxExp then
    if blockSeqd b then
      ((s.setLink l { k with rxExp := (q + 1) % 16384, rxWait := false }).count .blocksRx l 0).passFlits l t b
    else s.passFlits l t b
  else if blockSeqd b && decide (8192 ≤ (q + 16384 - k.rxExp) % 16384) then s.count .dupBlocks l 0
  else if k.rxWait then s
  else s.askReplay l

/-- What the FEC decoders report, counted by lane (R332, Table LNK-10); each uncorrectable codeword is a health event
(Table RES-6), and too many of them fail the lane (R351). -/
def State.fecNote (s : State) (l : Nat) (f : FecReport) : State :=
  let s := (f.corr.take 8).zipIdx.foldl (fun s x => s.countN .fecCorr l x.2 x.1) s
  (f.uncorr.take 8).zipIdx.foldl (fun s x => ((s.countN .fecUncorr l x.2 x.1).health hFecUncorr x.1).uncorrOn l x.2 x.1) s

/-- The link takes the blocks that it receives; in RETRAIN it only counts them. -/
def LState.takes (st : LState) : Bool := decide (st = .discover ∨ st = .init ∨ st = .up ∨ st = .stopping)

/-- A link block received (R332, R334, R348, R364). -/
def State.blockRx (s : State) (l t : Nat) (b : Block) (fec : FecReport) : State :=
  if !((s.link l).st.takes || decide ((s.link l).st = .retrain)) then s
  else
    let bad := fec.bad || !blockGood b
    let s := s.fecNote l fec
    let s := if bad then s.count .badBlocks l 0 else s
    if !(s.link l).st.takes then s
    else if !bad then s.goodBlock l t b
    else if (s.link l).rxWait then s
    else s.askReplay l

end Sys2Proof.Machine
end

