-- ==== Sys2Proof/Machine/Dram.lean ====
section
/-!
DEFINITION. DRAM granules and their check, and the collective digests with the shadow compare (R278 to R280, R467 to
R469, R499, R560).
-/
namespace Sys2Proof.Machine

/-! ### DRAM (R278 to R280) -/

/-- Whether a granule's check fails (R280). -/
def State.badGran (s : State) (g : Nat) : Bool := s.mem.bad.contains g

/-- DRAM bytes `a` to `a + n − 1`. -/
def State.dramGet (s : State) (a n : Nat) : List Byte := memRead s.mem.dram a n

/-- The granules of a byte range. -/
def granules (a n : Nat) : List Nat := if n = 0 then [] else (List.range ((a + n - 1) / 64 + 1 - a / 64)).map (a / 64 + ·)

/-- The failing granules of a byte range. -/
def State.badIn (s : State) (a n : Nat) : List Nat := (granules a n).filter s.badGran

/-- One uncorrectable read found at cluster `cl` (R280, R323). -/
def State.eccUncorr (s : State) (cl n : Nat) : State :=
  if n = 0 then s else (s.countN .eccUncorr cl 0 n).health hEcc n

/-- One granule's part of a write: a whole granule is rewritten and its failure ends, a part of a failing granule is not
written (R280). -/
def State.granPut (s : State) (cl g off : Nat) (bs : List Byte) : State × Bool :=
  if s.badGran g && decide (bs.length < 64) then (s.eccUncorr cl 1, false)
  else ({ s with mem := { s.mem with dram := memWrite s.mem.dram (64 * g + off) bs,
                                     bad := s.mem.bad.filter fun x => !decide (x = g) } }, true)

/-- A byte range written granule by granule; answers whether every granule was written. -/
def State.dramPut (s : State) (cl a : Nat) (bs : List Byte) : State × Bool :=
  (granules a bs.length).foldl (fun acc g =>
    let lo := max a (64 * g)
    let hi := min (a + bs.length) (64 * g + 64)
    let r := acc.1.granPut cl g (lo - 64 * g) ((bs.drop (lo - a)).take (hi - lo))
    (r.1, acc.2 && r.2)) (s, true)

/-! ### Digests (R467 to R469) -/

/-- The hashes of a byte string's words, added modulo 2^64 (R467). -/
def digestBytes (c chunk : Nat) : Nat → Nat → List Byte → Word
  | 0, _, _ => 0
  | n + 1, w, bs =>
    mix64 (BitVec.ofNat 64 (w + chunk <<< 32 + c <<< 52)) (BitVec.ofNat 64 (leAt bs 0 8)) +
      digestBytes c chunk n (w + 1) (bs.drop 8)

/-- The digest of one output of a chunk (R467). -/
def outDigest (c chunk : Nat) (bs : List Byte) : Word := digestBytes c chunk (cdiv bs.length 8) 0 bs

/-- A digest ring entry (Table TIM-7). -/
def digestEntry (o : OpenDigest) (cid pepoch ft : Nat) (isPartial : Bool) : BitVec 256 :=
  BitVec.ofNat 256 (o.sum.toNat + cid <<< 64 + o.inst <<< 88 + (o.chunks % 2 ^ 20) <<< 104 + b2n isPartial <<< 124 +
    b2n o.failed.isSome <<< 125 + (match o.failed with | none => 0 | some f => f.2) <<< 128 + o.flags <<< 136 +
    (pepoch % 2 ^ 32) <<< 160 + (ft % 2 ^ 64) <<< 192)

/-- CID, INST and PEPOCH of an entry: what pairs it (R499). -/
def entryKey (e : BitVec 256) : Nat × Nat × Nat := (fld e 87 64, fld e 103 88, fld e 191 160)

/-- PARTIAL or FAILED. -/
def entryOdd (e : BitVec 256) : Bool := bit e.toNat 124 || bit e.toNat 125

/-- The payload of a SHADOW frame (Table MGT-23). -/
def shadowPayload (sub result tplane : Nat) (es : List (BitVec 256)) : List Byte :=
  [BitVec.ofNat 8 sub, BitVec.ofNat 8 result, BitVec.ofNat 8 tplane] ++ zeros 5 ++ es.flatMap fun e => toLE 32 e.toNat

/-- The partition of a collective ID under a plan, as a list. -/
def cidParts (p : Option Plan) (cid : Nat) : List Nat :=
  match p with
  | none => []
  | some p => match p.cid cid with | none => [] | some x => [x.2]

/-- Two paired entries compared (Table RES-5): `t` the target's, `r` the reserve's. -/
def shadowCompare (s : State) (plane : Nat) (t r : BitVec 256) : State :=
  if entryOdd t || entryOdd r || decide (fld t 123 104 ≠ fld r 123 104) then s.count .shadowSkip 0 0
  else if fld t 63 0 = fld r 63 0 then { s with fawn := { s.fawn with clean := min 65535 (s.fawn.clean + 1) } }
  else
    let s := { s with fawn := { s.fawn with clean := 0 } }
    let k := entryKey t
    let s := (s.health hMismatch 1).event evMismatch 0 (k.1 + k.2.1 <<< 24 + plane <<< 40) []
    s.trailSend 0x5 plane (shadowPayload 2 1 plane [t, r])

/-- A closed entry meets its pair, or waits for it (R499). -/
def shadowPair (s : State) (x : CmpEntry) : State :=
  match takeFirst (fun y : CmpEntry => decide (y.target ≠ x.target ∧ y.plane = x.plane ∧ entryKey y.ent = entryKey x.ent)) s.fawn.cmp with
  | none => { s with fawn := { s.fawn with cmp := s.fawn.cmp ++ [x] } }
  | some (y, rest) =>
    let s := { s with fawn := { s.fawn with cmp := rest } }
    if x.target then shadowCompare s x.plane x.ent y.ent else shadowCompare s x.plane y.ent x.ent

/-- Whether a slot may be shadowed: ROLE TOP or UP, no MEMRD or MEMWR stream, and no FUSED slot with RPERIOD 0 (R494). -/
def Plan.shadowable (p : Plan) (c : SlotCfg) : Bool :=
  decide (c.role < 2) && !(c.fused && decide (c.rperiod = 0)) &&
  !(p.streams.any fun r => decide (heSlot r.head = c.num ∧ (dKind r.desc = 3 ∨ dKind r.desc = 4)))

/-- The plan whose slots a slot number belongs to. -/
def State.planOfSlot (s : State) (slot : Nat) : Option Plan := if isShadow slot then s.fawn.plan else s.plans.active

/-- An entry written to the ring (R469) and handed to the shadow compare (R499). -/
def State.ringPut (s : State) (slot : Nat) (e : BitVec 256) : State :=
  let s := { s with coll := { s.coll with ring := (e :: s.coll.ring).take Config.digestRing } }
  if isShadow slot then
    match s.fawn.target with
    | none => s
    | some t => shadowPair s { target := false, ent := e, at_ := s.now, plane := t }
  else match s.fawn.watcher, s.plans.active with
    | some w, some p => match p.slot slot with
      | none => s
      | some c => if p.shadowable c then s.trailSend 0x5 w (shadowPayload 1 0 s.plane [e]) else s
    | _, _ => s

/-- An open entry closes (R468). -/
def State.closeDigest (s : State) (o : OpenDigest) (isPartial : Bool) : State :=
  let p := s.planOfSlot o.slot
  let cid := (p.map fun p => p.cidOf o.slot).getD 0
  let e := digestEntry o cid ((p.map (·.pepoch)).getD 0) s.ftNow isPartial
  let keep := s.coll.closed.filter fun x => !decide (x.1 = o.slot ∧ 0x8000 ≤ (x.2 + 65536 - o.inst) % 65536)
  let s := { s with coll := { s.coll with
    open_ := s.coll.open_.filter fun x => !decide (x.slot = o.slot ∧ x.inst = o.inst)
    closed := if isPartial then keep ++ [(o.slot, o.inst)] else keep } }
  s.ringPut o.slot e

/-- What a chunk that has ended an instance adds to its digest entry: the chunk digest when it ended complete, the
cause when it failed (R468). Slots with ROLE DOWN write no entry. -/
def State.digestAdd (s : State) (e : CEnv) (inst : Nat) (sum : Word) (failed : Option Nat) (flags : Nat) : State :=
  if e.cfg.role = 2 then s
  else if s.coll.closed.contains (e.slot, inst) then s.count .digestLate e.slot e.cl
  else
    let o : OpenDigest :=
      (s.coll.open_.find? fun x => decide (x.slot = e.slot ∧ x.inst = inst)).getD { slot := e.slot, inst := inst, since := s.now }
    let o := { o with
      sum := o.sum + sum
      chunks := o.chunks + (if failed.isNone then 1 else 0)
      ended := o.ended + 1
      flags := o.flags ||| flags
      failed := match failed, o.failed with
        | none, f => f
        | some c, none => some (e.h, c)
        | some c, some f => if e.h < f.1 then some (e.h, c) else some f }
    if e.cfg.nchunk ≤ o.ended then s.closeDigest o false
    else
      { s with coll := { s.coll with
        open_ := (s.coll.open_.filter fun x => !decide (x.slot = e.slot ∧ x.inst = inst)) ++ [o] } }

end Sys2Proof.Machine
end

