-- ==== Sys2Proof/Machine/Operands.lean ====
section
/-!
DEFINITION. The operands of TSI instructions: registers, elements, masks, lanes, streams and the words of a program
(R93 to R95, R106, R112, R113).
-/
namespace Sys2Proof.Machine

/-! ### Instruction words (Table TSI-6) -/

/-- The instruction word of an opcode and its fields. -/
def encWord (op : Nat) (f : TsiFields) : Word :=
  BitVec.ofNat 8 op ++ f.d ++ f.a ++ f.b ++ f.c ++ f.fa ++ f.fd ++ f.rm ++ f.rms ++ f.msk ++ f.imm

/-- n of Tables TSI-8 and TSO-1: IMM[18:16] + 1. -/
def immN (f : TsiFields) : Nat := fld f.imm 18 16 + 1
/-- r of Table TSO-1: IMM[19:16] + 1. -/
def immR (f : TsiFields) : Nat := fld f.imm 19 16 + 1
/-- IMM[15:0]. -/
def imm16 (f : TsiFields) : Nat := fld f.imm 15 0

/-! ### Registers (Table TSI-1) -/

/-- V[n]; what lies past V31 reads as zero. -/
def Core.rv (c : Core) (n : Nat) : Nat := (c.v.at n 0).toNat
/-- V[n] written; a write past V31 is discarded. -/
def Core.wv (c : Core) (n x : Nat) : Core := if n < 32 then { c with v := c.v.put n (BitVec.ofNat 512 x) } else c
/-- S[n]; S0 reads as 0. -/
def Core.rs (c : Core) (n : Nat) : Word := if n = 0 then 0 else c.s.at n 0
/-- S[n] written; a write to S0 is discarded. -/
def Core.ws (c : Core) (n : Nat) (x : Word) : Core := if n = 0 ∨ 16 ≤ n then c else { c with s := c.s.put n x }
/-- M[n]; M0 reads as all ones. -/
def Core.rm (c : Core) (n : Nat) : Nat := if n = 0 then 2 ^ 32 - 1 else (c.m.at n 0).toNat
/-- M[n] written; a write to M0 is discarded. -/
def Core.wm (c : Core) (n x : Nat) : Core :=
  if n = 0 ∨ 8 ≤ n then c else { c with m := c.m.put n (BitVec.ofNat 32 x) }
/-- Lane `k` of XS[n]. -/
def Core.rx (c : Core) (n k : Nat) : Lane := c.xs.at (16 * n + k) {}
/-- Lane `k` of XS[n] written; there is no XS8. -/
def Core.wx (c : Core) (n k : Nat) (l : Lane) : Core := if n < 8 then { c with xs := c.xs.put (16 * n + k) l } else c
/-- Lane `k` of XP[n]. -/
def Core.rp (c : Core) (n k : Nat) : Lane := c.xp.at (16 * n + k) {}
/-- Lane `k` of XP[n] written; there is no XP4. -/
def Core.wp (c : Core) (n k : Nat) (l : Lane) : Core := if n < 4 then { c with xp := c.xp.put (16 * n + k) l } else c
/-- CURSOR of a descriptor. -/
def Core.cursor (c : Core) (n : Nat) : Nat := c.cur.at n 0
/-- CURSOR set; it has 16 bits (Table TSI-3). -/
def Core.setCursor (c : Core) (n x : Nat) : Core := { c with cur := c.cur.put n (x % 65536) }

/-- S register named by a 5-bit field (R112). -/
def sReg (r : BitVec 5) : Nat := fld r 3 0
/-- XS or M register named by a 5-bit field. -/
def xReg (r : BitVec 5) : Nat := fld r 2 0
/-- XP register named by a 5-bit field. -/
def pReg (r : BitVec 5) : Nat := fld r 1 0

/-! ### Elements (Tables TSI-1, TSI-7, R95) -/

/-- Elements of a V register at a width (Table TSI-7). -/
def elemsOfV (w : Nat) : Nat := if w = 32 then 16 else if w = 16 then 32 else 64

/-- Registers of an XS or XP group for one V (Table TSI-7). -/
def groupOfV (w : Nat) : Nat := elemsOfV w / 16

/-- Element `k` of width `w` of a register or register group held as one number. -/
def elemAt (x w k : Nat) : Nat := bits x (w * k + w - 1) (w * k)

/-- The first `n` elements of width `w`. -/
def elemsAt (x w n : Nat) : List Nat := (List.range n).map (elemAt x w)

/-- Elements packed from bit 0 on (R47). -/
def packElems (w : Nat) : List Nat → Nat
  | [] => 0
  | e :: es => e % 2 ^ w + 2 ^ w * packElems w es

/-- Whether a mask governs element `k` of width `w` as unmasked (R95). -/
def governs (m w k : Nat) : Bool := if w = 32 ∨ w = 16 then bit m k else bit m (k / 2)

/-- New elements where the mask governs, old elements elsewhere (R95). -/
def merged (m w : Nat) (old new : List Nat) : List Nat :=
  (old.zip new).zipIdx.map fun p => if governs m w p.2 then p.1.2 else p.1.1

/-- A group of `n` V registers as one number. -/
def Core.rvGroup (c : Core) (d : Nat) : Nat → Nat
  | 0 => 0
  | n + 1 => c.rvGroup d n + c.rv (d + n) <<< (512 * n)

/-- A number written to a group of `n` V registers. -/
def Core.wvGroup (c : Core) (d x : Nat) : Nat → Core
  | 0 => c
  | n + 1 => (c.wvGroup d x n).wv (d + n) (bits x (512 * n + 511) (512 * n))

/-! ### The environment of a running handler -/

/-- What a TSI instruction of a running handler sees besides the core's registers: the plan the context is bound to
(R105), the slot, the program, the collective ID and the element the core owns first. -/
structure Env where
  g : Nat
  run : Run
  plan : Plan
  slot : SlotCfg
  prog : ProgCfg
  f : TsiFields
  /-- opcode -/
  op : Nat := 0

/-- The descriptor that C names. -/
def Env.descC (e : Env) : BitVec 128 := e.plan.stream (clusterOf e.g) e.run.ctx.slot (e.g % 128) e.f.c.toNat
/-- A descriptor by number. -/
def Env.desc (e : Env) (n : Nat) : BitVec 128 := e.plan.stream (clusterOf e.g) e.run.ctx.slot (e.g % 128) n
/-- The unmasked elements of MK (R95). -/
def Env.mask (e : Env) (c : Core) : Nat := c.rm e.f.msk.toNat
/-- Collective ID of the context. -/
def Env.cid (e : Env) : Nat := e.plan.cidOf e.run.ctx.slot
/-- The bytes of the handler's slice. -/
def Env.sliceData (e : Env) : List Byte := match e.run.slice with | none => [] | some s => s.data
/-- The slice of the handler, zero bytes up to a whole beat. -/
def Env.sliceBytes (e : Env) : List Byte :=
  match e.run.slice with
  | none => []
  | some s => s.data ++ zeros (roundUp s.data.length 64 - s.data.length)
/-- The first element a core owns of a chunk, EPC × its place in the OWNER entry (R545, Table TSI-2). -/
def firstElem (p : Plan) (g slot h : Nat) : Nat :=
  match p.owner (clusterOf g) slot h with
  | none => 0
  | some o => (g % 128 - owCore0 o) * owEpc o

/-- How the handler goes on after an instruction. -/
inductive Flow where
  /-- at the next offset -/
  | next
  /-- at a branch target (R178) -/
  | goto (off : Nat)
  /-- it stops, and its context records the status (Tables TSI-9, TSO-6) -/
  | stop (st : Nat)
  /-- it goes on, and its context records the status -/
  | note (st : Nat)
  /-- the instruction waits and has had no effect -/
  | wait (w : Wait)
  /-- it ends as END does (R97) -/
  | fin
  deriving DecidableEq, Repr

/-- Data SRAM address of byte 0 of a core (Table ARC-1). -/
def sramBase (g : Nat) : Nat := Config.sramBytes * g

/-- Bytes of a core's LOCAL region from byte `off`. -/
def State.localRead (s : State) (g : Nat) (d : BitVec 128) (off n : Nat) : List Byte :=
  memRead s.coll.sram (sramBase g + dAddr d + off) n

/-- A core's LOCAL region written from byte `off`. -/
def State.localWrite (s : State) (g : Nat) (d : BitVec 128) (off : Nat) (bs : List Byte) : State :=
  { s with coll := { s.coll with sram := memWrite s.coll.sram (sramBase g + dAddr d + off) bs } }

/-- Whether an unanswered fetch of the handler will write a beat of [b, b + n) of a LOCAL region (R181). -/
def Env.fetchHits (e : Env) (d : BitVec 128) (b n : Nat) : Bool :=
  e.run.fetches.any fun r =>
    r.status.isNone && decide (dAddr d + 64 * b < dAddr (e.desc r.desc) + 64 * (r.beat + r.n) ∧
      dAddr (e.desc r.desc) + 64 * r.beat < dAddr d + 64 * (b + n))

end Sys2Proof.Machine
end

