-- ==== Sys2Proof/Machine/Flags.lean ====
section
/-!
DEFINITION. The numerical flags: folding element flags into flag tile records and merging records (R90 to R92, R132).
-/
namespace Sys2Proof.Machine

/-- Low bit of the position field of flag bit `i` (Table ARI-11). -/
def posLo (i : Nat) : Nat := 8 + 10 * i

/-- Flag `i` of position `pos` folded into a record: the lowest position stays (R91). -/
def foldFlag (r : BitVec 64) (i pos : Nat) : BitVec 64 :=
  if bit r.toNat i then
    if pos < fld r (posLo i + 9) (posLo i) then setFld r (posLo i + 9) (posLo i) pos else r
  else setFld (setFld r i i 1) (posLo i + 9) (posLo i) pos

/-- The flags of the element at a position within the tile folded into its record (R91, R132). -/
def foldFlags (r : BitVec 64) (fl pos : Nat) : BitVec 64 :=
  (onBits 5 fl).foldl (fun acc i => foldFlag acc i pos) r

/-- Two records of one tile merged: FLAGS are ORed, the lowest position of each flag stays (R132, R175). -/
def mergeFlags (a b : BitVec 64) : BitVec 64 :=
  (onBits 5 b.toNat).foldl (fun acc i => foldFlag acc i (fld b (posLo i + 9) (posLo i))) a

/-- The flags of the elements of a run folded into the flag tile records of a chunk instance; `els` pairs an element
index with its flags. -/
def foldTiles (m : AMap Nat (BitVec 64)) (els : List (Nat × Nat)) : AMap Nat (BitVec 64) :=
  els.foldl (fun acc e =>
    if e.2 = 0 then acc else acc.mod (e.1 / 1024) 0 fun r => foldFlags r e.2 (e.1 % 1024)) m

/-- The OR of the FLAGS fields of all records. -/
def orFlags (m : AMap Nat (BitVec 64)) : Nat := m.foldl (fun acc p => acc ||| fld p.2 7 0) 0

end Sys2Proof.Machine
end

