-- ==== Sys2Proof/Machine/TsiArith.lean ====
section
/-!
DEFINITION. What the TSI instructions of chapter TSI do to a core: load and receive, exact accumulate, dot, expand,
round, convert, max and min (R116 to R135).
-/
namespace Sys2Proof.Machine

/-- The effect of an instruction on the core, its SRAM and its chunk record. A residue failure is recorded once, with the
tiles or the instance it withholds (R128, R137). -/
structure TsiRes where
  core : Core
  flow : Flow := .next
  /-- Cycles of Tables TSI-8 and TSO-1 -/
  cycles : Nat := 1
  /-- element index and flags of each output element (R132) -/
  flags : List (Nat × Nat) := []
  /-- flag tiles withheld by a residue failure (R89) -/
  bad : List Nat := []
  /-- every output of the instance is withheld (R89) -/
  badAll : Bool := false
  /-- data SRAM bytes written -/
  store : List (Nat × List Byte) := []
  /-- a free word was drawn -/
  drew : Bool := false

/-- INDEX_FAULT (Table SCO-4). -/
def stIndex : Nat := 0x10
/-- META_FAULT. -/
def stMeta : Nat := 0x11
/-- LENGTH_FAULT. -/
def stLength : Nat := 0x12
/-- RESIDUE_FAIL. -/
def stResidue : Nat := 0x31

/-- The effect of an instruction that only changes registers. -/
def reg (c : Core) (n : Nat) : TsiRes := { core := c, cycles := n }

/-! ### Load, receive and scalar -/

/-- RECV (R117): n beats of the slice from CURSOR; a beat at or beyond S5 reads as zero and stops the handler. -/
def recvEff (e : Env) (c : Core) : TsiRes :=
  let n := immN e.f
  let cur := c.cursor e.f.c.toNat
  let d := e.f.d.toNat
  let beat (k : Nat) : Nat := if cur + k < (c.rs 5).toNat then ofLE (slice e.sliceBytes (64 * (cur + k)) 64) else 0
  { core := (foldRange n (fun k c => c.wv (d + k) (beat k)) c).setCursor e.f.c.toNat (cur + n)
    flow := if (c.rs 5).toNat < cur + n then .stop stLength else .next
    cycles := n }

/-- First beat of LDV and STV (R118), an exact sum (DESIGN CHOICE, log entry 15). -/
def ldBeat (e : Env) (c : Core) : Nat := (c.rs (sReg e.f.a)).toNat + imm16 e.f

/-- LDV (R118): n beats of a LOCAL region, zero and INDEX_FAULT when any lies outside it. -/
def ldvEff (e : Env) (c : Core) (s : State) : TsiRes :=
  let n := immN e.f
  let b := ldBeat e c
  let d := e.descC
  let ok := decide (b + n ≤ dLen d)
  if ok && e.fetchHits d b n then { core := c, flow := .wait .landing, cycles := 0 }
  else
    let v (k : Nat) : Nat := if ok then ofLE (s.localRead e.g d (64 * (b + k)) 64) else 0
    { core := foldRange n (fun k c => c.wv (e.f.d.toNat + k) (v k)) c
      flow := if ok then .next else .stop stIndex
      cycles := n }

/-- STV (R118): n V registers to beats of a LOCAL region, nothing and INDEX_FAULT when any lies outside it. -/
def stvEff (e : Env) (c : Core) : TsiRes :=
  let n := immN e.f
  let b := ldBeat e c
  let d := e.descC
  if b + n ≤ dLen d then
    if e.fetchHits d b n then { core := c, flow := .wait .landing, cycles := 0 }
    else
      { core := c, cycles := n
        store := (List.range n).map fun k =>
          (sramBase e.g + dAddr d + 64 * (b + k), toLE 64 (c.rv (e.f.d.toNat + k))) }
  else { core := c, flow := .stop stIndex, cycles := n }

/-- LDS (R118): 8 aligned bytes of a LOCAL region or of the slice; the byte offset is an exact sum (DESIGN CHOICE, log
entry 15). -/
def ldsEff (e : Env) (c : Core) (s : State) : TsiRes :=
  let o := (c.rs (sReg e.f.a)).toNat + imm16 e.f
  let d := e.descC
  let isLocal := dKind d = 2
  let len := if isLocal then 64 * dLen d else e.sliceData.length
  if o % 8 = 0 ∧ o + 8 ≤ len then
    if isLocal && e.fetchHits d (o / 64) 1 then { core := c, flow := .wait .landing, cycles := 0 }
    else
      let x := if isLocal then ofLE (s.localRead e.g d o 8) else ofLE (slice e.sliceData o 8)
      reg (c.ws (sReg e.f.d) (BitVec.ofNat 64 x)) 1
  else { core := c.ws (sReg e.f.d) 0, flow := .stop stIndex }

/-- The sign-extended immediate (R116). -/
def simm (f : TsiFields) : Word := f.imm.signExtend 64

/-- MOVI (R116). -/
def moviEff (e : Env) (c : Core) : TsiRes := reg (c.ws (sReg e.f.d) (simm e.f)) 1
/-- SADDI (R116). -/
def saddiEff (e : Env) (c : Core) : TsiRes := reg (c.ws (sReg e.f.d) (c.rs (sReg e.f.a) + simm e.f)) 1
/-- VMOV (R116). -/
def vmovEff (e : Env) (c : Core) : TsiRes := reg (c.wv e.f.d.toNat (c.rv e.f.a.toNat)) 1
/-- MOVM (R116). -/
def movmEff (e : Env) (c : Core) : TsiRes := reg (c.wm (xReg e.f.d) ((c.rs (sReg e.f.a)).toNat % 2 ^ 32)) 1

/-- VSPLAT (R119): every element of V[D]; a 4-bit format fills both halves, and the bits that 6-bit elements leave are a
free value (log entry 12). -/
def vsplatEff (fw : Nat) (e : Env) (c : Core) : TsiRes :=
  let w := elemBits e.f.fa.toNat
  let n := if w = 6 then 64 else if w = 0 then 0 else 512 / w
  let x := packElems w (List.replicate n ((c.rs (sReg e.f.a)).toNat % 2 ^ w))
  if w = 6 then { core := c.wv e.f.d.toNat (x + (fw % 2 ^ 128) <<< 384), drew := true }
  else reg (c.wv e.f.d.toNat x) 1

/-! ### Exact accumulate -/

/-- XADD (R120): every unmasked element into lane k mod 16 of register D + ⌊k / 16⌋. -/
def xaddEff (e : Env) (c : Core) : TsiRes :=
  let w := elemBits e.f.fa.toNat
  let m := e.mask c
  let v := c.rv e.f.a.toNat
  let d := xReg e.f.d
  reg (foldRange (elemsOfV w) (fun k c =>
    if governs m w k then
      c.wx (d + k / 16) (k % 16) ((c.rx (d + k / 16) (k % 16)).add wXS (elemVal e.f.fa.toNat (elemAt v w k)))
    else c) c) (if w = 32 then 1 else 2)

/-- Sixteen XC elements decoded one after another (R121): the core, the bytes consumed, the XC48 count and whether the
slice held them all. -/
def xcinLoop (d : Nat) : Nat → Nat → List Byte → Core → Nat → Nat → Core × Nat × Nat × Bool
  | 0, _, _, c, used, n48 => (c, used, n48, true)
  | k + 1, lane, bs, c, used, n48 =>
    match bs with
    | [] => (c, used, n48, false)
    | b :: _ =>
      let len := xcLen b.toNat
      if bs.length < len then (c, used, n48, false)
      else
        xcinLoop d k (lane + 1) (bs.drop len) (c.wx d lane ((c.rx d lane).plus (xcDec (bs.take len))))
          (used + len) (if len = 48 then n48 + 1 else n48)

/-- XCIN (R121), over the bytes the slice holds, without the zero bytes that fill its last beat. -/
def xcinEff (e : Env) (c : Core) : TsiRes :=
  let cur := c.cursor e.f.c.toNat
  let held : List Byte := match e.run.slice with
    | none => []
    | some s => s.data
  let r := xcinLoop (xReg e.f.d) 16 0 (held.drop (64 * cur)) c 0 0
  { core := if r.2.2.2 then r.1.setCursor e.f.c.toNat (cur + cdiv r.2.1 64) else r.1
    flow := if r.2.2.2 then .next else .stop stLength
    cycles := 4 + 2 * r.2.2.1 }

/-- XCLR (R116): the XS registers of IMM[7:0] and the XP registers of IMM[11:8]. -/
def xclrEff (e : Env) (c : Core) : TsiRes :=
  let xs := fld e.f.imm 7 0
  let xp := fld e.f.imm 11 8
  reg { c with xs := c.xs.filter fun p => !bit xs (p.1 / 16), xp := c.xp.filter fun p => !bit xp (p.1 / 16) } 1

/-- XMOV (R122). -/
def xmovEff (e : Env) (c : Core) : TsiRes :=
  reg (foldRange 16 (fun k a => a.wx (xReg e.f.d) k (c.rx (xReg e.f.a) k)) c) 1

/-- The lane of an XS register seen on the XP grid (R122): integer and residue scaled by 2^150. -/
def Lane.toXp (l : Lane) : Lane :=
  { l with x := l.x * (2 ^ 150 : Nat), res := l.res * 2 ^ (150 % 61) % resM }

/-- XPADD (R122). -/
def xpaddEff (e : Env) (c : Core) : TsiRes :=
  reg (foldRange 16 (fun k a => a.wp (pReg e.f.d) k ((a.rp (pReg e.f.d) k).plus (c.rx (xReg e.f.a) k).toXp)) c) 2

/-- The exact sum of lanes (R122). -/
def sumLanes (ls : List Lane) : Lane := ls.foldl Lane.plus {}

/-- XSSUM (R122): all 16 lanes of the source into lane 0 of the destination, whose own value is a term (log entry 13). -/
def xssumEff (e : Env) (c : Core) : TsiRes :=
  let d := xReg e.f.d
  let sum := sumLanes ((List.range 16).map (c.rx (xReg e.f.a)))
  reg (foldRange 16 (fun k a => a.wx d k (if k = 0 then (c.rx d 0).plus sum else {})) c) 2

/-- XPSUM (R122). -/
def xpsumEff (e : Env) (c : Core) : TsiRes :=
  let d := pReg e.f.d
  let sum := sumLanes ((List.range 16).map (c.rp (pReg e.f.a)))
  reg (foldRange 16 (fun k a => a.wp d k (if k = 0 then (c.rp d 0).plus sum else {})) c) 2

/-- The XS lane with an XP lane folded into it (R123). -/
def foldLane (xs xp : Lane) : Lane :=
  let a := rneShift xp.x.natAbs 150
  let v := signed (decide (xp.x < 0)) a
  let fl : Lane := { xs with nan := xs.nan || xp.nan, pinf := xs.pinf || xp.pinf, ninf := xs.ninf || xp.ninf }
  if -(2 ^ 375 : Nat) ≤ v ∧ v < (2 ^ 375 : Nat) then { fl with x := xs.x + v, res := resInt (xs.x + v) }
  else if v < 0 then { fl with ninf := true, res := resInt xs.x }
  else { fl with pinf := true, res := resInt xs.x }

/-- XFOLD (R123): a conversion, so the residue of each XP lane is compared first (R89). -/
def xfoldEff (e : Env) (c : Core) : TsiRes :=
  let d := xReg e.f.d
  let bad := (List.range 16).any fun k => !(c.rp (pReg e.f.a) k).resOk
  { core := foldRange 16 (fun k a => a.wx d k (foldLane (c.rx d k) (c.rp (pReg e.f.a) k))) c
    badAll := bad
    cycles := 2 }

/-- VBIT (R61). -/
def vbitEff (e : Env) (c : Core) : TsiRes :=
  let a := c.rv e.f.a.toNat
  let b := c.rv e.f.b.toNat
  let o := fld e.f.imm 1 0
  reg (c.wv e.f.d.toNat (if o = 0 then a &&& b else if o = 1 then a ||| b else a ^^^ b)) 1

/-! ### Dot, expand and sum of squares -/

/-- The scale of an operand's element `k` (R125): field, enable and kind positions of Table TSI-8. -/
def scaleOf (e : Env) (c : Core) (sel en kind k : Nat) : Val :=
  if !bit e.f.imm.toNat en then .fin false 1 0
  else
    let s := (c.rs (fld e.f.imm (sel + 3) sel)).toNat
    let hi := 32 ≤ k
    if bit e.f.imm.toNat kind then e8m0 (if hi then bits s 15 8 else bits s 7 0)
    else elemVal 0x1 (if hi then bits s 31 16 else bits s 15 0)

/-- The product of a pair of scaled elements (R53, R124). -/
def scaledProd (sa a sb b : Val) : Val := (sa.mul a).mul (sb.mul b)

/-- Products added into XP lanes: element k into lane k / (elements a lane) (R124). -/
def dotInto (e : Env) (c : Core) (prod : Nat → Val) : Core :=
  let w := elemBits e.f.fa.toNat
  let m := e.mask c
  let d := pReg e.f.d
  let per := elemsOfV w / 16
  foldRange (elemsOfV w) (fun k a =>
    if governs m w k then a.wp d (k / per) ((a.rp d (k / per)).addProd (prod k)) else a) c

/-- Cycles of DOT and SSQ. -/
def dotCycles (f : TsiFields) : Nat := if f.fa = 0 then 2 else 1

/-- DOT (R124, R125). -/
def dotEff (e : Env) (c : Core) : TsiRes :=
  let fa := e.f.fa.toNat
  let w := elemBits fa
  let a := c.rv e.f.a.toNat
  let b := c.rv e.f.b.toNat
  reg (dotInto e c fun k =>
    scaledProd (scaleOf e c 0 8 10 k) (elemVal fa (elemAt a w k)) (scaleOf e c 4 9 11 k) (elemVal fa (elemAt b w k)))
    (dotCycles e.f)

/-- SSQ (R124): the square of the scaled element. -/
def ssqEff (e : Env) (c : Core) : TsiRes :=
  let fa := e.f.fa.toNat
  let w := elemBits fa
  let a := c.rv e.f.a.toNat
  reg (dotInto e c fun k =>
    let x := elemVal fa (elemAt a w k)
    let sa := scaleOf e c 0 8 10 k
    scaledProd sa x sa x) (dotCycles e.f)

/-- The BF16 encoding of a value exact in BF16 (R126). -/
def bf16Of (v : Val) : Nat := (convert 0x1 { mode := 0 } v).1

/-- EXPAND (R126): 64 narrow elements as BF16 into a V pair. Bit k of the mask governs elements 2k and 2k + 1, by the width
of the elements read (DESIGN CHOICE, log entry 43). -/
def expandEff (e : Env) (c : Core) : TsiRes :=
  let fa := e.f.fa.toNat
  let w := elemBits fa
  let src := if w = 4 ∧ bit e.f.imm.toNat 0 then c.rv e.f.a.toNat >>> 256 else c.rv e.f.a.toNat
  let z : Int := if bit e.f.imm.toNat 1 then sext 8 ((c.rs e.f.c.toNat).toNat) else 0
  let one (q : Nat) : Nat :=
    if fa = 0x9 then elemAt (c.rv e.f.b.toNat) 16 q
    else if intBits fa ≠ 0 then let x := sext w q - z; bf16Of (.fin (decide (x < 0)) x.natAbs 0)
    else bf16Of (elemVal fa q)
  let old := elemsAt (c.rvGroup e.f.d.toNat 2) 16 64
  let new := (elemsAt src w 64).map one
  let out := merged (e.mask c) 8 old new
  reg (c.wvGroup e.f.d.toNat (packElems 16 out) 2) 2

/-! ### Round and convert -/

/-- Element index of element 0 of an output (R127): S[B] + IMM[15:0], an exact sum (DESIGN CHOICE, log entry 15). -/
def elemBase (e : Env) (c : Core) : Nat := (c.rs (sReg e.f.b)).toNat + imm16 e.f

/-- Mode, E4M3 option, wrapping and random number for an output element (R72, R76, R127). -/
def rndOpt (e : Env) (idx : Nat) : RndOpt :=
  let mode := if e.f.rms = 1 then dRmode e.descC else e.f.rm.toNat
  { mode := mode
    nanOpt := dE4ovf e.descC
    wrap := bit e.f.imm.toNat 17
    r := if mode = 4 then srRandom e.slot.seed e.run.ctx.inst e.cid idx e.run.ctx.chunk else 0 }

/-- Flags reach a record only when the descriptor has FLAGREC = 1 (R132). -/
def recFlags (e : Env) (fl : List (Nat × Nat)) : List (Nat × Nat) := if dFlagrec e.descC then fl else []

/-- The lane and grid that RND reads for output element `k` (R127). -/
def rndLane (e : Env) (c : Core) (k : Nat) : Lane × Nat :=
  if bit e.f.imm.toNat 16 then (c.rp (pReg e.f.a + k / 16) (k % 16), wXP)
  else (c.rx (xReg e.f.a + k / 16) (k % 16), wXS)

/-- RND (R127, R128): the residue of each lane is checked, masked-off or not. -/
def rndEff (e : Env) (c : Core) : TsiRes :=
  let fd := e.f.fd.toNat
  let w := elemBits fd
  let n := elemsOfV w
  let m := e.mask c
  let base := elemBase e c
  let outs := (List.range n).map fun k =>
    let l := rndLane e c k
    convert fd (rndOpt e (base + k)) (l.1.val l.2)
  let on := (List.range n).filter fun k => governs m w k
  let bad := ((List.range n).filter fun k => !(rndLane e c k).1.resOk).map fun k => (base + k) / 1024
  let old := elemsAt (c.rv e.f.d.toNat) w n
  { core := c.wv e.f.d.toNat (packElems w (merged m w old (outs.map (·.1))))
    cycles := if w = 32 then 1 else if w = 16 then 2 else 4
    flags := recFlags e (on.map fun k => (base + k, ((outs[k]?).getD (0, 0)).2))
    bad := bad }

/-- V registers of 32 elements of a width (Table TSI-7). -/
def groupOf32 (w : Nat) : Nat := if w = 32 then 2 else 1

/-- CVT (R129): 32 elements, bit k of the mask for element k; bits of V[D] above the 32 elements are a free value (log
entry 12). -/
def cvtEff (fw : Nat) (e : Env) (c : Core) : TsiRes :=
  let fa := e.f.fa.toNat
  let fd := e.f.fd.toNat
  let wa := elemBits fa
  let wd := elemBits fd
  let m := e.mask c
  let base := elemBase e c
  let src := c.rvGroup e.f.a.toNat (groupOf32 wa)
  let outs := (List.range 32).map fun k => convert fd (rndOpt e (base + k)) (elemVal fa (elemAt src wa k))
  let old := elemsAt (c.rvGroup e.f.d.toNat (groupOf32 wd)) wd 32
  let x := packElems wd (merged m 16 old (outs.map (·.1)))
  let narrow := decide (wd < 16)
  let top := if narrow then (fw % 2 ^ (512 - 32 * wd)) <<< (32 * wd) else 0
  { core := c.wvGroup e.f.d.toNat (x + top) (groupOf32 wd)
    cycles := 2
    flags := recFlags e (((List.range 32).filter fun k => bit m k).map fun k =>
      (base + k, ((outs[k]?).getD (0, 0)).2))
    drew := narrow }

/-- MXQ (R130): a block of 32 values of FP32 or BF16, or of an XS pair, quantised by R78 to R80. -/
def mxqEff (e : Env) (c : Core) : TsiRes :=
  let fa := e.f.fa.toNat
  let fd := e.f.fd.toNat
  let wd := elemBits fd
  let base := elemBase e c
  let lane (k : Nat) : Lane := c.rx (xReg e.f.a + k / 16) (k % 16)
  let src := c.rvGroup e.f.a.toNat (groupOf32 (elemBits fa))
  let vs := (List.range 32).map fun k =>
    if fa = 0xE then (lane k).val wXS else elemVal fa (elemAt src (elemBits fa) k)
  let q := mxBlock fd (fun k => rndOpt e (base + k)) vs
  let bad := if fa = 0xE then
      ((List.range 32).filter fun k => !(lane k).resOk).map fun k => (base + k) / 1024
    else []
  { core := (c.wv e.f.d.toNat (packElems wd (q.2.map (·.1)))).ws (fld e.f.imm 19 16) (BitVec.ofNat 64 q.1)
    cycles := 2
    flags := recFlags e (q.2.zipIdx.map fun p => (base + p.2, p.1.2))
    bad := bad }

/-! ### Max and min -/

/-- An element as read: an FP32 subnormal is a zero with its sign (R65, R82). -/
def asRead (fa raw : Nat) : Nat := if fa = 0 ∧ bits raw 30 23 = 0 then raw &&& 0x80000000 else raw

/-- The larger (or smaller) of two elements by R81; NaN only of two NaNs. -/
def pick (mx : Bool) (fa a b : Nat) : Nat :=
  let x := elemVal fa a
  let y := elemVal fa b
  if x.isNan && y.isNan then ((fpOf fa).map Fp.nanRaw).getD 0
  else if x.isNan then asRead fa b
  else if y.isNan then asRead fa a
  else if mx then (if x.key < y.key then asRead fa b else asRead fa a)
  else if y.key < x.key then asRead fa b else asRead fa a

/-- VMAX and VMIN (R133). -/
def vpickEff (mx : Bool) (e : Env) (c : Core) : TsiRes :=
  let fa := e.f.fa.toNat
  let w := elemBits fa
  let n := elemsOfV w
  let a := elemsAt (c.rv e.f.a.toNat) w n
  let b := elemsAt (c.rv e.f.b.toNat) w n
  let old := elemsAt (c.rv e.f.d.toNat) w n
  reg (c.wv e.f.d.toNat (packElems w (merged (e.mask c) w old ((a.zip b).map fun p => pick mx fa p.1 p.2)))) 1

/-- The best of a list of numbered elements, the lowest number among equals; NaNs are ignored (R134). -/
def bestOf (mx : Bool) (fa : Nat) : List (Nat × Nat) → Option (Nat × Nat)
  | [] => none
  | p :: ps =>
    let v := elemVal fa p.1
    match bestOf mx fa ps with
    | none => if v.isNan then none else some p
    | some q =>
      let u := elemVal fa q.1
      if v.isNan then some q
      else if mx then (if v.key < u.key then some q else some p)
      else if u.key < v.key then some q else some p

/-- The result of HMAX or HMIN when no element can be selected (R134). -/
def noBest (mx : Bool) (fa : Nat) : Nat :=
  match fpOf fa with
  | some f => f.nanRaw
  | none => if mx then 2 ^ (intBits fa - 1) else 2 ^ (intBits fa - 1) - 1

/-- HMAX and HMIN (R134). -/
def hpickEff (mx : Bool) (e : Env) (c : Core) : TsiRes :=
  let fa := e.f.fa.toNat
  let w := elemBits fa
  let m := e.mask c
  let els := ((elemsAt (c.rv e.f.a.toNat) w (elemsOfV w)).zipIdx).filter fun p => governs m w p.2
  let r := match bestOf mx fa els with
    | none => (noBest mx fa, 0)
    | some p => (asRead fa p.1, p.2)
  reg ((c.wv e.f.d.toNat r.1).ws e.f.c.toNat (BitVec.ofNat 64 r.2)) 2

/-- VFLAG (R135). -/
def vflagEff (e : Env) (c : Core) : TsiRes :=
  let fa := e.f.fa.toNat
  let w := elemBits fa
  let m := e.mask c
  let els := ((elemsAt (c.rv e.f.a.toNat) w (elemsOfV w)).zipIdx).filter fun p => governs m w p.2
  { core := c
    flags := recFlags e (els.map fun p =>
      (elemBase e c + p.2, match elemVal fa p.1 with | .nan => flNan | .inf _ => flInf | _ => 0)) }

end Sys2Proof.Machine
end

