-- ==== Sys2Proof/Machine/TsiOrder.lean ====
section
/-!
DEFINITION. What the TSI instructions of chapter TSO do to a core: predicate and filter, sort, top-k and merge,
gather, scatter and dispatch, and the scalar operations (R138 to R161, R178, R179).
-/
namespace Sys2Proof.Machine

/-! ### Predicate and filter -/

/-- The place of a value in the order by IEEE 754 value: −0 equals +0 (R142). -/
def Val.numKey (v : Val) : Int :=
  match v with
  | .fin _ 0 _ => 0
  | _ => v.key

/-- The magnitude of a value (R142). -/
def Val.mag (v : Val) : Val :=
  match v with
  | .nan => .nan
  | .inf _ => .inf false
  | .fin _ m k => .fin false m k

/-- Whether condition COND (0 EQ, 1 NE, 2 LT, 3 LE, 4 GT, 5 GE) holds of an order: `lt`, `eq`, `gt`, or unordered when
none holds. -/
def condHolds (cond : Nat) (lt eq gt : Bool) : Bool :=
  match cond with
  | 0 => eq
  | 1 => !eq
  | 2 => lt
  | 3 => lt || eq
  | 4 => gt
  | _ => gt || eq

/-- A comparison of two values by COND, TOTAL and ABS (R141, R142). -/
def compareVals (cond : Nat) (total abs : Bool) (x y : Val) : Bool :=
  let a := if abs then x.mag else x
  let b := if abs then y.mag else y
  if total then
    condHolds cond (a.before false b) (!(a.before false b) && !(b.before false a)) (b.before false a)
  else if a.isNan || b.isNan then decide (cond = 1)
  else condHolds cond (decide (a.numKey < b.numKey)) (decide (a.numKey = b.numKey)) (decide (b.numKey < a.numKey))

/-- The mask of a comparison: bits of masked-off elements and bits that govern none are clear (R141). -/
def cmpMask (w m : Nat) (holds : Nat → Bool) : Nat :=
  ((List.range 32).filter fun k =>
    bit m k && (if w = 32 then decide (k < 16) && holds k
      else if w = 16 then holds k else holds (2 * k) && holds (2 * k + 1))).foldl (fun a k => a + 2 ^ k) 0

/-- VCMP and VCMPS (R141, R143); `rhs k` is the raw second operand of element k. -/
def cmpEff (e : Env) (c : Core) (rhs : Nat → Nat) : TsiRes :=
  let fa := e.f.fa.toNat
  let w := elemBits fa
  let a := c.rv e.f.a.toNat
  let i := e.f.imm.toNat
  reg (c.wm (xReg e.f.d) (cmpMask w (e.mask c) fun k =>
    compareVals (bits i 2 0) (bit i 3) (bit i 4) (elemVal fa (elemAt a w k)) (elemVal fa (rhs k)))) 1

/-- VCMP (R141). -/
def vcmpEff (e : Env) (c : Core) : TsiRes :=
  cmpEff e c fun k => elemAt (c.rv e.f.b.toNat) (elemBits e.f.fa.toNat) k

/-- VCMPS (R143). -/
def vcmpsEff (e : Env) (c : Core) : TsiRes :=
  cmpEff e c fun _ => (c.rs e.f.c.toNat).toNat % 2 ^ elemBits e.f.fa.toNat

/-- MLOG (Table TSO-1): AND, OR, XOR, and ANDN as A AND NOT B. -/
def mlogEff (e : Env) (c : Core) : TsiRes :=
  let a := c.rm (xReg e.f.a)
  let b := c.rm (xReg e.f.b)
  let o := fld e.f.imm 1 0
  reg (c.wm (xReg e.f.d) (if o = 0 then a &&& b else if o = 1 then a ||| b else if o = 2 then a ^^^ b
    else a &&& (b ^^^ (2 ^ 32 - 1)))) 1

/-- MPOP (R144). -/
def mpopEff (e : Env) (c : Core) : TsiRes :=
  let m := c.rm (xReg e.f.a)
  let w := elemBits e.f.fa.toNat
  let n := if w = 32 then popcount 16 m else if w = 16 then popcount 32 m else 2 * popcount 32 m
  reg (c.ws (sReg e.f.d) (BitVec.ofNat 64 n)) 1

/-- The numbers of the unmasked elements, ascending. -/
def onElems (e : Env) (c : Core) : List Nat :=
  let w := elemBits e.f.fa.toNat
  (List.range (elemsOfV w)).filter fun k => governs (e.mask c) w k

/-- FILT (R145). -/
def filtEff (e : Env) (c : Core) : TsiRes :=
  let w := elemBits e.f.fa.toNat
  let on := onElems e c
  reg ((c.wv e.f.d.toNat (packElems w (on.map fun k => elemAt (c.rv e.f.a.toNat) w k))).ws e.f.c.toNat
    (BitVec.ofNat 64 on.length)) 2

/-- FIDX (R145): INT32 indices packed into a V pair, or four V for 8-bit formats. -/
def fidxEff (e : Env) (c : Core) : TsiRes :=
  let n := if elemBits e.f.fa.toNat = 8 then 4 else 2
  reg (c.wvGroup e.f.d.toNat (packElems 32 ((onElems e c).map fun k => elemBase e c + k)) n) 2

/-- VSEL (R146). -/
def vselEff (e : Env) (c : Core) : TsiRes :=
  let w := elemBits e.f.fa.toNat
  let n := elemsOfV w
  reg (c.wv e.f.d.toNat (packElems w (merged (e.mask c) w (elemsAt (c.rv e.f.b.toNat) w n)
    (elemsAt (c.rv e.f.a.toNat) w n)))) 1

/-! ### Records (R147 to R155) -/

/-- KEY of a record (Table TSO-2). -/
def rKey (r : Nat) : Nat := bits r 31 0
/-- PAYLOAD. -/
def rPay (r : Nat) : Nat := bits r 63 32
/-- CONTRIB. -/
def rCon (r : Nat) : Nat := bits r 79 64
/-- ELEM. -/
def rElem (r : Nat) : Nat := bits r 111 80
/-- KFMT. -/
def rFmt (r : Nat) : Nat := bits r 115 112
/-- A record of its fields. -/
def mkRec (key pay con elem kf : Nat) : Nat :=
  key % 2 ^ 32 + (pay % 2 ^ 32) <<< 32 + (con % 2 ^ 16) <<< 64 + (elem % 2 ^ 32) <<< 80 + (kf % 16) <<< 112
/-- A sentinel (R149). -/
def sentinel : Nat := mkRec 0 0 0xFFFF 0xFFFFFFFF 0xF
/-- The value of a record's key. -/
def rVal (r : Nat) : Val := elemVal (rFmt r) (rKey r % 2 ^ elemBits (rFmt r))

/-- The order of R150. -/
def recBefore (desc : Bool) (a b : Nat) : Bool :=
  let sa := decide (rFmt a = 0xF)
  let sb := decide (rFmt b = 0xF)
  if sa then false
  else if sb then true
  else if (rVal a).before desc (rVal b) then true
  else if (rVal b).before desc (rVal a) then false
  else
    decide (rCon a < rCon b ∨ (rCon a = rCon b ∧ (rElem a < rElem b ∨ (rElem a = rElem b ∧ rPay a < rPay b))))

/-- A record put before the first that does not stand before it. -/
def insRec (lt : Nat → Nat → Bool) (r : Nat) : List Nat → List Nat
  | [] => [r]
  | x :: xs => if lt x r then x :: insRec lt r xs else r :: x :: xs

/-- Records in order. Records that tie under R150 and differ in other bits (NaN payloads, sentinels) keep the order they
had (DESIGN CHOICE, log entry 14). -/
def sortRecs (lt : Nat → Nat → Bool) : List Nat → List Nat
  | [] => []
  | r :: rs => insRec lt r (sortRecs lt rs)

/-- Whether no record stands after a later one. -/
def sortedRecs (lt : Nat → Nat → Bool) : List Nat → Bool
  | [] => true
  | [_] => true
  | a :: b :: rs => !lt b a && sortedRecs lt (b :: rs)

/-- The 4r records of a group (R147). -/
def groupRecs (c : Core) (d r : Nat) : List Nat := elemsAt (c.rvGroup d r) 128 (4 * r)

/-- A group written. -/
def putRecs (c : Core) (d r : Nat) (rs : List Nat) : Core := c.wvGroup d (packElems 128 rs) r

/-- Every KFMT is FA or 0xF (R151). -/
def fmtOk (fa : Nat) (rs : List Nat) : Bool := rs.all fun r => decide (rFmt r = fa ∨ rFmt r = 0xF)

/-- MKREC (R148). -/
def mkrecEff (e : Env) (c : Core) : TsiRes :=
  let fa := e.f.fa.toNat
  let w := elemBits fa
  let part := fld e.f.imm 1 0
  let keys := c.rv e.f.a.toNat
  let pays := c.rv e.f.b.toNat
  let base := (c.rs e.f.c.toNat).toNat + 16 * part
  let rs := (List.range 16).map fun k =>
    mkRec (elemAt keys w (16 * part + k)) (elemAt pays 32 k) (bits (c.rs 1).toNat 15 0) (base + k) fa
  reg (putRecs c e.f.d.toNat 4 rs) 2

/-- RINIT (R149). -/
def rinitEff (e : Env) (c : Core) : TsiRes :=
  let r := immR e.f
  reg (putRecs c e.f.d.toNat r (List.replicate (4 * r) sentinel)) r

/-- ⌈log2 n⌉. -/
def clog2 (n : Nat) : Nat := if n ≤ 1 then 0 else (n - 1).log2 + 1

/-- DESC of the sort instructions. -/
def isDesc (f : TsiFields) : Bool := bit f.imm.toNat 20

/-- Cycles of SORT. -/
def sortCycles (r : Nat) : Nat := 2 * r * clog2 (4 * r)

/-- SORT (R151, R152). -/
def sortEff (e : Env) (c : Core) : TsiRes :=
  let r := immR e.f
  let rs := groupRecs c e.f.d.toNat r
  if fmtOk e.f.fa.toNat rs then
    reg (putRecs c e.f.d.toNat r (sortRecs (recBefore (isDesc e.f)) rs)) (sortCycles r)
  else { core := c, flow := .stop stMeta, cycles := sortCycles r }

/-- The first 4r records of the union of two groups (R153). -/
def mergeRecs (desc : Bool) (r : Nat) (a b : List Nat) : List Nat :=
  (sortRecs (recBefore desc) (a ++ b)).take (4 * r)

/-- MERGE (R151, R153). -/
def mergeEff (e : Env) (c : Core) : TsiRes :=
  let r := immR e.f
  let ds := isDesc e.f
  let a := groupRecs c e.f.a.toNat r
  let b := groupRecs c e.f.b.toNat r
  if fmtOk e.f.fa.toNat (a ++ b) && sortedRecs (recBefore ds) a && sortedRecs (recBefore ds) b then
    reg (putRecs c e.f.d.toNat r (mergeRecs ds r a b)) (2 * r + 2)
  else { core := c, flow := .stop stMeta, cycles := 2 * r + 2 }

/-- TOPK (R154): A is sorted, then merged into D as the registers then stand, which matters where the groups overlap. When
it stops, it has written neither group (R151, R153; log entry 14). -/
def topkEff (e : Env) (c : Core) : TsiRes :=
  let r := immR e.f
  let ds := isDesc e.f
  let a := groupRecs c e.f.a.toNat r
  let c1 := putRecs c e.f.a.toNat r (sortRecs (recBefore ds) a)
  let a' := groupRecs c1 e.f.a.toNat r
  let d := groupRecs c1 e.f.d.toNat r
  let cyc := sortCycles r + 2 * r + 2
  if fmtOk e.f.fa.toNat (a ++ d) && sortedRecs (recBefore ds) d then
    reg (putRecs c1 e.f.d.toNat r (mergeRecs ds r d a')) cyc
  else { core := c, flow := .stop stMeta, cycles := cyc }

/-- UNREC (R151, R155). -/
def unrecEff (e : Env) (c : Core) : TsiRes :=
  let fa := e.f.fa.toNat
  let w := elemBits fa
  let rs := groupRecs c e.f.a.toNat 4
  let emptyKey := match fpOf fa with | some f => f.nanRaw | none => 2 ^ (intBits fa - 1)
  if fmtOk fa rs then
    let keys := rs.map fun r => if rFmt r = 0xF then emptyKey else rKey r
    let pays := rs.map fun r => if rFmt r = 0xF then 0xFFFFFFFF else rPay r
    reg ((c.wv e.f.d.toNat (packElems w keys)).wv (e.f.d.toNat + 1) (packElems 32 pays)) 2
  else { core := c, flow := .stop stMeta, cycles := 2 }

/-! ### Gather, scatter and dispatch (R156 to R161) -/

/-- Index of lane `k`: a scalar base and the INT32 in lane k (R156, R157; an exact sum, log entry 15). -/
def laneIndex (base : Word) (v k : Nat) : Int := (base.toNat : Int) + sext 32 (elemAt v 32 k)

/-- Whether an element index lies in a stream of `n` elements. -/
def inStream (n : Nat) (i : Int) : Bool := decide (0 ≤ i ∧ i < n)

/-- The unmasked lanes 0 to 15. -/
def onLanes (e : Env) (c : Core) : List Nat := (List.range 16).filter fun k => bit (e.mask c) k

/-- GATH (R156, R158). Lanes out of range make one fault, however many they are, and a CONTRIB slice ends with its last byte
(DESIGN CHOICE, log entry 15). -/
def gathEff (e : Env) (c : Core) (s : State) : TsiRes :=
  let w := elemBits e.f.fa.toNat
  let d := e.descC
  let isLocal := dKind d = 2
  let len := if isLocal then 64 * dLen d else e.sliceData.length
  let idx (k : Nat) : Int := laneIndex (c.rs (sReg e.f.b)) (c.rv e.f.a.toNat) k
  let n := len * 8 / w
  let on := onLanes e c
  let hit := on.any fun k => isLocal && inStream n (idx k) && e.fetchHits d ((idx k).toNat * w / 512) 1
  if hit then { core := c, flow := .wait .landing, cycles := 0 }
  else
    let rd (k : Nat) : Nat :=
      if inStream n (idx k) then
        let o := (idx k).toNat * (w / 8)
        if isLocal then ofLE (s.localRead e.g d o (w / 8)) else ofLE (slice e.sliceData o (w / 8))
      else 0
    let old := c.rv e.f.d.toNat
    { core := c.wv e.f.d.toNat (packElems w ((List.range 16).map fun k =>
        if bit (e.mask c) k then rd k else elemAt old w k))
      flow := if on.all fun k => inStream n (idx k) then .next else .note stIndex
      cycles := 2 }

/-- SCAT (R157, R158). Lanes out of range make one fault, however many they are (DESIGN CHOICE, log entry 15). -/
def scatEff (e : Env) (c : Core) : TsiRes :=
  let w := elemBits e.f.fa.toNat
  let d := e.descC
  let n := 64 * dLen d * 8 / w
  let idx (k : Nat) : Int := laneIndex (c.rs (sReg e.f.d)) (c.rv e.f.b.toNat) k
  let on := onLanes e c
  if on.any fun k => inStream n (idx k) && e.fetchHits d ((idx k).toNat * w / 512) 1 then
    { core := c, flow := .wait .landing, cycles := 0 }
  else
    { core := c
      flow := if on.all fun k => inStream n (idx k) then .next else .note stIndex
      cycles := 2
      store := (on.filter fun k => inStream n (idx k)).map fun k =>
        (sramBase e.g + dAddr d + (idx k).toNat * (w / 8), toLE (w / 8) (elemAt (c.rv e.f.a.toNat) w k)) }

/-- The place of a record in the dispatch rank (R159): class, then the order of values. -/
def rankClass (r : Nat) : Nat := if rFmt r = 0xF then 0 else if (rVal r).isNan then 1 else 2

/-- The token index order (CONTRIB, ELEM, PAYLOAD). -/
def tokenBefore (a b : Nat) : Bool :=
  decide (rCon a < rCon b ∨ (rCon a = rCon b ∧ (rElem a < rElem b ∨ (rElem a = rElem b ∧ rPay a < rPay b))))

/-- Dispatch rank, lowest first (R159). -/
def rankBefore (a b : Nat) : Bool :=
  if rankClass a ≠ rankClass b then decide (rankClass a < rankClass b)
  else if rankClass a = 2 ∧ (rVal a).before false (rVal b) then true
  else if rankClass a = 2 ∧ (rVal b).before false (rVal a) then false
  else tokenBefore a b

/-- The records after KSEL (R159, R160): kept, then dropped, each by token index. -/
def kselRecs (cap : Nat) (rs : List Nat) : List Nat :=
  let ranked := sortRecs rankBefore rs
  let drop := rs.length - min rs.length cap
  sortRecs tokenBefore (ranked.drop drop) ++ sortRecs tokenBefore (ranked.take drop)

/-- KSEL (R151, R159 to R161). -/
def kselEff (e : Env) (c : Core) (s : State) : TsiRes :=
  let n := (c.rs (sReg e.f.a)).toNat
  let cap := (c.rs (sReg e.f.b)).toNat
  let d := e.descC
  let beat := imm16 e.f
  let cyc := 16 + cdiv n 4 * (clog2 (max n 2) + 2)
  if 64 * dLen d < 64 * beat + 16 * n then { core := c, flow := .stop stIndex, cycles := cyc }
  else if e.fetchHits d beat (cdiv n 4) then { core := c, flow := .wait .landing, cycles := 0 }
  else
    let rs := elemsAt (ofLE (s.localRead e.g d (64 * beat) (16 * n))) 128 n
    if fmtOk e.f.fa.toNat rs then
      let kept := min n cap
      { core := (c.ws (sReg e.f.d) (BitVec.ofNat 64 kept)).ws (sReg e.f.d + 1) (BitVec.ofNat 64 (n - kept))
        cycles := cyc
        store := [(sramBase e.g + dAddr d + 64 * beat, toLE (16 * n) (packElems 128 (kselRecs cap rs)))] }
    else { core := c, flow := .stop stMeta, cycles := cyc }

/-! ### Control and scalars (R178, R179, R183 to R186) -/

/-- Branch target IMM[10:0]. -/
def target (f : TsiFields) : Nat := fld f.imm 10 0

/-- BR (R178). -/
def brEff (e : Env) (c : Core) : TsiRes := { core := c, flow := .goto (target e.f), cycles := 2 }

/-- A conditional branch: 1 cycle, 2 taken. -/
def branchEff (e : Env) (c : Core) (taken : Bool) : TsiRes :=
  { core := c, flow := if taken then .goto (target e.f) else .next, cycles := if taken then 2 else 1 }

/-- BZ (Table TSO-1): IMM[11] 0 on zero, 1 on non-zero. -/
def bzEff (e : Env) (c : Core) : TsiRes :=
  branchEff e c (bit e.f.imm.toNat 11 == decide (c.rs (sReg e.f.a) ≠ 0))

/-- BM (R178): all 32 bits of M[MK]. -/
def bmEff (e : Env) (c : Core) : TsiRes := branchEff e c (bit e.f.imm.toNat 11 == decide (e.mask c ≠ 0))

/-- LOOP (R178). -/
def loopEff (e : Env) (c : Core) : TsiRes :=
  let x := c.rs (sReg e.f.a) - 1
  branchEff e (c.ws (sReg e.f.a) x) (decide (x ≠ 0))

/-- The operation of Table TSO-5. -/
def scalcOp (op : Nat) (a b : Word) : Word :=
  match op with
  | 0 => a + b
  | 1 => a - b
  | 2 => a &&& b
  | 3 => a ||| b
  | 4 => a ^^^ b
  | 5 => a <<< (fld b 5 0)
  | 6 => a >>> (fld b 5 0)
  | _ => a * b

/-- SCALC (R179). -/
def scalcEff (e : Env) (c : Core) : TsiRes :=
  let b := if bit e.f.imm.toNat 20 then BitVec.ofNat 64 (imm16 e.f) else c.rs (sReg e.f.b)
  let op := fld e.f.imm 19 16
  reg (c.ws (sReg e.f.d) (scalcOp op (c.rs (sReg e.f.a)) b)) (if op = 7 then 3 else 1)

/-- SKIP (R183). -/
def skipEff (e : Env) (c : Core) : TsiRes :=
  let x := c.cursor e.f.c.toNat + (c.rs (sReg e.f.a)).toNat + imm16 e.f
  let s5 := (c.rs 5).toNat
  if s5 < x then { core := c.setCursor e.f.c.toNat s5, flow := .stop stLength }
  else reg (c.setCursor e.f.c.toNat x) 1

/-- STAT (R184). -/
def statEff (e : Env) (c : Core) : TsiRes :=
  let x := match c.ctxs.find? fun k => decide (k.id = e.run.ctx) with
    | none => 0
    | some k => k.status + min k.later 0xFFFF <<< 8
  reg (c.ws (sReg e.f.d) (BitVec.ofNat 64 x)) 1

/-- RAISE (R185). -/
def raiseEff (e : Env) (c : Core) : TsiRes := { core := c, flow := .stop (fld e.f.imm 7 0) }

end Sys2Proof.Machine
end

