-- ==== Sys2Proof/Machine/Coll.lean ====
section
/-!
DEFINITION. The life of a chunk instance at its owner cluster: records, contexts, output assembly, the fused operation,
completion, failure and the end (R168 to R176, R199 to R215, R231 to R245).
-/
namespace Sys2Proof.Machine

/-! ### Rings, records and contexts (R199) -/

/-- Bytes of a slice ring in use. -/
def ringBytes (c : Core) : Nat := c.ring.foldl (fun n s => n + roundUp s.data.length 64) 0

/-- Bytes of the Pronk inbound queue of a cluster in use (Table PRK-1). -/
def State.pronkBytes (s : State) (cl : Nat) : Nat :=
  (List.range 8).foldl (fun n k => n + ringBytes (s.core (128 * cl + 120 + k))) 0

/-- Room for the slices of a packet (R199). -/
def State.ringRoom (s : State) (e : CEnv) (sl : List (Nat × List Byte)) : Bool :=
  if e.cfg.isPronk then
    decide (sl.foldl (fun n x => n + roundUp x.2.length 64) (s.pronkBytes e.cl) ≤ Config.pronkInbound)
  else sl.all fun x => decide (ringBytes (s.core (e.g x.1)) + roundUp x.2.length 64 ≤ Config.sliceRing)

/-- Records of a slot in a cluster, relay records included (R199, R219). -/
def State.recCount (s : State) (cl slot : Nat) : Nat :=
  (s.coll.chunks.foldl (fun n x => if x.1.1 = cl ∧ x.1.2.1 = slot then n + x.2.recs.length else n) 0) +
    (s.coll.relays.filter fun r => decide (r.cl = cl ∧ r.slot = slot)).length

/-- A free context slot on core `k` (R101, R199). Contexts under the program of an older epoch count too (DESIGN CHOICE,
log entry 31). -/
def State.ctxFree (s : State) (e : CEnv) (k : Nat) : Bool :=
  if e.hasCtx k && decide ((s.clusterFn e.cl).st ≠ .on) then false
  else match e.prog k with
  | none => true
  | some p => decide (((s.core (e.g k)).ctxs.filter fun c => decide (c.id.slot = e.slot)).length < p.ctxCount)

/-- What the creation of a record needs beside ring room (R199). -/
def State.canCreate (s : State) (e : CEnv) : Bool :=
  decide (s.recCount e.cl e.slot < e.cfg.recq) && e.cores.all fun k => s.ctxFree e k

/-- The lowest context slot of a slot's program that no context of a core holds. -/
def Core.freePos (c : Core) (slot : Nat) : Nat :=
  let used := (c.ctxs.filter fun x => decide (x.id.slot = slot)).map (·.pos)
  ((List.range (used.length + 1)).find? fun n => !used.contains n).getD 0

/-- A context of the chunk on core `k`, in context slot `pos`. INIT has nothing to run where the program has none, or where
there is no program. -/
def CEnv.newCtx (e : CEnv) (k inst etag pos : Nat) : Ctx :=
  { id := ⟨e.slot, inst, e.h⟩, etag := etag, pos := pos,
    initDone := match e.prog k with | none => true | some p => p.init.isNone }

/-- A record created with its context slots (R199, R203). -/
def State.createRec (s : State) (e : CEnv) (inst etag : Nat) : State :=
  let c := s.ch e
  let s := s.setCh e { c with recs := c.recs ++ [{ inst := inst, etag := etag }] }
  (e.cores.filter e.hasCtx).foldl (fun s k =>
    let c := s.core (e.g k)
    s.setCore (e.g k) { c with ctxs := c.ctxs ++ [e.newCtx k inst etag (c.freePos e.slot)] }) s

/-- The context of a core with an identity. -/
def Core.ctx (c : Core) (id : CtxId) : Option Ctx := c.ctxs.find? fun x => decide (x.id = id)
/-- A context replaced. -/
def Core.putCtx (c : Core) (x : Ctx) : Core := { c with ctxs := modWhere (fun y => decide (y.id = x.id)) (fun _ => x) c.ctxs }

/-- A context is retired: its FINAL has ended and its WRITEs have been answered (R99, R174). -/
def Ctx.retired (x : Ctx) : Bool := x.finalEnded && x.wrs.all fun w => w.status.isSome

/-- Every context of an instance is retired. -/
def State.allRetired (s : State) (e : CEnv) (inst : Nat) : Bool :=
  e.cores.all fun k => match (s.core (e.g k)).ctx ⟨e.slot, inst, e.h⟩ with
    | none => true
    | some x => x.retired || (e.prog k).isNone

/-- No slice of an instance waits in a ring, and none is being handled. -/
def State.drained (s : State) (e : CEnv) (inst : Nat) : Bool :=
  e.cores.all fun k =>
    let c := s.core (e.g k)
    (c.ring.all fun x => decide (x.ctx ≠ ⟨e.slot, inst, e.h⟩)) &&
    (match c.run with | none => true | some r => decide (r.ctx ≠ ⟨e.slot, inst, e.h⟩))

/-- A handler of an instance is running on some assigned core. -/
def State.running (s : State) (e : CEnv) (inst : Nat) : Bool :=
  e.cores.any fun k => match (s.core (e.g k)).run with
    | none => false
    | some r => decide (r.ctx = ⟨e.slot, inst, e.h⟩)

/-! ### Output assembly (R164 to R172) -/

/-- The bytes of runs laid over `len` zero bytes. -/
def assemble (len : Nat) (rs : List (Nat × List Byte)) : List Byte := rs.foldl (fun b r => splice b r.1 r.2) (zeros len)

/-- Whether a byte offset has been written. -/
def OutAsm.covers (o : OutAsm) (b : Nat) : Bool := o.wr.any fun r => decide (r.1 ≤ b ∧ b < r.1 + r.2.length)

/-- Bytes of [lo, hi) that have been written; no byte is written twice (R167). -/
def OutAsm.have_ (o : OutAsm) (lo hi : Nat) : Nat :=
  o.wr.foldl (fun n r => n + (min hi (r.1 + r.2.length) - max lo r.1)) 0

/-- Bytes written to a positional output: those written before keep their first value (R167). Answers whether any had
been. -/
def OutAsm.put (o : OutAsm) (off : Nat) (bs : List Byte) : OutAsm × Bool :=
  if o.have_ off (off + bs.length) = 0 then ({ o with wr := o.wr ++ [(off, bs)] }, false)
  else
    ({ o with wr := o.wr ++ (bs.zipIdx.filter fun x => !o.covers (off + x.2)).map fun x => (off + x.2, [x.1]) }, true)

/-- The assembly of a descriptor. -/
def Rec.asm (r : Rec) (d : Nat) : OutAsm := (r.outs.find? fun o => decide (o.desc = d)).getD { desc := d }
/-- An assembly replaced. -/
def Rec.putAsm (r : Rec) (o : OutAsm) : Rec := { r with outs := (r.outs.filter fun x => !decide (x.desc = o.desc)) ++ [o] }

/-- The descriptor number `d` as the first assigned core sees it; the cores of a chunk agree on it (R164). -/
def CEnv.desc0 (e : CEnv) (d : Nat) : BitVec 128 :=
  match e.cores.head? with
  | none => 0
  | some k => e.plan.stream e.cl e.slot k d

/-- Packet `p` of a positional output of `len` bytes (R168). -/
def posPacket (c : SlotCfg) (len p : Nat) (o : OutAsm) : List Byte :=
  ((assemble len o.wr).drop (p * c.maxPay)).take c.maxPay

/-- The positional outputs of the slot: OUTUNI and OUTMC descriptors without APPEND, of slots that run programs. -/
def CEnv.posDescs (e : CEnv) : List Nat :=
  if e.cfg.fused || e.cfg.isSparse then []
  else (List.range 16).filter fun d => (destOf (e.desc0 d)).isSome && !dAppend (e.desc0 d)

/-- The append outputs of the slot. -/
def CEnv.appDescs (e : CEnv) : List Nat :=
  if e.cfg.fused || e.cfg.isSparse then []
  else (List.range 16).filter fun d => (destOf (e.desc0 d)).isSome && dAppend (e.desc0 d)

/-- The packets of positional output `d` that `sel` names sent, unless sent before (R168, R169). -/
def sendPos (s : State) (e : CEnv) (r : Rec) (d : Nat) (sel : OutAsm → Nat → Nat → Bool) : State × Rec :=
  let dd := e.desc0 d
  let len := 64 * dLen dd
  let n := cdiv len e.cfg.maxPay
  match destOf dd with
  | none => (s, r)
  | some dst =>
    (List.range n).foldl (fun acc p =>
      let o := acc.2.asm d
      let lo := p * e.cfg.maxPay
      let hi := min len (lo + e.cfg.maxPay)
      if o.sent.contains p || !sel o lo hi then acc
      else
        (acc.1.collSend e (resultPkt acc.1 e dst (dFmt dd) r.etag r.inst p n (posPacket e.cfg len p o)),
         acc.2.putAsm { o with sent := o.sent ++ [p] })) (s, r)

/-- Every positional packet whose bytes have all been written leaves, when the instance is current and has not failed
(R168, R204, R207). -/
def State.pumpOutputs (s : State) (e : CEnv) (inst : Nat) : State :=
  match (s.ch e).recOf inst with
  | none => s
  | some r =>
    if s.curInst e.cfg e.slot (s.ch e) = some inst ∧ r.failed.isNone ∧ !r.withAll then
      let x := e.posDescs.foldl (fun acc d => sendPos acc.1 e acc.2 d fun o lo hi => decide (o.have_ lo hi = hi - lo)) (s, r)
      x.1.setCh e ((x.1.ch e).putRec x.2)
    else s

/-! ### Append outputs (R170, R172) -/

/-- The segments of a descriptor in ascending order of S4, then core. -/
def Rec.segs (r : Rec) (d : Nat) : List AppSeg :=
  sortBy (fun a b => decide (a.s4 < b.s4 ∨ (a.s4 = b.s4 ∧ a.g ≤ b.g))) (r.apps.filter fun a => decide (a.desc = d))

/-- The joined bytes of an append output of elements of width `w`. -/
def joinElems (w : Nat) (es : List Nat) : List Byte := toLE (cdiv (es.length * w) 8) (packElems w es)

/-- The groups of an XC append output with their element indices. -/
def joinGroups (ss : List AppSeg) : List (Nat × List Byte) :=
  ss.flatMap fun a => a.groups.zipIdx.map fun g => (a.s4 + 16 * g.2, g.1)

/-- XC groups cut into packets: at the end of a group, where an index does not follow, and where P is full (R172). -/
def cutGroups (p : Nat) : List (Nat × List Byte) → List (Nat × Nat × List Byte) → List (Nat × Nat × List Byte)
  | [], acc => acc.reverse
  | (i, b) :: gs, [] => cutGroups p gs [(i, i, b)]
  | (i, b) :: gs, (lead, last, bs) :: acc =>
    if i = last + 16 ∧ 16 + bs.length + b.length ≤ p then cutGroups p gs ((lead, i, bs ++ b) :: acc)
    else cutGroups p gs ((i, i, b) :: (lead, last, bs) :: acc)

/-- The packets of append output `d` and its bytes for the digest (R172, R467). -/
def appPackets (e : CEnv) (r : Rec) (d : Nat) : List (List Byte) × List Byte :=
  let dd := e.desc0 d
  if dFmt dd = 0xE then
    let gs := joinGroups (r.segs d)
    let ps := (cutGroups e.cfg.maxPay gs []).map fun x => toLE 16 x.1 ++ x.2.2
    (if ps.isEmpty then [[]] else ps, gs.flatMap (·.2))
  else
    let b := joinElems (elemBits (dFmt dd)) ((r.segs d).flatMap (·.elems))
    (if b.isEmpty then [[]] else chunksOf (b.length + 1) e.cfg.maxPay b, b)

/-- An append output sent (R172). -/
def sendApp (s : State) (e : CEnv) (r : Rec) (d : Nat) : State :=
  let dd := e.desc0 d
  match destOf dd with
  | none => s
  | some dst =>
    let ps := (appPackets e r d).1
    ps.zipIdx.foldl (fun s x => s.collSend e (resultPkt s e dst (dFmt dd) r.etag r.inst x.2 ps.length x.1)) s

/-- The bytes of a MEMWR output in address order from the first core's FADDR; unwritten bytes are zero (R467). -/
def memwrBytes (e : CEnv) (r : Rec) (d : Nat) : List Byte :=
  let a0 := dFaddr (e.desc0 d)
  let aN := match e.cores.getLast? with | none => a0 | some k => dFaddr (e.plan.stream e.cl e.slot k d)
  assemble (64 * (aN - a0 + dLen (e.desc0 d))) (r.asm d).wr

/-- The chunk digest of an instance that ends complete (R467). -/
def chunkDigest (e : CEnv) (r : Rec) : Word :=
  if e.cfg.op = 0x5 then 0
  else if e.cfg.fused || e.cfg.isSparse then
    outDigest 0 e.h ((sortBy (fun a b => decide (a.1 ≤ b.1)) r.results).flatMap (·.2))
  else (List.range 16).foldl (fun acc d =>
    let dd := e.desc0 d
    if (destOf dd).isSome then
      if dAppend dd then acc + outDigest d e.h (appPackets e r d).2
      else acc + outDigest d e.h (assemble (64 * dLen dd) (r.asm d).wr)
    else if dKind dd = 4 then acc + outDigest d e.h (memwrBytes e r d)
    else acc) 0

/-! ### Chunk-done and flag records (R175, R176, R215, R259) -/

/-- The chunk-done record written (R215); `etag` is that of the instance. -/
def State.doneWrite (s : State) (e : CEnv) (inst etag st flags : Nat) : State :=
  if e.cfg.doneaddr = 0 || isShadow e.slot then s
  else
    let t := s.newTag
    let r := st + flags <<< 8 + inst <<< 16 + e.h <<< 32
    t.2.fromCluster e.cl 3 e.part
      (reqPkt mopWrite etag t.1 e.cfg.doneaddr (8 * (e.h % e.cfg.donering)) 8 (toLE 8 r))

/-- Flag tile records of a chunk, F. -/
def CEnv.nflag (e : CEnv) : Nat := cdiv e.cfg.elems 1024
/-- Tile fault records, T. -/
def CEnv.nfault (e : CEnv) : Nat := if e.cfg.isSparse then e.cfg.nt else 0

/-- A tile fault record (Table SPA-6). -/
def faultRec (t : Nat) (f : Nat × Nat × Nat × Nat × Nat) : Nat :=
  f.2.2.2.2 + t <<< 8 + f.1 <<< 20 + f.2.1 <<< 36 + f.2.2.1 <<< 42

/-- The record area of an instance: flag tile records by position, then the tile fault records in ascending order, then
zero words (R176). -/
def recordArea (e : CEnv) (r : Rec) : List Byte :=
  let fl := (List.range e.nflag).flatMap fun k => toLE 8 (r.flags.at k 0).toNat
  let fs := (sortBy (fun a b => decide (a.1 ≤ b.1)) r.sparse.faults).flatMap fun x => toLE 8 (faultRec x.1 x.2)
  let b := fl ++ (if e.cfg.isSparse then fs else [])
  b ++ zeros (8 * (e.nflag + e.nfault) - b.length)

/-- Whether the slot produces flag tile records: a FLAGREC stream of any assigned core, or the work of the cluster itself.
-/
def CEnv.flagged (e : CEnv) : Bool :=
  e.cfg.fused || e.cfg.isSparse || e.cores.any fun k => (List.range 16).any fun d =>
    let x := e.plan.stream e.cl e.slot k d
    dKind x ≠ 0 && dFlagrec x

/-- Flag and tile fault records written to the area of the cluster's die (R175, R176, R259). -/
def State.flagWrite (s : State) (e : CEnv) (r : Rec) : State :=
  let off := (e.cfg.flagoff[dieOf e.cl]?).getD 0
  if off = 0 || isShadow e.slot || !e.flagged then s
  else
    let n := 8 * (e.nflag + e.nfault)
    (s.dramPut e.cl (64 * off + n * (2 * e.h + r.inst % 2)) (recordArea e r)).1

/-! ### CSTAT (R213, R214) -/

/-- The CSTAT payload (Table COL-8). -/
def cstatPay (origin cause g missing : Nat) : List Byte :=
  let b := toLE 4 origin ++ [BitVec.ofNat 8 cause, 0] ++ toLE 2 g ++ zeros 8 ++ toLE (cdiv g 8) missing
  b ++ zeros (roundUp b.length 64 - b.length)

/-- Coordinates of a destination's range (R395). -/
def destRange (p : Plan) (d : Dest) : List Nat :=
  if d.cnt = 0 then [d.dst]
  else
    let n := max 1 (p.route.axisLen d.axis)
    (List.range (min d.cnt n)).map fun i => setAxisPos d.axis d.dst ((axisPos d.axis d.dst + i) % n)

/-- The destinations of CSTAT: the members, each output destination that is not a member, and PARENT (R214). -/
def cstatDests (e : CEnv) : List Dest :=
  let outs := ((List.range 16).filterMap fun d => destOf (e.desc0 d)).eraseDups
  let others := (outs.flatMap (destRange e.plan)).eraseDups.filter fun c =>
    !((List.range e.cfg.g).any fun k => isMember e.plan e.cfg c k) && !(decide (e.cfg.role = 1) && sameOwner c e.cfg.parent)
  { dst := e.cfg.mbase, axis := e.cfg.maxis, cnt := e.cfg.g } :: others.map fun c => { dst := c }

/-- CSTAT sent for an instance. -/
def State.cstat (s : State) (e : CEnv) (inst etag cause missing : Nat) : State :=
  let pay := cstatPay s.selfCoord cause e.cfg.g missing
  let one (d : Dest) (k : Nat) : Packet :=
    mkPkt (collHdr d 4 0 etag e.cid inst e.h k [⟨200, 200, 1⟩, ⟨212, 201, 1⟩, ⟨220, 213, stAborted⟩]) pay
  let s := (cstatDests e).foldl (fun s d => s.collSend e (one d 0)) s
  if e.cfg.role = 1 then s.collSend e (one { dst := e.cfg.parent } (upIndex s e.cfg)) else s

/-! ### Fused sets (R231 to R240) -/

/-- The other chunks of a fused set with their owner clusters (R231). -/
def CEnv.peers (e : CEnv) : List (Nat × Nat) :=
  let b := e.h / e.cfg.k * e.cfg.k
  ((List.range e.cfg.k).map (b + ·)).filterMap fun h =>
    if h = e.h then none else (e.plan.ownerOf e.slot h).map fun c => (c, h)

/-- A message to the other owners of the set over the bridge sets. -/
def State.toPeers (s : State) (e : CEnv) (inst : Nat) (p : Option Lane) : State :=
  e.peers.foldl (fun s x => { s with coll := { s.coll with
    side := s.coll.side ++ [{ dst := x.1, slot := e.slot, inst := inst, chunk := e.h, part := p }] } }) s

/-- Rounding options of the final result for an element index (R68, R72, R76). -/
def CEnv.opt (e : CEnv) (inst idx : Nat) : RndOpt :=
  { mode := e.cfg.rmode, nanOpt := e.cfg.e4ovf, r := srRandom e.cfg.seed inst e.cid idx e.h }

/-- The lane of element `j` of the chunk in the contexts of its cores. -/
def State.elemLane (s : State) (e : CEnv) (inst j : Nat) : Lane :=
  match e.plan.owner e.cl e.slot e.h with
  | none => {}
  | some o =>
    let k := owCore0 o + j / max 1 (owEpc o)
    match (s.core (e.g k)).ctx ⟨e.slot, inst, e.h⟩ with
    | none => {}
    | some x => x.xs.at (j % max 1 (owEpc o)) {}

/-- Steps 1 to 3 of R232: sums with the residual, values y in RFMT with flags, and whether every residue agrees. -/
def fusedY (s : State) (e : CEnv) (inst : Nat) (c : ChunkSt) : List (Nat × Nat) × Bool :=
  let useRes := e.cfg.res && !(decide (c.step = 0) && decide (e.cfg.rperiod ≠ 0))
  let lanes := (List.range e.cfg.elems).map fun j =>
    let l := s.elemLane e inst j
    if useRes then l.add wXS (elemVal e.cfg.rfmt ((c.resid[j]?).getD 0)) else l
  (lanes.zipIdx.map fun x => convert e.cfg.rfmt (e.opt inst x.2) (x.1.val wXS), lanes.all Lane.resOk)

/-- Blocks of 32 of a list of values quantised to MXFP8 (R78 to R80, R232): element encodings, scales and flags. -/
def fusedZ (e : CEnv) (inst : Nat) (ys : List Val) : List Nat × List Nat × List Nat :=
  (List.range (ys.length / 32)).foldl (fun acc b =>
    let q := mxBlock 0xB (fun k => e.opt inst (32 * b + k + 2 ^ 31)) ((ys.drop (32 * b)).take 32)
    (acc.1 ++ q.2.map (·.1), acc.2.1 ++ [q.1], acc.2.2 ++ q.2.map (·.2))) ([], [], [])

/-- The exact partial of Q (R233, R234). -/
def fusedPart (rfmt : Nat) (ys : List Nat) : Lane :=
  ys.foldl (fun l y => l.addProd ((elemVal rfmt y).mul (elemVal rfmt y))) {}

/-- The fused result payload (Table PRK-3). -/
def fusedPay (z sc : List Nat) (q : Nat × Nat) : List Byte :=
  let b := (z ++ sc).map (BitVec.ofNat 8)
  let a := b ++ zeros (roundUp b.length 8 - b.length)
  let t := a ++ toLE 4 q.1 ++ [BitVec.ofNat 8 q.2] ++ zeros 3
  t ++ zeros (roundUp t.length 64 - t.length)

/-- The K partials of an instance, the chunk's own included; none while one is lacking (R234). -/
def fusedAll (e : CEnv) (c : ChunkSt) (inst : Nat) : Option Lane :=
  ((e.h :: e.peers.map (·.2)).map fun h => c.parts.find (inst, h)).foldl
    (fun acc p => match acc, p with | some a, some b => some (a.plus b) | _, _ => none) (some {})

/-! ### The end of an instance -/

/-- Whether a waiting packet is a result of a chunk instance, or its partial toward PARENT. -/
def CEnv.resultOf (e : CEnv) (inst : Nat) (w : OutPkt) : Bool :=
  decide (w.acct = .cluster e.cl ∧ (hKind w.pkt.hdr = 1 ∨ hKind w.pkt.hdr = 2) ∧
    hCid w.pkt.hdr = e.cid ∧ hInst w.pkt.hdr = inst ∧ hChunk w.pkt.hdr = e.h)

/-- The result packets of a failed instance that have not left the cluster are given up (R207). -/
def State.withdraw (s : State) (e : CEnv) (inst : Nat) : State :=
  { s with sw := { s.sw with wait := s.sw.wait.filter fun w => !e.resultOf inst w } }

/-- The contexts, slices and waits of an instance given up: its slices leave the rings, waiting handlers end at once
(R618), and a handler that runs keeps its context until its own end (R207). -/
def State.dropWork (s : State) (e : CEnv) (inst : Nat) : State :=
  let id : CtxId := ⟨e.slot, inst, e.h⟩
  let s := { s with coll := { s.coll with
    runs := s.coll.runs.map fun q => (q.1, q.2.filter fun r => !decide (r.ctx = id)) } }
  e.cores.foldl (fun s k =>
    let c := s.core (e.g k)
    let waiting : Bool := match c.run with
      | none => false
      | some r => decide (r.ctx = id ∧ (r.wait = .waitf ∨ r.wait = .endf))
    let c := if waiting then { c with run := none } else c
    let runs : Bool := match c.run with | none => false | some r => decide (r.ctx = id)
    let c := { c with ring := c.ring.filter fun x => !decide (x.ctx = id) }
    let c := if runs then c
      else { c with ctxs := c.ctxs.filter fun x => !decide (x.id = id)
                    resident := if c.resident = some id then none else c.resident }
    s.setCore (e.g k) c) s

/-- The current instance has ended: c advances, and the new current instance restarts the timer when it holds a record
(R201, R205). -/
def State.advance (s : State) (e : CEnv) (c : ChunkSt) (inst : Nat) : ChunkSt :=
  let i := (inst + 1) % 65536
  let step := if e.cfg.rperiod = 0 then 0 else (c.step + 1) % e.cfg.rperiod
  let c := { c with
    cur := some i
    timer := if (c.recOf i).isSome then some s.now else none
    step := if e.cfg.fused then step else c.step
    parts := c.parts.filter fun x => !decide (x.1.1 = inst) }
  if e.cfg.fused && decide (e.cfg.rperiod ≠ 0) && decide (c.step = 0) then { c with stale := false } else c

/-- A chunk instance ends complete: DONE, the residual, the digest and the chunk-done record (R203, R211, R215, R238,
R467). -/
def State.endOk (s : State) (e : CEnv) (r : Rec) : State :=
  let s := s.dropWork e r.inst
  let c := s.ch e
  let c := { c with recs := c.recs.filter fun x => !decide (x.inst = r.inst), resid := if e.cfg.fused then r.fy else c.resid }
  let s := s.setCh e (s.advance e c r.inst)
  let s := s.count .done e.slot e.cl
  let s := s.digestAdd e r.inst (chunkDigest e r) none (orFlags r.flags)
  s.doneWrite e r.inst r.etag 0 (orFlags r.flags)

/-- A failed instance of a FUSED chunk is behind: the chunk is stale from the next instance on, until one becomes current
with step count 0 (R240). -/
def State.advanceFailed (s : State) (e : CEnv) (c : ChunkSt) (inst : Nat) : ChunkSt :=
  s.advance e (if e.cfg.fused then { c with stale := true } else c) inst

/-- A chunk instance ends failed with a cause: ABORTED, CSTAT, the side abort of a fused set, the digest and the
chunk-done record (R207, R211, R214, R215, R235, R240). `missing` none: the contributors that are not complete. No timer
runs on for a chunk without a record (R205). -/
def State.endFail (s : State) (e : CEnv) (inst etag cause : Nat) (missing : Option Nat) : State :=
  let c := s.ch e
  let r := c.recOf inst
  let lack := match r with | none => List.range e.cfg.g | some r => r.lacking e.cfg.g
  let flags := match r with | none => 0 | some r => orFlags r.flags
  let s := (s.withdraw e inst).dropWork e inst
  let s := s.cstat e inst etag cause (missing.getD (missingMask lack))
  let s := if e.cfg.fused then s.toPeers e inst none else s
  let was := s.curInst e.cfg e.slot c
  let recs := c.recs.filter fun x => !decide (x.inst = inst)
  let c := { c with recs := recs, kept := c.kept.filter fun i => !decide (i = inst)
                    timer := if recs.isEmpty then none else c.timer }
  let s := s.setCh e (if was = some inst then s.advanceFailed e c inst else { c with ended := c.ended ++ [inst] })
  let s := s.count .aborted e.slot e.cl
  let s := s.digestAdd e inst 0 (some cause) flags
  s.doneWrite e inst etag stAborted flags

/-- With all K partials held, the owner rounds Q and sends the fused result (R234, R241); a sum that disagrees with its
residue ends the instance failed (R89). -/
def State.fusedSend (s : State) (e : CEnv) (inst : Nat) : State :=
  let c := s.ch e
  match c.recOf inst, fusedAll e c inst with
  | some r, some q =>
    if r.flushed || r.failed.isSome || r.fy.isEmpty then s
    else if !q.resOk then (s.health hResidue 1).endFail e inst r.etag stResidueFail none
    else
      let n := e.cfg.elems
      let pay := fusedPay (r.fz.take n) (r.fz.drop n) (convert 0x0 { mode := 0 } (q.val wXP))
      let s := match destOf (e.desc0 0) with
        | none => s
        | some d => s.collSend e (resultPkt s e d 0xB r.etag inst 0 1 pay)
      let s := s.flagWrite e r
      s.setCh e (c.putRec { r with flushed := true, results := [(0, pay)] })
  | _, _ => s

/-- The rounding of a complete fused instance whose slices are all accumulated: y, z and the partial of Q, which goes
to the other owners (R232 to R234). A stale chunk ends the instance failed (R240); a residue that disagrees ends it
failed after its partial has left. -/
def State.fusedRound (s : State) (e : CEnv) (r : Rec) : State :=
  let c := s.ch e
  if c.stale then s.endFail e r.inst r.etag stAborted none
  else
    let y := fusedY s e r.inst c
    let ys := y.1.map (·.1)
    let z := fusedZ e r.inst (ys.map (elemVal e.cfg.rfmt))
    let p := fusedPart e.cfg.rfmt ys
    let s := s.toPeers e r.inst (some p)
    if y.2 then
      let fl := foldTiles r.flags ((y.1.map (·.2)).zipIdx.map fun x => (x.2, x.1))
      let fl := foldTiles fl (z.2.2.zipIdx.map fun x => (x.2, x.1))
      let c := { c with parts := c.parts.put (r.inst, e.h) p }
      let s := s.setCh e (c.putRec { r with fy := ys, fz := z.1 ++ z.2.1, flags := fl })
      s.fusedSend e r.inst
    else (s.health hResidue 1).endFail e r.inst r.etag stResidueFail none

/-- Release FT and payload of a barrier's result (R244, R245). -/
def barrierPay (s : State) (e : CEnv) (r : Rec) : List Byte :=
  if e.cfg.tbarrier then toLE 8 (s.ftAt r.doneT + e.cfg.rdelay) ++ zeros 56 else []

/-- A barrier without a program sends its result to the members, or its empty contribution to PARENT (R244, R245). -/
def State.barrier (s : State) (e : CEnv) (r : Rec) : State :=
  let up := decide (e.cfg.role = 1)
  let d : Dest := if up then { dst := e.cfg.parent } else { dst := e.cfg.mbase, axis := e.cfg.maxis, cnt := e.cfg.g }
  let pay := if up then [] else barrierPay s e r
  let s := s.collSend e (resultPkt s e d (if up then e.cfg.fin else e.cfg.fout) r.etag r.inst 0 1 pay)
  s.setCh e ((s.ch e).putRec { r with flushed := true })

/-- Whether the slot is a barrier that its cluster completes without a program. -/
def CEnv.plainBarrier (e : CEnv) : Bool := decide (e.cfg.op = 0x5) && e.cores.all fun k => (e.prog k).isNone

/-- What the current instance does as soon as it can: the result of a barrier, the rounding of a fused instance, the
packets already written (R168, R204, R232, R244). -/
def State.runCurrent (s : State) (e : CEnv) (inst : Nat) : State :=
  match (s.ch e).recOf inst with
  | none => s
  | some r =>
    if r.failed.isSome || decide (r.st ≠ .complete) then s
    else if e.plainBarrier then (if r.flushed then s else s.barrier e r)
    else if e.cfg.fused then
      if r.fy.isEmpty && s.drained e inst then s.fusedRound e r else s
    else s

/-- The new current instance of a chunk taken up: a kept side abort ends it (R235), a complete next instance becomes
COMPLETE (R203, R204). Each end takes up the next instance in turn. -/
def settle (e : CEnv) : Nat → State → State
  | 0, s => s
  | n + 1, s =>
    let c := s.ch e
    match s.curInst e.cfg e.slot c with
    | none => s
    | some i =>
      if c.ended.contains i then
        settle e n (s.setCh e (s.advanceFailed e { c with ended := c.ended.filter fun x => !decide (x = i) } i))
      else if c.kept.contains i then
        settle e n (s.endFail e i (match c.recOf i with | none => s.activeTag | some r => r.etag) stAborted none)
      else match c.recOf i with
        | none => s
        | some r =>
          let s := if r.st = .waiting then s.setCh e (c.putRec { r with st := .complete }) else s
          let s := s.pumpOutputs e i
          let s := s.runCurrent e i
          if s.curInst e.cfg e.slot (s.ch e) = some i then s else settle e n s

/-- Enough rounds of `settle` for a chunk: one for each kept abort, each instance that has ended early and each live
record, and one more. -/
def State.settled (s : State) (e : CEnv) : State := settle e ((s.ch e).kept.length + (s.ch e).ended.length + (s.ch e).recs.length + 1) s

/-- An instance ends failed and the chunk goes on. -/
def State.fail (s : State) (e : CEnv) (inst etag cause : Nat) (missing : Option Nat) : State :=
  (s.endFail e inst etag cause missing).settled e

/-- Every live instance of the slots that `pick` names ended failed with a cause, next instances first (R489, R515,
R566). -/
def State.failWhere (s : State) (pick : CEnv → Bool) (cause : Nat) : State :=
  s.coll.chunks.foldl (fun s x =>
    x.2.recs.reverse.foldl (fun s r =>
      match s.cenv x.1.1 x.1.2.1 x.1.2.2 r.etag with
      | none => s
      | some e =>
        if pick e && ((s.ch e).recOf r.inst).isSome then
          let s := s.endFail e r.inst r.etag cause none
          if (s.ch e).recs.isEmpty then s.settled e else s
        else s) s) s

/-! ### Faults of contexts (R137, R207) -/

/-- A fault recorded by a context: the first one stays, later ones are counted; the instance has failed, the status of
the lowest-numbered faulted core is its cause, and no result of it leaves any more. -/
def State.recordFault (s : State) (g : Nat) (id : CtxId) (st : Nat) : State :=
  let c := s.core g
  match c.ctx id with
  | none => s
  | some x =>
    if x.status ≠ 0 then s.setCore g (c.putCtx { x with later := min 65535 (x.later + 1) })
    else
      let s := s.setCore g (c.putCtx { x with status := st })
      let k := s.chunk (clusterOf g) id.slot id.chunk
      match k.recOf id.inst with
      | none => s
      | some r =>
        let r' := if r.faultCore.all fun f => decide (g < f) then { r with failed := some st, faultCore := some g } else r
        let s := s.setChunk (clusterOf g) id.slot id.chunk (k.putRec r')
        match s.cenv (clusterOf g) id.slot id.chunk r.etag with
        | none => s
        | some e => s.withdraw e id.inst

/-! ### Running handlers and their waits (R96 to R99, R137, R174, R207, R618) -/

/-- The run of a core replaced. -/
def State.setRun (s : State) (g : Nat) (r : Option Run) : State := let c := s.core g; s.setCore g { c with run := r }

/-- The run of a core changed. -/
def State.modRun (s : State) (g : Nat) (f : Run → Run) : State :=
  match (s.core g).run with
  | none => s
  | some r => s.setRun g (some (f r))

/-! ### Fetches (R180 to R182) -/

/-- Whether a fetch of a run has not been answered. -/
def Run.pendingFetch (r : Run) : Bool := r.fetches.any fun q => q.status.isNone

/-- FETCHes of a run that have not been answered. -/
def Run.fetchCount (r : Run) : Nat := ((r.fetches.filter fun q => q.status.isNone).map (·.no)).eraseDups.length

/-- The status of the failing fetch issued first. -/
def Run.fetchFail (r : Run) : Option Nat :=
  (r.fetches.find? fun q => q.status.any fun x => decide (x ≠ 0)).bind (·.status)

/-- A wait begins. -/
def Run.pause (r : Run) (w : Wait) (t : Nat) : Run := { r with wait := w, waitAt := t }

/-! ### The end of a handler -/

/-- The record of a context's chunk instance lives. -/
def State.instLive (s : State) (g : Nat) (id : CtxId) : Bool :=
  ((s.chunk (clusterOf g) id.slot id.chunk).recOf id.inst).isSome

/-- The instance of a context has failed or ended. -/
def State.instDead (s : State) (g : Nat) (id : CtxId) : Bool :=
  match (s.chunk (clusterOf g) id.slot id.chunk).recOf id.inst with
  | none => true
  | some r => r.failed.isSome

/-- The handler of a core is over: its context keeps what INIT or FINAL has done, and goes when its instance has ended
(R96, R99). -/
def State.dropRun (s : State) (g : Nat) : State :=
  let c := s.core g
  match c.run with
  | none => s
  | some r =>
    let c := { c with run := none }
    let c := match c.ctx r.ctx with
      | none => c
      | some x => c.putCtx { x with initDone := x.initDone || decide (r.kind = .init),
                                    finalEnded := x.finalEnded || decide (r.kind = .final) }
    let c := if s.instLive g r.ctx then c
      else { c with ctxs := c.ctxs.filter fun x => !decide (x.id = r.ctx)
                    resident := if c.resident = some r.ctx then none else c.resident }
    s.setCore g c

/-- Every unanswered fetch of a core's handler counts as answered with a status. -/
def State.answerFetches (s : State) (g st : Nat) : State :=
  s.modRun g fun r => { r with fetches := r.fetches.map fun q => if q.status.isNone then { q with status := some st } else q }

/-- A handler that waits at WAITF or END ends at once with TIMEOUT for its unanswered fetches (R618). -/
def State.cutWait (s : State) (g : Nat) (id : CtxId) : State :=
  match (s.core g).run with
  | none => s
  | some r =>
    if r.ctx = id ∧ (r.wait = .waitf ∨ r.wait = .endf) then
      let s := s.answerFetches g stTimeout
      match ((s.core g).run).bind Run.fetchFail with
      | none => s.dropRun g
      | some st => (s.recordFault g id st).dropRun g
    else s

/-- The status of the failing WRITE of a context with the lowest beat offset (R174). -/
def Ctx.wrFail (x : Ctx) : Option Nat :=
  ((sortBy (fun a b : CoreReq => decide (a.beat ≤ b.beat)) (x.wrs.filter fun w => w.status.any fun st => decide (st ≠ 0))).head?).bind
    (·.status)

/-- A context that waits for its WRITEs to be answered retires: the unanswered ones count as answered with TIMEOUT, and it
records the status of the failing one (R174, R618). -/
def State.cutWrites (s : State) (g : Nat) (id : CtxId) : State :=
  let c := s.core g
  match c.ctx id with
  | none => s
  | some x =>
    if !x.finalEnded || x.retired then s
    else
      let x := { x with wrs := x.wrs.map fun w => if w.status.isNone then { w with status := some stTimeout } else w }
      let s := s.setCore g (c.putCtx x)
      match x.wrFail with
      | none => s
      | some st => s.recordFault g id st

/-- A fault of a context: recorded, and the instance's waits end at once (R137, R207, R618). -/
def State.faultAt (s : State) (g : Nat) (id : CtxId) (st : Nat) : State :=
  let s := s.recordFault g id st
  if s.instLive g id then
    (List.range 128).foldl (fun s k => (s.cutWait (128 * clusterOf g + k) id).cutWrites (128 * clusterOf g + k) id) s
  else s

/-- A context that has just retired records the failure of its WRITEs (R174). -/
def State.retire (s : State) (g : Nat) (id : CtxId) : State :=
  match (s.core g).ctx id with
  | none => s
  | some x => if x.retired then
      match x.wrFail with
      | none => s
      | some st => s.faultAt g id st
    else s

/-- The lanes of the registers that a mask names. -/
def keepLanes (mask : Nat) (xs : AMap Nat Lane) : AMap Nat Lane := xs.filter fun x => bit mask (x.1 / 16)

/-- Data SRAM bytes written. -/
def State.sramWrite (s : State) (ws : List (Nat × List Byte)) : State :=
  { s with coll := { s.coll with sram := ws.foldl (fun m w => memWrite m w.1 w.2) s.coll.sram } }

/-- The clock of the cores in MHz (R42, R563, R597). -/
def State.coreMHz (s : State) : Nat := 1100 - 55 * s.roe.applied

/-- The plan and program of a context. -/
def State.ctxProg (s : State) (g : Nat) (x : Ctx) : Option (Plan × ProgCfg) :=
  match s.planBound x.id.slot x.etag with
  | none => none
  | some p => (p.prog (clusterOf g) x.id.slot (g % 128)).map fun q => (p, q)

/-- Lanes as the parking hardware sees them: key, integer, flags and residue. -/
def parkLanes (xs : AMap Nat Lane) : List (Nat × Int × Nat × Nat) :=
  xs.map fun x => (x.1, x.2.x, b2n x.2.nan + 2 * b2n x.2.pinf + 4 * b2n x.2.ninf, x.2.res)

/-- The resident context of a core parked: 1 KiB for each XS and 1.5 KiB for each XP register of its program's mask go to
its slot of the context area (R99). No LOCAL region shares a byte with it (R108), so its lanes stay what `Ctx` holds. -/
def State.parkOut (s : State) (g : Nat) : State :=
  let c := s.core g
  match c.resident.bind c.ctx with
  | none => s
  | some x => match s.ctxProg g x with
    | none => s
    | some (_, q) =>
      let n := 1024 * popcount 8 q.ctxXs + 1536 * popcount 4 q.ctxXp
      let ls := parkLanes (keepLanes q.ctxXs c.xs) ++ parkLanes ((keepLanes q.ctxXp c.xp).map fun y => (y.1 + 128, y.2))
      s.sramWrite [(sramBase g + 64 * q.ctxBase + x.pos * n, (List.range n).map (Config.parkByte ls))]

end Sys2Proof.Machine
end

