-- ==== Sys2Proof/Machine/MemOps.lean ====
section
/-!
DEFINITION. The fabric memory units: region tables, admission of a memory request, responses, mirror writes, messages
and dense views (R270 to R317).
-/
namespace Sys2Proof.Machine

/-! ### Region entries (Table MEM-2) and weight entries (Table SPA-9) -/

/-- VALID. -/
def reValid (r : BitVec 256) : Bool := bit r.toNat 0
/-- TYPE: 0 PLAIN, 1 XACC, 2 MIRRORED, 3 SNAPSHOT. -/
def reType (r : BitVec 256) : Nat := fld r 2 1
/-- ROLE: secondary. -/
def reSecondary (r : BitVec 256) : Bool := decide (reType r = 2) && bit r.toNat 3
/-- A MIRRORED primary. -/
def rePrimary (r : BitVec 256) : Bool := decide (reType r = 2) && !bit r.toNat 3
/-- PART. -/
def rePart (r : BitVec 256) : Nat := fld r 9 4
/-- RD. -/
def reRd (r : BitVec 256) : Bool := bit r.toNat 10
/-- WR. -/
def reWr (r : BitVec 256) : Bool := bit r.toNat 11
/-- AT. -/
def reAt (r : BitVec 256) : Bool := bit r.toNat 12
/-- EDGE. -/
def reEdge (r : BitVec 256) : Bool := bit r.toNat 13
/-- RMODE. -/
def reRmode (r : BitVec 256) : Nat := fld r 16 14
/-- BASE. -/
def reBase (r : BitVec 256) : Nat := fld r 63 32
/-- LEN in granules. -/
def reLen (r : BitVec 256) : Nat := fld r 95 64
/-- PBASE. -/
def rePbase (r : BitVec 256) : Nat := fld r 127 96
/-- BUDDY. -/
def reBuddy (r : BitVec 256) : Nat := fld r 159 128
/-- BBASE. -/
def reBbase (r : BitVec 256) : Nat := fld r 191 160
/-- SIGTO in ns; 0 means 1,000 µs. -/
def reSigto (r : BitVec 256) : Nat := let n := fld r 207 192; (if n = 0 then 1000 else n) * 1000
/-- MIRTO in ns; 0 means 100 µs. -/
def reMirto (r : BitVec 256) : Nat := let n := fld r 223 208; (if n = 0 then 100 else n) * 1000

/-- The valid region that holds an offset, with its entry number. -/
def Plan.regionAt (p : Plan) (off : Nat) : Option (Nat × BitVec 256) :=
  p.regions.find? fun e => reValid e.2 && decide (reBase e.2 ≤ off ∧ off < reBase e.2 + reLen e.2)

/-- VFMT of a weight entry. -/
def weVfmt (w : BitVec 256) : Nat := fld w 3 0
/-- TRAIN. -/
def weTrain (w : BitVec 256) : Bool := bit w.toNat 4
/-- VALID. -/
def weValid (w : BitVec 256) : Bool := bit w.toNat 5
/-- PART. -/
def wePart (w : BitVec 256) : Nat := fld w 11 6
/-- EDGE. -/
def weEdge (w : BitVec 256) : Bool := bit w.toNat 12
/-- Rows. -/
def weRows (w : BitVec 256) : Nat := 64 * fld w 47 32
/-- Columns C. -/
def weCols (w : BitVec 256) : Nat := 64 * fld w 63 48
/-- First byte of the value array in this switch's DRAM. -/
def weV (w : BitVec 256) : Nat := 64 * fld w 95 64
/-- First byte of the mask array. -/
def weK (w : BitVec 256) : Nat := 64 * fld w 159 128
/-- First byte of the dense view. -/
def weW (w : BitVec 256) : Nat := 64 * fld w 223 192
/-- Width of VFMT. -/
def weWidth (w : BitVec 256) : Nat := elemBits (weVfmt w)
/-- Bytes of the dense view (R273). -/
def weSize (w : BitVec 256) : Nat := weRows w * weCols w * weWidth w / 8

/-- The valid weight entry whose window holds an offset, with its number. -/
def Plan.windowAt (p : Plan) (off : Nat) : Option (Nat × BitVec 256) :=
  (p.weights.zipIdx.find? fun e => weValid e.1 && decide (weW e.1 ≤ 64 * off ∧ 64 * off < weW e.1 + weSize e.1)).map
    fun e => (e.2, e.1)

/-- What an offset lies in. -/
inductive Target where
  | region (entry : Nat) (r : BitVec 256)
  | window (idx : Nat) (w : BitVec 256)
  deriving DecidableEq, Repr

/-- The region or dense-view window that holds an offset. -/
def Plan.target (p : Plan) (off : Nat) : Option Target :=
  match p.regionAt off with
  | some e => some (.region e.1 e.2)
  | none => (p.windowAt off).map fun e => .window e.1 e.2

/-- Owning partition. -/
def Target.part : Target → Nat
  | .region _ r => rePart r
  | .window _ w => wePart w

/-- EDGE. -/
def Target.edge : Target → Bool
  | .region _ r => reEdge r
  | .window _ w => weEdge w

/-- First byte after the region or window. -/
def Target.finish : Target → Nat
  | .region _ r => 64 * (reBase r + reLen r)
  | .window _ w => weW w + weSize w

/-! ### Responses (R288, R289, R294, R295) -/

/-- NO_REGION (Table MEM-5). -/
def stNoRegion : Nat := 0x60
/-- BOUNDS. -/
def stBounds : Nat := 0x61
/-- ALIGN. -/
def stAlign : Nat := 0x62
/-- TYPE. -/
def stType : Nat := 0x63
/-- MIRROR_FAIL. -/
def stMirror : Nat := 0x64
/-- SIGNAL_TIMEOUT. -/
def stSigTimeout : Nat := 0x65
/-- SEALED. -/
def stSealed : Nat := 0x66
/-- SIGNAL_MISMATCH. -/
def stMismatch : Nat := 0x67

/-- A response with MOP, TAG and OFFSET of its request; FLAGS and FIRST stand in the place of OFFSET where given. -/
def mrsp (s : State) (h : BitVec 256) (st pkt : Nat) (complete : Bool) (flags : Option (Nat × Nat)) (pay : List Byte) : Packet :=
  mkPkt (mkHdr ([⟨31, 0, hSrc h⟩, ⟨92, 87, hPart h⟩, ⟨99, 96, 6⟩, ⟨111, 104, s.activeTag⟩, ⟨114, 112, hMop h⟩, ⟨135, 120, hTag h⟩] ++
    (match flags with
      | none => [⟨167, 136, hOffset h⟩]
      | some f => [⟨143, 136, f.1⟩, ⟨159, 144, f.2⟩]) ++
    [⟨199, 188, pkt⟩, ⟨220, 213, st⟩, ⟨221, 221, b2n complete⟩])) pay

/-- A response sent on VC4 under the partition of its request; `refusal` for one of the refusal queue (R295). -/
def State.sendRsp (s : State) (cl : Nat) (p : Packet) (refusal : Bool := false) : State :=
  s.fromCluster cl 4 (hPart p.hdr) p refusal

/-- The response to a request. -/
def State.respond (s : State) (cl : Nat) (h : BitVec 256) (st : Nat) (pay : List Byte) : State :=
  s.sendRsp cl (mrsp s h st (hPkt h) false none pay)

/-- MRSPs of a cluster that wait for room, in its refusal queue (R295) or in its response queue (R294). -/
def State.rspWaits (s : State) (cl : Nat) (refusal : Bool) : Nat :=
  (s.sw.wait.filter fun w => decide (w.acct = .cluster cl ∧ hKind w.pkt.hdr = 6 ∧ w.refusal = refusal)).length

/-- Responses that wait in a cluster's response queue (R294): for room, for the buddy, or for a signal. -/
def State.responses (s : State) (cl : Nat) : Nat :=
  s.rspWaits cl false +
  (((s.mem.mirrors ++ s.mem.later).filter fun w => decide (w.cl = cl) && w.resp.isSome).map (·.grp)).eraseDups.length +
  (s.mem.msgs.filter fun m => decide (m.cl = cl) && m.held.isSome).length

/-- Refusals that wait in a cluster's refusal queue (R295). -/
def State.refusals (s : State) (cl : Nat) : Nat := s.rspWaits cl true

/-- The counter of a refusal (Table MEM-12). -/
def refusalCtr (st : Nat) : Ctr :=
  if st = stDuplicate then .mDup else if st = stLate then .mLate else if st = stBusy then .mBusy else .mRefused

/-- A refused request: counted and answered, unless the refusal queue is full (R295). -/
def State.refuseMem (s : State) (cl : Nat) (h : BitVec 256) (st : Nat) : State :=
  let s := s.count (refusalCtr st) cl 0
  if s.refusals cl < Config.refusalQueue then s.sendRsp cl (mrsp s h st (hPkt h) false none []) true
  else s.count .refuseLost cl 0

/-! ### Mirror writes (R314 to R316, R512) -/

/-- Runs of at most 64 consecutive granules: first and count. -/
def granRuns : List Nat → List (Nat × Nat)
  | [] => []
  | g :: gs => match granRuns gs with
    | [] => [(g, 1)]
    | (a, n) :: rest => if a = g + 1 ∧ n < 64 then (g, n + 1) :: rest else (g, 1) :: (a, n) :: rest

/-- Granules of a region that the copy of a RESYNC has passed: all of them when none runs (R512). -/
def State.passed (s : State) (entry : Nat) (r : BitVec 256) (g : Nat) : Bool :=
  match (s.reg entry).phase with
  | .resync copied => decide (g - reBase r < copied)
  | _ => true

/-- Whether changes of a primary are answered with MIRROR_FAIL because it is in SOLO (R316). -/
def State.soloNow (s : State) (entry : Nat) : Bool :=
  match (s.reg entry).phase with
  | .resync _ => false
  | _ => (s.reg entry).solo

/-- WRITEs with MIRROR = 1 that carry the granules as they now stand; `w` is what they have in common (R314). -/
def State.sendMirror (s : State) (r : BitVec 256) (grans : List Nat) (w : MirrorWr) : State :=
  (granRuns grans).foldl (fun s x =>
    let t := s.newTag
    let p := reqPkt mopWrite s.activeTag t.1 (reBuddy r <<< 32 + (reBbase r + (x.1 - reBase r))) 0 (64 * x.2)
      (s.dramGet (64 * x.1) (64 * x.2))
    let s := { t.2 with mem := { t.2.mem with
      mirrors := t.2.mem.mirrors ++ [{ w with tag := t.1, grans := (List.range x.2).map (x.1 + ·) }] } }
    s.fromCluster w.cl 3 (rePart r) { p with hdr := setFld p.hdr 222 222 1 }) s

/-- A change of a primary's granules on its way to the buddy, with the response that waits for it (R314, R315). In RESYNC a
granule not yet copied is left to the copy, and the response waits for that as well (R299, R512; log entry 23). -/
def State.mirrorChange (s : State) (cl entry : Nat) (r : BitVec 256) (grans : List Nat) (resp : Packet) (last : Bool)
    (msg : Option (Nat × Nat)) : State :=
  let g := s.newTag
  let s := g.2
  let w : MirrorWr := { cl := cl, tag := g.1, grp := g.1, entry := entry, grans := grans.filter fun x => !s.passed entry r x,
                        resp := some resp, last := last, msg := msg, sentAt := s.now }
  let s := if w.grans = [] then s else { s with mem := { s.mem with later := s.mem.later ++ [w] } }
  s.sendMirror r (grans.filter (s.passed entry r)) w

/-- The entry of a region under the active plan. -/
def State.regionEnt (s : State) (entry : Nat) : BitVec 256 :=
  match s.plans.active with
  | none => 0
  | some p => p.regions.at entry 0

/-- The requester of a change that the buddy has not confirmed, or will not, is told so once (R316). -/
def State.failGrp (s : State) (w : MirrorWr) : State :=
  let told (x : MirrorWr) : MirrorWr := { x with resp := none, msg := none }
  let s := { s with mem := { s.mem with
    mirrors := modWhere (fun x : MirrorWr => decide (x.grp = w.grp)) told s.mem.mirrors
    later := s.mem.later.filter fun x => x.grp ≠ w.grp } }
  match w.resp with
  | none => s
  | some p => s.sendRsp w.cl { p with hdr := setFld p.hdr 220 213 stMirror }

/-- The changes that wait for a copy which does not come (R316, R512). -/
def State.failLater (s : State) (entry : Nat) : State :=
  (s.mem.later.filter fun x => decide (x.entry = entry)).foldl State.failGrp s

/-- A region that goes to SOLO; one in RESYNC leaves it (R316, R512). -/
def State.goSolo (s : State) (entry : Nat) : State :=
  let d := s.reg entry
  (s.setReg entry { d with solo := true, phase := match d.phase with | .resync _ => .normal | p => p }).failLater entry

/-- The next copy of a region in RESYNC, once the one before has been answered: up to 64 granules of which none has a mirror
write outstanding, or the end of RESYNC (R315, R512). A granule that cannot be read returns the region to SOLO (R280; log
entry 23). -/
def State.resyncNext (s : State) (entry : Nat) : State :=
  let r := s.regionEnt entry
  match (s.reg entry).phase with
  | .resync copied =>
    let n := min 64 (reLen r - copied)
    let gs := (List.range n).map (reBase r + copied + ·)
    let bad := gs.filter s.badGran
    let cl := servingCluster (reBase r)
    if s.mem.mirrors.any fun w => decide (w.entry = entry) && (w.copy || w.grans.any gs.contains) then s
    else if reLen r ≤ copied then s.setReg entry { s.reg entry with phase := .normal, solo := false }
    else if bad ≠ [] then (s.eccUncorr cl bad.length).goSolo entry
    else
      (s.setReg entry { s.reg entry with phase := .resync (copied + n) }).sendMirror r gs
        { cl := cl, tag := 0, grp := s.mem.tag, entry := entry, grans := [], resp := none, last := false, msg := none,
          sentAt := s.now, copy := true }
  | _ => s

/-! ### Messages (R302 to R305) -/

/-- The live or held entry of a message. -/
def State.msgOf (s : State) (cl src tag : Nat) : Option Msg :=
  s.mem.msgs.find? fun m => decide (m.cl = cl ∧ m.src = src ∧ m.tag = tag)

/-- The entry replaced, or opened. -/
def State.putMsg (s : State) (m : Msg) : State :=
  { s with mem := { s.mem with
    msgs := (s.mem.msgs.filter fun x => !decide (x.cl = m.cl ∧ x.src = m.src ∧ x.tag = m.tag)) ++ [m] } }

/-- SVAL of a signal lead (Table MEM-7). -/
def leadVal (l : List Byte) : Nat := leAt l 0 8
/-- SOFF. -/
def leadOff (l : List Byte) : Nat := leAt l 8 4
/-- SBYTE. -/
def leadByte (l : List Byte) : Nat := leAt l 12 1
/-- SOP. -/
def leadOp (l : List Byte) : Nat := leAt l 13 1
/-- DRAM address of the signal word (R282). -/
def leadAddr (l : List Byte) : Nat := 64 * leadOff l + leadByte l

/-- A message ends failed: the further response leaves, and a response that still waited for the signal leaves without
COMPLETE (R304). -/
def State.failMsg (s : State) (m : Msg) (st : Nat) : State :=
  let s := match m.held with | none => s | some p => s.sendRsp m.cl p
  let s := s.putMsg { m with ended := some s.now, held := none }
  (s.sendRsp m.cl (mrsp s m.hdr st 0 true none [])).count .msgFailed m.cl 0

/-- The status with which a message that was not applied fails at its timeout (R304). -/
def Msg.timeoutStatus (m : Msg) : Nat := m.fail.getD stSigTimeout

/-- Message timers that are due fire, and entries whose hold has passed are freed, before a packet is decided (R304 to
R306). -/
def State.msgTimers (s : State) (cl : Nat) : State :=
  let s := (s.mem.msgs.filter fun m => decide (m.cl = cl ∧ m.ended = none ∧ m.since + m.sigto ≤ s.now)).foldl
    (fun s m => s.failMsg m m.timeoutStatus) s
  { s with mem := { s.mem with msgs := s.mem.msgs.filter fun m =>
      !(decide (m.cl = cl) && m.ended.any fun t => decide (t + m.sigto ≤ s.now)) } }

/-- Whether every packet of a message has been absorbed. -/
def Msg.full (m : Msg) : Bool :=
  match m.count with
  | none => false
  | some n => (List.range n).all fun k => m.got.contains k

/-- The signal of a message applied once every packet is visible and its granule has no mirror write outstanding, unless its
deadline has come (R304, R315). -/
def State.trySignal (s : State) (m : Msg) : State :=
  match m.held with
  | none => s
  | some p =>
    let g := leadAddr m.lead / 64
    if m.ended.isSome || m.fail.isSome || decide (m.mirrors ≠ 0) || decide (m.since + m.sigto ≤ s.now) ||
        s.mem.mirrors.any fun w => w.grans.contains g then s
    else if s.badGran g then (s.eccUncorr (servingCluster g) 1).failMsg m stCheck
    else
      let old := leAt (s.dramGet (leadAddr m.lead) 8) 0 8
      let new := if leadOp m.lead = 1 then leadVal m.lead else old + leadVal m.lead
      let s := (s.dramPut m.cl (leadAddr m.lead) (toLE 8 new)).1
      let s := (s.putMsg { m with ended := some s.now, held := none }).count .msgApplied m.cl 0
      let p := { p with hdr := setFld p.hdr 221 221 1 }
      match s.plans.active.bind fun pl => pl.regionAt g with
      | none => s.sendRsp m.cl p
      | some e =>
        if !rePrimary e.2 then s.sendRsp m.cl p
        else if s.soloNow e.1 then s.sendRsp m.cl { p with hdr := setFld p.hdr 220 213 stMirror }
        else s.mirrorChange m.cl e.1 e.2 [g] p false none

/-- Every message whose signal may now be applied (R304). -/
def State.trySignals (s : State) : State := s.mem.msgs.foldl (fun s m => s.trySignal m) s

/-- The mirror write of a tag is no longer outstanding. -/
def State.dropMirror (s : State) (tag : Nat) : State :=
  { s with mem := { s.mem with mirrors := s.mem.mirrors.filter fun x => x.tag ≠ tag } }

/-- A mirror write has failed: the region goes SOLO and the requester is told; signals that waited for its granules are
applied (R304, R316). -/
def State.mirrorFail (s : State) (w : MirrorWr) : State :=
  let s := ((s.dropMirror w.tag).count .mirrorFail w.cl 0).health hMirror 1
  ((s.goSolo w.entry).failGrp w).trySignals

/-- The response of a change goes on its way, if the requester has not been told of a failure. -/
def State.freeRsp (s : State) (w : MirrorWr) : State := match w.resp with | none => s | some p => s.sendRsp w.cl p

/-- The buddy has confirmed a part of a change: when nothing of it is left, the response leaves, or waits for the signal
when its packet completed the message (R304, R315). -/
def State.confirm (s : State) (w : MirrorWr) : State :=
  if (s.mem.mirrors ++ s.mem.later).any fun x => decide (x.grp = w.grp) then s
  else match w.msg.bind fun k => s.msgOf w.cl k.1 k.2 with
    | none => s.freeRsp w
    | some m =>
      if m.ended.isSome then s.freeRsp w
      else if w.last then s.putMsg { m with mirrors := m.mirrors - 1, held := w.resp }
      else (s.putMsg { m with mirrors := m.mirrors - 1 }).freeRsp w

/-- The changes of a region in RESYNC whose granules the copy has passed (R512). -/
def State.confirmLater (s : State) (entry : Nat) : State :=
  let r := s.regionEnt entry
  (s.mem.later.filter fun x => decide (x.entry = entry) && x.grans.all (s.passed entry r)).foldl (fun s w =>
    ({ s with mem := { s.mem with later := s.mem.later.filter fun x => x.grp ≠ w.grp } }).confirm w) s

/-- A mirror write has been answered OK (R304, R315); a copy of RESYNC carries the changes that waited for it, and is
followed by the next one (R512). -/
def State.mirrorOk (s : State) (w : MirrorWr) : State :=
  let s := (s.dropMirror w.tag).confirm w
  let s := if w.copy then s.confirmLater w.entry else s
  (s.resyncNext w.entry).trySignals

/-- A change of a region's granules made visible: the response leaves at once, or after the buddy has answered
(R299, R314, R315). -/
def State.settleWrite (s : State) (cl entry : Nat) (r : BitVec 256) (grans : List Nat) (p : Packet) : State :=
  if !rePrimary r then s.sendRsp cl p
  else if s.soloNow entry then s.sendRsp cl { p with hdr := setFld p.hdr 220 213 stMirror }
  else if grans = [] then s.sendRsp cl p
  else s.mirrorChange cl entry r grans p false none

/-! ### Exact-accumulator elements (R308 to R313) -/

/-- The lane in a backing granule (Table MEM-10). -/
def laneOf (bs : List Byte) : Lane :=
  let x := ofLE bs
  { x := sext 376 (bits x 375 0), nan := bit x 376, pinf := bit x 377, ninf := bit x 378, res := bits x 439 379 }

/-- A lane as a backing granule. -/
def laneBytes (l : Lane) : List Byte :=
  toLE 64 (wrap 376 l.x + b2n l.nan <<< 376 + b2n l.pinf <<< 377 + b2n l.ninf <<< 378 + l.res <<< 379)

/-- First element number of a request to an XACC region (R310). -/
def elem0 (r : BitVec 256) (h : BitVec 256) : Nat := 16 * (hOffset h - reBase r) + hBoff h / 4

/-- The elements of an XC run, and whether it is whole (R87). -/
def xcElems : Nat → List Byte → List (List Byte) × Bool
  | 0, bs => ([], bs.isEmpty)
  | n + 1, bs =>
    if bs.isEmpty then ([], true)
    else
      let k := xcLen (leAt bs 0 1)
      if bs.length < k then ([], false)
      else let r := xcElems n (bs.drop k); (bs.take k :: r.1, r.2)

/-- Bytes of a value of FMT: 0 for a format that ACCUM does not take, 1 for XC. -/
def accumWidth (fmt : Nat) : Nat := if fmt = 0 then 4 else if fmt = 1 ∨ fmt = 2 then 2 else if fmt = 0xE then 1 else 0

/-- The addends of an ACCUM payload (R310). -/
def accumAddends (fmt : Nat) (bs : List Byte) : List (Lane → Lane) :=
  if fmt = 0xE then (xcElems (bs.length / 16 + 1) bs).1.map fun e l => l.plus (xcDec e)
  else
    let w := accumWidth fmt
    (List.range (if w = 0 then 0 else bs.length / w)).map fun k l => l.add wXS (elemVal fmt (leAt bs (w * k) w))

/-- Elements that an ACCUM of LEN bytes covers. -/
def accumCount (fmt : Nat) (bs : List Byte) : Nat :=
  if fmt = 0xE then (xcElems (bs.length / 16 + 1) bs).1.length
  else let w := accumWidth fmt; if w = 0 then 0 else cdiv bs.length w

/-- Values added to consecutive elements; each backing granule is judged alone (R280, R310). Answers whether every
granule was read. -/
def State.accumulate (s : State) (cl : Nat) (r : BitVec 256) (e0 : Nat) (fs : List (Lane → Lane)) : State × Bool :=
  fs.zipIdx.foldl (fun acc f =>
    let g := rePbase r + e0 + f.2
    if acc.1.badGran g then (acc.1.eccUncorr cl 1, false)
    else ((acc.1.dramPut cl (64 * g) (laneBytes (f.1 (laneOf (acc.1.dramGet (64 * g) 64))))).1, acc.2)) (s, true)

/-! ### Admission (Table MEM-8) -/

/-- A memory request at its serving cluster. -/
structure MReq where
  cl : Nat
  hdr : BitVec 256
  pay : List Byte
  /-- it arrived on an edge port -/
  edge : Bool
  /-- verdict of the ingress link was bad -/
  bad : Bool

/-- A packet of a WRITE_SIGNAL or ACCUM_SIGNAL message. -/
def MReq.isMsg (q : MReq) : Bool := decide (hMop q.hdr = 2 ∨ hMop q.hdr = 5)
/-- An ACCUM or ACCUM_SIGNAL. -/
def MReq.isAccum (q : MReq) : Bool := decide (hMop q.hdr = 4 ∨ hMop q.hdr = 5)
/-- The signal lead, when the payload holds one. -/
def MReq.lead (q : MReq) : Option (List Byte) := if q.isMsg && decide (16 ≤ q.pay.length) then some (q.pay.take 16) else none
/-- The data bytes. -/
def MReq.data (q : MReq) : List Byte := if q.isMsg then q.pay.drop 16 else q.pay
/-- DRAM address of the first byte. -/
def MReq.addr (q : MReq) : Nat := 64 * hOffset q.hdr + hBoff q.hdr

/-- The right that Table MEM-2 names for a request. -/
def hasRight (mop : Nat) (r : BitVec 256) : Bool :=
  if mop = 0 then reRd r else if mop = 1 ∨ mop = 2 then reWr r else if mop ≤ 5 then reAt r else true

/-- Table MEM-3 gives DENIED: a change of a secondary other than a mirror write of its buddy (R317). -/
def secondaryDenies (q : MReq) (r : BitVec 256) : Bool :=
  reSecondary r && (decide (hMop q.hdr = 2 ∨ hMop q.hdr = 3) ||
    (decide (hMop q.hdr = 1) && !(bit q.hdr.toNat 222 && sameOwner (hSrc q.hdr) (reBuddy r))))

/-- Table MEM-3 gives "—". -/
def typeRefuses (mop type : Nat) : Bool :=
  decide (5 < mop) ||
  (if type = 1 then decide (mop = 2 ∨ mop = 3)
   else if type = 3 then decide (3 ≤ mop)
   else decide (4 ≤ mop))

/-- The requests a promoted or restoring region refuses as a whole (R321, R508, R511): the status, and whether the test
stands with the rights. -/
def phaseStatus (d : RegDyn) : Option Nat :=
  match d.phase with
  | .restoring _ _ => some stBusy
  | .lost => some stDenied
  | .snapRestore => some stBusy
  | .snapBad => some stCheck
  | _ => none

/-- Length rules of test 8 (R289, R293, R310) that need no message state. -/
def lengthOk (q : MReq) : Bool :=
  let n := hMlen q.hdr
  let mop := hMop q.hdr
  decide (1 ≤ n ∧ n ≤ (if q.isMsg then 4080 else 4096)) &&
  decide (q.pay.length = (if mop = 0 then 0 else if mop = 3 then 16 else if q.isMsg then 16 + n else n)) &&
  (if q.isAccum then
    if hFmt q.hdr = 0xE then (xcElems (q.data.length / 16 + 1) q.data).2 else decide (n % accumWidth (hFmt q.hdr) = 0)
   else true) &&
  (if q.isMsg then
    decide (hPkt q.hdr ≤ 63) &&
    (if hLast q.hdr then decide (1 ≤ hCount q.hdr ∧ hCount q.hdr ≤ 64 ∧ hPkt q.hdr + 1 = hCount q.hdr)
     else decide (hCount q.hdr = 0))
   else decide (hPkt q.hdr = 0 ∧ hCount q.hdr = 1) && hLast q.hdr)

/-- Length rules of R293 that a message's entry decides. -/
def countOk (m : Msg) (h : BitVec 256) : Bool :=
  (match m.count with
    | none => true
    | some n => decide (hPkt h < n) && !(hLast h && decide (hCount h ≠ n))) &&
  !(hLast h && m.got.any fun k => decide (hCount h ≤ k))

/-- Alignment rules of R307, R310, R311 and R312. -/
def alignOk (q : MReq) (t : Target) : Bool :=
  let a := hBoff q.hdr
  let n := hMlen q.hdr
  (if hMop q.hdr = 3 then decide (n = 4 ∨ n = 8) && decide (a % n = 0) else true) &&
  (if q.isAccum then decide (a % 4 = 0) else true) &&
  (match t with
    | .region _ r => if reType r = 1 ∧ hMop q.hdr ≤ 1 then decide (a % 4 = 0 ∧ n % 4 = 0) else true
    | .window _ _ => true)

/-- Bytes of the region's address range that a request covers. -/
def spanOf (q : MReq) : Nat := if q.isAccum then 4 * accumCount (hFmt q.hdr) (q.data.take (hMlen q.hdr)) else hMlen q.hdr

/-- The tests of Table MEM-8 that look at what a request addresses, for OFFSET and, with a lead, for the signal word
(R302): the tests 3P to 9 in order, as pairs of a failing condition and its status. -/
def addressTests (s : State) (q : MReq) (t : Target) (sig : Option (Target × List Byte)) : List (Bool × Nat) :=
  let ts := t :: (match sig with | none => [] | some x => [x.1])
  let dyn (t : Target) : Option Nat := match t with | .region e _ => phaseStatus (s.reg e) | .window _ _ => none
  [(ts.any fun t => (s.part t.part).fenced, stFence),
   (ts.any fun t => decide ((s.part t.part).fn.st = .off), stDenied),
   (ts.any fun t => decide (hPart q.hdr ≠ t.part) || (q.edge && !t.edge), stDenied),
   ((match t with
      | .region _ r => !hasRight (hMop q.hdr) r || secondaryDenies q r
      | .window _ _ => decide (hMop q.hdr ≠ 0)) ||
    (match sig with
      | some (.region _ r, _) => !reWr r || reSecondary r
      | some (.window _ _, _) => true
      | none => false), stDenied),
   (ts.any fun t => decide (dyn t = some stDenied), stDenied),
   ((match t with
      | .region _ r => typeRefuses (hMop q.hdr) (reType r)
      | .window _ _ => false) ||
    (decide (hMop q.hdr = 3) && decide (hAop q.hdr = 7)) || (q.isAccum && decide (accumWidth (hFmt q.hdr) = 0)) ||
    (match sig with
      | some (.region _ r, l) => decide (reType r = 1 ∨ reType r = 3 ∨ 1 < leadOp l)
      | _ => false), stType),
   (ts.any fun t => decide (dyn t = some stCheck), stCheck),
   (ts.any fun t => decide (dyn t = some stBusy), stBusy),
   ((match t with
      | .region e r => decide (reType r = 3) && decide (hMop q.hdr = 1 ∨ hMop q.hdr = 2) &&
          ((s.reg e).sealed || (s.reg e).sealAt.any fun f => s.ftSet && decide (f ≤ s.ftNow))
      | .window _ _ => false), stSealed),
   (decide (t.finish < q.addr + max 1 (spanOf q)) ||
    (match sig with | none => false | some x => decide (x.1.finish < leadAddr x.2 + 8)), stBounds)]

/-- The tests of Table MEM-8 in order: the status of the first that fails, or the target (R292, R303). -/
def memTests (s : State) (q : MReq) : Nat ⊕ Target :=
  let h := q.hdr
  if hCheck h ≠ checkOf q.pay then .inl stCheck
  else match s.planOfTag (hEtag h) with
  | none => .inl stEpoch
  | some p =>
    match (if cFn (hDst h) = 0 then p.target (hOffset h) else none) with
    | none => .inl stNoRegion
    | some t =>
      let sig : Option (Option (Target × List Byte)) := match q.lead with
        | none => some none
        | some l => (p.target (leadAddr l / 64)).map fun x => some (x, l)
      match sig with
      | none => .inl stNoRegion
      | some sg =>
        let m := if q.isMsg then s.msgOf q.cl (hSrc h) (hTag h) else none
        let later : List (Bool × Nat) :=
          [(!lengthOk q || (q.isMsg && decide (q.pay.length < 16)) || (m.any fun m => !countOk m h), stLength),
           (!alignOk q t || (sg.any fun x => decide (leadByte x.2 % 8 ≠ 0)), stAlign),
           (m.any fun m => m.got.contains (hPkt h), stDuplicate),
           (m.any fun m => m.ended.isSome, stLate),
           (m.any fun m => decide (m.lead ≠ q.pay.take 16), stMismatch),
           (decide (Config.responseQueue ≤ s.responses q.cl) ||
            (q.isMsg && m.isNone && decide (Config.messageEntries ≤ (s.mem.msgs.filter fun m => decide (m.cl = q.cl)).length)) ||
            (match t with
              | .region _ r => rePrimary r && decide (hMop h ≠ 0) &&
                  (granules q.addr (hMlen h)).any fun g => s.mem.mirrors.any fun w => w.grans.contains g
              | .window _ _ => false), stBusy)]
        match (addressTests s q t sg ++ later).find? (·.1) with
        | some f => .inl f.2
        | none => .inr t

/-- A refusal recorded as the failure of a live message (R304). -/
def State.noteMsg (s : State) (q : MReq) (st : Nat) : State :=
  if !q.isMsg || decide (st = stBusy ∨ st = stDuplicate) then s
  else match s.msgOf q.cl (hSrc q.hdr) (hTag q.hdr) with
    | none => s
    | some m => if m.ended.isSome || m.fail.isSome then s else s.putMsg { m with fail := some st }

/-- One error found in a granule that is read: one symbol that the ECC corrects, or more, after which its check fails (R278,
R280, R322). -/
def State.granError (s : State) (cl g n : Nat) : State :=
  if s.badGran g || decide (n = 0) then s
  else if n = 1 then s.count .eccCorr cl 0
  else { s with mem := { s.mem with bad := s.mem.bad ++ [g] } }

/-- The elements of a dense view that a request touches (R272). -/
def viewEls (w : BitVec 256) (q : MReq) : List Nat :=
  let n := weWidth w / 8
  let a := q.addr - weW w
  (List.range ((a + hMlen q.hdr - 1) / n + 1 - a / n)).map (a / n + ·)

/-- The tiles of those elements, which are loaded whole (R273). -/
def viewTiles (w : BitVec 256) (els : List Nat) : List (Nat × Nat) :=
  (els.map fun e => (e / weCols w / 64, e % weCols w / 64)).eraseDups

/-- The granules of masks and values that a read of a dense view reads. -/
def viewGrans (w : BitVec 256) (els : List Nat) : List Nat :=
  let n := weWidth w / 8
  let cols := weCols w
  let ks := (viewTiles w els).flatMap fun t => (List.range 64).flatMap fun i =>
    granules (weK w + (64 * t.1 + i) * (cols / 8) + 8 * t.2) 8
  let vs := els.flatMap fun e => granules (weV w + (e / cols * (cols / 2) + 2 * (e % cols / 4)) * n) (2 * n)
  (ks ++ vs).eraseDups

/-- The granules that an absorbed request reads, the reads inside a read-modify-write included (Table MEM-1): a WRITE reads
those it covers in part, and sets the lanes of an XACC region without a read (R311). -/
def MReq.readGrans (q : MReq) : Target → List Nat
  | .window _ w => viewGrans w (viewEls w q)
  | .region _ r =>
    let gs := granules q.addr (hMlen q.hdr)
    if reType r = 1 then (if hMop q.hdr = 1 then [] else (List.range (spanOf q / 4)).map (rePbase r + elem0 r q.hdr + ·))
    else if hMop q.hdr = 1 ∨ hMop q.hdr = 2 then
      gs.filter fun g => !decide (q.addr ≤ 64 * g ∧ 64 * g + 64 ≤ q.addr + hMlen q.hdr)
    else gs

/-- The errors that the reads of an absorbed request find (R278, R323). -/
def State.readErrors (s : State) (q : MReq) (t : Target) (ups : List (Nat × Nat)) : State :=
  (q.readGrans t).foldl (fun s g => match ups.find? fun u => decide (u.1 = g) with
    | none => s
    | some u => s.granError q.cl g u.2) s

/-- One pass of admission: timers first, then the tests; a refusal is counted, recorded and answered, an absorption has
its effect (R26, R292, R306, R483). `ups` gives granules with the number of symbols in error that a read of them now
finds. -/
def State.decideMem (s : State) (q : MReq) (ups : List (Nat × Nat)) (f : Target → State → State) : State :=
  let s := s.msgTimers q.cl
  if !s.memOpen then s.refuseMem q.cl q.hdr 0x72
  else match memTests s q with
  | .inl st =>
    let s := if hCheck q.hdr ≠ checkOf q.pay ∧ q.bad = false then s.checkInt else s
    (s.noteMsg q st).refuseMem q.cl q.hdr st
  | .inr t => f t (s.readErrors q t ups)

/-- The first memory packet steered to a cluster that passes a test, and the state without it. -/
def State.takeMem (s : State) (cl : Nat) (p : Steered → Bool) : Option (Steered × State) :=
  (takeFirst (fun x : Steered => decide (x.dest = some cl) && p x) s.sw.steer).map fun r =>
    (r.1, { s with sw := { s.sw with steer := r.2 } })

/-- The status an answer counts with: CHECK_FAIL when its check value does not match (R481, R487). -/
def answerOf (p : Packet) : Nat := if hCheck p.hdr = checkOf p.payload then hStatus p.hdr else stCheck

/-- The partition of a slot, the shadow configuration's included. -/
def State.slotPart (s : State) (slot : Nat) : Nat := ((s.planOfSlot slot).map fun p => p.partOf slot).getD 0

/-! ### Dense views (R271 to R276) -/

/-- The masks of row `i`, tile column `tc`: 16 masks of 4 bits. -/
def maskWord (s : State) (w : BitVec 256) (i tc : Nat) : Nat :=
  leAt (s.dramGet (weK w + i * (weCols w / 8) + 8 * tc) 8) 0 8

/-- The first fault of a weight tile: row and group (R274). -/
def tileFault (s : State) (w : BitVec 256) (tr tc : Nat) : Option (Nat × Nat) :=
  let rows := (List.range 64).map fun i => maskWord s w (64 * tr + i) tc
  let m (i g : Nat) : Nat := bits ((rows[i]?).getD 0) (4 * g + 3) (4 * g)
  let bad (i g : Nat) : Bool :=
    decide (3 ≤ popcount 4 (m i g)) ||
    (weTrain w && decide (i % 4 = 0) &&
      (List.range 4).any fun b => decide (2 < ((List.range 4).filter fun k => bit (m (i + k) g) b).length))
  ((List.range 64).flatMap fun i => (List.range 16).map fun g => (64 * tr + i, 16 * tc + g, bad i g)).find?
    (fun x => x.2.2) |>.map fun x => (x.1, x.2.1)

/-- The element at row `i` and column `c` of a dense view (R271, R272). -/
def viewElem (s : State) (w : BitVec 256) (i c : Nat) : Nat :=
  let m := bits (maskWord s w i (c / 64)) (4 * (c / 4 % 16) + 3) (4 * (c / 4 % 16))
  if bit m (c % 4) then
    let slot := popcount (c % 4) m
    let n := weWidth w / 8
    leAt (s.dramGet (weV w + (i * (weCols w / 2) + 2 * (c / 4) + slot) * n) n) 0 n
  else 0

/-- A read of a dense view (R272 to R277): every tile that the range touches is loaded and checked. -/
def State.viewRead (s : State) (q : MReq) (idx : Nat) (w : BitVec 256) : State :=
  let n := weWidth w / 8
  let a := q.addr - weW w
  let els := viewEls w q
  let cols := weCols w
  let tiles := viewTiles w els
  let badGs := (viewGrans w els).filter s.badGran
  let s := (s.count .reads q.cl 0).eccUncorr q.cl badGs.length
  if !badGs.isEmpty then s.respond q.cl q.hdr stCheck []
  else
    let fs := tiles.filterMap fun t => (tileFault s w t.1 t.2).map fun f => [t.1, t.2, f.1, f.2]
    if fs.isEmpty then
      let bs := els.flatMap fun e => toLE n (viewElem s w (e / cols) (e % cols))
      s.respond q.cl q.hdr 0 (slice bs (a % n) (hMlen q.hdr))
    else
      let old := s.mem.wfault.at idx {}
      let low := fs.foldl (fun (p : Option (List Nat)) f => match p with
        | none => some f
        | some x => if f < x then some f else some x) old.pos
      let s := { s with mem := { s.mem with wfault := s.mem.wfault.put idx { pos := low, count := old.count + fs.length } } }
      s.respond q.cl q.hdr stMeta []

end Sys2Proof.Machine
end

