-- ==== Sys2Proof/Machine/Sparse.lean ====
section
/-!
DEFINITION. Sparse packets: parsing, faults, runs of entries, union, and the cut of the result (chapter SPA, R248 to
R269).
-/
namespace Sys2Proof.Machine

/-! ### Segments (Tables SPA-2 to SPA-4) -/

/-- A parsed segment. -/
structure Seg where
  tile : Nat
  r0 : Nat
  nr : Nat
  dense : Bool
  nnz : Nat
  rbm : Nat
  body : List Byte
  deriving DecidableEq, Repr

/-- Bytes of the directory of packet 0: PRES, then FAULT. -/
def dirBytes (c : SlotCfg) : Nat := cdiv c.nt 128 * 16

/-- PTR[i] of a compressed segment. -/
def Seg.ptr (g : Seg) (i : Nat) : Nat := leAt g.body (2 * i) 2
/-- Start of VAL. -/
def Seg.valAt (g : Seg) : Nat := if g.dense then 0 else roundUp (2 * (g.nr + 1) + 2 * g.nnz) 4
/-- Column of entry `i` of a compressed segment. -/
def Seg.col (g : Seg) (i : Nat) : Nat := leAt g.body (2 * (g.nr + 1) + 2 * i) 2

/-- Values in a segment. -/
def Seg.count (c : SlotCfg) (g : Seg) : Nat := if g.dense then g.nr * c.tw else g.nnz

/-- The body length that NR, NNZ and FIN give; none where the body holds fewer XC elements (Table SPA-5). -/
def Seg.wants (c : SlotCfg) (g : Seg) : Option Nat :=
  let v := g.valAt
  let n := if c.fin = 0xE then xcWhole (g.count c) (g.body.drop v) else some (g.count c * elemBits c.fin / 8)
  n.map fun n => roundUp (v + n) 16

/-- The framing rules of one segment (Table SPA-5, first row). -/
def Seg.framed (c : SlotCfg) (g : Seg) : Bool :=
  decide (g.tile < c.nt) && decide (g.nr ≠ 0) && decide (g.r0 + g.nr ≤ 64) && !(g.dense && decide (c.fin = 0xE)) &&
    decide (g.wants c = some g.body.length)

/-- The segments that fill a byte string exactly; none where they do not, or where one breaks its framing. -/
def parseSegs (c : SlotCfg) : Nat → List Byte → Option (List Seg)
  | _, [] => some []
  | 0, _ => none
  | n + 1, bs =>
    let h := leAt bs 0 16
    let len := bits h 63 48 * 16
    if bs.length < 16 + len then none
    else
      let g : Seg := { tile := bits h 11 0, r0 := bits h 17 12, nr := bits h 24 18, dense := bit h 25,
                       nnz := bits h 47 32, rbm := bits h 127 64, body := (bs.drop 16).take len }
      if g.framed c then (parseSegs c n (bs.drop (16 + len))).map (g :: ·) else none

/-- The directory and segments of a packet (Table SPA-2). -/
def parseSparse (c : SlotCfg) (pkt : Nat) (p : List Byte) : Option (Nat × Nat × List Seg) :=
  let n := if pkt = 0 then dirBytes c else 0
  if p.length < 16 + 2 * n then none
  else (parseSegs c 257 (p.drop (16 + 2 * n))).map fun ss => (leAt p 16 n, leAt p (16 + n) n, ss)

/-! ### Tile faults (Table SPA-5, R259) -/

/-- A fault of a tile: contributor, row, entry, place in Table SPA-5 and status. -/
abbrev TFault := Nat × Nat × Nat × Nat × Nat

/-- The lower of two faults by contributor, row, entry and place. -/
def lowFault (a b : TFault) : TFault :=
  let k (x : TFault) : Nat := ((x.1 * 64 + x.2.1) * 65536 + x.2.2.1) * 8 + x.2.2.2.1
  if k b < k a then b else a

/-- A fault noted for a tile (R259). -/
def SparseRec.fault (r : SparseRec) (t : Nat) (f : TFault) : SparseRec :=
  { r with faults := r.faults.put t (match r.faults.find t with | none => f | some x => lowFault x f) }

/-- Whether row R0 + i of a compressed segment is bad. -/
def Seg.bad (g : Seg) (i : Nat) : Bool :=
  !g.dense &&
  ((decide (i = 0) && decide (g.ptr 0 ≠ 0)) || decide (g.ptr i > g.ptr (i + 1)) || decide (g.ptr (i + 1) > g.nnz) ||
    (decide (i + 1 = g.nr) && decide (g.ptr g.nr ≠ g.nnz)))

/-- The first bad row of a segment, counted from R0. -/
def Seg.firstBad (g : Seg) : Option Nat := (List.range g.nr).find? g.bad

/-- Whether row R0 + i holds an entry (R255). -/
def Seg.occupied (g : Seg) (i : Nat) : Bool := g.dense || decide (g.ptr i < g.ptr (i + 1))

/-- The lowest row whose RBM bit is wrong (Table SPA-5). -/
def Seg.rbmWrong (g : Seg) : Option Nat :=
  (List.range 64).find? fun r =>
    if g.r0 ≤ r ∧ r < g.r0 + g.nr then
      !g.bad (r - g.r0) && decide (bit g.rbm r ≠ g.occupied (r - g.r0))
    else bit g.rbm r

/-- The raw bytes of value `i` of a segment. -/
def Seg.val (c : SlotCfg) (g : Seg) (i : Nat) : List Byte :=
  let b := g.body.drop g.valAt
  if c.fin = 0xE then let o := xcRun i b; (b.drop o).take (xcLen (leAt b o 1))
  else let n := elemBits c.fin / 8; (b.drop (n * i)).take n

/-- The entries of a segment up to its first bad row (R255, R257). -/
def Seg.entries (c : SlotCfg) (g : Seg) : List SEntry :=
  (List.range (g.firstBad.getD g.nr)).flatMap fun i =>
    if g.dense then (List.range c.tw).map fun k => { row := g.r0 + i, ord := k, col := k, raw := g.val c (i * c.tw + k) }
    else (List.range (g.ptr (i + 1) - g.ptr i)).map fun k =>
      { row := g.r0 + i, ord := k, col := g.col (g.ptr i + k), raw := g.val c (g.ptr i + k) }

/-- A list cut into runs of 16. -/
def runs16 : Nat → List SEntry → List (List SEntry)
  | 0, _ => []
  | n + 1, es => if es.isEmpty then [] else es.take 16 :: runs16 n (es.drop 16)

/-- What a segment shows of its tile: faults, union and rows (R256, R257, R260). -/
def SparseRec.segment (r : SparseRec) (j : Nat) (g : Seg) : SparseRec :=
  let r := { r with
    union := r.union.mod g.tile 0 fun u => u ||| g.rbm
    rows := r.rows ++ (List.range g.nr).map fun i =>
      { contrib := j, tile := g.tile, row := g.r0 + i, multi := decide (g.nr = 1) && !g.dense } }
  let r := match g.firstBad with
    | none => r
    | some i => r.fault g.tile (j, g.r0 + i, 0, 2, stIndex)
  match g.rbmWrong with
  | none => r
  | some x => r.fault g.tile (j, x, 0, 3, stMeta)

/-- What packet 0's FAULT bits show: each is a fault of its tile with status ABORTED (Table SPA-5). -/
def SparseRec.directory (r : SparseRec) (c : SlotCfg) (j pres flt : Nat) : SparseRec :=
  (onBits c.nt flt).foldl (fun r t => r.fault t (j, 0, 0, 5, stAborted)) { r with dirs := r.dirs.put j (pres, flt) }

/-- Rows of a tile that a contributor's segments hold. -/
def SparseRec.rowsOf (r : SparseRec) (j t : Nat) : List SRow := r.rows.filter fun x => decide (x.contrib = j ∧ x.tile = t)

/-- The lowest row at which a complete contributor breaks the directory or row rules for a tile (Table SPA-5). -/
def SparseRec.badRow (r : SparseRec) (j t : Nat) : Option Nat :=
  let d := r.dirs.at j (0, 0)
  let rs := r.rowsOf j t
  let p := bit d.1 t
  let lacks := if p then (List.range 64).filter fun x => !(rs.any fun y => decide (y.row = x)) else []
  let extra := if p then [] else rs.map (·.row)
  let twice := (List.range 64).filter fun x =>
    let ys := rs.filter fun y => decide (y.row = x)
    decide (1 < ys.length) && !ys.all (·.multi)
  let both := if p && bit d.2 t then [0] else []
  minOf (lacks ++ extra ++ twice ++ both)

/-- The checks made when a contributor is complete. -/
def SparseRec.finishContrib (r : SparseRec) (c : SlotCfg) (j : Nat) : SparseRec :=
  (List.range c.nt).foldl (fun acc t => match r.badRow j t with
    | none => acc
    | some x => acc.fault t (j, x, 0, 4, stMeta)) r

/-! ### Dealing (R268, R269, R545) -/

/-- The global cores of a tile's group. -/
def CEnv.tileCores (e : CEnv) (t : Nat) : List Nat :=
  match e.plan.owner e.cl e.slot e.h with
  | none => []
  | some o => (List.range e.cfg.nc).map fun i => 128 * e.cl + owCore0 o + e.cfg.nc * (t % max 1 (owNcore o / e.cfg.nc)) + i

/-- The core of a tile's group, counted from its first, that holds the accumulator of element (r, c) (R268). -/
def elemCore (nc r c : Nat) : Nat := (r + c / 16) % nc

/-- The elements of a tile of `tw` columns that core `q` of its group holds (R268). -/
def tileShare (nc tw q : Nat) : Nat :=
  (List.range 64).foldl (fun n r => (List.range (tw / 16)).foldl (fun n b => if elemCore nc r (16 * b) = q then n + 16 else n) n) 0

/-- Entries queued at a core. -/
def State.queued (s : State) (g : Nat) : Nat := (s.coll.runs.at g []).foldl (fun n r => n + r.ents.length) 0

/-- A run given to the core of the group with the fewest entries queued, among equals the lowest (R269). -/
def State.deal (s : State) (e : CEnv) (id : CtxId) (j t : Nat) (es : List SEntry) : State :=
  match e.tileCores t with
  | [] => s
  | g :: gs =>
    let b := gs.foldl (fun b x => if s.queued x < s.queued b then x else b) g
    { s with coll := { s.coll with runs := s.coll.runs.mod b [] fun q => q ++ [{ ctx := id, contrib := j, tile := t, ents := es }] } }

/-- An absorbed sparse packet parsed: framing, faults and runs (R257, R269). Answers whether its framing holds. -/
def State.sparseAbsorb (s : State) (e : CEnv) (inst j pkt : Nat) (p : List Byte) : State × Bool :=
  let c := s.ch e
  match c.recOf inst, parseSparse e.cfg pkt p with
  | some r, some (pres, flt, gs) =>
    let sp := gs.foldl (fun x g => x.segment j g) r.sparse
    let sp := if pkt = 0 then sp.directory e.cfg j pres flt else sp
    let sp := if r.full j then sp.finishContrib e.cfg j else sp
    let s := s.setCh e (c.putRec { r with sparse := sp })
    (gs.foldl (fun s g =>
      let es := g.entries e.cfg
      (runs16 (es.length / 16 + 1) es).foldl (fun s run => s.deal e ⟨e.slot, inst, e.h⟩ j g.tile run) s) s, true)
  | _, _ => (s, false)

/-- The addend of an entry: a value, or the lane an XC element decodes to. -/
def addEntry (c : SlotCfg) (l : Lane) (raw : List Byte) : Lane :=
  if c.fin = 0xE then l.plus (xcDec raw) else l.add wXS (elemVal c.fin (ofLE raw))

/-- One entry decoded: a column past the tile's width faults the tile and is skipped, any other is added to its
element's accumulator (R257, R269). -/
def SparseRec.entry (r : SparseRec) (c : SlotCfg) (j t : Nat) (x : SEntry) : SparseRec :=
  if c.tw ≤ x.col then r.fault t (j, x.row, x.ord, 1, stIndex)
  else
    { r with
      lanes := r.lanes.mod ((64 * t + x.row) * c.tw + x.col) {} fun l => addEntry c l x.raw
      touched := r.touched.mod (64 * t + x.row) 0 fun m => m ||| 2 ^ x.col }

/-! ### The result (R260 to R267) -/

/-- Whether a tile's output is present: not faulted, PRES set by a contributor, and its union not empty (R258, R260). -/
def tilePresent (r : SparseRec) (t : Nat) : Bool :=
  (r.faults.find t).isNone && (r.dirs.any fun d => bit d.2.1 t) && decide (r.union.at t 0 ≠ 0)

/-- Rows at and above which a tile leaves dense; none for never (Table SPA-7). -/
def thrRows (c : SlotCfg) : Option Nat :=
  if c.thr = 0 then
    some (4 * (if elemBits c.fout = 8 then 5 else if elemBits c.fout = 16 then 7 else 10))
  else if c.thr ≤ 0x10 then some (4 * c.thr)
  else if c.thr = 0x11 then some 0
  else none

/-- Partials travel as XC elements: an UP slot with CARRY 0 or an integer format (R267). -/
def sparseXc (c : SlotCfg) : Bool := decide (c.role = 1) && (!c.carry || decide (intBits c.fin ≠ 0))

/-- The format of the result (R264, R267). -/
def sparseFmt (c : SlotCfg) : Nat := if sparseXc c then 0xE else if c.role = 1 then 0x0 else c.fout

/-- Whether a present tile leaves dense (R261, R267). -/
def tileDense (c : SlotCfg) (r : SparseRec) (t : Nat) : Bool :=
  !sparseXc c && (match thrRows c with | none => false | some n => decide (n ≤ popcount 64 (r.union.at t 0)))

/-- One output value: bytes and flags (R262 to R264, R267). -/
def sparseVal (e : CEnv) (inst : Nat) (r : SparseRec) (idx : Nat) : List Byte × Nat :=
  let l := r.lanes.at idx {}
  if sparseXc e.cfg then (xcEnc l, 0)
  else
    let o := if e.cfg.role = 1 then { mode := 0 } else { e.opt inst idx with wrap := decide (intBits e.cfg.fout ≠ 0) }
    let q := convert (sparseFmt e.cfg) o (l.val wXS)
    (toLE (elemBits (sparseFmt e.cfg) / 8) q.1, q.2)

/-- The columns of row `x` of tile `t` in the result. -/
def outCols (c : SlotCfg) (r : SparseRec) (dense : Bool) (t x : Nat) : List Nat :=
  if dense then List.range c.tw
  else if bit (r.union.at t 0) x then onBits c.tw (r.touched.at (64 * t + x) 0) else []

/-- An output row: its number, and columns with value bytes. -/
structure ORow where
  row : Nat
  ents : List (Nat × List Byte)
  deriving DecidableEq, Repr

/-- The rows of an output tile, with the flags of its elements. -/
def outRows (e : CEnv) (inst : Nat) (r : SparseRec) (t : Nat) : List ORow × List (Nat × Nat) :=
  let d := tileDense e.cfg r t
  let rows := (List.range 64).map fun x => (x, (outCols e.cfg r d t x).map fun k =>
    let idx := (64 * t + x) * e.cfg.tw + k
    (k, idx, sparseVal e inst r idx))
  (rows.map fun x => ⟨x.1, x.2.map fun y => (y.1, y.2.2.1)⟩, rows.flatMap fun x => x.2.map fun y => (y.2.1, y.2.2.2))

/-- Running sums of row lengths: PTR (Table SPA-4). -/
def ptrsFrom : Nat → List ORow → List Nat
  | n, [] => [n]
  | n, r :: rs => n :: ptrsFrom (n + r.ents.length) rs

/-- A segment of consecutive rows (Tables SPA-3, SPA-4). -/
def segBytes (t : Nat) (dense : Bool) (rows : List ORow) : List Byte :=
  let r0 := (rows.head?.map (·.row)).getD 0
  let ents := rows.flatMap (·.ents)
  let vals := ents.flatMap (·.2)
  let rbm := rows.foldl (fun m r => if dense || !r.ents.isEmpty then m ||| 2 ^ r.row else m) 0
  let pc := if dense then [] else (ptrsFrom 0 rows).flatMap (toLE 2) ++ ents.flatMap fun x => toLE 2 x.1
  let b := pc ++ zeros (roundUp pc.length 4 - pc.length) ++ vals
  let b := b ++ zeros (roundUp b.length 16 - b.length)
  toLE 16 (t + r0 <<< 12 + rows.length <<< 18 + b2n dense <<< 25 + (if dense then 0 else ents.length) <<< 32 +
    (b.length / 16) <<< 48 + rbm <<< 64) ++ b

/-- Packets under construction: those closed (newest first), the lead of the open one, its segments, and the bytes that
stand before its segments. -/
structure Packing where
  done_ : List (Nat × List Byte) := []
  lead : Option Nat := none
  body : List Byte := []
  base : Nat

/-- The open packet closed; later packets open with a lead alone. -/
def Packing.close (k : Packing) : Packing :=
  { done_ := (k.lead.getD 0, k.body) :: k.done_, lead := none, body := [], base := 16 }

/-- A segment added to the open packet. -/
def Packing.add (k : Packing) (idx : Nat) (b : List Byte) : Packing :=
  { k with lead := some (k.lead.getD idx), body := k.body ++ b }

/-- Bytes left in the open packet. -/
def Packing.room (k : Packing) (p : Nat) : Nat := p - (k.base + k.body.length)

/-- The longest prefix, of length at least `lo` and at most `n`, whose size by `size` fits `room`. -/
def longest (size : Nat → Nat) (room : Nat) : Nat → Nat
  | 0 => 0
  | n + 1 => if size (n + 1) ≤ room then n + 1 else longest size room n

/-- A row too long for an empty packet, as one-row segments of the longest runs that fit (R265). -/
def packLong (c : SlotCfg) (t row : Nat) : Nat → List (Nat × List Byte) → Packing → Packing
  | 0, _, k => k
  | f + 1, es, k =>
    if es.isEmpty then k
    else
      let idx := (64 * t + row) * c.tw
      let n := longest (fun n => (segBytes t false [⟨row, es.take n⟩]).length) (k.room c.maxPay) es.length
      if n = 0 then packLong c t row f es k.close
      else packLong c t row f (es.drop n) (k.add idx (segBytes t false [⟨row, es.take n⟩]))

/-- The rows of a tile packed in order (R265). -/
def packRows (c : SlotCfg) (t : Nat) (dense : Bool) : Nat → List ORow → Packing → Packing
  | 0, _, k => k
  | f + 1, rows, k =>
    match rows with
    | [] => k
    | r :: rest =>
      let n := longest (fun n => (segBytes t dense (rows.take n)).length) (k.room c.maxPay) rows.length
      if 0 < n then packRows c t dense f (rows.drop n) (k.add ((64 * t + r.row) * c.tw) (segBytes t dense (rows.take n)))
      else if (segBytes t dense [r]).length ≤ c.maxPay - 16 then packRows c t dense f rows k.close
      else packRows c t dense f rest (packLong c t r.row (2 * r.ents.length + 2) r.ents k)

/-- The result of a sparse instance: packet payloads and element flags (R265). -/
def sparseResult (e : CEnv) (inst : Nat) (r : SparseRec) : List (List Byte) × List (Nat × Nat) :=
  let c := e.cfg
  let n := dirBytes c
  let ts := (List.range c.nt).filter (tilePresent r)
  let outs := ts.map fun t => (t, outRows e inst r t)
  let k := outs.foldl (fun k x => packRows c x.1 (tileDense c r x.1) 256 x.2.1 k) ({ base := 16 + 2 * n } : Packing)
  let ps := k.close.done_.reverse
  let dir := toLE n (ts.foldl (fun m t => m ||| 2 ^ t) 0) ++ toLE n (r.faults.foldl (fun m f => m ||| 2 ^ f.1) 0)
  (ps.zipIdx.map fun x => toLE 16 x.1.1 ++ (if x.2 = 0 then dir else []) ++ x.1.2, outs.flatMap fun x => x.2.2)

/-- Whether every lane that the result rounds or encodes agrees with its residue (R89). -/
def sparseResOk (c : SlotCfg) (r : SparseRec) : Bool :=
  r.lanes.all fun x => x.2.resOk || !tilePresent r (x.1 / (64 * c.tw))

/-- Destination of a sparse slot's result: descriptor 0, or PARENT (R267). -/
def sparseDest (e : CEnv) : Option Dest := if e.cfg.role = 1 then some { dst := e.cfg.parent } else destOf (e.desc0 0)

/-- The result packets of a sparse instance sent, with its flags folded; LENGTH_FAULT where it needs more than PMAX
packets (R266), RESIDUE_FAIL where a lane disagrees. -/
def State.sparseFlush (s : State) (e : CEnv) (r : Rec) : State :=
  let x := sparseResult e r.inst r.sparse
  if !sparseResOk e.cfg r.sparse then (s.health hResidue 1).fail e r.inst r.etag stResidueFail none
  else if e.cfg.pmax < x.1.length then s.fail e r.inst r.etag stLength none
  else
    let s := match sparseDest e with
      | none => s
      | some d => x.1.zipIdx.foldl (fun s (p : List Byte × Nat) =>
          s.collSend e (resultPkt s e d (sparseFmt e.cfg) r.etag r.inst p.2 x.1.length p.1)) s
    s.setCh e ((s.ch e).putRec { r with flushed := true, flags := foldTiles r.flags x.2,
                                        results := x.1.zipIdx.map fun (p : List Byte × Nat) => (p.2, p.1) })

/-- No run of an instance waits to be decoded. -/
def State.decoded (s : State) (id : CtxId) : Bool := s.coll.runs.all fun q => q.2.all fun r => decide (r.ctx ≠ id)

end Sys2Proof.Machine
end

