-- ==== Sys2Proof/Machine/Collect.lean ====
section
/-!
DEFINITION. The commands of the collective units: admission, relay, timers, the end of a chunk, fused and sparse work
(chapters COL, PRK, SPA).
-/
namespace Sys2Proof.Machine

/-! ### Steered packets -/

/-- The first packet steered to cluster `cl` that passes a test, and the state without it. -/
def State.takeSteered (s : State) (cl : Nat) (p : Steered → Bool) : Option (Steered × State) :=
  (takeFirst (fun x : Steered => decide (x.dest = some cl) && p x) s.sw.steer).map fun r =>
    (r.1, { s with sw := { s.sw with steer := r.2 } })

/-- Whether a packet was taken by the shadow configuration: its DST lies in the target plane (R497). -/
def State.isShadowPkt (s : State) (h : BitVec 256) : Bool :=
  match s.fawn.target with
  | none => false
  | some t => decide (s.fawn.fn.st = .on ∧ cPlane (hDst h) = t ∧ t ≠ s.plane)

/-- Whether an epoch tag is accepted for a packet (R209, R497). -/
def State.tagOk (s : State) (h : BitVec 256) : Bool :=
  if s.isShadowPkt h then
    match s.fawn.target with
    | none => false
    | some t =>
      let m := s.trail.members.at t { census := 0, at_ := 0, present := false }
      m.digAt.isSome && (decide (hEtag h = fld m.dig 15 8) ||
        (bit m.dig.toNat 16 && decide (some (hEtag h) = s.fawn.plan.map fun p => p.pepoch % 256)))
  else (s.planOfTag (hEtag h)).isSome

/-- The chunk that a collective packet names, under the plan of its epoch tag; the active plan's where the tag matches
none. -/
def State.pktEnv (s : State) (cl : Nat) (h : BitVec 256) : Option CEnv :=
  let sh := s.isShadowPkt h
  match (if sh then s.fawn.plan else s.collPlan h) with
  | none => none
  | some p => match p.cid (hCid h) with
    | none => none
    | some (n, _) =>
      let slot := if sh then n + shadowBase else n
      (p.slot slot).map fun c => ⟨p, c, cl, slot, hChunk h⟩

/-- A refusal: counted, and answered unless it is a shadow's or the answer queue is full (R197, R208, R210, R498). -/
def State.refuse (s : State) (e : CEnv) (h : BitVec 256) (st : Nat) (c : Ctr) : State :=
  let s := s.count c e.slot e.cl
  if isShadow e.slot then s else s.sendAnswer e.cl e.cfg.vc (hPart h) (answerPkt s h st)

/-- A collective packet refused with POWER_STATE outside P0 (Table MGT-14): answered as R208 and R210 state, and counted in
no slot. -/
def State.powerRefuse (s : State) (cl : Nat) (h : BitVec 256) : State :=
  if s.isShadowPkt h then s
  else s.sendAnswer cl (match s.pktEnv cl h with | none => 2 | some e => e.cfg.vc) (hPart h) (answerPkt s h 0x72)

/-- The part of a slot that a packet is for (R218): a member's contribution, a member's CSTAT, or a packet of PARENT. -/
inductive Role where
  | contrib | child | relay | none
  deriving DecidableEq, Repr

/-- What ROLE accepts of a packet (Table COL-10). -/
def roleOf (e : CEnv) (h : BitVec 256) : Role :=
  let k := hKind h
  if (k = 2 ∨ k = 4) ∧ isParent e.cfg (hSrc h) then .relay
  else if e.cfg.role < 2 ∧ isMember e.plan e.cfg (hSrc h) (hContrib h) then
    if k = 1 then .contrib else if k = 4 then .child else .none
  else .none

/-- Whether the VC of a packet suits the slot; VC6 counts as VC2 (R223). -/
def vcSuits (c : SlotCfg) (vc : Nat) : Bool := if c.isPronk then decide (vc = 1) else decide (vc = 2 ∨ vc = 6)

/-- Tests 1, 2, 3 and 3P of Table COL-5: the status and counter of the first that fails. -/
def tests13 (s : State) (e : CEnv) (vc : Nat) (p : Packet) : Option (Nat × Ctr) :=
  let h := p.hdr
  let bound := match ((s.ch e).recOf (hInst h)) with | none => true | some r => decide (r.etag = hEtag h)
  if checkOf p.payload ≠ hCheck h then some (stCheck, .check)
  else if !s.tagOk h || !bound then some (stEpoch, .epoch)
  else if !vcSuits e.cfg vc || roleOf e h = .none || decide (e.cfg.nchunk ≤ e.h) then some (stIndex, .index)
  else if (s.part e.part).fenced then some (stFence, .part)
  else if (s.part e.part).fn.st = .off then some (stDenied, .part)
  else none

/-- Test 7: R191, R192 and the cases of R198. A packet numbered COUNT − 1 carries LAST (R191); segments take the place of
the XC groups in a sparse packet, which keeps the lead (R253). -/
def badLength (c : SlotCfg) (r : Rec) (h : BitVec 256) (pay : List Byte) : Bool :=
  let j := hContrib h
  let n := pay.length
  let k := hPkt h
  let mine := r.of j
  let whole := max 1 (cdiv c.contribLen c.maxPay)
  decide (c.pmax ≤ k) ||
  (match r.counts.find j with | none => false | some m => decide (m ≤ k)) ||
  (if hLast h then
    decide (k + 1 ≠ hCount h) || (mine.any fun x => decide (hCount h ≤ x.pkt)) ||
    (decide (c.split = 0) && decide (hCount h ≠ whole)) ||
    (match r.counts.find j with | none => false | some m => decide (m ≠ hCount h))
   else
    (decide (c.split = 0) && decide (k + 1 = whole)) ||
    (match r.counts.find j with | none => false | some m => decide (k + 1 = m))) ||
  (if c.split = 0 then decide (n ≠ min c.maxPay (c.contribLen - k * c.maxPay)) else false) ||
  (if c.split = 1 ∨ c.fin = 0xE then
    decide (n < 32) || decide (n % 16 ≠ 0) || decide (leAt pay 0 4 % 16 ≠ 0) || decide (c.elems ≤ leAt pay 0 4) ||
    decide (leAt pay 4 12 ≠ 0) || (!c.isSparse && !xcFramed 16 (pay.drop 16)) else false) ||
  decide (c.maxPay < n)

/-- The record of an instance, or a new empty one. -/
def recOrNew (c : ChunkSt) (inst etag : Nat) : Rec := (c.recOf inst).getD { inst := inst, etag := etag }

/-- A packet entered into a record (R194). -/
def Rec.take (r : Rec) (h : BitVec 256) (pay : List Byte) : Rec :=
  { r with
    pkts := r.pkts ++ [{ contrib := hContrib h, pkt := hPkt h, last := hLast h, payload := pay }]
    counts := if hLast h then r.counts.put (hContrib h) (hCount h) else r.counts }

/-- Slices presented to their cores (R96, R199). -/
def State.present (s : State) (e : CEnv) (inst j : Nat) (sl : List (Nat × List Byte)) : State :=
  sl.foldl (fun s x =>
    let c := s.core (e.g x.1)
    s.setCore (e.g x.1) { c with ring := c.ring ++ [{ ctx := ⟨e.slot, inst, e.h⟩, contrib := j, data := x.2 }] }) s

/-- A packet that passes every test absorbed: the record, the timer, its slices, and completion (R199, R203, R205). An
instance that has failed is shown no further slice (R207), and one that a kept side abort waits for ends as it becomes
current (R235). -/
def State.absorb (s : State) (e : CEnv) (d inst : Nat) (h : BitVec 256) (pay : List Byte) (sl : List (Nat × List Byte)) : State :=
  let s := if ((s.ch e).recOf inst).isNone then s.createRec e inst (hEtag h) else s
  let c := s.ch e
  match c.recOf inst with
  | none => s
  | some r =>
    let dead := r.failed.isSome
    let sl := if dead then [] else sl
    let r := r.take h pay
    let r := { r with shown := r.shown ++ sl.map fun x => (x.1, hContrib h) }
    let s := s.setCh e { c.putRec r with timer := if c.timer.isNone then some s.now else c.timer }
    let s := (s.count .absorbed e.slot e.cl).present e inst (hContrib h) sl
    let p := if e.cfg.isSparse && !dead then s.sparseAbsorb e inst (hContrib h) (hPkt h) pay else (s, true)
    let s := p.1
    let r := recOrNew (s.ch e) inst (hEtag h)
    if c.kept.contains inst ∧ d = 0 then s.settled e
    else if !p.2 then
      if r.failed.isNone then s.setCh e ((s.ch e).putRec { r with failed := some stLength }) else s
    else if r.st = .filling ∧ r.failed.isNone ∧ (r.lacking e.cfg.g).isEmpty then
      let s := s.setCh e ((s.ch e).putRec { r with st := if d = 0 then .complete else .waiting, doneT := s.now })
      s.settled e
    else s

/-- Where a chunk takes its first instance: INST0, or that of its first admitted packet (R201, R497, R510). A promoted
FUSED chunk takes its step count with it, and stays stale unless that count is 0. Side aborts kept for instances before
it are of no use. -/
def State.takeInst (s : State) (e : CEnv) (inst : Nat) : State :=
  let c := s.ch e
  match c.cur with
  | some _ => s
  | none =>
    let inst := (s.curInst e.cfg e.slot c).getD inst
    let promoted := e.cfg.fused && s.plans.takes && !isShadow e.slot
    let step := if promoted && decide (e.cfg.rperiod ≠ 0) then ((inst + 65536 - e.cfg.inst0) % 65536) % e.cfg.rperiod else c.step
    let stale := if promoted then decide (e.cfg.rperiod = 0) || decide (step ≠ 0) else c.stale
    let kept := c.kept.filter fun i => decide ((i + 65536 - inst) % 65536 < 0x8000)
    s.setCh e { c with cur := some inst, step := step, stale := stale, kept := kept }

/-- Tests 4 to 9 of Table COL-5, then absorption. -/
def State.contribTests (s : State) (e : CEnv) (p : Packet) : State :=
  let h := p.hdr
  let inst := hInst h
  let c := s.ch e
  let i0 := s.curInst e.cfg e.slot c
  let d := (inst + 65536 - i0.getD inst) % 65536
  let r := recOrNew c inst (hEtag h)
  let sl := e.newSlices (r.take h p.payload) (hContrib h)
  if hFmt h ≠ e.cfg.fin then s.refuse e h stMeta .metaF
  else if 0x8000 ≤ d ∨ c.ended.contains inst then s.refuse e h stLate .late
  else if 2 ≤ d ∨ (i0.isNone ∧ isShadow e.slot ∧ e.cfg.fused) then s.refuse e h stBusy .busy
  else if badLength e.cfg r h p.payload then s.refuse e h stLength .length
  else if ((r.of (hContrib h)).any fun x => decide (x.pkt = hPkt h)) then s.count .dup e.slot e.cl
  else if ((c.recOf inst).isNone && !s.canCreate e) || !s.ringRoom e sl then s.refuse e h stBusy .busy
  else (s.takeInst e inst).absorb e d inst h p.payload sl

/-! ### Timers (R205, R206, R236) -/

/-- The environment of a chunk: the plan of its current instance's record, of its other record, or that of its slot. -/
def State.chunkEnv (s : State) (cl slot h : Nat) : Option CEnv :=
  let c := s.chunk cl slot h
  match (c.cur.bind c.recOf).or c.recs.head? with
  | some r => s.cenv cl slot h r.etag
  | none => match s.planOfSlot slot with
    | none => none
    | some p => (p.slot slot).map fun c => ⟨p, c, cl, slot, h⟩

/-- At its deadline, an instance that is not complete is aborted with cause TIMEOUT (R205). -/
def State.chunkTimer (s : State) (e : CEnv) : State :=
  let c := s.ch e
  match c.timer, s.curInst e.cfg e.slot c with
  | some t0, some i =>
    if t0 + e.cfg.timeout ≤ s.now then
      match c.recOf i with
      | none => s.fail e i (match c.recs.head? with | none => s.activeTag | some r => r.etag) stTimeout none
      | some r => if r.st = .complete ∨ r.failed.isSome then s else s.fail e i r.etag stTimeout none
    else s
  | _, _ => s

/-! ### Relay (R219) -/

/-- The relay record of an instance brought up to date; the chunk-done record follows the last RESULT or the CSTAT. -/
def State.relayRec (s : State) (e : CEnv) (h : BitVec 256) : State :=
  let mine (r : RelayRec) : Bool := decide (r.cl = e.cl ∧ r.slot = e.slot ∧ r.chunk = e.h ∧ r.inst = hInst h)
  let old := s.coll.relays.find? mine
  if e.cfg.doneaddr = 0 then s
  else if old.isNone ∧ e.cfg.recq ≤ s.recCount e.cl e.slot then s
  else
    let r := old.getD { cl := e.cl, slot := e.slot, chunk := e.h, inst := hInst h, seen := 0, total := none }
    let r := if hKind h = 2 then { r with seen := r.seen + 1, total := if hLast h then some (hCount h) else r.total } else r
    let s := { s with coll := { s.coll with relays := s.coll.relays.filter fun x => !mine x } }
    if hKind h = 4 then s.doneWrite e (hInst h) (hEtag h) stAborted 0
    else if r.total.any fun n => decide (n ≤ r.seen) then s.doneWrite e (hInst h) (hEtag h) 0 0
    else { s with coll := { s.coll with relays := s.coll.relays ++ [r] } }

/-- A RESULT or CSTAT from PARENT relayed to the relay range. -/
def State.relay (s : State) (e : CEnv) (p : Packet) : State :=
  if e.cfg.rcount = 0 || isShadow e.slot then s
  else
    let hd := setFld (setFld (setFld p.hdr 31 0 e.cfg.rdest) 78 77 e.cfg.raxis) 86 79 e.cfg.rcount
    ((s.fromCluster e.cl e.cfg.vc e.part { p with hdr := hd }).count .relayed e.slot e.cl).relayRec e p.hdr

/-! ### The commands -/

/-- The timer of a packet's chunk, which runs under the plan of its records, judged before the packet (R206). -/
def State.timed (s : State) (e : CEnv) : State :=
  match s.chunkEnv e.cl e.slot e.h with
  | none => s
  | some e' => if e.h < e'.cfg.nchunk then s.chunkTimer e' else s

/-- Tests 1 to 3P for a steered packet and what follows when they pass; `none` where the plan no longer knows its CID. -/
def State.decide13 (s : State) (cl : Nat) (x : Steered) (f : CEnv → State → State) : State :=
  if !s.collOpen then s.powerRefuse cl x.pkt.hdr
  else match s.pktEnv cl x.pkt.hdr with
  | none => (s.count .unknownColl x.link 0).sendAnswer cl 2 (hPart x.pkt.hdr) (answerPkt s x.pkt.hdr stIndex)
  | some e =>
    let s := s.timed e
    match tests13 s e x.vc x.pkt with
    | some (st, c) =>
      let s := if c = .check ∧ !x.bad then s.checkInt else s
      s.refuse e x.pkt.hdr st c
    | none => f e s

/-- The role of a steered packet, for the choice of the command that takes it. -/
def State.steeredRole (s : State) (cl : Nat) (x : Steered) : Role :=
  match s.pktEnv cl x.pkt.hdr with
  | none => .contrib
  | some e => roleOf e x.pkt.hdr

/-- CONTRIB_RX (R197): the owner cluster admits or refuses the next collective packet steered to it that is neither a
member's CSTAT nor a packet of PARENT. An ANSWER to a partial of the cluster is taken without effect. -/
def execContribRx (cl t : Nat) (s : State) : Out State :=
  let s := s.tick t
  onUnit (decide (cl < Config.clusters)) (match s.takeSteered cl fun x =>
      decide (hKind x.pkt.hdr = 3) || (isCollKind (hKind x.pkt.hdr) &&
        (let r := s.steeredRole cl x; decide (r ≠ .child ∧ r ≠ .relay))) with
    | none => s
    | some (x, s) => if hKind x.pkt.hdr = 3 then s else s.decide13 cl x fun e s => s.contribTests e x.pkt)

/-- CSTAT_MEMBER_RX (R220): the current instance is aborted at once; an instance that has ended counts as LATE. -/
def execCstatMemberRx (cl t : Nat) (s : State) : Out State :=
  let s := s.tick t
  onUnit (decide (cl < Config.clusters)) (match s.takeSteered cl fun x =>
      decide (hKind x.pkt.hdr = 4) && decide (s.steeredRole cl x = .child) with
    | none => s
    | some (x, s) => s.decide13 cl x fun e s =>
      let c := s.ch e
      let i := hInst x.pkt.hdr
      let d := (i + 65536 - (s.curInst e.cfg e.slot c).getD i) % 65536
      if 0x8000 ≤ d ∨ c.ended.contains i then s.count .late e.slot e.cl
      else if d = 0 then
        let lack := match c.recOf i with | none => List.range e.cfg.g | some r => r.lacking e.cfg.g
        s.fail e i (hEtag x.pkt.hdr) stAborted (some (missingMask (hContrib x.pkt.hdr :: lack)))
      else s)

/-- RESULT_RELAY (R219). -/
def execResultRelay (cl t : Nat) (s : State) : Out State :=
  let s := s.tick t
  onUnit (decide (cl < Config.clusters)) (match s.takeSteered cl fun x =>
      decide (hKind x.pkt.hdr = 2 ∨ hKind x.pkt.hdr = 4) && decide (s.steeredRole cl x = .relay) with
    | none => s
    | some (x, s) => s.decide13 cl x fun e s => s.relay e x.pkt)

/-- CHUNK_TIMEOUT (R205). -/
def execChunkTimeout (cl slot h t : Nat) (s : State) : Out State :=
  let s := s.tick t
  onUnit (decide (cl < Config.clusters)) (match s.chunkEnv cl slot h with
    | none => s
    | some e => s.chunkTimer e)

/-- A chunk's record of an instance, when the instance is current. -/
def State.current (s : State) (cl slot inst h : Nat) : Option (CEnv × Rec) :=
  match (s.chunk cl slot h).recOf inst with
  | none => none
  | some r => match s.cenv cl slot h r.etag with
    | none => none
    | some e => if s.curInst e.cfg slot (s.ch e) = some inst then some (e, r) else none

/-- CSTAT_SEND (R207): after the last running handler of a failed instance has ended, the instance ends failed. -/
def execCstatSend (cl slot inst h t : Nat) (s : State) : Out State :=
  let s := s.tick t
  onUnit (decide (cl < Config.clusters)) (match s.current cl slot inst h with
    | none => s
    | some (e, r) => match r.failed with
      | none => s
      | some st => when_ (!s.running e inst) s (s.fail e inst r.etag st none))

/-- The remaining output packets and records of an instance whose contexts have all retired (R168, R172, R175, R265). -/
def State.flush (s : State) (e : CEnv) (r : Rec) : State :=
  if e.cfg.isSparse then s.sparseFlush e r
  else
    let x := e.posDescs.foldl (fun acc d => sendPos acc.1 e acc.2 d fun _ _ _ => true) (s, r)
    let s := e.appDescs.foldl (fun s d => sendApp s e x.2 d) x.1
    let s := s.flagWrite e x.2
    s.setCh e ((s.ch e).putRec { x.2 with flushed := true })

/-- CHUNK_OUTPUT_FLUSH (R168). -/
def execChunkOutputFlush (cl slot inst h t : Nat) (s : State) : Out State :=
  let s := s.tick t
  onUnit (decide (cl < Config.clusters)) (match s.current cl slot inst h with
    | none => s
    | some (e, r) =>
      when_ (decide (r.st = .complete) && r.failed.isNone && !r.flushed && !e.cfg.fused && !e.plainBarrier &&
        s.allRetired e inst && s.decoded ⟨slot, inst, h⟩ && s.drained e inst) s (s.flush e r))

/-- Whether a packet of an instance still waits in its cluster (R203). -/
def State.packetWaits (s : State) (e : CEnv) (inst : Nat) : Bool := s.sw.wait.any (e.resultOf inst)

/-- CHUNK_END (R203): the instance ends complete and the chunk goes on. A sparse instance writes its records now, for one
that ends failed writes no tile fault record (R259). -/
def execChunkEnd (cl slot inst h t : Nat) (s : State) : Out State :=
  let s := s.tick t
  onUnit (decide (cl < Config.clusters)) (match s.current cl slot inst h with
    | none => s
    | some (e, r) =>
      when_ (decide (r.st = .complete) && r.failed.isNone && r.flushed && s.allRetired e inst && !s.packetWaits e inst) s
        (((if e.cfg.isSparse then s.flagWrite e r else s).endOk e r).settled e))

/-- The first message of the bridge sets to a cluster that passes a test, and the state without it. -/
def State.takeSide (s : State) (cl : Nat) (p : SideMsg → Bool) : Option (SideMsg × State) :=
  (takeFirst (fun x : SideMsg => decide (x.dst = cl) && p x) s.coll.side).map fun r =>
    (r.1, { s with coll := { s.coll with side := r.2 } })

/-- The chunk of a message's fused set that the cluster owns. -/
def State.sideEnv (s : State) (cl : Nat) (m : SideMsg) : Option CEnv :=
  match s.chunkEnv cl m.slot m.chunk with
  | none => none
  | some e =>
    let b := m.chunk / e.cfg.k * e.cfg.k
    match ((List.range e.cfg.k).map (b + ·)).find? fun h => decide (e.plan.ownerOf m.slot h = some cl) with
    | none => none
    | some h => s.chunkEnv cl m.slot h

/-- Q_PARTIAL_RX (R234): a partial is kept by instance, and the result leaves once all K are held. -/
def execQPartialRx (cl t : Nat) (s : State) : Out State :=
  let s := s.tick t
  onUnit (decide (cl < Config.clusters)) (match s.takeSide cl fun x => x.part.isSome with
    | none => s
    | some (m, s) => match s.sideEnv cl m, m.part with
      | some e, some p =>
        let c := s.ch e
        let past := match s.curInst e.cfg e.slot c with | none => false | some i => decide (0x8000 ≤ (m.inst + 65536 - i) % 65536)
        if past then s
        else
          let s := s.setCh e { c with parts := c.parts.put (m.inst, m.chunk) p }
          if s.curInst e.cfg e.slot (s.ch e) = some m.inst then (s.fusedSend e m.inst).settled e else s
      | _, _ => s)

/-- SIDE_ABORT_RX (R235). -/
def execSideAbortRx (cl t : Nat) (s : State) : Out State :=
  let s := s.tick t
  onUnit (decide (cl < Config.clusters)) (match s.takeSide cl fun x => x.part.isNone with
    | none => s
    | some (m, s) => match s.sideEnv cl m with
      | none => s
      | some e =>
        let c := s.ch e
        let keep := if c.kept.contains m.inst then s else s.setCh e { c with kept := c.kept ++ [m.inst] }
        match s.curInst e.cfg e.slot c with
        | none => keep
        | some i =>
          let d := (m.inst + 65536 - i) % 65536
          let r := c.recOf m.inst
          let etag := match r with | none => s.activeTag | some r => r.etag
          if 0x8000 ≤ d ∨ c.ended.contains m.inst then s
          else if d = 0 ∨ (r.any fun r => decide (r.st = .waiting)) then s.fail e m.inst etag stAborted none
          else keep)

/-- Q_PARTIAL_TIMEOUT (R236): a peer's partial is lacking. -/
def execQPartialTimeout (cl slot inst h t : Nat) (s : State) : Out State :=
  let s := s.tick t
  onUnit (decide (cl < Config.clusters)) (match s.current cl slot inst h with
    | none => s
    | some (e, r) =>
      when_ (e.cfg.fused && decide (r.st = .complete) && r.failed.isNone && !r.flushed &&
        (e.peers.any fun x => ((s.ch e).parts.find (inst, x.2)).isNone) &&
        decide (r.doneT + e.cfg.timeout ≤ s.now)) s (s.fail e inst r.etag stTimeout (some 0)))

/-- TBARRIER_RELEASE (R246): the results whose release FT has come leave the hold for the link scheduler; while FT is UNSET
every one does, late (R445). -/
def execTbarrierRelease (link t : Nat) (s : State) : Out State :=
  let s := s.tick t
  let k := s.link link
  let due := k.hold.filter fun x => decide (s.ftSet = false ∨ x.1 ≤ s.ftNow)
  let s1 := s.setLink link { k with hold := k.hold.filter fun x => !decide (s.ftSet = false ∨ x.1 ≤ s.ftNow) }
  onUnit (decide (link < Config.links)) (due.foldl (fun s x =>
    let n := flitsOf x.2.payload.length
    let s := if s.ftSet then s else s.releaseLate x.2.hdr
    s.putBuf { id := 0, pkt := x.2, vc := 1, acct := .cluster (9 * dieOfLink link), die := dieOfLink link, at_ := s.now,
               got := n, flits := n, copies := [{ link := link, vc := 1, hdr := x.2.hdr, since := s.now }] }) s1)

/-! ### Direct accumulation (R230) -/

/-- The addends of a slice: element numbers from 0 with lanes to add, and whether the slice held whole XC elements. -/
def sliceAddends (c : SlotCfg) (data : List Byte) : List (Lane → Lane) × Bool :=
  if c.fin = 0xE then
    let gs := xcGroups (data.length / 256 + 1) 0 data
    let one (b : List Byte) : List (List Byte) :=
      (List.range 16).map fun i => let o := xcRun i b; (b.drop o).take (xcLen (leAt b o 1))
    let es := gs.flatMap fun g => one g.2
    (es.map fun b l => l.plus (xcDec b), es.all fun b => !b.isEmpty && decide (b.length = xcLen (leAt b 0 1)))
  else
    let w := elemBits c.fin
    let n := if w = 0 then 0 else data.length * 8 / w
    ((List.range n).map fun k l => l.add wXS (elemVal c.fin (bitsOf data (w * k + w - 1) (w * k))), true)

/-- The lanes of a context with addend `k` added to lane k mod 16 of XS[⌊k / 16⌋]. -/
def addLanes (xs : AMap Nat Lane) (fs : List (Lane → Lane)) : AMap Nat Lane :=
  fs.zipIdx.foldl (fun xs f => xs.mod f.2 {} f.1) xs

/-- The lanes of the register file parked in the resident context (R99). -/
def Core.parkAll (c : Core) : Core :=
  match c.resident with
  | none => c
  | some id => match c.ctx id with
    | none => { c with resident := none }
    | some x => { (c.putCtx { x with xs := c.xs, xp := c.xp }) with resident := none }

/-- DIRECT_ACCUMULATE (R230): the first slice in the ring of a Pronk core enters its context's XS lanes; the resident
context is parked for it. -/
def execDirectAccumulate (g : Nat) (s : State) : Out State :=
  onUnit (decide (g < Config.cores)) (
    let c := s.core g
    match c.ring with
    | [] => s
    | x :: rest =>
      match c.run, c.ctx x.ctx with
      | none, some ctx => match s.cenv (clusterOf g) x.ctx.slot x.ctx.chunk ctx.etag with
        | none => s
        | some e =>
          let live : Bool := match (s.ch e).recOf x.ctx.inst with | none => false | some r => r.failed.isNone
          if e.cfg.direct && ctx.initDone && decide (ctx.status = 0) && live then
            let fs := sliceAddends e.cfg x.data
            let c := Core.parkAll { c with ring := rest }
            let ctx := (c.ctx x.ctx).getD ctx
            let s := (s.parkOut g).setCore g (c.putCtx { ctx with xs := addLanes ctx.xs fs.1 })
            let s := if fs.2 then s else s.faultAt g x.ctx stLength
            s.settled e
          else s
      | _, _ => s)

/-- SPARSE_RUN_DECODE (R269): the first run queued at a core is decoded into the accumulators of its tile. -/
def execSparseRunDecode (g : Nat) (s : State) : Out State :=
  onUnit (decide (g < Config.cores)) (
    match s.coll.runs.at g [] with
    | [] => s
    | r :: rest =>
      let s := { s with coll := { s.coll with runs := s.coll.runs.put g rest } }
      let c := s.chunk (clusterOf g) r.ctx.slot r.ctx.chunk
      match c.recOf r.ctx.inst with
      | none => s
      | some q => match s.cenv (clusterOf g) r.ctx.slot r.ctx.chunk q.etag with
        | none => s
        | some e =>
          s.setCh e (c.putRec { q with sparse := r.ents.foldl (fun sp x => sp.entry e.cfg r.contrib r.tile x) q.sparse }))

end Sys2Proof.Machine
end

