-- ==== Sys2Proof/Machine/TsiTiming.lean ====
section
/-!
DEFINITION. When an instruction may issue: the registers it reads and writes, and the cycle at which what it writes becomes
readable (R114, Tables TSI-8 and TSO-1).
-/
namespace Sys2Proof.Machine

/-! ### Names of registers: V0–V31 are 0 to 31, S 32 to 47, XS 48 to 55, XP 56 to 59, M 60 to 67 -/

/-- `n` V registers from V[d] on. -/
def vRegs (d : BitVec 5) (n : Nat) : List Nat := ((List.range n).map (d.toNat + ·)).filter fun x => decide (x < 32)
/-- An S register by number; S0 is never waited for. -/
def sRegs (n : Nat) : List Nat := if n = 0 ∨ 16 ≤ n then [] else [32 + n]
/-- `n` XS registers from XS[d] on. -/
def xRegs (d n : Nat) : List Nat := ((List.range n).map (48 + d + ·)).filter fun x => decide (x < 56)
/-- `n` XP registers from XP[d] on. -/
def pRegs (d n : Nat) : List Nat := ((List.range n).map (56 + d + ·)).filter fun x => decide (x < 60)
/-- An M register; M0 is never waited for. -/
def mRegs (n : Nat) : List Nat := if n = 0 ∨ 8 ≤ n then [] else [60 + n]

/-- V registers of 32 elements of a width (Table TSI-7). -/
def vPair (w : Nat) : Nat := if w = 32 then 2 else 1

/-- The V registers that FIDX writes. -/
def fidxRegs (fa : Nat) : Nat := if elemBits fa = 8 then 4 else 2

/-- The registers that an instruction reads. One that adds into a register, or keeps its masked-off elements, reads it
(DEDUCED, log entry 31). -/
def tsiReads (op : Nat) (f : TsiFields) : List Nat :=
  let fa := f.fa.toNat
  let w := elemBits fa
  let wd := elemBits f.fd.toNat
  let i := f.imm.toNat
  let mk := mRegs f.msk.toNat
  let sA := sRegs (sReg f.a)
  let sB := sRegs (sReg f.b)
  let sC := sRegs f.c.toNat
  let scale (en lo : Nat) : List Nat := if bit i en then sRegs (bits i (lo + 3) lo) else []
  match op with
  | 0x02 => sA
  | 0x03 => sA ++ vRegs f.d (immN f)
  | 0x04 => sA
  | 0x06 => sA
  | 0x07 => vRegs f.a 1
  | 0x08 => sA
  | 0x09 => sA
  | 0x10 => vRegs f.a 1 ++ mk ++ xRegs (xReg f.d) (groupOfV w)
  | 0x11 => xRegs (xReg f.d) 1
  | 0x13 => xRegs (xReg f.a) 1
  | 0x14 => xRegs (xReg f.d) 1 ++ pRegs (pReg f.a) 1
  | 0x15 => pRegs (pReg f.d) 1 ++ xRegs (xReg f.a) 1
  | 0x16 => xRegs (xReg f.d) 1 ++ xRegs (xReg f.a) 1
  | 0x17 => vRegs f.a 1 ++ vRegs f.b 1
  | 0x20 => pRegs (pReg f.d) 1 ++ vRegs f.a 1 ++ vRegs f.b 1 ++ mk ++ scale 8 0 ++ scale 9 4
  | 0x21 => pRegs (pReg f.d) 1 ++ vRegs f.a 1 ++ mk ++ scale 8 0
  | 0x22 => pRegs (pReg f.d) 1 ++ pRegs (pReg f.a) 1
  | 0x23 => vRegs f.a 1 ++ vRegs f.b 1 ++ sC ++ mk ++ vRegs f.d 2
  | 0x30 => (if bit i 16 then pRegs (pReg f.a) (groupOfV wd) else xRegs (xReg f.a) (groupOfV wd)) ++ sB ++ mk ++ vRegs f.d 1
  | 0x31 => vRegs f.a (vPair w) ++ sB ++ mk ++ vRegs f.d (vPair wd)
  | 0x32 => (if fa = 0xE then xRegs (xReg f.a) 2 else vRegs f.a (vPair w)) ++ sB
  | 0x33 => xRegs (xReg f.a) 1
  | 0x40 => vRegs f.a 1 ++ vRegs f.b 1 ++ vRegs f.d 1 ++ mk
  | 0x41 => vRegs f.a 1 ++ vRegs f.b 1 ++ vRegs f.d 1 ++ mk
  | 0x42 => vRegs f.a 1 ++ mk
  | 0x43 => vRegs f.a 1 ++ mk
  | 0x44 => vRegs f.a 1 ++ sB ++ mk
  | 0x50 => vRegs f.a 1 ++ vRegs f.b 1 ++ mk
  | 0x51 => vRegs f.a 1 ++ sC ++ mk
  | 0x52 => mRegs (xReg f.a) ++ mRegs (xReg f.b)
  | 0x53 => mRegs (xReg f.a)
  | 0x54 => vRegs f.a 1 ++ mk
  | 0x55 => sB ++ mk
  | 0x56 => vRegs f.a 1 ++ vRegs f.b 1 ++ mk
  | 0x60 => vRegs f.a 1 ++ vRegs f.b 1 ++ sC ++ sRegs 1
  | 0x62 => vRegs f.d (immR f)
  | 0x63 => vRegs f.a (immR f) ++ vRegs f.b (immR f)
  | 0x64 => vRegs f.a (immR f) ++ vRegs f.d (immR f)
  | 0x65 => vRegs f.a 4
  | 0x70 => vRegs f.a 1 ++ sB ++ mk ++ vRegs f.d 1
  | 0x71 => sRegs (sReg f.d) ++ vRegs f.a 1 ++ vRegs f.b 1 ++ mk
  | 0x72 => sA ++ sB
  | 0x80 => vRegs f.a (immN f) ++ sB
  | 0x81 => vRegs f.a (immN f) ++ sB
  | 0x82 => sA ++ sB
  | 0xE2 => sA
  | 0xE3 => mk
  | 0xE4 => sA
  | 0xE5 => sA ++ (if bit i 20 then [] else sB)
  | 0xE6 => sA ++ sB
  | 0xE8 => sA
  | 0xF2 => sA
  | _ => []

/-- The registers that an instruction writes. -/
def tsiWrites (op : Nat) (f : TsiFields) : List Nat :=
  let i := f.imm.toNat
  let sD := sRegs (sReg f.d)
  let sC := sRegs f.c.toNat
  match op with
  | 0x01 => vRegs f.d (immN f)
  | 0x02 => vRegs f.d (immN f)
  | 0x04 => sD
  | 0x05 => sD
  | 0x06 => sD
  | 0x07 => vRegs f.d 1
  | 0x08 => mRegs (xReg f.d)
  | 0x09 => vRegs f.d 1
  | 0x10 => xRegs (xReg f.d) (groupOfV (elemBits f.fa.toNat))
  | 0x11 => xRegs (xReg f.d) 1
  | 0x12 => ((List.range 8).filter fun n => bit i n).map (48 + ·) ++ ((List.range 4).filter fun n => bit i (8 + n)).map (56 + ·)
  | 0x13 => xRegs (xReg f.d) 1
  | 0x14 => xRegs (xReg f.d) 1
  | 0x15 => pRegs (pReg f.d) 1
  | 0x16 => xRegs (xReg f.d) 1
  | 0x17 => vRegs f.d 1
  | 0x20 => pRegs (pReg f.d) 1
  | 0x21 => pRegs (pReg f.d) 1
  | 0x22 => pRegs (pReg f.d) 1
  | 0x23 => vRegs f.d 2
  | 0x30 => vRegs f.d 1
  | 0x31 => vRegs f.d (vPair (elemBits f.fd.toNat))
  | 0x32 => vRegs f.d 1 ++ sRegs (bits i 19 16)
  | 0x40 => vRegs f.d 1
  | 0x41 => vRegs f.d 1
  | 0x42 => vRegs f.d 1 ++ sC
  | 0x43 => vRegs f.d 1 ++ sC
  | 0x50 => mRegs (xReg f.d)
  | 0x51 => mRegs (xReg f.d)
  | 0x52 => mRegs (xReg f.d)
  | 0x53 => sD
  | 0x54 => vRegs f.d 1 ++ sC
  | 0x55 => vRegs f.d (fidxRegs f.fa.toNat)
  | 0x56 => vRegs f.d 1
  | 0x60 => vRegs f.d 4
  | 0x61 => vRegs f.d (immR f)
  | 0x62 => vRegs f.d (immR f)
  | 0x63 => vRegs f.d (immR f)
  | 0x64 => vRegs f.d (immR f) ++ vRegs f.a (immR f)
  | 0x65 => vRegs f.d 2
  | 0x70 => vRegs f.d 1
  | 0x72 => sD ++ sRegs (sReg f.d + 1)
  | 0xE4 => sRegs (sReg f.a)
  | 0xE5 => sD
  | 0xF0 => sD
  | _ => []

/-- The Latency column of Tables TSI-8 and TSO-1 for an instruction of `n` cycles; where the tables give none, what is
written is readable when the instruction is over (DEDUCED, log entry 31). -/
def tsiLatency (op : Nat) (n : Nat) : Nat :=
  match op with
  | 0x01 => n + 2
  | 0x02 => n + 2
  | 0x04 => 3
  | 0x05 => 1
  | 0x06 => 1
  | 0x07 => 2
  | 0x08 => 1
  | 0x09 => 2
  | 0x10 => n + 2
  | 0x11 => n + 2
  | 0x12 => 1
  | 0x13 => 3
  | 0x14 => 4
  | 0x15 => 4
  | 0x16 => 4
  | 0x17 => 2
  | 0x20 => n + 2
  | 0x21 => n + 2
  | 0x22 => 4
  | 0x23 => 3
  | 0x30 => n + 1
  | 0x31 => 3
  | 0x32 => 3
  | 0x40 => 2
  | 0x41 => 2
  | 0x42 => 3
  | 0x43 => 3
  | 0x50 => 2
  | 0x51 => 2
  | 0x52 => 1
  | 0x53 => 2
  | 0x54 => 3
  | 0x55 => 3
  | 0x56 => 2
  | 0x60 => 4
  | 0x61 => n + 1
  | 0x62 => n + 2
  | 0x63 => n + 2
  | 0x64 => n + 2
  | 0x65 => 3
  | 0x70 => 4
  | 0x72 => n + 1
  | 0xF0 => 2
  | _ => n

/-- The cycle in which an instruction may begin: every register it reads is readable, and the one before it is over
(R114). -/
def Run.issueAt (r : Run) (op : Nat) (f : TsiFields) : Nat :=
  (tsiReads op f).foldl (fun m x => max m (r.ready.at x 0)) r.cycles

/-- An instruction of `n` cycles carried out: the cycles spent, and the cycles at which its results become readable
(R114). -/
def Run.issue (r : Run) (op : Nat) (f : TsiFields) (n : Nat) : Run :=
  let t := r.issueAt op f
  { r with cycles := t + n
           ready := (tsiWrites op f).foldl (fun m x => m.put x (t + tsiLatency op n)) r.ready }

end Sys2Proof.Machine
end

