-- ==== Sys2Proof/Machine/Tahr.lean ====
section
/-!
DEFINITION. Running a handler: the environment of its next instruction, its effect on the state, faults, waits, emits,
fetches and the end of the handler (R96 to R103, R131, R165 to R186, R618).
-/
namespace Sys2Proof.Machine

/-! ### The running handler -/

/-- The plan, slot and program that a running handler executes: those of the epoch its instance is bound to (R105, R209;
DEDUCED, log entry 31). -/
def State.runEnv (s : State) (g : Nat) (r : Run) (f : TsiFields) : Option Env :=
  match (s.core g).ctx r.ctx with
  | none => none
  | some x => match s.planBound r.ctx.slot x.etag with
    | none => none
    | some p => match p.slot r.ctx.slot, p.prog (clusterOf g) r.ctx.slot (g % 128) with
      | some c, some q => some { g := g, run := r, plan := p, slot := c, prog := q, f := f }
      | _, _ => none

/-- The handler of core `g`, when it runs, waits for nothing, is within its watchdog limit when its next instruction may
begin (R103, R114), and that instruction is the word of opcode `op` with the fields `f`. The cores run in P0 (R40). -/
def State.tsiEnv (s : State) (g op : Nat) (f : TsiFields) : Option Env :=
  match (s.core g).run with
  | none => none
  | some r => match s.runEnv g r f with
    | none => none
    | some e =>
      if s.roe.pstate = .p0 ∧ r.wait = .none ∧ r.issueAt op f ≤ e.prog.limit ∧ e.prog.code[r.pc]? = some (encWord op f) then
        some { e with op := op }
      else none

/-- The handler of a core is over; a FINAL whose WRITEs have all been answered retires its context (R97, R174). -/
def State.overRun (s : State) (g : Nat) : State :=
  match (s.core g).run with
  | none => s
  | some r => let s := s.dropRun g; if r.kind = .final then s.retire g r.ctx else s

/-- END (R97, R182): waits for outstanding fetches, unless the instance has failed or ended; then the status of the
failing fetch issued first is recorded and the handler is over. -/
def State.endRun (s : State) (g : Nat) : State :=
  match (s.core g).run with
  | none => s
  | some r =>
    if r.pendingFetch && !s.instDead g r.ctx then s.setRun g (some (r.pause .endf s.now))
    else
      let s := s.answerFetches g stTimeout
      match ((s.core g).run).bind Run.fetchFail with
      | none => s.overRun g
      | some st => (s.faultAt g r.ctx st).overRun g

/-! ### The effect of an instruction on the state -/

/-- Element flags folded into the flag tile records of the instance (R132). -/
def State.foldFlagsAt (s : State) (e : Env) (fl : List (Nat × Nat)) : State :=
  if fl.isEmpty then s
  else
    let id := e.run.ctx
    let c := s.chunk (clusterOf e.g) id.slot id.chunk
    match c.recOf id.inst with
    | none => s
    | some r => s.setChunk (clusterOf e.g) id.slot id.chunk (c.putRec { r with flags := foldTiles r.flags fl })

/-- A residue failure: the tiles, or every output, are withheld, and the instance has failed (R89, R169, R207). -/
def State.residueFail (s : State) (e : Env) (tiles : List Nat) (all : Bool) : State :=
  if tiles.isEmpty && !all then s
  else
    let id := e.run.ctx
    let c := s.chunk (clusterOf e.g) id.slot id.chunk
    let s := match c.recOf id.inst with
      | none => s
      | some r => s.setChunk (clusterOf e.g) id.slot id.chunk
          (c.putRec { r with withheld := r.withheld ++ tiles.filter fun t => !r.withheld.contains t
                             withAll := r.withAll || all })
    (s.health hResidue 1).faultAt e.g id stResidueFail

/-- A handler that has passed its last instruction ends at END's cost of 1 cycle; one past its limit waits for the watchdog
(R97, R103). -/
def State.fallOff (s : State) (e : Env) : State :=
  match (s.core e.g).run with
  | none => s
  | some r => if e.prog.limit < r.cycles then s else (s.modRun e.g fun r => { r with cycles := r.cycles + 1 }).endRun e.g

/-- How a handler goes on after an instruction of `n` cycles. -/
def State.flow (s : State) (e : Env) (fl : Flow) (n : Nat) : State :=
  let id := e.run.ctx
  let step (pc : Nat) (s : State) : State := s.modRun e.g fun r => { r.issue e.op e.f n with pc := pc }
  let onward (pc : Nat) (s : State) : State :=
    let s := step pc s
    if pc < e.prog.ninst then s else s.fallOff e
  match fl with
  | .next => onward (e.run.pc + 1) s
  | .goto pc => onward pc s
  | .stop st => ((step e.run.pc s).faultAt e.g id st).overRun e.g
  | .note st => (onward (e.run.pc + 1) (s.faultAt e.g id st))
  | .wait w => s.modRun e.g fun r => r.pause w s.now
  | .fin => (step e.run.pc s).endRun e.g

/-- The effect of an instruction applied. -/
def State.applyTsi (s : State) (e : Env) (r : TsiRes) : State :=
  match r.flow with
  | .wait w => s.modRun e.g fun x => x.pause w s.now
  | fl =>
    let c := s.core e.g
    let s := s.setCore e.g { r.core with run := c.run, ctxs := c.ctxs }
    let s := if r.drew then { s with free := s.free + 1 } else s
    let s := (s.sramWrite r.store).foldFlagsAt e r.flags
    let s := s.residueFail e r.bad r.badAll
    s.flow e fl r.cycles

/-- An instruction that changes registers, SRAM and flags. `usesC`: it names descriptor C, and stops with INDEX_FAULT
when that is of KIND NONE (R136). -/
def State.tsi (s : State) (g op : Nat) (f : TsiFields) (usesC : Bool) (eff : Env → Core → State → TsiRes) : State :=
  match s.tsiEnv g op f with
  | none => s
  | some e =>
    if usesC && decide (dKind e.descC = 0) then s.flow e (.stop stIndex) 1
    else s.applyTsi e (eff e (s.core g) s)

/-! ### Emits (R165 to R177) -/

/-- The chunk of a running handler. -/
def Env.cenv (e : Env) : CEnv := ⟨e.plan, e.slot, clusterOf e.g, e.run.ctx.slot, e.run.ctx.chunk⟩

/-- The record of the handler's instance. -/
def State.runRec (s : State) (e : Env) : Option Rec := (s.ch e.cenv).recOf e.run.ctx.inst

/-- The record replaced. -/
def State.putRunRec (s : State) (e : Env) (r : Rec) : State := s.setCh e.cenv ((s.ch e.cenv).putRec r)

/-- A WRITE of a MEMWR output: at beat `b` of the core's stream (R174). It is kept for the digest (R467). -/
def State.memwr (s : State) (e : Env) (d : Nat) (b : Nat) (bs : List Byte) : State :=
  match s.runRec e with
  | none => s
  | some r =>
    let dd := e.desc d
    let t := s.newTag
    let etag := r.etag
    let p := reqPkt mopWrite etag t.1 (dFaddr dd) (64 * b) bs.length bs
    let q : CoreReq := { tag := t.1, desc := d, beat := b, n := cdiv bs.length 64, no := 0, status := none,
                         sentAt := s.now, resends := 0, pkt := p }
    let a := r.asm d
    let off := 64 * (dFaddr dd - dFaddr (e.cenv.desc0 d) + b)
    let s := t.2.putRunRec e (r.putAsm { a with wr := a.wr ++ [(off, bs)] })
    let c := s.core e.g
    match c.ctx e.run.ctx with
    | none => s
    | some x =>
      let s := s.setCore e.g (c.putCtx { x with wrs := x.wrs ++ [q] })
      if isShadow e.run.ctx.slot then s else s.fromCluster (clusterOf e.g) 3 (e.plan.partOf e.run.ctx.slot) p

/-- Bytes written to a positional output (R167): a byte written before is discarded with INDEX_FAULT. -/
def State.posWrite (s : State) (e : Env) (d off : Nat) (bs : List Byte) (n : Nat) : State :=
  match s.runRec e with
  | none => s.flow e .next n
  | some r =>
    let o := (r.asm d).put off bs
    let s := (s.putRunRec e (r.putAsm o.1)).pumpOutputs e.cenv e.run.ctx.inst
    s.flow e (if o.2 then .note stIndex else .next) n

/-- The V registers of EMIT and EMITA as bytes, 64 each. -/
def vBytes (c : Core) (a n : Nat) : List Byte := (List.range n).flatMap fun k => toLE 64 (c.rv (a + k))

/-- Whether an emit must wait for room in the cluster's output assembly (R177). -/
def State.noRoom (s : State) (g : Nat) : Bool := !outRoom s (clusterOf g)

/-- Whether a residue failure withholds a WRITE of `m` elements from element `i` on: every output of the instance is
withheld, or one of their flag tiles is (R89, R128, R169). -/
def State.keptBack (s : State) (e : Env) (i m : Nat) : Bool :=
  match s.runRec e with
  | none => true
  | some r => r.withAll || r.withheld.any fun t => decide (i < 1024 * (t + 1) ∧ 1024 * t < i + m)

/-- EMIT (R165, R174); the element index is an exact sum (DESIGN CHOICE, log entry 15). -/
def State.emitEff (s : State) (e : Env) : State :=
  let c := s.core e.g
  let d := e.descC
  let n := immN e.f
  let w := elemBits (dFmt d)
  let i := (c.rs (sReg e.f.b)).toNat + imm16 e.f
  let b := i * w / 512
  if i * w % 512 ≠ 0 ∨ dLen d < b + n then s.flow e (.stop stIndex) n
  else if dKind d = 4 then
    (if s.keptBack e i (n * 512 / w) then s else s.memwr e e.f.c.toNat b (vBytes c e.f.a.toNat n)).flow e .next n
  else s.posWrite e e.f.c.toNat (64 * b) (vBytes c e.f.a.toNat n) n

/-- EMSC (R166); the element index is an exact sum (DESIGN CHOICE, log entry 15). -/
def State.emscEff (s : State) (e : Env) : State :=
  let c := s.core e.g
  let d := e.descC
  let blk := ((c.rs (sReg e.f.b)).toNat + imm16 e.f) / 32
  if dMxblk d ≤ blk then s.flow e (.stop stIndex) 1
  else s.posWrite e e.f.c.toNat (dMxblk d * 4 * elemBits (dFmt d) + blk) [BitVec.ofNat 8 (c.rs (sReg e.f.a)).toNat] 1

/-- The core's segment of an append output, changed (R170). -/
def State.segment (s : State) (e : Env) (f : AppSeg → AppSeg) : State :=
  match s.runRec e with
  | none => s
  | some r =>
    let d := e.f.c.toNat
    let mine (a : AppSeg) : Bool := decide (a.desc = d ∧ a.g = e.g)
    let old := (r.apps.find? mine).getD { desc := d, g := e.g, s4 := firstElem e.plan e.g e.run.ctx.slot e.run.ctx.chunk }
    s.putRunRec e { r with apps := r.apps.filter (fun a => !mine a) ++ [f old] }

/-- EMITA (R170, R171). -/
def State.emitaEff (s : State) (e : Env) : State :=
  let c := s.core e.g
  let w := elemBits (dFmt e.descC)
  let n := immN e.f
  let k := (c.rs (sReg e.f.b)).toNat
  if e.run.kind ≠ .final then s.flow e (.stop stMeta) n
  else if n * elemsOfV w < k then s.flow e (.stop stIndex) n
  else
    let es := (List.range n).flatMap fun i => elemsAt (c.rv (e.f.a.toNat + i)) w (elemsOfV w)
    (s.segment e fun a => { a with elems := a.elems ++ es.take k }).flow e .next n

/-- XCENC (R131, R170, R171, R174): the 16 lanes encoded, with zero bytes up to a multiple of 64. A lane that disagrees
with its residue withholds every output of the instance (R89). -/
def State.xcencEff (s : State) (e : Env) : State :=
  let c := s.core e.g
  let d := e.descC
  let ls := (List.range 16).map fun k => c.rx (xReg e.f.a) k
  let xs := ls.map xcEnc
  let n := 4 + 2 * (xs.filter fun b => decide (b.length = 48)).length
  let b := xs.flatMap id
  let b := b ++ zeros (roundUp b.length 64 - b.length)
  if dKind d ≠ 4 ∧ e.run.kind ≠ .final then s.flow e (.stop stMeta) n
  else if !ls.all Lane.resOk then (s.residueFail e [] true).flow e .next n
  else if dKind d = 4 then
    let cur := c.wcur.at e.f.c.toNat 0
    let s := if s.keptBack e 0 0 then s else s.memwr e e.f.c.toNat cur b
    let c := s.core e.g
    (s.setCore e.g { c with wcur := c.wcur.put e.f.c.toNat (cur + b.length / 64) }).flow e .next n
  else (s.segment e fun a => { a with groups := a.groups ++ [b] }).flow e .next n

/-- An emit instruction: it waits while the output assembly has no room (R177), and stops where its descriptor is of
KIND NONE. -/
def State.emitOp (s : State) (g op : Nat) (f : TsiFields) (eff : State → Env → State) : State :=
  match s.tsiEnv g op f with
  | none => s
  | some e =>
    if dKind e.descC = 0 then s.flow e (.stop stIndex) 1
    else if s.noRoom g then s.flow e (.wait .room) 0
    else eff s e

/-! ### FETCH and WAITF (R180 to R182) -/

/-- The READs of a FETCH: at most 64 beats each. -/
def fetchParts (n : Nat) : List (Nat × Nat) := if n ≤ 64 then [(0, n)] else [(0, 64), (64, n - 64)]

/-- FETCH (R180). -/
def State.fetchEff (s : State) (e : Env) : State :=
  let c := s.core e.g
  let d := e.descC
  let loc := fld e.f.d 3 0
  let n := fld e.f.imm 6 0
  let a := (c.rs (sReg e.f.a)).toNat
  let b := (c.rs (sReg e.f.b)).toNat
  if dKind d = 0 ∨ dKind (e.desc loc) = 0 ∨ dLen d < a + n ∨ dLen (e.desc loc) < b + n then s.flow e (.stop stIndex) 2
  else if e.fetchHits (e.desc loc) b n then s.flow e (.wait .landing) 0
  else if 8 ≤ e.run.fetchCount then s.flow e (.wait .fetchRoom) 0
  else
    let no := (e.run.fetches.map (·.no)).foldl max 0 + 1
    let etag := (((s.core e.g).ctx e.run.ctx).map (·.etag)).getD 0
    let s := (fetchParts n).foldl (fun s x =>
      let t := s.newTag
      let p := reqPkt mopRead etag t.1 (dFaddr d) (64 * (a + x.1)) (64 * x.2) []
      let q : CoreReq := { tag := t.1, desc := loc, beat := b + x.1, n := x.2, no := no, status := none,
                           sentAt := s.now, resends := 0, pkt := p }
      let s := t.2.modRun e.g fun r => { r with fetches := r.fetches ++ [q] }
      if isShadow e.run.ctx.slot then s
      else s.fromCluster (clusterOf e.g) 3 (e.plan.partOf e.run.ctx.slot) p) s
    s.flow e .next 2

/-- WAITF (R182): waits for every fetch of the handler, and stops with the status of the failing one issued first. -/
def State.waitfEff (s : State) (e : Env) : State :=
  if e.run.pendingFetch && !s.instDead e.g e.run.ctx then s.flow e (.wait .waitf) 1
  else
    let s := s.answerFetches e.g stTimeout
    match ((s.core e.g).run).bind Run.fetchFail with
    | none => s.flow e .next 1
    | some st => s.flow e (.stop st) 1

/-- A wait is over; the cycles of the core's clock that it took count toward the watchdog (R103). -/
def State.waited (s : State) (r : Run) : Run :=
  { r with wait := .none, cycles := r.cycles + (s.now - r.waitAt) * s.coreMHz / 1000 }

/-- A wait of a handler that has just been answered goes on: WAITF and END complete once every fetch is answered, other
waits let their instruction run again (R180 to R182). -/
def State.resumeWait (s : State) (g : Nat) : State :=
  match (s.core g).run with
  | none => s
  | some r =>
    if r.wait = .landing ∨ r.wait = .fetchRoom then s.setRun g (some (s.waited r))
    else if r.wait = .waitf ∧ !r.pendingFetch then
      let r := s.waited r
      let s := s.setRun g (some r)
      match s.runEnv g r { d := 0, a := 0, b := 0, c := 0, fa := 0, fd := 0, rm := 0, rms := 0, msk := 0, imm := 0 } with
      | none => s
      | some e => s.waitfEff e
    else if r.wait = .endf ∧ !r.pendingFetch then (s.setRun g (some (s.waited r))).endRun g
    else s

/-- PCNT (R186). -/
def State.pcntEff (s : State) (e : Env) : State :=
  let k := (e.run.ctx.slot, fld e.f.imm 1 0)
  let s := { s with coll := { s.coll with pcnt := s.coll.pcnt.put k (s.coll.pcnt.at k 0 + (s.core e.g).rs (sReg e.f.a)) } }
  s.flow e .next 1

/-- An instruction of the stream control and status groups that acts on more than registers. -/
def State.ctlOp (s : State) (g op : Nat) (f : TsiFields) (eff : State → Env → State) : State :=
  match s.tsiEnv g op f with
  | none => s
  | some e => eff s e

/-! ### Dispatch of a handler (R94, R99, R100, R102) -/

/-- The register file at the entry of a handler: V, M cleared, S as Table TSI-2, the context's accumulators loaded and
the others cleared, cursors 0. -/
def entryCore (c : Core) (p : Plan) (q : ProgCfg) (g : Nat) (x : Ctx) (sl : Option Slice) : Core :=
  let c1 := if c.resident = some x.id then c else c.parkAll
  let same := decide (c.resident = some x.id)
  let beats := match sl with | none => 0 | some y => cdiv y.data.length 64
  { c1 with
    v := [], m := [], cur := [], wcur := []
    s := [(1, BitVec.ofNat 64 ((sl.map (·.contrib)).getD 0)), (2, BitVec.ofNat 64 x.id.chunk), (3, BitVec.ofNat 64 x.id.inst),
          (4, BitVec.ofNat 64 (firstElem p g x.id.slot x.id.chunk)), (5, BitVec.ofNat 64 beats),
          (6, BitVec.ofNat 64 (p.cidOf x.id.slot))]
    xs := keepLanes q.ctxXs (if same then c.xs else x.xs)
    xp := keepLanes q.ctxXp (if same then c.xp else x.xp)
    resident := some x.id }

/-- A handler dispatched on a core (R96, R99, R102). -/
def State.dispatch (s : State) (g : Nat) (x : Ctx) (p : Plan) (q : ProgCfg) (k : HKind) (pc : Nat) (sl : Option Slice) : State :=
  let c := entryCore (s.core g) p q g x sl
  let s := if (s.core g).resident = some x.id then s else s.parkOut g
  s.setCore g { c with run := some { ctx := x.id, kind := k, pc := pc, cycles := 4, slice := sl, wait := .none, fetches := [] } }

end Sys2Proof.Machine
end

