-- ==== Sys2Proof/Machine/TsiRows.lean ====
section
/-!
DEFINITION. The TSI instructions as commands: the running handler of core `g` executes its next instruction when that
is the word of the row's opcode with the given fields (Tables TSI-8 and TSO-1).
-/
namespace Sys2Proof.Machine

/-- RECV (R117). -/
def execRecv (g : Nat) (f : TsiFields) (s : State) : Out State :=
  onUnit (decide (g < Config.cores)) (s.tsi g 0x01 f true (fun e c _ => recvEff e c))

/-- LDV (R118). -/
def execLdv (g : Nat) (f : TsiFields) (s : State) : Out State :=
  onUnit (decide (g < Config.cores)) (s.tsi g 0x02 f true ldvEff)

/-- STV (R118). -/
def execStv (g : Nat) (f : TsiFields) (s : State) : Out State :=
  onUnit (decide (g < Config.cores)) (s.tsi g 0x03 f true (fun e c _ => stvEff e c))

/-- LDS (R118). -/
def execLds (g : Nat) (f : TsiFields) (s : State) : Out State :=
  onUnit (decide (g < Config.cores)) (s.tsi g 0x04 f true ldsEff)

/-- MOVI (R116). -/
def execMovi (g : Nat) (f : TsiFields) (s : State) : Out State :=
  onUnit (decide (g < Config.cores)) (s.tsi g 0x05 f false (fun e c _ => moviEff e c))

/-- SADDI (R116). -/
def execSaddi (g : Nat) (f : TsiFields) (s : State) : Out State :=
  onUnit (decide (g < Config.cores)) (s.tsi g 0x06 f false (fun e c _ => saddiEff e c))

/-- VMOV (R116). -/
def execVmov (g : Nat) (f : TsiFields) (s : State) : Out State :=
  onUnit (decide (g < Config.cores)) (s.tsi g 0x07 f false (fun e c _ => vmovEff e c))

/-- MOVM (R116). -/
def execMovm (g : Nat) (f : TsiFields) (s : State) : Out State :=
  onUnit (decide (g < Config.cores)) (s.tsi g 0x08 f false (fun e c _ => movmEff e c))

/-- VSPLAT (R119). -/
def execVsplat (g : Nat) (f : TsiFields) (s : State) : Out State :=
  onUnit (decide (g < Config.cores)) (s.tsi g 0x09 f false (fun e c s => vsplatEff (Config.freeWord s.free).toNat e c))

/-- XADD (R120). -/
def execXadd (g : Nat) (f : TsiFields) (s : State) : Out State :=
  onUnit (decide (g < Config.cores)) (s.tsi g 0x10 f false (fun e c _ => xaddEff e c))

/-- XCIN (R121). -/
def execXcin (g : Nat) (f : TsiFields) (s : State) : Out State :=
  onUnit (decide (g < Config.cores)) (s.tsi g 0x11 f true (fun e c _ => xcinEff e c))

/-- XCLR (R116). -/
def execXclr (g : Nat) (f : TsiFields) (s : State) : Out State :=
  onUnit (decide (g < Config.cores)) (s.tsi g 0x12 f false (fun e c _ => xclrEff e c))

/-- XMOV (R122). -/
def execXmov (g : Nat) (f : TsiFields) (s : State) : Out State :=
  onUnit (decide (g < Config.cores)) (s.tsi g 0x13 f false (fun e c _ => xmovEff e c))

/-- XFOLD (R123). -/
def execXfold (g : Nat) (f : TsiFields) (s : State) : Out State :=
  onUnit (decide (g < Config.cores)) (s.tsi g 0x14 f false (fun e c _ => xfoldEff e c))

/-- XPADD (R122). -/
def execXpadd (g : Nat) (f : TsiFields) (s : State) : Out State :=
  onUnit (decide (g < Config.cores)) (s.tsi g 0x15 f false (fun e c _ => xpaddEff e c))

/-- XSSUM (R122). -/
def execXssum (g : Nat) (f : TsiFields) (s : State) : Out State :=
  onUnit (decide (g < Config.cores)) (s.tsi g 0x16 f false (fun e c _ => xssumEff e c))

/-- VBIT (R61). -/
def execVbit (g : Nat) (f : TsiFields) (s : State) : Out State :=
  onUnit (decide (g < Config.cores)) (s.tsi g 0x17 f false (fun e c _ => vbitEff e c))

/-- DOT (R124). -/
def execDot (g : Nat) (f : TsiFields) (s : State) : Out State :=
  onUnit (decide (g < Config.cores)) (s.tsi g 0x20 f false (fun e c _ => dotEff e c))

/-- SSQ (R124). -/
def execSsq (g : Nat) (f : TsiFields) (s : State) : Out State :=
  onUnit (decide (g < Config.cores)) (s.tsi g 0x21 f false (fun e c _ => ssqEff e c))

/-- XPSUM (R122). -/
def execXpsum (g : Nat) (f : TsiFields) (s : State) : Out State :=
  onUnit (decide (g < Config.cores)) (s.tsi g 0x22 f false (fun e c _ => xpsumEff e c))

/-- EXPAND (R126). -/
def execExpand (g : Nat) (f : TsiFields) (s : State) : Out State :=
  onUnit (decide (g < Config.cores)) (s.tsi g 0x23 f false (fun e c _ => expandEff e c))

/-- RND (R127). -/
def execRnd (g : Nat) (f : TsiFields) (s : State) : Out State :=
  onUnit (decide (g < Config.cores)) (s.tsi g 0x30 f true (fun e c _ => rndEff e c))

/-- CVT (R129). -/
def execCvt (g : Nat) (f : TsiFields) (s : State) : Out State :=
  onUnit (decide (g < Config.cores)) (s.tsi g 0x31 f true (fun e c s => cvtEff (Config.freeWord s.free).toNat e c))

/-- MXQ (R130). -/
def execMxq (g : Nat) (f : TsiFields) (s : State) : Out State :=
  onUnit (decide (g < Config.cores)) (s.tsi g 0x32 f true (fun e c _ => mxqEff e c))

/-- VMAX (R133). -/
def execVmax (g : Nat) (f : TsiFields) (s : State) : Out State :=
  onUnit (decide (g < Config.cores)) (s.tsi g 0x40 f false (fun e c _ => vpickEff true e c))

/-- VMIN (R133). -/
def execVmin (g : Nat) (f : TsiFields) (s : State) : Out State :=
  onUnit (decide (g < Config.cores)) (s.tsi g 0x41 f false (fun e c _ => vpickEff false e c))

/-- HMAX (R134). -/
def execHmax (g : Nat) (f : TsiFields) (s : State) : Out State :=
  onUnit (decide (g < Config.cores)) (s.tsi g 0x42 f false (fun e c _ => hpickEff true e c))

/-- HMIN (R134). -/
def execHmin (g : Nat) (f : TsiFields) (s : State) : Out State :=
  onUnit (decide (g < Config.cores)) (s.tsi g 0x43 f false (fun e c _ => hpickEff false e c))

/-- VFLAG (R135). -/
def execVflag (g : Nat) (f : TsiFields) (s : State) : Out State :=
  onUnit (decide (g < Config.cores)) (s.tsi g 0x44 f true (fun e c _ => vflagEff e c))

/-- VCMP (R141). -/
def execVcmp (g : Nat) (f : TsiFields) (s : State) : Out State :=
  onUnit (decide (g < Config.cores)) (s.tsi g 0x50 f false (fun e c _ => vcmpEff e c))

/-- VCMPS (R143). -/
def execVcmps (g : Nat) (f : TsiFields) (s : State) : Out State :=
  onUnit (decide (g < Config.cores)) (s.tsi g 0x51 f false (fun e c _ => vcmpsEff e c))

/-- MLOG (R138). -/
def execMlog (g : Nat) (f : TsiFields) (s : State) : Out State :=
  onUnit (decide (g < Config.cores)) (s.tsi g 0x52 f false (fun e c _ => mlogEff e c))

/-- MPOP (R144). -/
def execMpop (g : Nat) (f : TsiFields) (s : State) : Out State :=
  onUnit (decide (g < Config.cores)) (s.tsi g 0x53 f false (fun e c _ => mpopEff e c))

/-- FILT (R145). -/
def execFilt (g : Nat) (f : TsiFields) (s : State) : Out State :=
  onUnit (decide (g < Config.cores)) (s.tsi g 0x54 f false (fun e c _ => filtEff e c))

/-- FIDX (R145). -/
def execFidx (g : Nat) (f : TsiFields) (s : State) : Out State :=
  onUnit (decide (g < Config.cores)) (s.tsi g 0x55 f false (fun e c _ => fidxEff e c))

/-- VSEL (R146). -/
def execVsel (g : Nat) (f : TsiFields) (s : State) : Out State :=
  onUnit (decide (g < Config.cores)) (s.tsi g 0x56 f false (fun e c _ => vselEff e c))

/-- MKREC (R148). -/
def execMkrec (g : Nat) (f : TsiFields) (s : State) : Out State :=
  onUnit (decide (g < Config.cores)) (s.tsi g 0x60 f false (fun e c _ => mkrecEff e c))

/-- RINIT (R149). -/
def execRinit (g : Nat) (f : TsiFields) (s : State) : Out State :=
  onUnit (decide (g < Config.cores)) (s.tsi g 0x61 f false (fun e c _ => rinitEff e c))

/-- SORT (R152). -/
def execSort (g : Nat) (f : TsiFields) (s : State) : Out State :=
  onUnit (decide (g < Config.cores)) (s.tsi g 0x62 f false (fun e c _ => sortEff e c))

/-- MERGE (R153). -/
def execMerge (g : Nat) (f : TsiFields) (s : State) : Out State :=
  onUnit (decide (g < Config.cores)) (s.tsi g 0x63 f false (fun e c _ => mergeEff e c))

/-- TOPK (R154). -/
def execTopk (g : Nat) (f : TsiFields) (s : State) : Out State :=
  onUnit (decide (g < Config.cores)) (s.tsi g 0x64 f false (fun e c _ => topkEff e c))

/-- UNREC (R155). -/
def execUnrec (g : Nat) (f : TsiFields) (s : State) : Out State :=
  onUnit (decide (g < Config.cores)) (s.tsi g 0x65 f false (fun e c _ => unrecEff e c))

/-- GATH (R156). -/
def execGath (g : Nat) (f : TsiFields) (s : State) : Out State :=
  onUnit (decide (g < Config.cores)) (s.tsi g 0x70 f true gathEff)

/-- SCAT (R157). -/
def execScat (g : Nat) (f : TsiFields) (s : State) : Out State :=
  onUnit (decide (g < Config.cores)) (s.tsi g 0x71 f true (fun e c _ => scatEff e c))

/-- KSEL (R159). -/
def execKsel (g : Nat) (f : TsiFields) (s : State) : Out State :=
  onUnit (decide (g < Config.cores)) (s.tsi g 0x72 f true kselEff)

/-- BR (R178). -/
def execBr (g : Nat) (f : TsiFields) (s : State) : Out State :=
  onUnit (decide (g < Config.cores)) (s.tsi g 0xE1 f false (fun e c _ => brEff e c))

/-- BZ (R178). -/
def execBz (g : Nat) (f : TsiFields) (s : State) : Out State :=
  onUnit (decide (g < Config.cores)) (s.tsi g 0xE2 f false (fun e c _ => bzEff e c))

/-- BM (R178). -/
def execBm (g : Nat) (f : TsiFields) (s : State) : Out State :=
  onUnit (decide (g < Config.cores)) (s.tsi g 0xE3 f false (fun e c _ => bmEff e c))

/-- LOOP (R178). -/
def execLoop (g : Nat) (f : TsiFields) (s : State) : Out State :=
  onUnit (decide (g < Config.cores)) (s.tsi g 0xE4 f false (fun e c _ => loopEff e c))

/-- SCALC (R179). -/
def execScalc (g : Nat) (f : TsiFields) (s : State) : Out State :=
  onUnit (decide (g < Config.cores)) (s.tsi g 0xE5 f false (fun e c _ => scalcEff e c))

/-- SKIP (R183). -/
def execSkip (g : Nat) (f : TsiFields) (s : State) : Out State :=
  onUnit (decide (g < Config.cores)) (s.tsi g 0xE8 f true (fun e c _ => skipEff e c))

/-- STAT (R184). -/
def execStat (g : Nat) (f : TsiFields) (s : State) : Out State :=
  onUnit (decide (g < Config.cores)) (s.tsi g 0xF0 f false (fun e c _ => statEff e c))

/-- RAISE (R185). -/
def execRaise (g : Nat) (f : TsiFields) (s : State) : Out State :=
  onUnit (decide (g < Config.cores)) (s.tsi g 0xF1 f false (fun e c _ => raiseEff e c))

/-- EMIT (R165, R174). -/
def execEmit (g : Nat) (f : TsiFields) (s : State) : Out State :=
  onUnit (decide (g < Config.cores)) (s.emitOp g 0x80 f State.emitEff)

/-- EMITA (R170). -/
def execEmita (g : Nat) (f : TsiFields) (s : State) : Out State :=
  onUnit (decide (g < Config.cores)) (s.emitOp g 0x81 f State.emitaEff)

/-- EMSC (R166). -/
def execEmsc (g : Nat) (f : TsiFields) (s : State) : Out State :=
  onUnit (decide (g < Config.cores)) (s.emitOp g 0x82 f State.emscEff)

/-- XCENC (R131, R170, R174). -/
def execXcenc (g : Nat) (f : TsiFields) (s : State) : Out State :=
  onUnit (decide (g < Config.cores)) (s.emitOp g 0x33 f State.xcencEff)

/-- END (R97, R182). -/
def execEndHandler (g : Nat) (f : TsiFields) (s : State) : Out State :=
  onUnit (decide (g < Config.cores)) (s.ctlOp g 0xE0 f (fun s e => s.flow e .fin 1))

/-- FETCH (R180). -/
def execFetch (g : Nat) (f : TsiFields) (s : State) : Out State :=
  onUnit (decide (g < Config.cores)) (s.ctlOp g 0xE6 f State.fetchEff)

/-- WAITF (R182). -/
def execWaitf (g : Nat) (f : TsiFields) (s : State) : Out State :=
  onUnit (decide (g < Config.cores)) (s.ctlOp g 0xE7 f State.waitfEff)

/-- PCNT (R186). -/
def execPcnt (g : Nat) (f : TsiFields) (s : State) : Out State :=
  onUnit (decide (g < Config.cores)) (s.ctlOp g 0xF2 f State.pcntEff)

/-- The fields of an instruction word (Table TSI-6). -/
def wordFields (w : Word) : TsiFields :=
  { d := w.extractLsb' 51 5, a := w.extractLsb' 46 5, b := w.extractLsb' 41 5, c := w.extractLsb' 37 4,
    fa := w.extractLsb' 33 4, fd := w.extractLsb' 29 4, rm := w.extractLsb' 26 3, rms := w.extractLsb' 25 1,
    msk := w.extractLsb' 22 3, imm := w.extractLsb' 0 22 }

/-- OUTPUT_ROOM_RESUME (R177): packets that wait for room are placed as it allows; a handler that waited for room runs
its emit instruction once the output assembly of its cluster has room. -/
def execOutputRoomResume (g t : Nat) (s : State) : Out State :=
  let s := s.tick t
  onUnit (decide (g < Config.cores)) (
    let s := drainWait s
    match (s.core g).run with
    | none => s
    | some r =>
      if r.wait = .room ∧ s.noRoom g = false then
        let s := s.setRun g (some { r with wait := .none })
        let f := wordFields 0
        match s.runEnv g r f with
        | none => s
        | some e =>
          let w := (e.prog.code[r.pc]?).getD 0
          let f := wordFields w
          let op := fld w 63 56
          if op = 0x80 then s.emitOp g 0x80 f State.emitEff
          else if op = 0x81 then s.emitOp g 0x81 f State.emitaEff
          else if op = 0x82 then s.emitOp g 0x82 f State.emscEff
          else if op = 0x33 then s.emitOp g 0x33 f State.xcencEff
          else s
      else s)

end Sys2Proof.Machine
end

