-- ==== Sys2Proof/Machine/PlanProg.lean ====
section
/-!
DEFINITION. What PLAN_STAGE asks of programs and descriptors (R106, R108, R113, R140, R164, R545).
-/
namespace Sys2Proof.Machine

/-! ### Format lists of Tables TSI-8 and TSO-1 -/

/-- FP32, BF16, FP16, E4M3, E5M2. -/
def fltFmts : List Nat := [0, 1, 2, 3, 4]
/-- FP32, BF16, FP16, E4M3, E5M2, INT8, INT32. -/
def accFmts : List Nat := [0, 1, 2, 3, 4, 7, 10]
/-- E4M3, E5M2, E3M2, E2M1, INT8, INT4, U4. -/
def expFmts : List Nat := [3, 4, 5, 6, 7, 8, 9]
/-- FP32, BF16, FP16, E4M3, E5M2, E3M2, E2M1, INT8, INT4, INT32. -/
def rndFmts : List Nat := [0, 1, 2, 3, 4, 5, 6, 7, 8, 10]
/-- MXFP8, MXFP6, MXFP4. -/
def mxFmts : List Nat := [0xB, 0xC, 0xD]

/-- Whether a descriptor's KIND suits an instruction; NONE is a run-time fault (Tables TSI-4, TSI-9). -/
def suits (d : BitVec 128) (kinds : List Nat) : Bool := decide (dKind d = 0) || kinds.contains (dKind d)

/-- KINDs of an output descriptor as RND, CVT, MXQ and VFLAG name it (R108). -/
def outKinds : List Nat := [2, 4, 5, 6]

/-- A record group of r registers (R139). -/
def groupOk (d r : Nat) : Bool := decide (d % 4 = 0 ∧ d + r ≤ 32)

/-- V registers of a group of 32 elements (Table TSI-7). -/
def vGroup (w : Nat) : Nat := if w = 32 then 2 else 1

/-- The rounding mode that an instruction names is none of the reserved codes (R108). -/
def rmOk (f : TsiFields) (c : BitVec 128) : Bool :=
  if f.rms = 1 then decide (dRmode c ≤ 4) else decide (f.rm.toNat ≤ 4)

/-- RND or CVT sets WRAP only with an integer FD (R108). -/
def wrapOk (f : TsiFields) : Bool := !(bit f.imm.toNat 17) || decide (intBits f.fd.toNat ≠ 0)

/-- The arithmetic instructions of Table TSI-8 against R108 and R113; `desc` gives the descriptors of the core. VSPLAT takes
the element formats of the MX codes too (DESIGN CHOICE, log entry 12). -/
def arithOk (desc : Nat → BitVec 128) (op : Nat) (f : TsiFields) : Option Bool :=
  let c := desc f.c.toNat
  let fa := f.fa.toNat
  let fd := f.fd.toNat
  match op with
  | 0x01 => some (suits c [1])
  | 0x02 => some (suits c [2])
  | 0x03 => some (suits c [2])
  | 0x04 => some (suits c [2, 1])
  | 0x05 => some true
  | 0x06 => some true
  | 0x07 => some true
  | 0x08 => some true
  | 0x09 => some (decide (elemBits fa ≠ 0))
  | 0x10 => some (accFmts.contains fa && decide (xReg f.d % groupOfV (elemBits fa) = 0))
  | 0x11 => some (decide (dKind c = 0) || decide (dKind c = 1 ∧ dFmt c = 0xE))
  | 0x12 => some true
  | 0x13 => some true
  | 0x14 => some true
  | 0x15 => some true
  | 0x16 => some true
  | 0x17 => some ((decide (fa = 7) || decide (fa = 10)) && decide (fld f.imm 1 0 ≠ 3))
  | 0x20 => some (fltFmts.contains fa)
  | 0x21 => some (fltFmts.contains fa)
  | 0x22 => some true
  | 0x23 => some (expFmts.contains fa && decide (f.d.toNat % 2 = 0))
  | 0x30 =>
    let g := groupOfV (elemBits fd)
    some (rndFmts.contains fd && rmOk f c && wrapOk f && suits c outKinds &&
      decide ((if bit f.imm.toNat 16 then pReg f.a else xReg f.a) % g = 0))
  | 0x31 => some (rndFmts.contains fa && rndFmts.contains fd && rmOk f c && wrapOk f && suits c outKinds &&
      decide (f.a.toNat % vGroup (elemBits fa) = 0) && decide (f.d.toNat % vGroup (elemBits fd) = 0))
  | 0x32 => some ([0, 1, 0xE].contains fa && mxFmts.contains fd && rmOk f c && suits c outKinds &&
      decide ((if fa = 0xE then xReg f.a % 2 else f.a.toNat % vGroup (elemBits fa)) = 0))
  | 0x33 => some (suits c [4, 5, 6] && (!decide (dKind c = 5 ∨ dKind c = 6) || (dAppend c && decide (dFmt c = 0xE))))
  | 0x40 => some (accFmts.contains fa)
  | 0x41 => some (accFmts.contains fa)
  | 0x42 => some (accFmts.contains fa)
  | 0x43 => some (accFmts.contains fa)
  | 0x44 => some (accFmts.contains fa && suits c outKinds)
  | _ => none

/-- The other instructions of Table TSO-1 against R108, R139 and R140. -/
def orderOk (desc : Nat → BitVec 128) (ninst op : Nat) (f : TsiFields) : Option Bool :=
  let c := desc f.c.toNat
  let fa := f.fa.toNat
  let acc := accFmts.contains fa
  let w := elemBits fa
  let target := decide (fld f.imm 10 0 < ninst)
  match op with
  | 0x50 => some (acc && decide (fld f.imm 2 0 < 6))
  | 0x51 => some (acc && decide (fld f.imm 2 0 < 6))
  | 0x52 => some true
  | 0x53 => some acc
  | 0x54 => some acc
  | 0x55 => some (acc && decide (f.d.toNat % (if w = 8 then 4 else 2) = 0))
  | 0x56 => some acc
  | 0x60 => some (acc && groupOk f.d.toNat 4 &&
      (if w = 32 then decide (fld f.imm 1 0 = 0) else if w = 16 then decide (fld f.imm 1 0 < 2) else true))
  | 0x61 => some (groupOk f.d.toNat (immR f))
  | 0x62 => some (acc && groupOk f.d.toNat (immR f))
  | 0x63 => some (acc && groupOk f.d.toNat (immR f) && groupOk f.a.toNat (immR f) && groupOk f.b.toNat (immR f))
  | 0x64 => some (acc && groupOk f.d.toNat (immR f) && groupOk f.a.toNat (immR f))
  | 0x65 => some (acc && decide (f.d.toNat % 2 = 0) && groupOk f.a.toNat 4)
  | 0x70 => some (acc && suits c [2, 1])
  | 0x71 => some (acc && suits c [2])
  | 0x72 => some (acc && suits c [2] && decide (sReg f.d % 2 = 0 ∧ sReg f.d ≠ 14))
  | 0x80 => some (suits c [4, 5, 6] && decide (dFmt c ≠ 0xE))
  | 0x81 => some (suits c [5, 6] && dAppend c && decide (dFmt c ≠ 0xE))
  | 0x82 => some (suits c [5, 6] && mxFmts.contains (dFmt c))
  | 0xE0 => some true
  | 0xE1 => some target
  | 0xE2 => some target
  | 0xE3 => some target
  | 0xE4 => some target
  | 0xE5 => some (decide (fld f.imm 19 16 < 8))
  | 0xE6 => some (suits c [3] && suits (desc (fld f.d 3 0)) [2] && decide (fld f.imm 6 0 ≠ 0))
  | 0xE7 => some true
  | 0xE8 => some (suits c [1])
  | 0xF0 => some true
  | 0xF1 => some ([0x10, 0x11, 0x12].contains (fld f.imm 7 0))
  | 0xF2 => some true
  | _ => none

/-- One instruction word passes R108 and R140; `s4` are the first owned elements of the core's chunks. -/
def wordOk (desc : Nat → BitVec 128) (ninst : Nat) (s4 : List Nat) (w : Word) : Bool :=
  let op := fld w 63 56
  let f := wordFields w
  let c := desc f.c.toNat
  ((if op < 0x50 then arithOk desc op f else orderOk desc ninst op f).getD false) &&
    !(decide (op = 0x33 ∧ (dKind c = 5 ∨ dKind c = 6)) && dAppend c && s4.any fun x => decide (x % 16 ≠ 0))

/-- The program header passes R108. -/
def ProgCfg.headOk (r : ProgCfg) : Bool :=
  let n := r.ninst
  decide (1 ≤ n ∧ n ≤ 1024 ∧ n ≤ r.code.length ∧ r.slice < n ∧ r.final < n) && (r.init.all fun x => decide (x < n)) &&
    decide (1 ≤ r.ctxCount ∧ r.ctxCount ≤ 6)

/-- The context area of a program: first byte and the byte after the last. -/
def ProgCfg.area (r : ProgCfg) : Nat × Nat :=
  let lo := 64 * r.ctxBase
  (lo, lo + r.ctxCount * (1024 * popcount 8 r.ctxXs + 1536 * popcount 4 r.ctxXp))

/-- Two byte ranges share a byte. -/
def rangesMeet (a b : Nat × Nat) : Bool := decide (a.1 < b.2 ∧ b.1 < a.2 ∧ a.1 < a.2 ∧ b.1 < b.2)

/-- The LOCAL regions of a core: byte ranges of data SRAM. -/
def Plan.locals (p : Plan) (cl k : Nat) : List (Nat × Nat) :=
  (p.streams.filter fun r =>
    decide (r.cluster = cl ∧ dKind r.desc = 2 ∧ heCore0 r.head ≤ k ∧ k < heCore0 r.head + heNcore r.head)).map fun r =>
      let a := dAddr r.desc + (k - heCore0 r.head) * heAstep r.head * 64
      (a, a + 64 * dLen r.desc)

/-- The context areas of the programs of a core. -/
def Plan.areas (p : Plan) (cl k : Nat) : List (Nat × Nat) :=
  (p.progs.filter fun r => decide (r.cluster = cl ∧ heCore0 r.head ≤ k ∧ k < heCore0 r.head + heNcore r.head)).map ProgCfg.area

/-- First owned elements of a core in the OWNER entries of a slot (S4 of Table TSI-2). -/
def Plan.firstElems (p : Plan) (cl slot k : Nat) : List Nat :=
  (p.owners.filter fun o =>
    decide (o.1 = cl ∧ owSlot o.2 = slot ∧ owCore0 o.2 ≤ k ∧ k < owCore0 o.2 + owNcore o.2)).map fun o =>
      (k - owCore0 o.2) * owEpc o.2

/-- Cores of a core assignment exist, and a Pronk slot names cores 120 to 127 alone, another slot none of them
(R19, R108, R545). -/
def assignOk (slot : Option SlotCfg) (core0 ncore : Nat) : Bool :=
  decide (1 ≤ ncore ∧ core0 + ncore ≤ 128) &&
  (match slot with
   | none => true
   | some c => if c.isPronk then decide (120 ≤ core0) else decide (core0 + ncore ≤ 120))

/-- A program's words on one core of its PROGRAM entry. -/
def Plan.progOk (p : Plan) (r : ProgCfg) (k : Nat) : Bool :=
  let slot := heSlot r.head
  let desc (n : Nat) : BitVec 128 := p.stream r.cluster slot k n
  (r.code.take r.ninst).all (wordOk desc r.ninst (p.firstElems r.cluster slot k))

/-- Whether a slot takes no program (R108, R229, R250). -/
def SlotCfg.noProgram (c : SlotCfg) : Bool := c.isSparse || c.fused || c.tbarrier

/-- A PROGRAM record passes R108 and R140. -/
def Plan.programOk (p : Plan) (r : ProgCfg) : Bool :=
  let cfg := p.slots.find? fun c => decide (c.num = heSlot r.head)
  let a := r.area
  r.headOk && assignOk cfg (heCore0 r.head) (heNcore r.head) && decide (a.2 ≤ Config.sramBytes) &&
    (match cfg with | none => true | some c => !c.noProgram) &&
    (List.range (heNcore r.head)).all fun j =>
      let k := heCore0 r.head + j
      p.progOk r k && !((p.locals r.cluster k).any (rangesMeet a)) &&
        decide (((p.areas r.cluster k).filter (rangesMeet a)).length ≤ 1)

/-- A STREAM entry passes R14, R106, R108 and R545; a LOCAL region lies in data SRAM. A LEN of 0 is staged, a reserved RMODE
is not, whatever uses the descriptor (DESIGN CHOICE, log entry 20). -/
def Plan.streamOk (p : Plan) (r : StreamCfg) : Bool :=
  let cfg := p.slots.find? fun c => decide (c.num = heSlot r.head)
  let k := dKind r.desc
  assignOk cfg (heCore0 r.head) (heNcore r.head) && decide (k ≤ 6) && decide (dFmt r.desc ≠ 0xF) &&
    (decide (k = 0) || decide (dRmode r.desc ≤ 4)) &&
    (decide (heAstep r.head = 0) || decide (k = 2 ∨ k = 3 ∨ k = 4)) &&
    (!decide (k = 2) || decide (dAddr r.desc % 64 = 0 ∧
      dAddr r.desc + ((heNcore r.head - 1) * heAstep r.head + dLen r.desc) * 64 ≤ Config.sramBytes))

/-- A descriptor that writes a result packet: OUTUNI or OUTMC. -/
def isOut (d : BitVec 128) : Bool := decide (dKind d = 5 ∨ dKind d = 6)

/-- The cores of one chunk have the same descriptor of every number under which one of them has an output (R164). -/
def Plan.outsAgree (p : Plan) (o : Nat × BitVec 128) : Bool :=
  (List.range 16).all fun n =>
    let ds := (List.range (owNcore o.2)).map fun j => p.stream o.1 (owSlot o.2) (owCore0 o.2 + j) n
    !ds.any isOut || decide (ds.eraseDups.length = 1)

/-- The MEMRD and MEMWR descriptors of one number of a slot agree over its cores: FADDR differs by the steps of ASTEP
alone (R164, R545; log entry 20). -/
def Plan.streamAgrees (p : Plan) (r : StreamCfg) : Bool :=
  let mem (d : BitVec 128) : Bool := decide (dKind d = 3 ∨ dKind d = 4)
  p.streams.all fun x =>
    !(decide (heSlot x.head = heSlot r.head ∧ heDesc x.head = heDesc r.head) && mem r.desc && mem x.desc) ||
      decide (x.desc = r.desc)

end Sys2Proof.Machine
end

