-- ==== Sys2Proof/Machine/PlanCheck.lean ====
section
/-!
DEFINITION. The checks of PLAN_STAGE in the order of R547: header, structure, digest, the section rules of every chapter
(META_FAULT), and the resource rules (DENIED).
-/
namespace Sys2Proof.Machine

/-- A check of PLAN_STAGE: whether it fails, and the section and entry offset that the COMPLETION names (Table MGT-8). -/
structure Chk where
  bad : Bool
  ty : Nat
  idx : Nat := 0
  off : Nat := 0

/-- A failed stage: status and DETAIL (Table MGT-8). -/
structure StageErr where
  status : Nat
  entry : Nat
  off : Nat
  deriving DecidableEq, Repr

/-- DETAIL of a PLAN_STAGE failure: directory entry and byte offset within the image. -/
def StageErr.detail (e : StageErr) : Nat := e.entry % 65536 + e.off <<< 16

/-- The first check that fails, with its place in the image; the header's place when the image lacks the section (log
entry 20). -/
def firstBad (ss : List Sect) (status : Nat) (cs : List Chk) : Option StageErr :=
  (cs.find? (·.bad)).map fun c =>
    match ss.find? fun x => decide (x.ty = c.ty ∧ x.idx = c.idx) with
    | none => { status := status, entry := 0, off := 0 }
    | some x => { status := status, entry := x.j, off := x.off + c.off }

/-- The up-links of a role map (Table RTE-4). -/
def uplinks (rmap : Nat) : Nat := 144 - aports rmap

/-! ### The section rules: META_FAULT -/

/-- Target entries of a table: INVALID, or the ACT the table allows, and a PORT's VAL at most 143 (R381). -/
def targetsOk (act : Nat) (es : List (BitVec 16)) : Bool :=
  es.all fun e => decide (fld e 1 0 = 0) || (decide (fld e 1 0 = act) && (decide (act = 2) || decide (fld e 9 2 ≤ 143)))

/-- The ROLE is one that the RMAP allows (R371). -/
def roleOk (role rmap : Nat) : Bool :=
  if rmap = 0 then decide (role ≠ 2) else if rmap = 3 then decide (role ≠ 3) else decide (role = 0 ∨ role = 3)

/-- The link entry of an endpoint link: PARTMASK holds OWNPART alone and POOLMAP maps it to pool 0 (R397). -/
def endpointOk (e : BitVec 512) : Bool := decide (fld e 63 0 = 2 ^ leOwn e) && decide (lePool e (leOwn e) = some 0)

/-- EROLE of a neighbour entry (Table RTE-12). -/
def neRole (e : BitVec 128) : Nat := fld e 39 32

/-- The route set (R371, R374, R380, R381, R397, R617, Tables RTE-6 and RTE-14); the plan's own splits say which indices
name a link. -/
def routeChecks (p : Plan) : List Chk :=
  let r := p.route
  let up := uplinks r.rmap
  let links := (List.range 580).filter (namesUnder p.split)
  [ { bad := !roleOk r.role r.rmap, ty := 0x01 },
    { bad := decide (64 < fld r.hdr 78 72), ty := 0x01 },
    { bad := !(targetsOk 2 r.lt && targetsOk 2 r.st && targetsOk 2 r.ct && targetsOk 2 r.ut && targetsOk 1 r.kt &&
        targetsOk 1 r.dt), ty := 0x01 },
    { bad := r.sets.any fun m => decide (2 ^ up ≤ fld m 31 0), ty := 0x01 },
    { bad := r.vars.any fun v => v.reps.any fun x => decide (2 ^ up ≤ x.2), ty := 0x01 },
    { bad := links.any fun l => r.endpointLink l && !endpointOk (r.linkEnt l), ty := 0x01 },
    { bad := links.any fun l =>
        let e := neRole (r.nbr l)
        decide (e ≠ 0xFF) && (if r.endpointLink l then !decide (8 ≤ e ∧ e ≤ 10) else decide (3 < e)), ty := 0x01 },
    { bad := (List.range up).any fun u => decide (p.split.at (aports r.rmap + u) 0 ≠ 0), ty := 0x01 },
    { bad := decide (r.role = 1) && (List.range 4).any fun d => decide (neRole (r.nbr (576 + d)) ≠ 0xFF), ty := 0x01 } ]

/-- A time link: a link of the switch that is no endpoint link. -/
def timeLinkOk (p : Plan) (l : Nat) : Bool := decide (l = 0x3FF) || (namesUnder p.split l && !p.route.endpointLink l)

/-- The time entry (R449). -/
def timeChecks (p : Plan) : List Chk :=
  let e := p.time
  let gm := bit e.toNat 0
  let src := bit e.toNat 1
  let a := fld e 17 8
  let b := fld e 27 18
  [ { bad := if gm then decide (a ≠ 0x3FF ∨ b ≠ 0x3FF) else decide (a = 0x3FF) || src, ty := 0x0C },
    { bad := src && decide (fld e 6 2 = cPlane p.route.self), ty := 0x0C },
    { bad := !timeLinkOk p a || !timeLinkOk p b || (decide (a ≠ 0x3FF) && decide (a = b)), ty := 0x0C } ]

/-- OPER and FIN of an operation (R189, Table COL-2). -/
def operOk (c : SlotCfg) : Bool :=
  if 2 < c.op then true
  else if c.oper = 0 then accFmts.contains c.fin || decide (c.fin = 0xE)
  else if c.oper ≤ 2 then accFmts.contains c.fin
  else if c.oper ≤ 5 then decide (c.fin = 7 ∨ c.fin = 0xA)
  else false

/-- SPLIT suits OP (R195). -/
def splitOk (c : SlotCfg) : Bool :=
  let pos := if c.fin = 0xE then 1 else 0
  if c.op ≤ 5 then decide (c.split = pos)
  else if c.op ≤ 7 then decide (c.split = 2)
  else if c.op = 8 then decide (c.split = 3)
  else decide (c.split = pos ∨ c.split = 2)

/-- Elements that a core owns of a chunk at most, over the OWNER entries of a slot (R545). -/
def Plan.mostElems (p : Plan) (c : SlotCfg) : Nat :=
  (p.owners.filter fun o => decide (owSlot o.2 = c.num)).foldl (fun m o => max m (min (owEpc o.2) c.elems)) 0

/-- Two chunks of one fused set have the same owner cluster (R229). -/
def Plan.setShares (p : Plan) (c : SlotCfg) : Bool :=
  (List.range (c.nchunk / c.k)).any fun i =>
    let cs := (List.range c.k).map fun j => p.ownerOf c.num (c.k * i + j)
    !decide (cs.eraseDups.length = cs.length)

/-- The chunks of a slot that an OWNER entry gives its cluster; those past NCHUNK do not exist. -/
def ownChunks (c : SlotCfg) (o : BitVec 128) : Nat := min (owLast o + 1) c.nchunk - owFirst o

/-- The residual area of a FUSED slot on a core: EPC values of RFMT for each chunk that the OWNER entries of its cluster
give it (R229, R237, log entry 20). -/
def Plan.residArea (p : Plan) (c : SlotCfg) (cl k : Nat) : Nat × Nat :=
  let lo := 64 * c.rbase
  let os := p.owners.filter fun o => decide (o.1 = cl ∧ owSlot o.2 = c.num ∧ owCore0 o.2 ≤ k ∧ k < owCore0 o.2 + owNcore o.2)
  (lo, lo + os.foldl (fun n o => n + ownChunks c o.2 * min (owEpc o.2) c.pelem * (if c.rfmt = 0 then 4 else 2)) 0)

/-- A residual area extends beyond data SRAM or meets a context area or a LOCAL region (R229). -/
def Plan.residBad (p : Plan) (c : SlotCfg) : Bool :=
  (p.owners.filter fun o => decide (owSlot o.2 = c.num)).any fun o =>
    (List.range (owNcore o.2)).any fun j =>
      let k := owCore0 o.2 + j
      let a := p.residArea c o.1 k
      decide (Config.sramBytes < a.2) || ((p.areas o.1 k) ++ (p.locals o.1 k)).any (rangesMeet a)

/-- The Pronk extension (R227, R229). -/
def pronkChecks (p : Plan) (c : SlotCfg) : List Bool :=
  if !c.isPronk then [c.pronk.isSome]
  else
    [ c.pronk.isNone, decide (c.pmode = 3), decide (c.rfmt = 0xF),
      c.fused && decide (1 < c.rfmt),
      decide (c.pelem ≠ 0) && decide (c.pelem % 32 ≠ 0 ∨ 1024 < c.pelem),
      decide (c.pelem ≠ 0) && decide (c.chunk4k ≠ 1 ∨ 2048 < c.contribLen),
      c.direct && !(decide (c.op ≤ 2) && decide (c.oper = 0)),
      c.direct && decide (128 < p.mostElems c),
      c.res && !c.fused,
      c.tbarrier && decide (c.op ≠ 5),
      c.fused && !(decide (c.op = 0 ∧ c.oper = 0 ∧ c.fout = 0xB ∧ c.role = 0 ∧ c.pelem ≠ 0) &&
        (decide (c.fin = 0) || decide (c.fin = 1) || decide (c.fin = 2)) && c.direct && decide (c.nchunk % c.k = 0)),
      c.fused && p.setShares c,
      c.fused && p.residBad c ]

/-- The sparse extension and its core assignment (R249 to R251, R545). -/
def sparseChecks (p : Plan) (c : SlotCfg) : List Bool :=
  if !c.isSparse then [c.sparse.isSome]
  else
    let fpIn := decide (c.fin ≤ 4) || decide (c.fin = 0xE)
    let twlog := fld c.sx 3 0
    [ c.sparse.isNone, c.isPronk, decide (c.oper ≠ 0),
      !(accFmts.contains c.fin || decide (c.fin = 0xE)),
      decide (c.fin = 0xE ∧ c.role = 2),
      if fpIn then decide (4 < c.fout) else !decide (c.fout = 7 ∨ c.fout = 0xA),
      decide (twlog < 4 ∨ 9 < twlog), decide (0x12 < c.thr),
      (p.owners.filter fun o => decide (owSlot o.2 = c.num)).any fun o =>
        decide (owCore0 o.2 % c.nc ≠ 0 ∨ owNcore o.2 < c.nc ∨ owNcore o.2 % c.nc ≠ 0) ]

/-- Flag tile records of a chunk and tile fault records: R of R176. -/
def SlotCfg.flagRecs (c : SlotCfg) : Nat := cdiv c.elems 1024 + (if c.isSparse then c.nt else 0)

/-- A flag area offset outside its die's range, or an area past its end (R176). -/
def flagBad (c : SlotCfg) (d off : Nat) : Bool :=
  decide (off ≠ 0) && !decide (Config.dieGranules * d ≤ off ∧
    64 * off + 16 * c.flagRecs * c.nchunk ≤ 64 * (Config.dieGranules * (d + 1) - Config.internalGranules) ∧
    off < Config.dieGranules * (d + 1) - Config.internalGranules)

/-- The slot descriptor of one slot (R14, R188, R189, R193 to R195). -/
def slotBad (c : SlotCfg) : Bool :=
  decide (9 < c.op) || decide (5 < c.oper) || decide (c.fin = 0xF) || decide (c.fout = 0xF) || decide (4 < c.rmode) ||
  decide (c.role = 3) || !operOk c || !splitOk c || decide (144 < c.g) || decide (c.chunk4k = 0 ∨ 256 < c.chunk4k) ||
  decide (c.recq = 0) || decide (144 < c.rcount) || decide (c.op = 4 ∧ c.g ≠ 1) ||
  decide (c.maxis = 3) ||
  (decide (c.op = 3) && (decide (c.contribLen % 64 ≠ 0) ||
    (!(c.isPronk && decide (c.pelem ≠ 0)) && decide (c.chunkBytes % c.g ≠ 0)))) ||
  decide (32768 < c.g * c.pmax) || decide (4095 < c.pmax) || decide (16384 ≤ c.num) ||
  c.flagoff.zipIdx.any fun x => flagBad c x.2 x.1

/-- The ranges cover every chunk below `n` from `k` on exactly once. -/
def coversOnce (n : Nat) : Nat → List (Nat × Nat) → Bool
  | k, [] => decide (n ≤ k)
  | k, (a, b) :: rest => if n ≤ a then decide (n ≤ k) && coversOnce n k rest else decide (a = k) && coversOnce n (b + 1) rest

/-- Chunk ranges of a slot's OWNER entries, in ascending order. -/
def Plan.ranges (p : Plan) (slot : Nat) : List (Nat × Nat) :=
  sortBy (fun a b : Nat × Nat => decide (a.1 ≤ b.1))
    ((p.owners.filter fun o => decide (owSlot o.2 = slot ∧ owFirst o.2 ≤ owLast o.2)).map fun o => (owFirst o.2, owLast o.2))

/-- The slots (R34, R176, R188 to R195, R227 to R229, R249 to R251). -/
def slotChecks (p : Plan) : List Chk :=
  (p.slots.zipIdx.map fun x =>
    { bad := slotBad x.1 || (pronkChecks p x.1).any id || (sparseChecks p x.1).any id ||
        decide (1 < (p.slots.filter fun c => decide (c.num = x.1.num)).length), ty := 0x02, off := 72 * x.2 }) ++
  (p.slots.zipIdx.map fun x => { bad := !coversOnce x.1.nchunk 0 (p.ranges x.1.num), ty := 0x02, off := 72 * x.2 })

/-- The partitions whose slots a core executes or owns elements of (R488). -/
def Plan.corePartitions (p : Plan) (cl k : Nat) : List Nat :=
  (((p.progs.filter fun r => decide (r.cluster = cl ∧ heCore0 r.head ≤ k ∧ k < heCore0 r.head + heNcore r.head)).map
      fun r => p.partOf (heSlot r.head)) ++
   ((p.owners.filter fun o => decide (o.1 = cl ∧ owCore0 o.2 ≤ k ∧ k < owCore0 o.2 + owNcore o.2)).map
      fun o => p.partOf (owSlot o.2))).eraseDups

/-- Clusters that the plan gives core assignments. -/
def Plan.clustersUsed (p : Plan) : List Nat := (p.owners.map (·.1) ++ p.progs.map (·.cluster)).eraseDups

/-- Cores: assignments, programs, descriptors and partitions (R106, R108, R140, R164, R488, R545). -/
def coreChecks (p : Plan) : List Chk :=
  (p.owners.map fun o =>
    { bad := !assignOk (p.slots.find? fun c => decide (c.num = owSlot o.2)) (owCore0 o.2) (owNcore o.2) || !p.outsAgree o
      ty := 0x05, idx := o.1 }) ++
  (p.progs.map fun r => { bad := !p.programOk r, ty := 0x06, idx := r.cluster }) ++
  (p.streams.map fun r => { bad := !(p.streamOk r && p.streamAgrees r), ty := 0x07, idx := r.cluster }) ++
  (p.clustersUsed.flatMap fun cl => (List.range 128).map fun k =>
    { bad := decide (1 < (p.corePartitions cl k).length), ty := 0x05, idx := cl })

/-- CIDs ascend (Table MGT-10, log entry 20). -/
def cidsRise : List Nat → Bool
  | [] => true
  | a :: rest => (match rest with | [] => true | b :: _ => decide (a < b)) && cidsRise rest

/-- First and last granule of a die's range that a plan may use: end of the range without the internal area (R283). -/
def dieEnd (d : Nat) : Nat := Config.dieGranules * (d + 1) - Config.internalGranules

/-- A granule range lies in one die's range outside its internal area. -/
def inDie (base len : Nat) : Bool :=
  let d := base / Config.dieGranules
  decide (d < 4 ∧ 1 ≤ len ∧ base + len ≤ dieEnd d)

/-- Reserved bits of a region entry are zero, ROLE included where the type is not MIRRORED; STATE is the part's own
(Table MEM-2, R286). -/
def regionClean (r : BitVec 256) : Bool :=
  decide (fld r 31 18 = 0 ∧ fld r 255 224 = 0) && (decide (reType r = 2) || !bit r.toNat 3)

/-- One region entry by itself (R286). -/
def regionOk (r : BitVec 256) : Bool :=
  regionClean r && (!reValid r ||
    (inDie (reBase r) (reLen r) &&
      (!decide (reType r = 1) || (decide (reRmode r < 4) && inDie (rePbase r) (16 * reLen r) &&
        decide (rePbase r / Config.dieGranules = reBase r / Config.dieGranules)))))

/-- Granule ranges of the valid regions but one. -/
def regionSpans (rs : AMap Nat (BitVec 256)) (but : Nat) : List (Nat × Nat) :=
  (rs.filter fun x => reValid x.2 && decide (x.1 ≠ but)).map fun x => (reBase x.2, reBase x.2 + reLen x.2)

/-- Granule ranges of the backing stores but one. -/
def backSpans (rs : AMap Nat (BitVec 256)) (but : Nat) : List (Nat × Nat) :=
  (rs.filter fun x => reValid x.2 && decide (reType x.2 = 1 ∧ x.1 ≠ but)).map fun x =>
    (rePbase x.2, rePbase x.2 + 16 * reLen x.2)

/-- An entry against the others: no two regions and no two backing stores overlap, and no backing store a region
(R286). -/
def regionApart (rs : AMap Nat (BitVec 256)) (n : Nat) (r : BitVec 256) : Bool :=
  let span := (reBase r, reBase r + reLen r)
  let back := (rePbase r, rePbase r + 16 * reLen r)
  !reValid r ||
    (!(regionSpans rs n).any (rangesMeet span) && !(backSpans rs n).any (rangesMeet span) &&
      (!decide (reType r = 1) || (!(regionSpans rs n).any (rangesMeet back) && !(backSpans rs n).any (rangesMeet back) &&
        !rangesMeet span back)))

/-- The region table (R285, R286). -/
def regionChecks (p : Plan) : List Chk :=
  p.regions.zipIdx.map fun x =>
    { bad := !regionOk x.1.2 || !regionApart p.regions x.1.1 x.1.2 || decide (1024 ≤ x.1.1) ||
        decide (1 < (p.regions.filter fun y => decide (y.1 = x.1.1)).length), ty := 0x08, off := 40 * x.2 }

/-- Byte ranges of a weight entry: values, masks and dense view (R271 to R274). -/
def weightSpans (w : BitVec 256) : List (Nat × Nat) :=
  [(weV w, weV w + weSize w / 2), (weK w, weK w + weRows w * weCols w / 8), (weW w, weW w + weSize w)]

/-- A weight entry, in use or not: its addresses lie in this switch's DRAM, in the stack of one die (R270). -/
def weightOk (self : Nat) (w : BitVec 256) : Bool :=
  decide (1 ≤ weVfmt w ∧ weVfmt w ≤ 4) && decide (weRows w ≠ 0 ∧ weCols w ≠ 0) &&
    decide (fld w 127 96 = self ∧ fld w 191 160 = self ∧ fld w 255 224 = self) &&
    (weightSpans w).all fun x => decide (x.1 / 64 / Config.dieGranules = weW w / 64 / Config.dieGranules ∧
      weW w / 64 / Config.dieGranules < 4)

/-- Dense views of entries in use share no byte with one another or with a region (R270; log entry 20). -/
def windowsApart (p : Plan) (i : Nat) (w : BitVec 256) : Bool :=
  let span := (weW w, weW w + weSize w)
  !weValid w ||
    (!(p.weights.zipIdx.any fun x => weValid x.1 && decide (x.2 ≠ i) && rangesMeet span (weW x.1, weW x.1 + weSize x.1)) &&
      !(p.regions.any fun r => reValid r.2 && rangesMeet span (64 * reBase r.2, 64 * (reBase r.2 + reLen r.2))))

/-- The weight entries (R270). -/
def weightChecks (p : Plan) : List Chk :=
  p.weights.zipIdx.map fun x =>
    { bad := !(weightOk p.route.self x.1 && windowsApart p x.2 x.1), ty := 0x0E, off := 32 * x.2 }

/-- Scheduler and shaper entries (R423, R429). -/
def schedBad (e : BitVec 64 × List (BitVec 64)) : Bool :=
  decide (fld e.1 7 0 = 0 ∨ fld e.1 15 8 = 0 ∨ fld e.1 23 16 = 0 ∨ fld e.1 31 24 = 0) ||
  e.2.zipIdx.any fun x =>
    (!bit x.1.toNat 0 && decide (x.2 = 0 ∨ x.2 = 1 ∨ x.2 = 6)) || decide (fld x.1 55 32 < fld x.1 31 16)

/-- A gate list (R432). -/
def gateBad (g : BitVec 128 × List (BitVec 64)) : Bool :=
  let durs := g.2.map fun e => fld e 31 0
  decide (64 < fld g.1 102 96) || durs.contains 0 ||
    decide (durs.foldl (· + ·) 0 ≠ fld g.1 95 64)

/-- Schedulers of the links, and gate lists (R397, R423, R429, R432). -/
def schedChecks (p : Plan) : List Chk :=
  (p.sched.zipIdx.map fun x => { bad := namesUnder p.split x.2 && schedBad x.1, ty := 0x0A, off := 72 * x.2 }) ++
  (p.gates.map fun x => { bad := gateBad x.2, ty := 0x0B, idx := x.1 })

/-- The accounts of a die with their entries. -/
def acctRows (p : Plan) (d : Nat) : List ((Nat × Acct) × BitVec 64) := (dieAccounts p d).zip (p.accounts.at d [])

/-- The account entries (R406, R410). -/
def acctChecks (p : Plan) : List Chk :=
  (List.range 4).flatMap fun d =>
    { bad := decide ((p.accounts.at d []).length ≠ (dieAccounts p d).length), ty := 0x09, idx := d } ::
    (acctRows p d).zipIdx.map fun x =>
      { bad := decide (aeSize x.1.2 = 0 ∨ aeAw x.1.2 = 0) || (decide (x.1.1.1 ≠ 1) && decide (aeSize x.1.2 < aeMin x.1.2))
        ty := 0x09, idx := d, off := 8 * x.2 }

/-- Every Pronk extension has a known RFMT, whatever slot it names (R14, Table PRK-2). -/
def extChecks (img : List Byte) : List Chk :=
  (sectEntries img (sects img) 0x03 24).zipIdx.map fun x =>
    { bad := decide (leAt x.1.2 2 1 = 0) && decide (bits (leAt x.1.2 8 1) 7 4 = 0xF), ty := 0x03, off := 24 * x.2 }

/-- The reserve entry goes with ROLE 3 (R492). -/
def reserveChecks (p : Plan) : List Chk :=
  [{ bad := !decide (p.reserve.isSome = decide (p.route.role = 3)), ty := if p.reserve.isSome then 0x0D else 0x01 }]

/-- Every section rule, in the order of the chapters that the sections belong to. -/
def metaChecks (img : List Byte) (p : Plan) : List Chk :=
  ((sects img).map fun c => { bad := !sectFits img c, ty := c.ty, idx := c.idx }) ++
  routeChecks p ++ timeChecks p ++ slotChecks p ++ extChecks img ++ coreChecks p ++
  [{ bad := !cidsRise (p.cids.map fun e => fld e 23 0), ty := 0x04 }] ++
  regionChecks p ++ schedChecks p ++ acctChecks p ++ reserveChecks p ++ weightChecks p

/-! ### The resource rules: DENIED -/

/-- Clusters that a plan names as owner of a chunk or of an address range, the dense-view windows included (R36, R38, R273,
R619). -/
def Plan.ownersUsed (p : Plan) : List Nat :=
  p.owners.map (·.1) ++ ((p.regions.filter fun r => reValid r.2).map fun r => servingCluster (reBase r.2)) ++
  (p.weights.filter weValid).map fun w => servingCluster (weW w / 64)

/-- The programs of a core. -/
def Plan.progsOf (p : Plan) (cl k : Nat) : List ProgCfg :=
  p.progs.filter fun r => decide (r.cluster = cl ∧ heCore0 r.head ≤ k ∧ k < heCore0 r.head + heNcore r.head)

/-- The words of a program that program SRAM holds (R109). -/
def ProgCfg.words (r : ProgCfg) : List Word := r.h0 :: r.h1 :: r.code.take r.ninst

/-- Older programs under which a context of a core that has not retired still runs (R105, R110). -/
def State.oldPrograms (s : State) (g : Nat) : List ProgCfg :=
  (s.core g).ctxs.flatMap fun c =>
    if isShadow c.id.slot || c.retired then []
    else match s.planBound c.id.slot c.etag with
      | none => []
      | some p => if s.plans.active.any (fun a : Plan => decide (a.pepoch = p.pepoch)) then []
                  else (p.prog (clusterOf g) c.id.slot (g % 128)).toList

/-- Words of the programs that a core holds now: of the active plan, of plans that live contexts run under, and of the
shadow configuration; those that are bit-identical to an active program take no further words (R109, R110, R494). -/
def State.heldPrograms (s : State) (g : Nat) : List (List Word) :=
  let act := match s.plans.active with | none => [] | some a => a.progsOf (clusterOf g) (g % 128)
  let sh := match s.fawn.plan with | none => [] | some a => a.progsOf (clusterOf g) (g % 128)
  let held := act.map ProgCfg.words
  held ++ (((s.oldPrograms g ++ sh).map ProgCfg.words).eraseDups.filter fun w => !held.contains w)

/-- Whether programs fit beside those that a core holds: those it holds already take no further words (R109). -/
def State.progsFit (s : State) (g : Nat) (rs : List ProgCfg) : Bool :=
  let held := s.heldPrograms g
  let new := (rs.map ProgCfg.words).filter fun w => !held.contains w
  decide ((held ++ new).foldl (fun n w => n + w.length) 0 ≤ Config.programWords)

/-- The OWNER entries of a slot in a cluster. -/
def Plan.ownersOf (p : Plan) (cl slot : Nat) : List (BitVec 128) :=
  (p.owners.filter fun o => decide (o.1 = cl ∧ owSlot o.2 = slot)).map (·.2)

/-- Bytes of the state store that a slot takes in a cluster (R196): its records and an instance number for each chunk
owned; none where the cluster owns no chunk of it. -/
def Plan.slotStore (p : Plan) (cl : Nat) (c : SlotCfg) : Nat :=
  let n := (p.ownersOf cl c.num).foldl (fun n o => n + ownChunks c o) 0
  if n = 0 then 0 else c.recq * c.recBytes + 2 * n

/-- Bytes of the state store that a plan takes in a cluster beside another: a slot that both describe bit for bit takes them
once (R109, R196). -/
def Plan.storeBeside (p : Plan) (cl : Nat) (a : Option Plan) : Nat :=
  let same (c : SlotCfg) : Bool := a.any fun a => a.slots.contains c && decide (a.ownersOf cl c.num = p.ownersOf cl c.num)
  (p.slots.filter fun c => !same c).foldl (fun n c => n + p.slotStore cl c) 0

/-- Bytes of the state store that a plan takes in a cluster (R196). -/
def Plan.store (p : Plan) (cl : Nat) : Nat := p.storeBeside cl none

/-- The elements of a chunk of a sparse slot that core `k` holds under an OWNER entry (R268, R545). -/
def sparseElems (c : SlotCfg) (o : BitVec 128) (k : Nat) : Nat :=
  let groups := max 1 (owNcore o / c.nc)
  let gi := (k - owCore0 o) / c.nc
  let tiles := ((List.range c.nt).filter fun t => decide (t % groups = gi)).length
  if owCore0 o ≤ k ∧ k < owCore0 o + owNcore o then tiles * tileShare c.nc c.tw ((k - owCore0 o) % c.nc) else 0

/-- Bytes of the accumulators that the sparse slots keep in a core's data SRAM (R252): 64 for each element it owns of a
chunk, for each record that can be live. -/
def Plan.sparseBytes (p : Plan) (cl k : Nat) : Nat :=
  (p.slots.filter fun c => c.isSparse).foldl (fun n c =>
    n + c.recq * 64 * (p.ownersOf cl c.num).foldl (fun m o => max m (sparseElems c o k)) 0) 0

/-- Bytes of the context areas, LOCAL regions and residual areas of a core. -/
def Plan.otherBytes (p : Plan) (cl k : Nat) : Nat :=
  (p.areas cl k ++ p.locals cl k).foldl (fun n a => n + (a.2 - a.1)) 0 +
  (p.slots.filter fun c => c.fused).foldl (fun n c => let a := p.residArea c cl k; n + (a.2 - a.1)) 0

/-- Whether the sparse accumulators of a core do not fit beside its other areas (R252). -/
def Plan.sparseOver (p : Plan) (cl k : Nat) : Bool :=
  let n := p.sparseBytes cl k
  decide (n ≠ 0) && decide (Config.sramBytes < n + p.otherBytes cl k)

/-- Whether a staged route set is the promotion of the active one: the same position in another plane, the role a leaf's
for a reserve leaf (R505). A leaf of role 0 is no switch of a reserve plane; of a spine or core its plan does not tell
(DEDUCED, log entry 25). -/
def promotes (a b : Route) : Bool :=
  decide (a.role ≠ 0 ∧ cPlane a.self ≠ cPlane b.self ∧ setBits a.self 31 27 0 = setBits b.self 31 27 0 ∧
    b.role = (if a.role = 3 then 0 else a.role) ∧ a.rmap = b.rmap)

/-- Role, role map and coordinate change (R372, R505). -/
def State.moves (s : State) (r : Route) : Bool :=
  match s.plans.active with
  | none => false
  | some a => !(decide (a.route.role = r.role ∧ a.route.rmap = r.rmap ∧ a.route.self = r.self) || promotes a.route r)

/-- A changed route set with the epoch of the newest held set (R389). -/
def State.sameEpoch (s : State) (r : Route) : Bool :=
  match s.newest with
  | none => false
  | some n => decide (n ≠ r ∧ n.repoch = r.repoch)

/-- Sums over the accounts of a die: ΣMIN, E and E7 (R408, R410). -/
def acctSums (rows : List ((Nat × Acct) × BitVec 64)) : Nat × Nat × Nat :=
  rows.foldl (fun acc x =>
    let v := x.1.1
    let past := aeSize x.2 - aeMin x.2
    (if v = 1 then acc.1 else acc.1 + aeMin x.2,
     if v = 0 ∨ v = 2 ∨ v = 3 ∨ v = 4 ∨ v = 6 then acc.2.1 + past else acc.2.1,
     if v = 7 then acc.2.2 + past else acc.2.2)) (0, 0, 0)

/-- The VC1 pools of a port exceed its ingress Pronk buffer (R411). -/
def vc1Over (rows : List ((Nat × Acct) × BitVec 64)) : Bool :=
  let vs := rows.filterMap fun x => match x.1 with
    | (1, .link l _) => some (if 576 ≤ l then l else l / 4, aeSize x.2)
    | _ => none
  (vs.map (·.1)).eraseDups.any fun q =>
    decide ((if 576 ≤ q then 64 else 256) < (vs.filter fun x => decide (x.1 = q)).foldl (fun n x => n + x.2) 0)

/-- The resource rules, in chapter order: R38, R109, R196, R252, R372, R389, R410, R411. -/
def deniedChecks (s : State) (p : Plan) : List Chk :=
  [{ bad := p.ownersUsed.any s.clusterOff, ty := 0x05 }] ++
  (p.clustersUsed.flatMap fun cl => (List.range 128).map fun k =>
    { bad := !s.progsFit (128 * cl + k) (p.progsOf cl k), ty := 0x06, idx := cl }) ++
  ((List.range 36).map fun cl =>
    { bad := decide (p.store cl ≠ 0) &&
        decide (Config.stateStore < p.storeBeside cl s.plans.active + (s.plans.active.map fun a => a.store cl).getD 0)
      ty := 0x05, idx := cl }) ++
  (p.clustersUsed.flatMap fun cl => (List.range 128).map fun k => { bad := p.sparseOver cl k, ty := 0x05, idx := cl }) ++
  [{ bad := s.moves p.route, ty := 0x01 }, { bad := s.sameEpoch p.route, ty := 0x01 }] ++
  (List.range 4).map fun d =>
    let rows := acctRows p d
    let x := acctSums rows
    { bad := decide (Config.dieCells ≤ x.1) || decide (Config.dieCells - x.1 < x.2.1 + x.2.2 + 40960) || vc1Over rows
      ty := 0x09, idx := d }

/-! ### The whole check (R547, steps 3 and 4) -/

/-- PEPOCH against the active plan's (R471, R548). -/
def epochDenied (s : State) (new : Nat) : Bool :=
  let old := match s.plans.active with | none => 0 | some a => a.pepoch
  let d := (new + 2 ^ 32 - old) % 2 ^ 32
  decide (d = 0 ∨ 2 ^ 31 ≤ d) || s.plans.active.any fun a => decide (a.pepoch % 256 = new % 256)

/-- A fetched image checked: the failure, or the plan. `len` and `pepoch` are the arguments. -/
def checkImage (s : State) (img : List Byte) (len pepoch : Nat) : StageErr ⊕ Plan :=
  if (imSerial img ≠ 0 ∧ imSerial img ≠ s.fuse.serial) ∨ imPepoch img ≠ pepoch ∨ imLength img ≠ len then .inl ⟨0x43, 0, 0⟩
  else match structureBad img with
    | some x => .inl ⟨0x11, x.1, x.2⟩
    | none =>
      if epochDenied s pepoch then .inl ⟨0x43, 0, 0⟩
      else if imageDigest img ≠ imLdig img then .inl ⟨0x30, 0, 0⟩
      else
        let ss := sects img
        let p := planOf img
        match firstBad ss 0x11 (metaChecks img p) with
        | some e => .inl e
        | none => match firstBad ss 0x43 (deniedChecks s p) with
          | some e => .inl e
          | none => .inr p

end Sys2Proof.Machine
end

