-- ==== Sys2Proof/Machine/Mbx.lean ====
section
/-!
DEFINITION. Mailboxes: how a request is written, triggered, decided and answered (R524 to R537), the Roe event register
that an I3C request raises, and the lifecycle of switchable functions (R515 to R517).
-/
namespace Sys2Proof.Machine

/-! ### Roe events (R569, Table MGT-18) -/

/-- A bit of `ROE_EVENT` set; it raises an IBI when it becomes 1 and IBIs are enabled. -/
def State.roeEvent (s : State) (i : Nat) : State :=
  if bit s.roe.event.toNat i then s
  else
    let e := BitVec.ofNat 32 (s.roe.event.toNat + 2 ^ i)
    let s := { s with roe := { s.roe with event := e } }
    if s.i3c.ibiOn then { s with i3c := { s.i3c with ibis := s.i3c.ibis ++ [BitVec.ofNat 8 e.toNat] } } else s

/-! ### Who may use a mailbox (R535, R536) -/

/-- The MP decides requests: it executes, and the part is neither in S3 nor in OFF (R32, R567). -/
def State.mpServes (s : State) : Bool := s.mp.running && !decide (s.roe.pstate = .s3 ∨ s.roe.pstate = .off)

/-- RIGHTS of the active plan: all ones without a MGMT section (R535). -/
def State.planRights (s : State) (m : Nat) : Nat :=
  match s.plans.active with
  | none => 31
  | some p => match p.mgmt with | none => 31 | some g => fld g (5 * m + 12) (5 * m + 8)

/-- The effective right mask of a mailbox (R535). -/
def State.rights (s : State) (m : Nat) : Nat := fld s.fuse.mbxRights (5 * m + 4) (5 * m) &&& s.planRights m

/-- The source class of a steered packet (Table MGT-3). -/
def State.srcClass (s : State) (l : Nat) : Nat :=
  if l = 580 then 1
  else if 576 ≤ l ∧ l < 580 then 2
  else match s.newest with
    | none => 4
    | some r => if l < 576 ∧ r.endpointLink l then 3 else 4

/-- What refuses a packet to a mailbox before its range is looked at (R527 tests 1 and 2, R532). -/
def State.mbxRefuses (s : State) (m : Nat) (x : Steered) : Option Nat :=
  if !bit (s.rights m) (s.srcClass x.link) ∨ (m ≠ 0 ∧ (s.box m).part ≠ some (hPart x.pkt.hdr)) then some 0x43
  else if (s.box m).busy then some 0x24
  else none

/-! ### Answers (R527, R531, R532) -/

/-- An MBDATA to the source of a packet. -/
def State.mbdata (s : State) (h : BitVec 256) (m aoff status : Nat) (pay : List Byte) : State :=
  s.fromMp 0 (hPart h) (mkPkt (mkHdr [⟨31, 0, hSrc h⟩, ⟨99, 96, 0xC⟩, ⟨102, 100, m⟩, ⟨115, 104, aoff⟩, ⟨220, 213, status⟩]) pay)

/-- The held response sent again, or announced to I3C (R530, R531). -/
def State.sendHeld (s : State) (m : Nat) (src : Option (BitVec 256)) : State :=
  let area := (s.box m).rsp
  let blen := bits (ofLE (memRead area 0 8)) 43 32
  match src with
  | some h => s.mbdata h m 0 0 (memRead area 0 (8 + blen))
  | none => s.roeEvent 6

/-- OPCODE, SEQ and ALEN of the request a mailbox holds (Table MGT-2). -/
def Mbox.reqOp (b : Mbox) : Nat := ofLE (memRead b.req 0 2)
/-- SEQ. -/
def Mbox.reqSeq (b : Mbox) : Nat := ofLE (memRead b.req 2 2)
/-- ALEN. -/
def Mbox.reqAlen (b : Mbox) : Nat := bits (ofLE (memRead b.req 4 2)) 11 0

/-- The opcodes of Table MGT-5. -/
def knownOps : List Nat :=
  [0x0100, 0x0101, 0x0102, 0x0200, 0x0201, 0x0300, 0x0301, 0x0302, 0x0303, 0x0400, 0x0500, 0x0501, 0x0502, 0x0600, 0x0601,
   0x0602, 0x0700, 0x0701, 0x0702, 0x0703, 0x0704, 0x0800, 0x0900, 0x0A00, 0x0A01]

/-- The response of the request that mailbox `m` is executing: written, the mailbox IDLE, and sent (R531 steps 3 to 5). -/
def State.respondMbx (s : State) (m status : Nat) (defer : Bool) (body : List Byte) : State :=
  let b := s.box m
  let body := body.take 4088
  let hdr := b.reqOp + b.reqSeq <<< 16 + body.length <<< 32 + (b2n defer) <<< 44 + status <<< 48
  let s := s.setBox m { b with rsp := memWrite b.rsp 0 (toLE 8 hdr ++ body), busy := false, from_ := none }
  let s := { s with mp := { s.mp with triggers := s.mp.triggers.filter fun x => !decide (x = m) } }
  s.sendHeld m b.from_

/-- Requests at the head of the order whose OPCODE Table MGT-5 does not list are answered with UNKNOWN_CMD (R531). -/
def settleHead : Nat → State → State
  | 0, s => s
  | n + 1, s => match s.mp.triggers with
    | [] => s
    | m :: _ => if knownOps.contains (s.box m).reqOp then s else settleHead n (s.respondMbx m 0x70 false [])

/-- A request triggered (R529 to R531): the held response again for a repeated header, else the mailbox is EXECUTING. -/
def State.trigger (s : State) (m : Nat) (src : Option (BitVec 256)) : State :=
  let b := s.box m
  if memRead b.req 0 4 = memRead b.rsp 0 4 then s.sendHeld m src
  else
    let s := s.setBox m { b with busy := true, from_ := src }
    settleHead 8 { s with mp := { s.mp with triggers := s.mp.triggers ++ [m] } }

/-- Bytes written to a request area, and the trigger when they cover byte 0 (R529). -/
def State.writeReq (s : State) (m off : Nat) (data : List Byte) (src : Option (BitVec 256)) : State :=
  let b := s.box m
  let s := s.setBox m { b with req := memWrite b.req off data }
  if off = 0 ∧ data ≠ [] then s.trigger m src else s

/-! ### Packets for the MP (R482, R526) -/

/-- The first packet steered to the MP that passes a test, and the state without it. -/
def State.takeMp (s : State) (p : Steered → Bool) : Option (Steered × State) :=
  (takeFirst (fun x : Steered => decide (x.dest = none) && p x) s.sw.steer).map fun r =>
    (r.1, { s with sw := { s.sw with steer := r.2 } })

/-- A packet for the MP given to its use; one whose check fails is dropped (R482, R483). -/
def State.mpPacket (s : State) (x : Steered) (f : State → State) : State :=
  if checkOf x.pkt.payload ≠ hCheck x.pkt.hdr then
    let s := s.count .mpCheck 0 0
    if x.bad then s else s.checkInt
  else f s

/-- MBWR (R527). -/
def State.mbwr (s : State) (x : Steered) : State :=
  let h := x.pkt.hdr
  let m := hMbx h
  let d := x.pkt.payload
  match s.mbxRefuses m x with
  | some st => s.mbdata h m (hAoff h) st []
  | none =>
    if d.length % 8 ≠ 0 ∨ 4096 < hAoff h + d.length then s.mbdata h m (hAoff h) 0x12 []
    else s.writeReq m (hAoff h) d (some h)

/-- MBRD (R532). -/
def State.mbrd (s : State) (x : Steered) : State :=
  let h := x.pkt.hdr
  let m := hMbx h
  match s.mbxRefuses m x with
  | some st => s.mbdata h m (hAoff h) st []
  | none =>
    if 4096 < hAoff h + hRlen h then s.mbdata h m (hAoff h) 0x12 []
    else s.mbdata h m (hAoff h) 0 (memRead (s.box m).rsp (hAoff h) (hRlen h))

/-- MBWR as a command: the next MBWR steered to the MP (R526 to R531). One that arrives while the MP does not serve is lost
(R32). -/
def execMbwr (t : Nat) (s : State) : Out State :=
  let s := s.tick t
  .next (match s.takeMp fun x => decide (hKind x.pkt.hdr = 0xA) with
    | none => s
    | some (x, s) => if s.mpServes then s.mpPacket x fun s => s.mbwr x else s)

/-- MBRD as a command (R532). -/
def execMbrd (t : Nat) (s : State) : Out State :=
  let s := s.tick t
  .next (match s.takeMp fun x => decide (hKind x.pkt.hdr = 0xB) with
    | none => s
    | some (x, s) => if s.mpServes then s.mpPacket x fun s => s.mbrd x else s)

/-! ### Deciding a request (R531, R533, R536, R540) -/

/-- What a command gives: the state, the STATUS, DEFER and the body. -/
structure Verdict where
  st : State
  status : Nat
  defer : Bool := false
  body : List Byte := []

/-- A command refused: no change. -/
def refuseCmd (s : State) (status : Nat) : Verdict := { st := s, status := status }

/-- What is known of a herd member (R553). -/
def State.member (s : State) (p : Nat) : Member := s.trail.members.at p { census := 0, at_ := 0, present := false }

/-- TRAIL_FAIL (Table MGT-4). -/
def stTrail : Nat := 0x73

/-- Packets for a coordinate go over the Trail (R384) to a member that is ABSENT (R553). -/
def State.memberGone (s : State) (dst : Nat) : Bool :=
  decide (cPlane dst ≠ s.plane ∧ ownerSw dst = ownerSw s.selfCoord) && !(s.member (cPlane dst)).present

/-- What a command is decided from: the request, the partition of a partition mailbox, and the arguments. -/
structure Call where
  req : Req
  part : Option Nat
  args : List Byte

/-- The argument bytes [hi:lo] as a number. -/
def Call.arg (c : Call) (hi lo : Nat) : Nat := leAt c.args lo (hi + 1 - lo)

/-- A partition mailbox names an object of another partition (R536). -/
def Call.foreign (c : Call) (part : Option Nat) : Bool := match c.part with | none => false | some p => decide (part ≠ some p)

/-- The limits that hold for a command: its length, whether only mailbox 0 may give it, whether it runs without a plan, and
whether P1 and S1 refuse it. -/
structure CmdRule where
  op : Nat
  alen : Nat
  admin : Bool
  noPlan : Bool := false
  p0 : Bool := false

/-- The request at the head of the order, when it is of mailbox `m` and of this command, decided (R531, R534, R536,
R540). -/
def State.command (s : State) (m : Nat) (k : CmdRule) (f : Call → State → Verdict) : State :=
  let b := s.box m
  if s.mpServes && decide (s.mp.triggers.head? = some m ∧ b.reqOp = k.op) then
    let c : Call := { req := { mbx := m, seq := b.reqSeq, op := k.op }, part := if m = 0 then none else b.part,
                      args := memRead b.req 8 b.reqAlen }
    let v : Verdict :=
      if b.reqAlen ≠ k.alen then refuseCmd s 0x71
      else if m ≠ 0 ∧ (k.admin ∨ b.part = none) then refuseCmd s 0x43
      else if s.plans.active.isNone ∧ !k.noPlan then refuseCmd s 0x75
      else if k.p0 ∧ (s.roe.pstate = .p1 ∨ s.roe.pstate = .s1) then refuseCmd s 0x72
      else f c s
    settleHead 8 (v.st.respondMbx m v.status v.defer v.body)
  else s

/-! ### Lifecycles (R515 to R517) -/

/-- What an enable does to a function. -/
inductive FnDo where
  | start | keep | queue
  deriving DecidableEq, Repr

/-- An enable by the function's state (Table RES-8). -/
def Fn.onEnable (f : Fn) : FnDo := match f.st with | .off => .start | .stopping => .queue | _ => .keep

/-- An enable queued; one that it replaces is counted (R517). -/
def Fn.enqueue (f : Fn) (r : Req) (args : List Nat) (s : State) : Fn × State :=
  ({ f with queued := some (r, args) }, if f.queued.isSome then s.count .reqReplaced 0 0 else s)

/-- A disable of a function that is not OFF: a start is cut and a queued request removed, each completing with ABORTED, and
the disable completes at OFF (Table RES-8, R517). -/
def Fn.disable (f : Fn) (r : Req) (s : State) : Fn × State :=
  let s := match f.start with | none => s | some x => s.complete x 0x25 0
  let s := match f.queued with | none => s | some x => s.complete x.1 0x25 0
  ({ f with st := .stopping, start := none, queued := none, stops := f.stops ++ [r] }, s)

/-- The disables of a function that has reached OFF completed. -/
def Fn.doneOff (f : Fn) (s : State) : State := f.stops.foldl (fun s r => s.complete r 0 0) s

end Sys2Proof.Machine
end

