-- ==== Sys2Proof/Machine/TrailOps.lean ====
section
/-!
DEFINITION. The Trail interface: what a member does with a frame that arrives, what its serialiser sends, and the lead of
the herd (R550 to R557).
-/
namespace Sys2Proof.Machine

/-! ### Frame fields (Table MGT-11) -/

/-- TYPE. -/
def frType (f : Frame) : Nat := fld f.hdr 3 0
/-- SPLANE. -/
def frSplane (f : Frame) : Nat := fld f.hdr 8 4
/-- DPLANE. -/
def frDplane (f : Frame) : Nat := fld f.hdr 13 9
/-- BCAST. -/
def frBcast (f : Frame) : Bool := bit f.hdr.toNat 14
/-- LEN. -/
def frLen (f : Frame) : Nat := fld f.hdr 28 16
/-- HOPS. -/
def frHops (f : Frame) : Nat := fld f.hdr 36 32
/-- SUB of an IMAGE or SHADOW frame. -/
def frSub (f : Frame) : Nat := leAt f.payload 0 1

/-- The CRC, the length and the TYPE of a frame are good (R551). -/
def frGood (f : Frame) : Bool :=
  decide (f.crc = BitVec.ofNat 32 (crc32c (toLE 8 f.hdr.toNat ++ f.payload)) ∧ frLen f = f.payload.length ∧ frLen f ≤ 4128 ∧
    1 ≤ frType f ∧ frType f ≤ 7)

/-! ### Members (R553, R555) -/

/-- What is known of a member replaced. -/
def State.setMember (s : State) (p : Nat) (m : Member) : State :=
  { s with trail := { s.trail with members := s.trail.members.put p m } }

/-- LEADPLANE of the active plan, 0 without a MGMT section (R535). -/
def Plan.leadPlane (p : Plan) : Nat := match p.mgmt with | none => 0 | some g => fld g 4 0

/-- This part is the herd lead (R555). -/
def State.isLead (s : State) : Bool :=
  match s.plans.active with
  | none => decide (s.fuse.straps.planeSel = 0)
  | some p => decide (s.plane = p.leadPlane)

/-- The part is in the ring: TRAIL_BYP_N is high (R554). -/
def State.inRing (s : State) : Bool := decide (s.roe.bypN = some true)

/-- The part sleeps: in S3 it takes WAKE frames alone (R557). -/
def State.sleeps (s : State) : Bool := decide (s.roe.pstate = .s3)

/-! ### Receiving (R551, R552, R557) -/

/-- A frame with HOPS raised by 1. -/
def nextHop (f : Frame) : Frame := mkFrame (setFld f.hdr 36 32 (frHops f + 1)) f.payload

/-- A frame put into the forward queue. -/
def State.forward (s : State) (f : Frame) : State :=
  let f := nextHop f
  if framesSize s.trail.fwd + Frame.size f ≤ Config.trailFwdBytes then { s with trail := { s.trail with fwd := s.trail.fwd ++ [f] } }
  else s.count .trailFwdDrop 0 0

/-- A frame for this member taken, or dropped while it sleeps. -/
def State.takeFrame (s : State) (f : Frame) (take : State → State) : State :=
  if s.sleeps ∧ frType f ≠ 7 then (if frBcast f then s else s.count .trailSleepDrop 0 0) else take s

/-- A frame that reaches a member in the ring (R551, R552). `mine`: its TYPE and SUB are those of the command's event; of
one of another kind nothing is taken, but it is dropped, counted and forwarded as any frame is. -/
def State.trailRx (s : State) (f : Frame) (mine : Bool) (take : State → State) : State :=
  if !s.inRing then s
  else
    let s := { s with trail := { s.trail with rxlock := true } }
    if !frGood f then s.count .trailBad 0 0
    else if frSplane f = s.plane then (if frBcast f then s else s.count .trailNodest 0 0)
    else if frHops f = 31 then s.count .trailLoop 0 0
    else if frBcast f then (s.forward f).takeFrame f fun s => if mine then take s else s
    else if frDplane f = s.plane then s.takeFrame f fun s => if mine then take s else s
    else s.forward f

/-- A frame of the services that the MP runs: taken only while it serves (R29, R32). -/
def State.trailMp (s : State) (f : Frame) (type : Nat) (sub : Option Nat) (take : State → State) : State :=
  s.trailRx f (decide (frType f = type) && sub.all fun x => decide (frSub f = x)) fun s => if s.mpServes then take s else s

/-! ### TSYNC over the Trail (R452, R453, R457) -/

/-- A TSYNC frame in the transmit queue: its word is filled in when it is sent. The place of the word holds the number
and, one higher, the stamp of the TSYNC that it answers. -/
def State.trailTsync (s : State) (plane : Nat) (recv : Option (Nat × Nat)) : State :=
  s.trailSend 0x2 plane (toLE 1 ((recv.map (·.1)).getD 0) ++ toLE 15 ((recv.map fun x => x.2 + 1).getD 0))

/-- A grandmaster with a Trail source sends it a TSYNC every 16 µs. -/
def State.trailTsyncTick (s : State) : State :=
  match s.timeEnt with
  | none => s
  | some e =>
    if teGm e && teTrail e && s.inRing && !s.sleeps && decide (s.trail.tsAt + 16000 ≤ s.now) then
      ({ s with trail := { s.trail with tsAt := s.now } }).trailTsync (teTplane e) s.trail.tsRecv
    else s

/-- The word of a TSYNC frame at the moment it is sent. -/
def State.fillTsync (s : State) (f : Frame) : Frame × State :=
  if frType f ≠ 2 then (f, s)
  else
    let seq := nextSeq s.trail.tsSent
    let r := leAt f.payload 1 15
    let w := s.tsyncWord s.now seq (if r = 0 then none else some (leAt f.payload 0 1, r - 1))
    (mkFrame f.hdr (toLE 16 w.toNat), { s with trail := { s.trail with tsSent := noteSent s.trail.tsSent seq s.now } })

/-! ### Sending (R552) -/

/-- The serialiser sends the next frame: one of the member's own after every four forwarded ones while both queues hold
frames. -/
def State.trailEmit (s : State) : State :=
  if !s.inRing then s
  else match s.trail.fwd, s.trail.tx with
    | [], [] => s
    | f :: rest, [] => { s with trail := { s.trail with fwd := rest, run := 0, lastTx := some f } }
    | f :: rest, g :: gs =>
      if s.trail.run < 4 then { s with trail := { s.trail with fwd := rest, run := s.trail.run + 1, lastTx := some f } }
      else
        let x := s.fillTsync g
        { x.2 with trail := { x.2.trail with tx := gs, run := 0, lastTx := some x.1 } }
    | [], g :: gs =>
      let x := s.fillTsync g
      { x.2 with trail := { x.2.trail with tx := gs, run := 0, lastTx := some x.1 } }

/-! ### IMAGE frames (Tables SEC-4, MGT-22) -/

/-- The boot head of an IMAGE frame, with bytes [3:2] for FUSED_STATE. -/
def imageHead (sub status total off len : Nat) : List Byte :=
  toLE 1 sub ++ toLE 1 status ++ toLE 2 total ++ toLE 4 off ++ toLE 2 len ++ zeros 6

/-- STATUS of the head. -/
def ihStatus (f : Frame) : Nat := leAt f.payload 1 1
/-- Bytes [3:2] of the head. -/
def ihTotal (f : Frame) : Nat := leAt f.payload 2 2
/-- OFFSET. -/
def ihOff (f : Frame) : Nat := leAt f.payload 4 4
/-- LEN. -/
def ihLen (f : Frame) : Nat := leAt f.payload 8 2
/-- What follows the head. -/
def ihData (f : Frame) : List Byte := f.payload.drop 16

/-- An IMAGE frame sent to a plane. -/
def State.sendImage (s : State) (plane sub status total off len : Nat) (data : List Byte) : State :=
  s.trailSend 0x6 plane (imageHead sub status total off len ++ data)

end Sys2Proof.Machine
end

