-- ==== Sys2Proof/Machine/Boot.lean ====
section
/-!
DEFINITION. The boot ROM: how it fetches a firmware image over the edge port or the Trail, checks it, derives the device's
identity and starts the firmware; the lead's answers to boot reads; and attestation reports (R573 to R588).
-/
namespace Sys2Proof.Machine

/-! ### Fuses (R574, R575, R597) -/

/-- Debug access is open (Table SEC-2). -/
def State.debugOpen (s : State) : Bool :=
  decide (s.fuse.lifecycle = 0) || (decide (s.fuse.lifecycle = 1 ∨ s.fuse.lifecycle = 7) && !s.fuse.debugLock)

/-- The lifecycle gives the part an identity (Table SEC-2). -/
def State.hasIdentity (s : State) : Bool := decide (s.fuse.lifecycle = 1 ∨ s.fuse.lifecycle = 3)

/-- The secret from which every key is derived (R575). -/
def State.secret (s : State) : BitVec 384 := if s.debugOpen then 0 else s.fuse.uds

/-- The boot ROM has read the fuses. -/
def State.fusesRead (s : State) : Bool := decide (s.boot.phase ≠ .start ∨ s.boot.attempts ≠ 0)

/-- The VDD_CORE set point in mV at a throttle level (R597). -/
def State.setPoint (s : State) (level : Nat) : Nat := if s.fusesRead then max 600 (s.fuse.v110 - 10 * level) else 750

/-! ### Attempts (R578 to R582) -/

/-- An attempt begins, from the edge port or from the Trail. -/
def State.bootFrom (s : State) (trail : Bool) : State :=
  let s := { s with boot := { s.boot with phase := .fetch, trail := trail, since := s.now, retry := false, none_ := false,
                                          lead := none, got := [], next := 0, reads := [] } }
  if !trail && decide ((s.link s.bootLink).st = .up) then s.bootIssue else s

/-- An attempt ends with an error; the next one begins after 1 s (R582). -/
def State.bootFail (s : State) (error : Nat) : State :=
  { s with boot := { s.boot with phase := .start, error := error, attempts := min 255 (s.boot.attempts + 1), retry := true,
                                 since := s.now, none_ := false, got := [], next := 0, reads := [] } }

/-- The ROM halts (R574, R578). -/
def State.bootHalt (s : State) (error : Nat) : State :=
  { s with boot := { s.boot with phase := .halted, error := error } }

/-- The fetch yields no image: with BOOT_SEL 2 the Trail follows the edge port (R578). -/
def State.fetchEnd (s : State) (error : Nat) : State :=
  if s.fuse.straps.bootSel.toNat = 2 ∧ s.boot.trail = false then s.bootFrom true else s.bootFail error

/-- The boot ROM starts: it reads the fuses and halts, or begins its first attempt (R574, R578, R597). -/
def State.romStart (s : State) : State :=
  let life := s.fuse.lifecycle
  let sel := s.fuse.straps.bootSel.toNat
  let s :=
    if s.fuse.intact = false ∨ !(life = 0 ∨ life = 1 ∨ life = 3 ∨ life = 7) then s.bootHalt 0x0A
    else if life = 0 then s.bootHalt 0x09
    else if sel = 3 then s.bootHalt 0x0A
    else s.bootFrom (decide (sel = 1))
  { s with roe := { s.roe with vcore := s.setPoint s.roe.applied } }

/-! ### Checking and starting an image (R576, R581 to R584) -/

/-- Bytes of an image received so far, in order. -/
def bootBytes (got : List (Nat × List Byte)) : List Byte :=
  (sortBy (fun a b : Nat × List Byte => decide (a.1 ≤ b.1)) got).flatMap fun b : Nat × List Byte => b.2

/-- What a header, or the bytes received so far, show of step 1 of R581: FORMAT, the length of the signed part, and the
length of the image. -/
def formatBad (bs : List Byte) : Bool :=
  let n := leAt bs 4 4
  decide (64 ≤ bs.length) && decide (leAt bs 0 4 ≠ 1 ∨ n < 64 ∨ n % 64 ≠ 0 ∨
    8 * 1024 * 1024 < n + 256 + (if n + 256 ≤ bs.length then leAt bs (n + 252) 4 else 0))

/-- The signed part's digest M, which is FWMEAS (R576). -/
def fwDigest (im : List Byte) : BitVec 384 := Config.sha384 (im.take (leAt im 4 4))

/-- The first of steps 1 to 4 of R581 that a whole image fails: its error. -/
def State.imageError (s : State) (im : List Byte) : Option Nat :=
  let n := leAt im 4 4
  let m := fwDigest im
  let epub := slice im n 96
  let lpub := slice im (n + 192) 60
  if formatBad im then some 0x03
  else if Config.sha384 epub ≠ s.fuse.rootEcc then some 0x04
  else if Config.sha384 lpub ≠ s.fuse.rootLms then some 0x05
  else if !Config.ecdsaVerify epub (slice im (n + 96) 96) m then some 0x06
  else if !Config.hssVerify lpub (slice im (n + 256) (leAt im (n + 252) 4)) m then some 0x07
  else if leAt im 12 4 < s.fuse.floor ∨ leAt im 12 4 < leAt im 16 4 then some 0x08
  else none

/-- ASCII bytes of a label (R583). -/
def label (x : String) : List Byte := x.toList.map fun c => BitVec.ofNat 8 c.toNat

/-- CDI (Table SEC-5). -/
def cdi (secret m : BitVec 384) (svn : Nat) : BitVec 384 := Config.hmac384 secret (toLE 48 m.toNat ++ toLE 4 svn)

/-- Device identity (R583, R584): a bit of LMS_CTR is burned for the upper leaf of this boot, the lower tree is made, and
the DevID key signs the alias. -/
def State.identity (s : State) (m : BitVec 384) (svn : Nat) : State :=
  let q := s.fuse.lmsCtr
  let s := { s with boot := { s.boot with phase := .identity, q := q, lowUsed := 0, lmsLow := decide (3968 ≤ q),
                                          lmsOut := s.hasIdentity && decide (4096 ≤ q) } }
  if !s.hasIdentity then s
  else
    let c := cdi s.secret m svn
    let alias_ := Config.hmac384 c (label "ALIAS-E")
    let lower := Config.hmac384 c (label "LOWER-L" ++ toLE 2 q)
    let upper := Config.hmac384 s.secret (label "DEVID-L")
    let signed := toLE 8 s.fuse.serial.toNat ++ toLE 48 m.toNat ++ toLE 4 svn ++ Config.ecdsaPublic alias_
    let sig := Config.ecdsaSign (Config.hmac384 s.secret (label "DEVID-E")) (Config.sha384 signed)
    let s := { s with boot := { s.boot with alias_ := some alias_, aliasEnd := sig } }
    if 4096 ≤ q then s
    else { s with fuse := { s.fuse with lmsCtr := q + 1 }
                  boot := { s.boot with lower := some (lower, Config.hssUpper upper lower q) } }

/-- A verified image is run (R581 steps 5 to 7). -/
def State.bootRun (s : State) (im : List Byte) : State :=
  let m := fwDigest im
  let svn := leAt im 12 4
  let s := { s with fuse := { s.fuse with floor := max s.fuse.floor (min 64 (leAt im 16 4)) } }
  let s := s.identity m svn
  { s with
    boot := { s.boot with phase := .firmware, udsLock := true, fwmeas := m, fwsvn := svn, fwver := leAt im 8 4,
                          entry := some (leAt im 20 4), image := im, got := [], reads := [] }
    mp := { s.mp with running := true }
    roe := { s.roe with beatAt := s.now, mpLost := false } }

/-- More bytes have arrived: an image with a bad header fails at once, a whole image is checked and run, and otherwise
reading goes on (R579 to R581). -/
def State.bootLanded (s : State) : State :=
  let bs := bootBytes s.boot.got
  if formatBad bs then s.bootFail 0x03
  else if s.boot.reads.isEmpty && decide (bootGoal s.boot.got ≤ s.boot.next) then
    let s := { s with boot := { s.boot with phase := .verify } }
    match s.imageError bs with
    | some e => s.bootFail e
    | none => s.bootRun bs
  else s.bootIssue

/-- The ROM is fetching from one of its sources. -/
def State.fetching (s : State) (trail : Bool) : Bool :=
  decide (s.boot.phase = .fetch ∧ s.boot.trail = trail ∧ s.mp.running = false) && !s.roe.c6

/-- The answer to a read of the ROM: its bytes kept, or the fetch ended. -/
def State.bootAnswer (s : State) (r : BulkRead) (status : Nat) (data : List Byte) : State :=
  if status = 0x24 then { s with boot := { s.boot with reads := busyRead s.boot.reads r.tag s.now } }
  else if status ≠ 0 ∨ data.length ≠ r.len then s.fetchEnd 0x02
  else
    let kept := { s with boot := { s.boot with reads := dropRead s.boot.reads r.tag, got := s.boot.got ++ [(r.off, data)] } }
    kept.bootLanded

/-- Reads of the ROM whose wait after BUSY is over, sent again (R202, R296). -/
def State.bootDue (s : State) : State :=
  if !(s.fetching false || s.fetching true) then s
  else (s.boot.reads.filter fun r : BulkRead => r.due s.now).foldl (fun s r => s.bootSend r)
    { s with boot := { s.boot with reads := dueRead s.boot.reads s.now } }

/-- BOOT_FETCH_RESPONSE: a READ response for the ROM (R579, R581). -/
def execBootFetchResponse (t : Nat) (s : State) : Out State :=
  let s := s.tick t
  let tags := s.boot.reads.map fun r : BulkRead => r.tag
  .next (if !s.fetching false then s
    else match s.takeMp fun x => decide (hKind x.pkt.hdr = 6) && tags.contains (hTag x.pkt.hdr) with
    | none => s
    | some (x, s) => s.mpPacket x fun s =>
      match s.boot.reads.find? fun r : BulkRead => decide (r.tag = hTag x.pkt.hdr) with
      | none => s
      | some r => s.bootAnswer r (hStatus x.pkt.hdr) x.pkt.payload)

/-- BOOT_READ_RESEND: the read at an offset has had no answer for 10 ms; after four resends the fetch ends (R579, R580). -/
def execBootReadResend (off t : Nat) (s : State) : Out State :=
  let s := s.tick t
  .next (if !(s.fetching false || s.fetching true) then s
    else match s.boot.reads.find? fun r : BulkRead => decide (r.off = off) with
    | none => s
    | some r =>
      if r.held then s.bootDue
      else if s.now < r.sentAt + resendNs then s
      else if r.resends < 4 then
        let again := { s with boot := { s.boot with reads := againRead s.boot.reads r.tag s.now true } }
        again.bootSend r
      else s.fetchEnd 0x02)

/-- BOOT_RETRY: 1 s after a failed attempt; with BOOT_SEL 2 the edge port comes first again (R582). -/
def execBootRetry (t : Nat) (s : State) : Out State :=
  let s := s.tick t
  .next (when_ (s.boot.retry && !s.roe.c6 && decide (s.boot.phase = .start ∧ s.boot.since + 1000000000 ≤ s.now)) s
    (s.bootFrom (decide (s.fuse.straps.bootSel.toNat = 1))))

/-- BOOT_TRAIN_TIMEOUT: the edge port has not trained within 1 s (R578, R589). -/
def execBootTrainTimeout (t : Nat) (s : State) : Out State :=
  let s := s.tick t
  .next (when_ (s.fetching false && decide (s.boot.next = 0 ∧ s.boot.since + 1000000000 ≤ s.now)) s (s.fetchEnd 0x01))

/-- LEAD_WAIT_TIMEOUT: no lead has appeared on the Trail within 1 s (R580). -/
def execLeadWaitTimeout (t : Nat) (s : State) : Out State :=
  let s := s.tick t
  .next (when_ (s.fetching true && decide (s.boot.lead = none ∧ s.boot.since + 1000000000 ≤ s.now)) s (s.bootFail 0x01))

/-- The ROM has seen a CENSUS with LEAD while it waits for one: it reads from that plane (R580). -/
def State.bootLead (s : State) (plane : Nat) : State :=
  if s.fetching true && s.boot.lead.isNone then
    let led := { s with boot := { s.boot with lead := some plane } }
    led.bootIssue
  else s

/-- BOOT_READ at a member (R580): the lead answers while its firmware runs, or while its ROM has no image yet. -/
def execBootRead (f : Frame) (t : Nat) (s : State) : Out State :=
  let s := s.tick t
  .next (s.trailRx f (decide (frType f = 6 ∧ frSub f = 0x10)) fun s =>
    let off := ihOff f
    let len := min 4096 (ihLen f)
    if !s.isLead then s
    else if s.mp.running then
      let ok := decide (1 ≤ ihLen f ∧ ihLen f ≤ 4096 ∧ off + len ≤ s.boot.image.length)
      s.sendImage (frSplane f) 0x11 (if ok then 0 else 0x30) 0 off len (slice s.boot.image off len)
    else if s.boot.image.isEmpty && decide (s.boot.phase ≠ .halted) then s.sendImage (frSplane f) 0x12 0 0 off len []
    else s)

/-- BOOT_DATA at the ROM (R580, R581). -/
def execBootData (f : Frame) (t : Nat) (s : State) : Out State :=
  let s := s.tick t
  .next (s.trailRx f (decide (frType f = 6 ∧ frSub f = 0x11)) fun s =>
    if !(s.fetching true && decide (s.boot.lead = some (frSplane f)) && !s.boot.none_) then s
    else match s.boot.reads.find? fun r : BulkRead => decide (r.off = ihOff f ∧ r.len = ihLen f) with
      | none => s
      | some r => s.bootAnswer r (ihStatus f) (ihData f))

/-- BOOT_NONE at the ROM: the lead has no image yet (R580). -/
def execBootNone (f : Frame) (t : Nat) (s : State) : Out State :=
  let s := s.tick t
  .next (s.trailRx f (decide (frType f = 6 ∧ frSub f = 0x12)) fun s =>
    if s.fetching true && decide (s.boot.lead = some (frSplane f)) && !s.boot.none_ then
      { s with boot := { s.boot with none_ := true, since := s.now, got := [], next := 0, reads := [] } }
    else s)

/-- BOOT_NONE_RETRY: 100 ms after BOOT_NONE (R580). -/
def execBootNoneRetry (t : Nat) (s : State) : Out State :=
  let s := s.tick t
  .next (when_ (s.fetching true && s.boot.none_ && decide (s.boot.since + 100000000 ≤ s.now)) s (
    let again := { s with boot := { s.boot with none_ := false, since := s.now } }
    again.bootIssue))

/-! ### Attestation (R585 to R587) -/

/-- Bytes [351:0] of a report with a nonce (Table SEC-6). -/
def State.reportHead (s : State) (nonce : List Byte) (alias_ : BitVec 384) : List Byte :=
  let ep := match s.plans.active with | none => 0 | some p => p.pepoch
  let dg := match s.plans.active with | none => 0 | some p => p.pdig.toNat
  toLE 4 1 ++ toLE 4 4628 ++ slice nonce 0 32 ++ toLE 8 s.fuse.serial.toNat ++
  [0xB0, BitVec.ofNat 8 s.fuse.lifecycle, BitVec.ofNat 8 (b2n s.debugOpen), 0] ++ toLE 4 s.boot.fwsvn ++ toLE 4 s.fuse.floor ++
  toLE 2 s.boot.q ++ toLE 2 s.boot.lowUsed ++ toLE 48 s.boot.fwmeas.toNat ++ toLE 4 ep ++ toLE 8 dg ++ zeros 4 ++
  slice (Config.ecdsaPublic alias_) 0 96 ++ slice s.boot.aliasEnd 0 96 ++ zeros 32

/-- A report: its head, the alias signature and the HSS signature (Table SEC-6). -/
def State.report (s : State) (nonce : List Byte) (alias_ lower : BitVec 384) (upper : List Byte) : List Byte :=
  let h := s.reportHead nonce alias_
  h ++ slice (Config.ecdsaSign alias_ (Config.sha384 h)) 0 96 ++ slice upper 0 2728 ++
    slice (Config.lmsSign lower s.boot.lowUsed h) 0 1452

/-- The body of an ATTEST_GET: the length, then up to 4,080 bytes from an offset (Table MGT-5). -/
def reportBody (r : List Byte) (off : Nat) : List Byte := toLE 4 r.length ++ zeros 4 ++ (r.drop off).take 4080

/-- What ATTEST_GET decides (R586, R587). -/
def attest (c : Call) (s : State) : Verdict :=
  let nonce := c.args.take 32
  let off := c.arg 35 32
  let b := s.box c.req.mbx
  if off ≠ 0 then
    match b.report with
    | none => refuseCmd s 0x71
    | some (r, n) => if n = nonce then { st := s, status := 0, body := reportBody r off } else refuseCmd s 0x71
  else if s.fuse.lifecycle = 0 ∨ s.fuse.lifecycle = 7 ∨ s.boot.lmsOut = true ∨ 1024 ≤ s.boot.lowUsed then refuseCmd s 0x43
  else match s.boot.alias_, s.boot.lower with
    | some a, some (lower, upper) =>
      let r := s.report nonce a lower upper
      let s := s.setBox c.req.mbx { b with report := some (r, nonce) }
      { st := { s with boot := { s.boot with lowUsed := s.boot.lowUsed + 1 } }, status := 0, body := reportBody r 0 }
    | _, _ => refuseCmd s 0x43

/-- ATTEST_GET as the request of mailbox `m`. -/
def execAttestGet (m t : Nat) (s : State) : Out State :=
  let s := s.tick t
  onUnit (decide (m < 8)) (s.command m { op := 0x0A00, alen := 36, admin := false, noPlan := true } attest)

end Sys2Proof.Machine
end

