-- ==== Sys2Proof/Machine/Memory.lean ====
section
/-!
DEFINITION. The commands of the fabric memory: requests, messages, mirror writes, patrol scrub, and the answers to the
requests of cores (chapter MEM; R174, R182, R618).
-/
namespace Sys2Proof.Machine

/-- The first memory request steered to a cluster whose MOP passes a test, and the state without it. -/
def State.takeReq (s : State) (cl : Nat) (mop : Nat → Bool) : Option (MReq × State) :=
  (s.takeMem cl fun x => decide (hKind x.pkt.hdr = 5) && mop (hMop x.pkt.hdr)).map fun x =>
    ({ cl := cl, hdr := x.1.pkt.hdr, pay := x.1.pkt.payload, edge := decide (576 ≤ x.1.link ∧ x.1.link < 580), bad := x.1.bad }, x.2)

/-- A READ of an XACC region (R312, R313): lanes are checked, read, rounded once and, with RCLR, cleared. -/
def State.xaccRead (s : State) (q : MReq) (r : BitVec 256) : State :=
  let e0 := elem0 r q.hdr
  let gs := (List.range (hMlen q.hdr / 4)).map fun k => rePbase r + e0 + k
  let bad := gs.filter s.badGran
  let s := (s.count .reads q.cl 0).eccUncorr q.cl bad.length
  if !bad.isEmpty then s.respond q.cl q.hdr stCheck []
  else
    let ls := gs.map fun g => laneOf (s.dramGet (64 * g) 64)
    if !ls.all Lane.resOk then (s.health hResidue 1).respond q.cl q.hdr stResidueFail []
    else
      let outs := ls.map fun l => convert 0 { mode := reRmode r } (l.val wXS)
      let flags := outs.foldl (fun a o => a ||| o.2) 0
      let first := (outs.findIdx? fun o => decide (o.2 ≠ 0)).getD 0
      let s := if hRclr q.hdr then gs.foldl (fun s g => (s.dramPut q.cl (64 * g) (zeros 64)).1) s else s
      s.sendRsp q.cl (mrsp s q.hdr 0 (hPkt q.hdr) false (some (flags, first)) (outs.flatMap fun o => toLE 4 o.1))

/-- A READ of stored bytes (R280, R289). -/
def State.plainRead (s : State) (q : MReq) : State :=
  let bad := s.badIn q.addr (hMlen q.hdr)
  let s := (s.count .reads q.cl 0).eccUncorr q.cl bad.length
  if bad.isEmpty then s.respond q.cl q.hdr 0 (s.dramGet q.addr (hMlen q.hdr)) else s.respond q.cl q.hdr stCheck []

/-- READ (R289): also takes the requests of a reserved MOP, which are refused with TYPE. -/
def execRead (cl : Nat) (x : MemTime) (s : State) : Out State :=
  let s := s.tick x.t
  onUnit (decide (cl < Config.clusters)) (match s.takeReq cl fun m => decide (m = 0 ∨ 5 < m) with
    | none => s
    | some (q, s) => s.decideMem q x.ups fun t s => match t with
      | .region _ r => if reType r = 1 then s.xaccRead q r else s.plainRead q
      | .window i w => s.viewRead q i w)

/-- Granules of a byte range that a write changes: a part of a granule whose check fails is not written (R280). -/
def State.changed (s : State) (a n : Nat) : List Nat :=
  (granules a n).filter fun g => !(s.badGran g && !decide (a ≤ 64 * g ∧ 64 * g + 64 ≤ a + n))

/-- FP32 words written to the elements of an XACC region (R311). -/
def State.xaccWrite (s : State) (cl : Nat) (r : BitVec 256) (e0 : Nat) (bs : List Byte) : State :=
  (List.range (bs.length / 4)).foldl (fun s k =>
    (s.dramPut cl (64 * (rePbase r + e0 + k)) (laneBytes (({} : Lane).add wXS (elemVal 0 (leAt bs (4 * k) 4))))).1) s

/-- WRITE (R289, R311, R314). -/
def execWrite (cl : Nat) (x : MemTime) (s : State) : Out State :=
  let s := s.tick x.t
  onUnit (decide (cl < Config.clusters)) (match s.takeReq cl fun m => decide (m = 1) with
    | none => s
    | some (q, s) => s.decideMem q x.ups fun t s => match t with
      | .window _ _ => s
      | .region e r =>
        let s := s.count .writes cl 0
        if reType r = 1 then (s.xaccWrite cl r (elem0 r q.hdr) q.pay).respond cl q.hdr 0 []
        else
          let gs := s.changed q.addr (hMlen q.hdr)
          let x := s.dramPut cl q.addr q.pay
          x.1.settleWrite cl e r gs (mrsp x.1 q.hdr (if x.2 then 0 else stCheck) (hPkt q.hdr) false none []))

/-- The result of an atomic operation on `n` bytes (Table MEM-6). -/
def atomicOp (aop n old x new : Nat) : Nat :=
  let w := 8 * n
  let x := x % 2 ^ w
  match aop with
  | 0 => (old + x) % 2 ^ w
  | 1 => if old = x then new % 2 ^ w else old
  | 2 => x
  | 3 => if sext w old < sext w x then x else old
  | 4 => if sext w x < sext w old then x else old
  | 5 => max old x
  | _ => min old x

/-- ATOMIC (R307). -/
def execAtomic (cl : Nat) (x : MemTime) (s : State) : Out State :=
  let s := s.tick x.t
  onUnit (decide (cl < Config.clusters)) (match s.takeReq cl fun m => decide (m = 3) with
    | none => s
    | some (q, s) => s.decideMem q x.ups fun t s => match t with
      | .window _ _ => s
      | .region e r =>
        let s := s.count .atomics cl 0
        let n := hMlen q.hdr
        let g := q.addr / 64
        if s.badGran g then (s.eccUncorr cl 1).respond cl q.hdr stCheck []
        else
          let old := leAt (s.dramGet q.addr n) 0 n
          let s := (s.dramPut cl q.addr (toLE n (atomicOp (hAop q.hdr) n old (leAt q.pay 0 8) (leAt q.pay 8 8)))).1
          s.settleWrite cl e r [g] (mrsp s q.hdr 0 (hPkt q.hdr) false none (toLE 8 old)))

/-- ACCUM (R310). -/
def execAccum (cl : Nat) (x : MemTime) (s : State) : Out State :=
  let s := s.tick x.t
  onUnit (decide (cl < Config.clusters)) (match s.takeReq cl fun m => decide (m = 4) with
    | none => s
    | some (q, s) => s.decideMem q x.ups fun t s => match t with
      | .window _ _ => s
      | .region _ r =>
        let x := (s.count .accums cl 0).accumulate cl r (elem0 r q.hdr) (accumAddends (hFmt q.hdr) q.data)
        x.1.respond cl q.hdr (if x.2 then 0 else stCheck) [])

/-- A packet of a message absorbed, its data written: `ok` tells whether every granule was, `gs` which granules the
buddy must learn of (R303, R304, R315, R316). -/
def State.absorbMsg (s : State) (q : MReq) (e : Nat) (r : BitVec 256) (ok : Bool) (gs : List Nat) : State :=
  let h := q.hdr
  let m := (s.msgOf q.cl (hSrc h) (hTag h)).getD
    { cl := q.cl, src := hSrc h, tag := hTag h, lead := q.pay.take 16, since := s.now, sigto := reSigto r, entry := e, hdr := h }
  if !ok then
    (s.putMsg { m with fail := some (m.fail.getD stCheck) }).settleWrite q.cl e r gs (mrsp s h stCheck (hPkt h) false none [])
  else
    let m := { m with got := m.got ++ [hPkt h], count := if hLast h then some (hCount h) else m.count }
    let fin := m.full && m.fail.isNone
    let p := mrsp s h 0 (hPkt h) false none []
    let now (s : State) (p : Packet) : State :=
      if fin then let m := { m with held := some p }; (s.putMsg m).trySignal m else (s.putMsg m).sendRsp q.cl p
    if !rePrimary r then now s p
    else if s.soloNow e then now s { p with hdr := setFld p.hdr 220 213 stMirror }
    else if gs = [] then now s p
    else (s.putMsg { m with mirrors := m.mirrors + 1 }).mirrorChange q.cl e r gs p fin (some (m.src, m.tag))

/-- WRITE_SIGNAL (R303). -/
def execWriteSignal (cl : Nat) (x : MemTime) (s : State) : Out State :=
  let s := s.tick x.t
  onUnit (decide (cl < Config.clusters)) (match s.takeReq cl fun m => decide (m = 2) with
    | none => s
    | some (q, s) => s.decideMem q x.ups fun t s => match t with
      | .window _ _ => s
      | .region e r =>
        let gs := s.changed q.addr (hMlen q.hdr)
        let x := (s.count .writes cl 0).dramPut cl q.addr q.data
        x.1.absorbMsg q e r x.2 gs)

/-- ACCUM_SIGNAL (R310). -/
def execAccumSignal (cl : Nat) (x : MemTime) (s : State) : Out State :=
  let s := s.tick x.t
  onUnit (decide (cl < Config.clusters)) (match s.takeReq cl fun m => decide (m = 5) with
    | none => s
    | some (q, s) => s.decideMem q x.ups fun t s => match t with
      | .window _ _ => s
      | .region e r =>
        let x := (s.count .accums cl 0).accumulate cl r (elem0 r q.hdr) (accumAddends (hFmt q.hdr) q.data)
        x.1.absorbMsg q e r x.2 [])

/-- MESSAGE_TIMEOUT (R304). -/
def execMessageTimeout (cl src tag t : Nat) (s : State) : Out State :=
  let s := s.tick t
  onUnit (decide (cl < Config.clusters)) (match s.msgOf cl src tag with
    | none => s
    | some m => when_ (m.ended.isNone && decide (m.since + m.sigto ≤ s.now)) s (s.failMsg m m.timeoutStatus))

/-- MESSAGE_ENTRY_FREE (R305). -/
def execMessageEntryFree (cl src tag t : Nat) (s : State) : Out State :=
  let s := s.tick t
  onUnit (decide (cl < Config.clusters)) (match s.msgOf cl src tag with
    | none => s
    | some m => when_ (m.ended.any fun f => decide (f + m.sigto ≤ s.now)) s
        { s with mem := { s.mem with msgs := s.mem.msgs.filter fun x => !decide (x.cl = cl ∧ x.src = src ∧ x.tag = tag) } })

/-- The outstanding mirror write of a cluster with a tag. -/
def State.mirrorOf (s : State) (cl tag : Nat) : Option MirrorWr := s.mem.mirrors.find? fun w => decide (w.cl = cl ∧ w.tag = tag)

/-- The answer to a mirror write has not come in time (R316). -/
def State.mirrorLate (s : State) (w : MirrorWr) : Bool := decide (w.sentAt + reMirto (s.regionEnt w.entry) ≤ s.now)

/-- MIRROR_RESPONSE: message timers that are due fire first; an answer after MIRTO comes too late (R304, R315, R316). -/
def execMirrorResponse (cl t : Nat) (s : State) : Out State :=
  let s := s.tick t
  onUnit (decide (cl < Config.clusters)) (match s.takeMem cl fun x =>
      decide (hKind x.pkt.hdr = 6) && (s.mirrorOf cl (hTag x.pkt.hdr)).isSome with
    | none => s
    | some (x, s) => match s.mirrorOf cl (hTag x.pkt.hdr) with
      | none => s
      | some w =>
        let s := s.msgTimers cl
        if answerOf x.pkt = 0 ∧ s.mirrorLate w = false then s.mirrorOk w else s.mirrorFail w)

/-- MIRROR_TIMEOUT (R316). -/
def execMirrorTimeout (cl tag t : Nat) (s : State) : Out State :=
  let s := s.tick t
  onUnit (decide (cl < Config.clusters)) (match s.mirrorOf cl tag with
    | none => s
    | some w => when_ (s.mirrorLate w) s (s.mirrorFail w))

/-- PATROL_SCRUB (R280, R322): the scrub reads a granule whose stored symbols show `upset` errors: none, one that the
ECC corrects, or more, which it cannot. -/
def execPatrolScrub (granule upset : Nat) (s : State) : Out State :=
  onUnit (decide (granule < 4 * Config.dieGranules)) (
    let cl := servingCluster granule
    let s := s.granError cl granule upset
    if s.badGran granule then s.eccUncorr cl 1 else s)

/-! ### Answers to the requests of cores (R174, R182, R618) -/

/-- The core of a cluster with an unanswered fetch of a tag, and the fetch. -/
def State.fetchOf (s : State) (cl tag : Nat) : Option (Nat × Run × CoreReq) :=
  (List.range 128).findSome? fun k =>
    let g := 128 * cl + k
    match (s.core g).run with
    | none => none
    | some r => (r.fetches.find? fun q => decide (q.tag = tag) && q.status.isNone).map fun q => (g, r, q)

/-- The core of a cluster with an unanswered WRITE of a tag, its context and the WRITE. -/
def State.wrOf (s : State) (cl tag : Nat) : Option (Nat × Ctx × CoreReq) :=
  (List.range 128).findSome? fun k =>
    let g := 128 * cl + k
    (s.core g).ctxs.findSome? fun x =>
      (x.wrs.find? fun q => decide (q.tag = tag) && q.status.isNone).map fun q => (g, x, q)

/-- A fetch answered: its bytes land in the LOCAL region, and a wait goes on (R181, R182). -/
def State.landFetch (s : State) (g : Nat) (r : Run) (q : CoreReq) (st : Nat) (data : List Byte) : State :=
  let s := match s.runEnv g r { d := 0, a := 0, b := 0, c := 0, fa := 0, fd := 0, rm := 0, rms := 0, msk := 0, imm := 0 } with
    | none => s
    | some e => if st = 0 then s.localWrite g (e.desc q.desc) (64 * q.beat) data else s
  let fs := modWhere (fun x : CoreReq => decide (x.tag = q.tag) && x.status.isNone) (fun x => { x with status := some st }) r.fetches
  let s := s.setRun g (some { r with fetches := fs })
  s.resumeWait g

/-- A WRITE of a context answered (R174). -/
def State.landWrite (s : State) (g : Nat) (x : Ctx) (q : CoreReq) (st : Nat) : State :=
  let c := s.core g
  let ws := modWhere (fun y : CoreReq => decide (y.tag = q.tag) && y.status.isNone) (fun y => { y with status := some st }) x.wrs
  let s := s.setCore g (c.putCtx { x with wrs := ws })
  s.retire g x.id

/-- FETCH_RESPONSE (R182): the first response steered to the cluster that is not a mirror write's or a MEMWR WRITE's.
One that answers no request is discarded (R618). -/
def execFetchResponse (cl t : Nat) (s : State) : Out State :=
  let s := s.tick t
  onUnit (decide (cl < Config.clusters)) (match s.takeMem cl fun x =>
      decide (hKind x.pkt.hdr = 6) && (s.mirrorOf cl (hTag x.pkt.hdr)).isNone && (s.wrOf cl (hTag x.pkt.hdr)).isNone with
    | none => s
    | some (x, s) => match s.fetchOf cl (hTag x.pkt.hdr) with
      | none => s
      | some (g, r, q) =>
        let st := answerOf x.pkt
        s.landFetch g r q (if st = 0 ∧ x.pkt.payload.length ≠ 64 * q.n then stCheck else st) x.pkt.payload)

/-- MEMWR_RESPONSE (R174). -/
def execMemwrResponse (cl t : Nat) (s : State) : Out State :=
  let s := s.tick t
  onUnit (decide (cl < Config.clusters)) (match s.takeMem cl fun x =>
      decide (hKind x.pkt.hdr = 6) && (s.wrOf cl (hTag x.pkt.hdr)).isSome with
    | none => s
    | some (x, s) => match s.wrOf cl (hTag x.pkt.hdr) with
      | none => s
      | some (g, c, q) => s.landWrite g c q (answerOf x.pkt))

/-- REQUEST_RESEND (R618): resent at most four times, then it counts as answered with TIMEOUT. -/
def execRequestResend (cl tag t : Nat) (s : State) : Out State :=
  let s := s.tick t
  let again (q : CoreReq) : CoreReq := { q with sentAt := s.now, resends := q.resends + 1 }
  onUnit (decide (cl < Config.clusters)) (match s.fetchOf cl tag with
    | some (g, r, q) =>
      if s.now < q.sentAt + resendNs then s
      else if q.resends < 4 then
        let s := s.setRun g (some { r with fetches := modWhere (fun x : CoreReq => decide (x.tag = tag) && x.status.isNone) again r.fetches })
        s.fromCluster cl 3 (s.slotPart r.ctx.slot) q.pkt
      else s.landFetch g r q stTimeout []
    | none => match s.wrOf cl tag with
      | none => s
      | some (g, x, q) =>
        if s.now < q.sentAt + resendNs then s
        else if q.resends < 4 then
          let c := s.core g
          let s := s.setCore g (c.putCtx { x with wrs := modWhere (fun y : CoreReq => decide (y.tag = tag) && y.status.isNone) again x.wrs })
          s.fromCluster cl 3 (s.slotPart x.id.slot) q.pkt
        else s.landWrite g x q stTimeout)

end Sys2Proof.Machine
end

