-- ==== Sys2Proof/Machine/Links.lean ====
section
/-!
DEFINITION. The commands of the links: blocks, replay, degrade, training, discovery, stopping, and the words that a link
sends on its own (R336 to R361, R392, R401, R452, R472, R473).
-/
namespace Sys2Proof.Machine

/-- A link command: it changes the state where its condition holds. -/
def onLink (l t : Nat) (s : State) (ok : State → Link → Bool) (f : State → State) : Out State :=
  let s := s.tick t
  onUnit (decide (l < Config.links)) (when_ (ok s (s.link l)) s (f s))

/-- The link sends and receives blocks. -/
def Link.live (k : Link) : Bool := decide (k.st = .discover ∨ k.st = .init ∨ k.st = .up ∨ k.st = .stopping ∨ k.st = .retrain)

/-- BLOCK_TX (R336, R486). -/
def execBlockTx (l : Nat) (parity : Option Nat) (t : Nat) (s : State) : Out State :=
  onLink l t s (fun _ k => k.live) fun s =>
    let s := match parity with | none => s | some v => if v < 8 then s.headerParity l v else s
    drainWait (s.blockTx l)

/-- BLOCK_RX (R332, R334, R348). -/
def execBlockRx (l : Nat) (b : Block) (fec : FecReport) (t : Nat) (s : State) : Out State :=
  onLink l t s (fun _ k => k.live) fun s => s.blockRx l t b fec

/-- When the sender last made progress (R347). -/
def Link.progressAt (k : Link) : Nat :=
  match k.held with
  | [] => k.ackAt
  | h :: _ => max k.ackAt (max h.at_ (if k.replay = 0 then 0 else k.replayAt))

/-- REPLAY_TIMEOUT: no ACK progress for T_REPLAY while blocks are held (R347, Table LNK-5). -/
def execReplayTimeout (l t : Nat) (s : State) : Out State :=
  onLink l t s
    (fun s k => decide ((k.st = .up ∨ k.st = .stopping) ∧ k.held ≠ [] ∧ k.progressAt + k.tReplay ≤ s.now))
    fun s =>
      let k := s.link l
      s.startReplay l (if k.replay = 0 ∨ k.replayAt < k.ackAt then 1 else k.replay + 1)

/-- NAK_REPEAT: T_REPLAY in WAIT since the last NAK (R348). -/
def execNakRepeat (l t : Nat) (s : State) : Out State :=
  onLink l t s (fun s k => k.live && k.rxWait && decide (k.nakAt + k.tReplay ≤ s.now)) fun s => s.askReplay l

/-- Whether what was seen of a lane fails it: 1 µs without signal, the loss of clock recovery or codeword lock, or a symbol
error ratio above 2 × 10^−4 over 10 ms (R351). -/
def laneFails : LaneWhy → Bool
  | .signal ns => decide (1000 ≤ ns)
  | .lock => true
  | .errors errs symbols => decide (symbols < 5000 * errs)

/-- LANE_FAIL: a receive lane has met a condition of R351 that the PHY sees; uncorrectable codewords come with BLOCK_RX. -/
def execLaneFail (l : Nat) (x : LaneReport) (t : Nat) (s : State) : Out State :=
  onLink l t s (fun _ k => k.live && bit k.good x.lane && laneFails x.why) fun s => s.laneFailed l x.lane

/-- DEGRADE_REPEAT: an unanswered DEGRADE is sent again every 1 µs (R349). -/
def execDegradeRepeat (l t : Nat) (s : State) : Out State :=
  onLink l t s
    (fun s k => match k.degrade with
      | none => false
      | some x => decide (x.2 + 1000 ≤ s.now ∧ s.now < x.1 + 100000))
    fun s => s.askDegrade l (match (s.link l).degrade with | none => s.now | some x => x.1)

/-- DEGRADE_TIMEOUT: no answer within 100 µs (R353). -/
def execDegradeTimeout (l t : Nat) (s : State) : Out State :=
  onLink l t s
    (fun s k => match k.degrade with | none => false | some x => decide (x.1 + 100000 ≤ s.now))
    fun s => s.enterRetrain l 0x57 true

/-- The lane set of a retrained link: the one in use while its lanes are good in both directions, else the next of R352, and
never a wider one (R350, R352, R354). -/
def Link.retrainSet (k : Link) (full good : Nat) : Option Nat :=
  if k.lanes &&& good = k.lanes then some k.lanes else chooseSet full (popcount 8 k.lanes) good

/-- The partner that a retrained link finds is the one it had: same serial number and coordinate (R350). -/
def samePartner (h old : BitVec 512) : Bool := decide (fld h 183 120 = fld old 183 120 ∧ fld h 63 32 = fld old 63 32)

/-- RETRAIN_DONE: the lanes good in both directions are locked, and the partner's HELLO has
come; with the same partner a link that has been UP returns to UP and resends from the ACK reported (R327, R350). -/
def execRetrainDone (l : Nat) (x : Retrained) (ack t : Nat) (s : State) : Out State :=
  onLink l t s (fun _ k => decide (k.st = .retrain)) fun s =>
    let k := s.link l
    if 64 < x.skew then s.linkDown l 0x51
    else match k.retrainSet (s.fullLanes l) (x.good &&& k.good), x.hello, k.hello with
    | some set, some h, some old =>
      if samePartner h old ∧ k.readySent = true ∧ k.ready.isSome = true then
        let s := (s.setLink l { k with good := x.good &&& k.good, lanes := set, unit := 0, hello := some h }).ackRx l
          (ack % 16384) false
        let k := s.link l
        let s := s.setLink l { k with resend := k.held, replay := if k.held.isEmpty then 0 else 1, replayAt := s.now }
        (s.toState l .up (if k.lanes = s.fullLanes l then 0 else 0x57)).linkEvent l
      else s.linkDown l 0x50
    | _, _, _ => s.linkDown l 0x50

/-- SIGNAL_DETECT (R359). -/
def execSignalDetect (l t : Nat) (s : State) : Out State :=
  onLink l t s (fun _ k => decide (k.st = .signal)) fun s => s.toState l .equalise (s.link l).cause

/-- EQUALISE_DONE: the lanes `good` in both directions go on (R351, R352, R359). -/
def execEqualiseDone (l good t : Nat) (s : State) : Out State :=
  onLink l t s (fun _ k => decide (k.st = .equalise)) fun s => s.judgeLanes l good .fecLock

/-- EQUALISE_TIMEOUT: at 20 ms the lanes that have not adapted are failed (R359). -/
def execEqualiseTimeout (l good t : Nat) (s : State) : Out State :=
  onLink l t s (fun s k => decide (k.st = .equalise ∧ k.since + 20000000 ≤ s.now)) fun s => s.judgeLanes l good .fecLock

/-- FEC_LOCK_DONE: lanes are locked; HELLO and TSYNC begin, and skew above 64 ns
fails the training (R327, R359). -/
def execFecLockDone (l : Nat) (x : LanesLocked) (t : Nat) (s : State) : Out State :=
  onLink l t s (fun _ k => decide (k.st = .fecLock)) fun s =>
    if 64 < x.skew then s.linkDown l 0x51
    else
      let s := s.judgeLanes l (x.good &&& (s.link l).good) .discover
      if (s.link l).st = .discover then (s.sendHello l).queueTsync l else s

/-- FEC_LOCK_TIMEOUT (R359). -/
def execFecLockTimeout (l t : Nat) (s : State) : Out State :=
  onLink l t s (fun s k => decide (k.st = .fecLock ∧ k.since + 1000000 ≤ s.now)) fun s => s.linkDown l 0x51

/-- DISCOVER_TIMEOUT (R359). -/
def execDiscoverTimeout (l t : Nat) (s : State) : Out State :=
  onLink l t s (fun s k => decide (k.st = .discover ∧ k.since + 1000000 ≤ s.now)) fun s => s.linkDown l 0x51

/-- INIT_TIMEOUT (R359). -/
def execInitTimeout (l t : Nat) (s : State) : Out State :=
  onLink l t s (fun s k => decide (k.st = .init ∧ k.since + 100000 ≤ s.now)) fun s => s.linkDown l 0x51

/-- LINK_RESTART: a DOWN link starts again through SIGNAL after 1 s (R349, R359). -/
def execLinkRestart (l t : Nat) (s : State) : Out State :=
  onLink l t s (fun s k => decide (k.st = .down ∧ k.since + 1000000000 ≤ s.now) && !s.roe.c6) fun s => s.startLink l

/-- The packet in progress on a VC of a stopping link is ended: what is left of it gives way to ABORT (R355, R359). -/
def State.abortChan (s : State) (l v : Nat) : State :=
  let c := s.chan l v
  let sent (o : Nat × Nat) : Bool := match s.bufOf o.1 with
    | none => false
    | some b => match b.copies[o.2]? with | none => false | some k => decide (0 < k.moved)
  let mark : List PFlit := match c.pre, c.owner with
    | f :: _, _ => if f.head then [] else if f.n = 0 then [f] else [abortMark v 0x5A f.id]
    | [], some o => if sent o then [abortMark v 0x5A o.1] else []
    | [], none => []
  let s := match c.owner with
    | none => s
    | some o => s.endCopy o.1 o.2 none
  s.setChan l v { s.chan l v with owner := none, next_ := none, pre := mark }

/-- STOPPING_ABORT_TIMEOUT: packets still in progress 10 µs after STOPPING began are aborted (R359). -/
def execStoppingAbortTimeout (l t : Nat) (s : State) : Out State :=
  onLink l t s (fun s k => decide (k.st = .stopping ∧ k.since + 10000 ≤ s.now)) fun s =>
    (List.range 8).foldl (fun s v => s.abortChan l v) s

/-- No packet is in progress on a link. -/
def State.linkIdle (s : State) (l : Nat) : Bool :=
  (s.link l).ctl.isEmpty && (List.range 8).all fun v => (s.chan l v).owner.isNone && (s.chan l v).pre.isEmpty

/-- When a stopping link last sent a new block: the wait for ACKs runs from there (R359). -/
def Link.lastSent (k : Link) : Nat := k.held.foldl (fun n h => max n h.at_) k.since

/-- STOPPING_DONE: nothing is in progress, and every block is acknowledged or T_REPLAY has passed since the last one
(R359). -/
def execStoppingDone (l t : Nat) (s : State) : Out State :=
  onLink l t s
    (fun s k => decide (k.st = .stopping) && s.linkIdle l && (k.held.isEmpty || decide (k.lastSent + k.tReplay ≤ s.now)))
    fun s => s.linkOff l

/-- HELLO_REPEAT: every 10 µs during discovery, with another TSYNC until the loop time has been measured, and in a retrain
(R346, R349, R350). -/
def execHelloRepeat (l t : Nat) (s : State) : Out State :=
  onLink l t s (fun s k => decide ((k.st = .discover ∨ k.st = .retrain) ∧ k.helloAt + 10000 ≤ s.now)) fun s =>
    let s := s.sendHello l
    if (s.link l).st = .discover ∧ (s.link l).looped = false then s.queueTsync l else s

/-- TSYNC_SEND: every 16 µs on an UP link, and to the Trail source of a grandmaster that has one (R452, R457). -/
def execTsyncSend (l t : Nat) (s : State) : Out State :=
  let s := s.tick t
  onUnit (decide (l < Config.links)) (
    let k := s.link l
    (when_ (decide (k.st = .up ∧ k.tsAt + 16000 ≤ s.now)) s (s.queueTsync l)).trailTsyncTick)

/-- DIGEST_HEARTBEAT: at each FT that is a multiple of 1 ms, on every UP link and over the Trail (R472). -/
def execDigestHeartbeat (t : Nat) (s : State) : Out State :=
  let s := s.tick t
  .next (when_ (decide (s.ftNow / 1000000 ≠ s.mp.digAt / 1000000)) s (
    let w := s.digestWord
    let up := (s.links.filter fun p => decide (p.2.st = .up)).map (·.1)
    let s := up.foldl (fun s l =>
      let k := s.link l
      s.setLink l { k with uctl := k.uctl ++ [BitVec.ofNat 512 w.toNat] }) s
    let s := s.trailCast 0x3 (toLE 16 w.toNat)
    { s with mp := { s.mp with digAt := s.ftNow } }))

/-- DIGEST_MISSING: no DIGEST word on a USED link for 2 heartbeats (R473). -/
def execDigestMissing (l t : Nat) (s : State) : Out State :=
  onLink l t s
    (fun s k => decide (k.st = .up ∧ k.disc = .used ∧ max k.since (k.digAt.getD 0) + 2000000 ≤ s.now))
    fun s =>
      let k := s.link l
      let s := s.setLink l { k with digAt := some s.now, digCmp := 4, digLasting := false }
      (s.count .digestMissing l 0).event evDigestMissing 0 l (s.linkParts l)

/-- REPLAY_AGE_TIMEOUT: a block unacknowledged for 2 ms takes the link DOWN (R392). -/
def execReplayAgeTimeout (l t : Nat) (s : State) : Out State :=
  onLink l t s
    (fun s k => decide (k.st = .up ∨ k.st = .retrain) &&
      (match k.held with | [] => false | h :: _ => decide (h.at_ + 2000000 ≤ s.now)))
    fun s => s.linkDown l 0x55

/-- NEIGHBOUR_MISSING_TIMEOUT: the expected neighbour is not at INIT 1 s after PORT_ENABLE (R401). -/
def execNeighbourMissingTimeout (l t : Nat) (s : State) : Out State :=
  onLink l t s
    (fun s k => match k.awaited with | none => false | some a => decide (a + 1000000000 ≤ s.now))
    fun s =>
      let s := s.setLink l { s.link l with awaited := none }
      match s.newest with
      | none => s
      | some r => if fld (r.nbr l) 39 32 = 0xFF then s else s.setDisc l .missing

end Sys2Proof.Machine
end

