-- ==== Sys2Proof/Machine/Switch.lean ====
section
/-!
DEFINITION. The commands of the switch core: ingress lookup, arbitration, limits, refills, gates, depth copies and
congestion maps (R382, R386, R389, R392, R413, R418 to R442).
-/
namespace Sys2Proof.Machine

/-! ### Ingress -/

/-- What the lookup would give an arriving packet, without its effects; a packet under R497 counts as taken by a unit. -/
def State.ingressHits (s : State) (l vc : Nat) (h : BitVec 256) : List Hit :=
  match s.newest with
  | none => [if malformed vc h then .drop .malformed else bootLookup s (.link l) vc h]
  | some r => match fawnTarget s (.link l) r with
    | some _ => [.mp]
    | none => match admission s r (.link l) vc h with
      | .drop c => [.drop c]
      | .go vc' h' r' _ => (lookup s r' (dieOfLink l) vc' h').map (·.2)

/-- Whether a lookup result is a port. -/
def Hit.isPort : Hit → Bool
  | .port _ _ => true
  | _ => false

/-- Whether a lookup result is a drop. -/
def Hit.isDrop : Hit → Bool
  | .drop _ => true
  | _ => false

/-- A header is that of a TBARRIER result bound for an endpoint link, whose hold takes it whole (R246). -/
def State.holdsWhole (s : State) (l v : Nat) (h : BitVec 256) (hs : List Hit) : Bool :=
  match s.newest with
  | none => false
  | some r =>
    let h := if r.endpointLink l then setFld h 92 87 (leOwn (r.linkEnt l)) else h
    decide (v = 1 ∨ v = 6) && isTbarrier s h && hs.any fun x => match x with | .port e _ => r.endpointLink e | _ => false

/-- The head of a packet still being received is looked up: a packet for ports alone goes on by cut-through, one for a unit
of the part or for a timed-release hold waits for its tail, and a dropped one is discarded as it arrives (R22, R26, R246,
R413). -/
def State.ingressHead (s : State) (l v : Nat) (p : RxPkt) : State :=
  let bs := p.flits.flatMap fun f => toLE 64 f.toNat
  let h := BitVec.ofNat 256 (ofLE (bs.take 32))
  let n := p.flits.length
  let hs := s.ingressHits l v h
  let free (s : State) : State := s.freeCredits l v (s.poolOn l v h) n
  let mode (s : State) (m : RxMode) : State := s.setLink l { s.link l with rx := (s.link l).rx.put v { p with mode := m } }
  if (hs.all fun x => x.isPort || x.isDrop) && !s.holdsWhole l v h hs then
    let r := arrive s (.link l) v p.total n { hdr := h, payload := (bs.drop 32).take (hLen h) } false
    match r.2 with
    | some id => mode r.1 (.through id)
    | none => mode (free r.1) .drop
  else mode (free s) .gather

/-- The drop of a packet whose header shows a parity error, counted (R486). -/
def State.parityDrop (s : State) (l v n : Nat) (h : BitVec 256) : State :=
  ((s.freeCredits l v (s.poolOn l v h) n).count .hdrParity 0 0).health hInternal 1

/-- PACKET_INGRESS (R382, R486): the oldest packet of the VC whose lookup is due. -/
def execPacketIngress (l v : Nat) (parity : Bool) (t : Nat) (s : State) : Out State :=
  let s := s.tick t
  onUnit (decide (l < Config.links ∧ v < 8)) (
    let k := s.link l
    match takeFirst (fun x : Nat × Packet => decide (x.1 = v)) k.rxq with
    | some (x, rest) =>
      let s := s.setLink l { k with rxq := rest }
      if parity then s.parityDrop l v (flitsOf x.2.payload.length) x.2.hdr else s.ingressWhole l v x.2 true
    | none => match k.rx.find v with
      | none => s
      | some p =>
        if p.mode = .waits ∧ p.flits ≠ [] then
          if parity then (s.setLink l { k with rx := k.rx.put v { p with mode := .drop } }).parityDrop l v p.flits.length p.hdr
          else s.ingressHead l v p
        else s)

/-! ### Limits -/

/-- The flits of a packet taken out of a prefetch from which its head has not left. -/
def State.dropHead (s : State) (l v id : Nat) : State :=
  let c := s.chan l v
  s.setChan l v { c with pre := c.pre.filter fun f => decide (f.id ≠ id) }

/-- The old head of packet `id` in the prefetch of one channel dropped and counted at that egress link; a copy that the hold
limit has cut is not counted again (R392, R404, R424). -/
def State.ageChan (s : State) (id : Nat) (x : (Nat × Nat) × Chan) : State :=
  if (x.2.pre.any fun f => f.head && decide (f.id = id ∧ f.n ≠ 0 ∧ f.at_ + 7000000 ≤ s.now)) &&
      !(x.2.pre.any fun f => decide (f.id = id ∧ f.n = 0)) then
    let s := match s.bufOf id with
      | none => s
      | some b => match b.copies.findIdx? fun k : Copy => decide (k.link = x.1.1 ∧ k.vc = x.1.2) with
        | none => s
        | some k => s.endCopy id k none
    (s.dropHead x.1.1 x.1.2 id).count .aged x.1.1 0
  else s

/-- The copies of packet `id` that are still in the buffer dropped and counted under `idx`, once it is old (R392). -/
def State.ageBuf (s : State) (id idx : Nat) : State :=
  match s.bufOf id with
  | none => s
  | some b =>
    if b.at_ + 7000000 ≤ s.now then
      b.copies.zipIdx.foldl (fun s x => if x.1.moved = 0 then (s.endCopy id x.2 none).count .aged idx 0 else s) s
    else s

/-- PACKET_AGE_TIMEOUT: copies whose head is still inside the switch 7 ms after it was accepted are dropped (R392). -/
def execPacketAgeTimeout (id t : Nat) (s : State) : Out State :=
  let s := s.tick t
  let idx := match s.bufOf id with | none => 581 | some b => b.acct.idx
  .next (drainWait ((s.sw.chans.foldl (fun s x => s.ageChan id x) s).ageBuf id idx))

/-- The cause of a cut at the hold limit: LINK_DOWN when the packet's tail has yet to come over a link that retrains, else
HOLD_CUT (R355, log entry 34). -/
def State.cutCause (s : State) (id : Nat) : Nat :=
  match s.bufOf id with
  | none => 0x54
  | some b => match b.acct with
    | .link l _ => if b.got < b.flits ∧ (s.link l).st = .retrain then 0x50 else 0x54
    | _ => 0x54

/-- HOLD_CUT: `cycles` hold cycles have passed on a channel whose owner has no flit to move (R355, R424). -/
def execHoldCut (l v cycles t : Nat) (s : State) : Out State :=
  let s := s.tick t
  onUnit (decide (l < Config.links ∧ v < 8)) (
    let c := s.chan l v
    match c.owner with
    | none => s
    | some o =>
      if decide (s.holdUs l * 1100 ≤ cycles ∧ c.pre.length < preCap v) && decide (s.leftToMove o ≠ 0) then
        let s := (s.endCopy o.1 o.2 (some (s.cutCause o.1))).count .holdCuts l 0
        let s := (s.event evHoldCut 0 (l + v <<< 16) (s.linkParts l)).health hHoldCut 1
        drainWait (s.arbitrate l v)
      else s)

/-- STARVE: the request of a packet has waited beyond STARVEUS (R425). -/
def execStarve (l v id t : Nat) (s : State) : Out State :=
  let s := s.tick t
  onUnit (decide (l < Config.links ∧ v < 8)) (
    match s.bufOf id with
    | none => s
    | some b => match b.copies.findIdx? fun k => decide (k.link = l ∧ k.vc = v) && !k.started with
      | none => s
      | some k => match b.copies[k]? with
        | none => s
        | some cp =>
          if (cp.since.any fun x => decide (x + s.starveNs l < s.now)) && !cp.starved &&
              (s.requests l v).any fun r => decide (r.id = id) then
            let s := (s.setBufPkt b (b.modCopy k fun x => { x with starved := true })).count .starveEvents l v
            let c := s.chan l v
            if c.starve then s
            else (s.setChan l v { c with starve := true }).event evStarve 0 (l + v <<< 16) (s.linkParts l)
          else s)

/-! ### Arbitration -/

/-- OUTPUT_ARBITRATION: one selection on a channel; a link that carries no traffic gives its packets up (R344, R401, R419,
R435). -/
def execOutputArbitration (l v t : Nat) (s : State) : Out State :=
  let s := s.tick t
  onUnit (decide (l < Config.links ∧ v < 8)) (
    let k := s.link l
    if k.st = .stopping then drainWait (s.flushLink l true)
    else if !(k.st = .up ∨ k.st = .retrain) ∨ k.disc ≠ .used then drainWait (s.flushLink l false)
    else if !bit (k.ready.getD 0) v then drainWait (s.dropVc l v)
    else drainWait (fillPre l v 300 (s.arbitrate l v)))

/-! ### Shapers, gates and depth copies -/

/-- The refill of one channel, `n` times, under the entry of the active plan (R430, R431). -/
def State.refill (s : State) (l v n : Nat) (e : BitVec 64) : State :=
  let old := s.shaper l v
  let c := s.chan l v
  if !shEn e then
    if shEn old then (s.setChan l v { c with tokens := none }) else s
  else
    let b : Int := shBurst e
    let tok : Int := if shEn old then (c.tokens.getD (shBurst old)) + n * shRate e else b
    s.setChan l v { c with tokens := some (min b tok) }

/-- SHAPER_REFILL: at each FT that is a multiple of 256 ns; changed entries take effect (R430, R431). -/
def execShaperRefill (t : Nat) (s : State) : Out State :=
  let s := s.tick t
  let n := s.ftNow / 256 - s.sw.refillAt / 256
  .next (when_ (decide (s.ftNow / 256 ≠ s.sw.refillAt / 256)) s (
    let ents : List ((Nat × Nat) × BitVec 64) := match s.plans.active with
      | none => []
      | some p => p.sched.zipIdx.flatMap fun x => x.1.2.zipIdx.map fun y => ((x.2, y.2), y.1)
    let s := ents.foldl (fun s x => s.refill x.1.1 x.1.2 (max 1 n) x.2) s
    let force := ents.foldl (fun (m : AMap (Nat × Nat) (BitVec 64)) x => if shEn x.2 then m.put x.1 x.2 else m) []
    { s with sw := { s.sw with refillAt := s.ftNow, shapers := if s.plans.active.isNone then s.sw.shapers else force } }))

/-- A gate list put into force on a link; one without entries opens every gate (R432). -/
def State.setGate (s : State) (l base : Nat) (g : BitVec 128 × List (BitVec 64)) : State :=
  let run := gateRun base g
  { s with sw := { s.sw with
      gateNext := s.sw.gateNext.drop l
      gates := if run.ents.isEmpty then s.sw.gates.drop l else s.sw.gates.put l run } }

/-- GATE_TAKEOVER: a committed list takes over at its TAKEOVER (R434). -/
def execGateTakeover (l t : Nat) (s : State) : Out State :=
  let s := s.tick t
  onUnit (decide (l < Config.links)) (
    match s.sw.gateNext.find l with
    | none => s
    | some g => if s.ftSet ∧ fld g.1 63 0 ≤ s.ftNow then s.setGate l (fld g.1 63 0) g else s)

/-- QU_REFRESH: a die copies the depth of every up-link (R386). -/
def execQuRefresh (d : Nat) (s : State) : Out State :=
  onUnit (decide (d < 4)) (
    match s.newest with
    | none => s
    | some r =>
      (List.range 32).foldl (fun s u => (List.range 8).foldl (fun s v =>
        { s with sw := { s.sw with q := s.sw.q.put (d, u, v) (s.voq (r.upLink u) v) } }) s) s)

/-- ROUTE_SET_DISCARD: a superseded set goes 50 ms after the commit FT (R389). -/
def execRouteSetDiscard (t : Nat) (s : State) : Out State :=
  let s := s.tick t
  let kept := s.plans.routes.filter fun h => match h.until_ with | none => true | some u => decide (s.now < u)
  .next { s with plans := { s.plans with routes := kept } }

/-! ### Congestion maps (R439 to R442) -/

/-- The depth code of a channel (R440). -/
def depthCode (n : Nat) : Nat := if n = 0 then 0 else min 15 (n.log2 + 1)

/-- The map's payload (Table SWC-9). -/
def State.cmap (s : State) (ft : Nat) : List Byte :=
  let tel := s.mp.telem
  let named (l : Nat) : Bool := match s.newest with
    | none => decide (576 ≤ l)
    | some r => s.namesLink l && !(decide (r.role = 1) && decide (576 ≤ l))
  let code (l v : Nat) : Nat := if named l then depthCode (s.depth l v) else 0
  let depth := (List.range 580).flatMap fun l =>
    (List.range 4).map fun k => BitVec.ofNat 8 (code l (2 * k) + 16 * code l (2 * k + 1))
  let starve := (List.range 640).foldl (fun n l =>
    if (List.range 8).any fun v => (s.chan l v).starve then n + 2 ^ l else n) 0
  toLE 8 ft ++ toLE 4 s.selfCoord ++ toLE 4 tel.seq ++ toLE 4 tel.interval ++ zeros 44 ++ depth ++ toLE 80 starve ++ zeros 32

/-- Whether a waiting packet is a congestion map. -/
def isCmap (o : OutPkt) : Bool := decide (o.acct = .mp ∧ o.vc = 7 ∧ hKind o.pkt.hdr = 8)

/-- Congestion maps reach OFF: the disables complete, and a queued enable runs (R515 to R517). -/
def State.telemOff (s : State) : State :=
  let tel := s.mp.telem
  let s := { s with mp := { s.mp with telem := { fn := {} } } }
  let s := tel.fn.stops.foldl (fun s r => s.complete r 0 0) s
  match tel.fn.queued with
  | some (r, [dst, us, part]) =>
    { s with mp := { s.mp with telem :=
      { fn := { st := .starting, start := some r }, dest := some dst, interval := us, part := part, at_ := some s.ftNow } } }
  | _ => s

/-- CMAP_TAKE: at each FT that is a multiple of the interval a map is taken and sent; one that has not left the MP is
replaced (R439 to R442). -/
def execCmapTake (t : Nat) (s : State) : Out State :=
  let s := s.tick t
  let s := drainWait s
  let tel := s.mp.telem
  let waiting := s.sw.wait.any isCmap
  if tel.fn.st = .stopping then .next (when_ (!waiting) s s.telemOff)
  else match tel.dest with
    | none => .next s
    | some dst =>
      let step := tel.interval * 1000
      let due := match tel.at_ with | none => true | some a => decide (s.ftNow / step ≠ a / step)
      .next (when_ (s.mp.running && due && decide (step ≤ s.ftNow ∧ tel.fn.st ≠ .off)) s (
        let s := if waiting then
            ({ s with sw := { s.sw with wait := s.sw.wait.filter fun o => !isCmap o } }).count .cmapLost 0 0
          else s
        let ft := s.ftNow / step * step
        let pay := s.cmap ft
        let s := { s with mp := { s.mp with telem := { tel with
          seq := (tel.seq + 1) % 2 ^ 32, at_ := some s.ftNow, fn := { tel.fn with st := .on, start := none } } } }
        let s := (s.fromMp 7 tel.part (mkPkt (mkHdr [⟨31, 0, dst⟩, ⟨99, 96, 8⟩]) pay)).count .cmapSent 0 0
        match tel.fn.start with
        | none => s
        | some r => s.complete r 0 0))

end Sys2Proof.Machine
end

