-- ==== Sys2Proof/Machine/Fence.lean ====
section
/-!
DEFINITION. Error classes and the fence: which partitions a unit's error reaches, and what the part does to them
(R475 to R478, R485, R489, R490).
-/
namespace Sys2Proof.Machine

/-! ### Reach (R477, Table RES-1) -/

/-- The active plan's slots that some core of a cluster in [lo, hi) executes or whose elements it owns. -/
def Plan.coreSlots (p : Plan) (cl k : Nat) : List Nat :=
  ((p.progs.filter fun r => decide (r.cluster = cl ∧ heCore0 r.head ≤ k ∧ k < heCore0 r.head + heNcore r.head)).map
    fun r => heSlot r.head) ++
  ((p.owners.filter fun o => decide (o.1 = cl ∧ owCore0 o.2 ≤ k ∧ k < owCore0 o.2 + owNcore o.2)).map fun o => owSlot o.2)

/-- Partitions of the regions that a cluster serves (R36, log entry 16). -/
def Plan.regionParts (p : Plan) (mine : Nat → Bool) : List Nat :=
  (p.regions.filter fun r => reValid r.2 && mine (servingCluster (reBase r.2))).map fun r => rePart r.2

/-- Partitions of the links in a list, by PARTMASK. -/
def Plan.linkMaskParts (p : Plan) (ls : List Nat) : List Nat :=
  (List.range 64).filter fun x => ls.any fun l => lePart (p.route.linkEnt l) x

/-- Partitions that use a cluster controller (R477). -/
def Plan.ctlParts (p : Plan) (cl : Nat) : List Nat :=
  ((p.owners.filter fun o => decide (o.1 = cl)).map fun o => p.partOf (owSlot o.2)) ++
  p.regionParts (fun c => decide (c = cl)) ++
  p.linkMaskParts ((dieLinks p.split p.route.role (dieOf cl)).filter fun l => decide (l / 16 = cl))

/-- Partitions with a link, slot or region on a die. -/
def Plan.dieParts (p : Plan) (d : Nat) : List Nat :=
  ((p.owners.filter fun o => decide (dieOf o.1 = d)).map fun o => p.partOf (owSlot o.2)) ++
  p.regionParts (fun c => decide (dieOf c = d)) ++ p.linkMaskParts (dieLinks p.split p.route.role d)

/-- Partitions in the reach of a unit's error. -/
def State.reach (s : State) (u : UnitRef) : List Nat :=
  match s.plans.active with
  | none => []
  | some p =>
    let xs := match u with
      | .core g => (p.coreSlots (clusterOf g) (g % 128)).map p.partOf
      | .clusterCtl cl => p.ctlParts cl
      | .die d => p.dieParts d
      | .bridge d e => p.dieParts d ++ p.dieParts e
    (List.range 64).filter xs.contains

/-- Dies of a unit. -/
def unitDies : UnitRef → List Nat
  | .core g => [dieOf (clusterOf g)] | .clusterCtl c => [dieOf c] | .die d => [d] | .bridge d e => [d, e]
/-- Cluster of a unit, 0xFF for none. -/
def unitCluster : UnitRef → Nat
  | .core g => clusterOf g | .clusterCtl c => c | _ => 0xFF
/-- Class of a unit's error. -/
def unitClass : UnitRef → Nat
  | .core _ => 4 | .clusterCtl _ => 4 | _ => 5

/-! ### The fence (R489) -/

/-- Live messages of regions of a partition end failed with a status (R304). -/
def State.failMsgs (s : State) (part st : Nat) : State :=
  s.mem.msgs.foldl (fun s m =>
    if m.ended.isNone ∧ rePart (s.regionEnt m.entry) = part then s.failMsg m st else s) s

/-- Endpoint links of a partition moved to STOPPING. -/
def State.stopEndpoints (s : State) (part : Nat) : State :=
  match s.newest with
  | none => s
  | some r =>
    s.links.foldl (fun s x =>
      let e := r.linkEnt x.1
      if r.endpointLink x.1 && leOwnValid e && decide (leOwn e = part) &&
        !decide ((s.link x.1).st = .disabled ∨ (s.link x.1).st = .stopping) then s.linkStop x.1
      else s) s

/-- One partition fenced; `cause` is what its instances end with. -/
def State.fence (s : State) (part cls cause : Nat) (dies : List Nat) : State :=
  let s := s.failWhere (fun e => !isShadow e.slot && decide (e.part = part)) cause
  let s := (s.failMsgs part stFence).stopEndpoints part
  let x := s.part part
  let s := s.setPart part { x with fenced := true, c5 := if cls = 5 then x.c5 ++ dies else x.c5 }
  s.event evPartFenced 0 (part + cls <<< 8) [part]

/-- An uncorrectable error of class C4 or C5: it is reported, and every partition in its reach is fenced (R475, R489). -/
def State.unitError (s : State) (u : UnitRef) : State :=
  let ps := s.reach u
  let c := unitClass u
  let det := c + ((unitDies u).headD 0) <<< 8 + unitCluster u <<< 16
  let s := (s.health (if c = 4 then hC4 else hC5) 1).event evErrorClass 0 det ps
  ps.foldl (fun s p => s.fence p c stFence (unitDies u)) s

/-- The unit exists (Table ARC-1). -/
def unitOk : UnitRef → Bool
  | .core g => decide (g < Config.cores)
  | .clusterCtl c => decide (c < Config.clusters)
  | .die d => decide (d < 4)
  | .bridge d e => decide (d < 4 ∧ e < 4 ∧ d ≠ e)

/-- UNIT_ERROR (R489). -/
def execUnitError (u : UnitRef) (t : Nat) (s : State) : Out State :=
  let s := s.tick t
  onUnit (unitOk u) (s.unitError u)

/-! ### Uncorrectable errors in a core's data (R485) -/

/-- An uncorrectable error found at core `g` for an instance: it records CHECK_FAIL, and the third within 1 s is a class
C4 error of the core. -/
def State.coreEcc (s : State) (g : Nat) (id : CtxId) : State :=
  let s := s.faultAt g id stCheck
  let c := s.core g
  let at_ := (c.eccAt.filter fun x => decide (s.now < x + 1000000000)) ++ [s.now]
  let s := s.setCore g { c with eccAt := if 3 ≤ at_.length then [] else at_ }
  if 3 ≤ at_.length then s.unitError (.core g) else s

end Sys2Proof.Machine
end

