-- ==== Sys2Proof/Machine/PlanCmds.lean ====
section
/-!
DEFINITION. Staging, committing and aborting plans: the image transfer, the armed commit, what a commit puts into force, and
the edit of a staged region table (R31, R389, R390, R518 to R523, R547 to R549, R620).
-/
namespace Sys2Proof.Machine

/-! ### A stage in progress (R547) -/

/-- The stage in progress replaced. -/
def State.setStage (s : State) (g : Option StageOp) : State := { s with plans := { s.plans with stage := g } }

/-- The stage ends with a failure, and the image is discarded. -/
def State.endStage (s : State) (status detail : Nat) : State :=
  match s.plans.stage with
  | none => s
  | some g => (s.setStage none).complete g.req status detail

/-- READs of the stage issued; once every byte has arrived, the image is checked (R547 steps 2 to 4). -/
def State.stagePump (s : State) : State :=
  match s.plans.stage with
  | none => s
  | some g =>
    let x := issueReads (fun r s => s.mpRead 0 g.src r) g.len g.next g.reads s
    let g := { g with next := x.1, reads := x.2.1 }
    let s := x.2.2
    if g.reads ≠ [] ∨ g.next < g.len then s.setStage (some g)
    else match checkImage s (assemble g.len g.got) g.len g.pepoch with
      | .inl e => (s.setStage (some g)).endStage e.status e.detail
      | .inr p => s.setStage (some { g with plan := some p, got := [] })

/-- READs of the stage whose wait after BUSY is over, sent again (R202, R296). -/
def State.stageDue (s : State) : State :=
  match s.plans.stage with
  | none => s
  | some g => if !s.mpServes then s
    else (g.reads.filter fun r => r.due s.now).foldl (fun s r => s.mpRead 0 g.src r)
      (s.setStage (some { g with reads := dueRead g.reads s.now }))

/-- STAGE_READ_RESPONSE (R547 step 2). -/
def execStageReadResponse (t : Nat) (s : State) : Out State :=
  let s := s.tick t
  let tags := match s.plans.stage with | none => [] | some g => g.reads.map fun r : BulkRead => r.tag
  .next (match s.takeMp fun x => decide (hKind x.pkt.hdr = 6) && tags.contains (hTag x.pkt.hdr) with
    | none => s
    | some (x, s) => if !s.mpServes then s else s.mpPacket x fun s =>
      match s.plans.stage with
      | none => s
      | some g => match g.reads.find? fun r => decide (r.tag = hTag x.pkt.hdr) with
        | none => s
        | some r =>
          if hStatus x.pkt.hdr = 0x24 then
            s.setStage (some { g with reads := busyRead g.reads r.tag s.now })
          else if hStatus x.pkt.hdr ≠ 0 ∨ x.pkt.payload.length ≠ r.len then s.endStage 0x74 0
          else (s.setStage (some { g with reads := dropRead g.reads r.tag, got := g.got ++ [(r.off, x.pkt.payload)] })).stagePump)

/-- STAGE_READ_RESEND: a READ without a response for 10 ms, resent at most four times, or one whose wait after BUSY is over
(R547 step 2). -/
def execStageReadResend (tag t : Nat) (s : State) : Out State :=
  let s := s.tick t
  .next (match s.plans.stage with
    | none => s
    | some g => match g.reads.find? fun r => decide (r.tag = tag) with
      | none => s
      | some r =>
        if r.held then s.stageDue
        else if !s.mpServes ∨ s.now < r.sentAt + resendNs then s
        else if r.resends < 4 then
          (s.setStage (some { g with reads := againRead g.reads tag s.now true })).mpRead 0 g.src r
        else s.endStage 0x74 0)

/-- STAGE_COMPLETE: every unit holds the staged configuration (R547 step 5). -/
def execStageComplete (t : Nat) (s : State) : Out State :=
  let s := s.tick t
  .next (match s.plans.stage with
    | none => s
    | some g => match g.plan with
      | none => s
      | some p =>
        if s.mpServes then (({ s with plans := { s.plans with staged := some p, stage := none } }).complete g.req 0 0)
        else s)

/-- What PLAN_STAGE decides (R523, R547 step 1); an image that lies at an ABSENT herd member is TRAIL_FAIL (R553; log
entry 44). -/
def planStage (c : Call) (s : State) : Verdict :=
  let len := c.arg 11 8
  if len % 8 ≠ 0 ∨ len < 256 ∨ 134217728 < len then refuseCmd s 0x71
  else if s.plans.arm.isSome then refuseCmd s 0x43
  else if s.memberGone (c.arg 7 0 >>> 32) then refuseCmd s stTrail
  else
    let s := s.endStage 0x25 0
    let g : StageOp := { req := c.req, src := c.arg 7 0, len := len, pepoch := c.arg 15 12, got := [], next := 0, reads := [],
                         plan := none }
    { st := ({ s with plans := { s.plans with staged := none, stage := some g } }).stagePump, status := 0, defer := true }

/-- PLAN_STAGE as the request of mailbox `m`. -/
def execPlanStage (m t : Nat) (s : State) : Out State :=
  let s := s.tick t
  onUnit (decide (m < 8)) (s.command m { op := 0x0100, alen := 16, admin := true, noPlan := true } planStage)

/-! ### What a commit puts into force -/

/-- The same descriptor and extensions (R237). -/
def sameSlot (a b : SlotCfg) : Bool := decide (a.desc = b.desc ∧ a.pronk = b.pronk ∧ a.sparse = b.sparse)

/-- Slots that a commit installs anew. -/
def newSlots (old : Option Plan) (p : Plan) : List Nat :=
  (p.slots.filter fun c => match old.bind (·.slot c.num) with | none => true | some b => !sameSlot b c).map (·.num)

/-- A live record or context of the part is bound to a plan's tag (R105, R110). -/
def State.tagLive (s : State) (p : Plan) : Bool :=
  (s.coll.chunks.any fun x => !isShadow x.1.2.1 && x.2.recs.any fun r => decide (r.etag = p.pepoch % 256)) ||
  (s.cores.any fun x => x.2.ctxs.any fun c => !isShadow c.id.slot && decide (c.etag = p.pepoch % 256))

/-- The older plans that live contexts still run. -/
def State.pruneOld (s : State) : State := { s with plans := { s.plans with old := s.plans.old.filter s.tagLive } }

/-- A route set installed (R389): the newest held one stays for 50 ms, an older one goes. -/
def State.installRoute (s : State) (r : Route) (at_ : Nat) : State :=
  if s.newest = some r then s
  else
    let kept := (s.plans.routes.take 1).map fun h => { h with until_ := some (at_ + 50000000) }
    ({ s with plans := { s.plans with
      routes := { route := r, since := at_, until_ := none, f := [] } :: kept, routeAt := some at_ } }).reevalF

/-- The time state under a new time entry (R620). -/
def State.installTime (s : State) (old : Option Plan) (p : Plan) : State :=
  let was : Bool := match old with | none => false | some a => teGm a.time
  if was ∧ !teGm p.time then (if s.time.st = .gm then s.enterTime .holdover else s)
  else if teGm p.time ∧ !was then (if s.ftSet then s.enterTime .gm else s)
  else s

/-- Virtual time and finish tags start at 0 at a commit (R428). -/
def wfqReset (w : Wfq) : Wfq :=
  { w with v := 0, f := [0, 0, 0, 0], cand := [none, none, none, none], woke := [true, true, true, true] }

/-- The gate list of a link under a new plan (R434); `c` is the commit FT. -/
def State.installGate (s : State) (old : Option Plan) (p : Plan) (c l : Nat) : State :=
  let new := p.gates.find l
  if (old.bind fun a => a.gates.find l) = new then s
  else match new with
    | none => s.setGate l c (0, [])
    | some g =>
      if s.ftSet ∧ fld g.1 63 0 < c then (s.setGate l c g).count .gateLate l 0
      else { s with sw := { s.sw with gateNext := s.sw.gateNext.put l g } }

/-- A chunk under a commit: a slot installed anew or removed starts afresh once it holds no live record, and its residuals,
step count and stale mark start anew at once (R201, R237, R239, R240, Table COL-3). -/
def installChunk (p : Plan) (anew : List Nat) (x : (Nat × Nat × Nat) × ChunkSt) : Option ((Nat × Nat × Nat) × ChunkSt) :=
  let slot := x.1.2.1
  if isShadow slot then some x
  else if anew.contains slot || (p.slot slot).isNone then
    if x.2.recs.isEmpty then none else some (x.1, { x.2 with resid := [], step := 0, stale := false })
  else some x

/-- The chunks and digest entries under a commit. -/
def State.installChunks (s : State) (p : Plan) (anew : List Nat) : State :=
  { s with coll := { s.coll with
      chunks := s.coll.chunks.filterMap (installChunk p anew)
      closed := s.coll.closed.filter fun x : Nat × Nat => !anew.contains x.1 } }

/-- The chunk records, contexts and pending slices of the slots that pass a test are gone (R494, R507, R510, R515). -/
def State.clearRecords (s : State) (pick : Nat → Bool) : State :=
  { s with
    coll := { s.coll with
      chunks := s.coll.chunks.filter fun x : (Nat × Nat × Nat) × ChunkSt => !pick x.1.2.1
      relays := s.coll.relays.filter fun r : RelayRec => !pick r.slot
      side := s.coll.side.filter fun x : SideMsg => !pick x.slot
      open_ := s.coll.open_.filter fun x : OpenDigest => !pick x.slot
      closed := s.coll.closed.filter fun x : Nat × Nat => !pick x.1
      runs := s.coll.runs.map fun x : Nat × List SRun => (x.1, x.2.filter fun r => !pick r.ctx.slot) }
    cores := s.cores.map fun x : Nat × Core => (x.1, { x.2 with
      ctxs := x.2.ctxs.filter fun c => !pick c.id.slot
      ring := x.2.ring.filter fun r => !pick r.ctx.slot
      run := x.2.run.filter fun r => !pick r.ctx.slot
      resident := x.2.resident.filter fun r => !pick r.slot }) }

/-- Memory with the lanes of an XACC region's backing store cleared (R309). -/
def State.clearBacking (s : State) (r : BitVec 256) : State :=
  let lo := rePbase r
  let hi := rePbase r + 16 * reLen r
  { s with mem := { s.mem with
      dram := s.mem.dram.filter fun c => !decide (64 * lo ≤ c.1 ∧ c.1 < 64 * hi)
      bad := s.mem.bad.filter fun g => !decide (lo ≤ g ∧ g < hi) } }

/-- A region stands as its entry says, with STATE 0: neither SOLO, nor SEALED, nor lost (Table MEM-2). -/
def RegDyn.plain (d : RegDyn) : Bool := !d.solo && !d.sealed && !decide (d.phase = .lost ∨ d.phase = .snapBad)

/-- A region entry committed (R309, R320, R321, R508, R511, R512): unless it stands already as it is committed, it is
committed anew, which reopens it; a snapshot command in progress on it goes on (log entry 21). `promote`: the commit is a
takeover. -/
def State.installRegion (s : State) (old : Option Plan) (promote : Bool) (e : Nat) (r : BitVec 256) : State :=
  let d := s.reg e
  if (old.map fun a => a.regions.at e 0) = some r ∧ d.plain ∧ !promote then s
  else
    let s := if reValid r ∧ reType r = 1 then s.clearBacking r else s
    if reValid r ∧ rePrimary r ∧ promote then (s.setReg e { phase := .restoring 0 0 }).failLater e
    else if reValid r ∧ rePrimary r ∧ d.solo then (s.setReg e { solo := true, phase := .resync 0 }).resyncNext e
    else
      let s := s.failLater e
      match s.mem.snaps.find? fun o => decide (o.entry = e) with
      | none => { s with mem := { s.mem with regs := s.mem.regs.drop e } }
      | some o => s.setReg e { sealAt := d.sealAt, phase := if o.req.op = 0x0601 then .snapRestore else .normal }

/-- The region table of a new plan. -/
def State.installRegions (s : State) (old : Option Plan) (p : Plan) (promote : Bool) : State :=
  let s := { s with mem := { s.mem with regs := s.mem.regs.filter fun x => (p.regions.find x.1).isSome } }
  p.regions.foldl (fun s x => s.installRegion old promote x.1 x.2) s

/-- SRAMINIT records written (Table MGT-10). -/
def State.installSram (s : State) (p : Plan) : State :=
  p.sram.foldl (fun s (x : Nat × Nat × Nat × List Byte) =>
    let bs := x.2.2.2.take (Config.sramBytes - 64 * x.2.2.1)
    { s with coll := { s.coll with
        sram := memWrite s.coll.sram (Config.sramBytes * (128 * x.1 + x.2.1) + 64 * x.2.2.1) bs } }) s

/-- Every unit replaces its active configuration (R31, R520). `c` is the commit FT and `o` the overlap in ns; no overlap
for a commit with C = 0 on a part without an active plan (R548). -/
def State.install (s : State) (p : Plan) (c : Nat) (o : Option Nat) (promote : Bool) : State :=
  let old := s.plans.active
  let at_ := s.now - (s.ftNow - c)
  let s := { s with plans := { s.plans with
      active := some p, staged := none, arm := none, takes := promote
      prev := o.map fun n => (old, at_ + n)
      old := (s.plans.prev.bind (·.1)).toList ++ (if o.isNone then old.toList else []) ++ s.plans.old } }
  let s := (s.pruneOld).installRoute p.route at_
  let s := s.installTime old p
  let s := { s with sw := { s.sw with wfq := s.sw.wfq.map fun x : Nat × Wfq => (x.1, wfqReset x.2) } }
  let s := (List.range 580).foldl (fun s l => (s.installGate old p c l).awaitStart l) s
  let s := if promote then s.clearRecords (fun _ => true) else s.installChunks p (newSlots old p)
  (s.installRegions old p promote).installSram p

/-! ### The armed commit (R518 to R522) -/

/-- R390 refuses a commit at FT `c` of a plan. -/
def State.routeBusy (s : State) (p : Plan) (c : Nat) : Bool :=
  decide (s.newest ≠ some p.route) && (match s.plans.routeAt with | none => false | some x => decide (c < s.ftAt x + 50000000))

/-- What refuses to arm a commit of PEPOCH `pep` at FT `c` with the least lead `lead` (R518, R540, R445). -/
def State.armRefuses (s : State) (pep c lead : Nat) (coming : Bool) : Option Nat :=
  if !s.ftSet ∨ c < s.ftNow + lead ∨ s.ftNow + 60000000000 < c then some 0x43
  else if s.plans.arm.isSome || s.overlap ||
      (!coming && s.plans.staged.any fun p : Plan => decide (p.pepoch = pep) && s.routeBusy p c) then some 0x24
  else none

/-- A stage of a PEPOCH is in progress. -/
def State.staging (s : State) (pep : Nat) : Bool := s.plans.stage.any fun g : StageOp => decide (g.pepoch = pep)

/-- The staged plan changes the switch's coordinate, which only RESERVE_PROMOTE may bring about (R372). -/
def State.promotionStaged (s : State) : Bool :=
  s.plans.active.any fun a : Plan => s.plans.staged.any fun p : Plan => promotes a.route p.route

/-- What PLAN_COMMIT decides (R518, R540, R548). A promotion plan is left to RESERVE_PROMOTE (R372; the status is log
entry 25's). -/
def planCommit (c : Call) (s : State) : Verdict :=
  let pep := c.arg 3 0
  let o := c.arg 7 4
  let ft := c.arg 15 8
  let held := s.plans.staged.any fun p : Plan => decide (p.pepoch = pep)
  if 100000 < o then refuseCmd s 0x71
  else if !held ∧ !s.staging pep then refuseCmd s 0x41
  else if held ∧ s.promotionStaged then refuseCmd s 0x43
  else if s.plans.active.isNone ∧ ft = 0 then
    if s.plans.arm.isSome then refuseCmd s 0x24
    else match s.plans.staged with
      | none => refuseCmd s 0x41
      | some p =>
        { st := (s.install p s.ftNow none false).complete c.req 0 0, status := 0, defer := true }
  else match s.armRefuses pep ft 1000000 (s.staging pep) with
    | some e => refuseCmd s e
    | none =>
      let a : Arm := { req := c.req, pepoch := pep, c := ft, o := (if o = 0 then 10000 else o) * 1000, passed := false,
                       promote := false }
      { st := { s with plans := { s.plans with arm := some a } }, status := 0, defer := true }

/-- PLAN_COMMIT as the request of mailbox `m`. -/
def execPlanCommit (m t : Nat) (s : State) : Out State :=
  let s := s.tick t
  onUnit (decide (m < 8)) (s.command m { op := 0x0101, alen := 16, admin := true, noPlan := true } planCommit)

/-- The switch is disarmed and the commit completes with a status. -/
def State.disarm (s : State) (a : Arm) (status : Nat) : State :=
  ({ s with plans := { s.plans with arm := none } }).complete a.req status 0

/-- The arm point of an armed commit, when it is due: every unit holds the staged plan, or the commit ends with NOT_STAGED
(R519); one that was armed during its stage meets R390 here. -/
def State.armPoint (s : State) : State :=
  match s.plans.arm with
  | none => s
  | some a =>
    if a.passed ∨ !s.mpServes ∨ !s.ftSet ∨ s.ftNow + 500000 < a.c then s
    else match s.plans.staged with
      | none => s.disarm a 0x41
      | some p =>
        if p.pepoch ≠ a.pepoch ∨ s.plans.stage.isSome then s.disarm a 0x41
        else if !a.promote ∧ s.promotionStaged then s.disarm a 0x43
        else if s.routeBusy p a.c then s.disarm a 0x24
        else { s with plans := { s.plans with arm := some { a with passed := true } } }

/-- ARM_POINT (R519). -/
def execArmPoint (t : Nat) (s : State) : Out State := .next (s.tick t).armPoint

/-- The commit of an armed switch at its FT, a takeover's or another's, which the MP carries out (R32, R520, R507). -/
def State.commitNow (s : State) (promote : Bool) (after : Plan → Arm → State → State) : State :=
  let s := s.armPoint
  match s.plans.arm, s.plans.staged with
  | some a, some p =>
    if s.mpServes ∧ a.passed ∧ s.ftSet ∧ a.c ≤ s.ftNow ∧ a.promote = promote then
      after p a (s.install p a.c (some a.o) promote)
    else s
  | _, _ => s

/-- COMMIT (R520). -/
def execCommit (t : Nat) (s : State) : Out State :=
  let s := s.tick t
  .next (s.commitNow false fun _ a s => s.complete a.req 0 0)

/-- OVERLAP_END (R521). -/
def execOverlapEnd (t : Nat) (s : State) : Out State :=
  let s := s.tick t
  .next (match s.plans.prev with
    | none => s
    | some (p, fin) =>
      if s.now < fin then s
      else ({ s with plans := { s.plans with prev := none, old := p.toList ++ s.plans.old } }).pruneOld)

/-- What PLAN_ABORT decides (R523). -/
def planAbort (c : Call) (s : State) : Verdict :=
  let pep := c.arg 3 0
  let drop (s : State) : State :=
    { s with plans := { s.plans with staged := s.plans.staged.filter fun p => !decide (p.pepoch = pep) } }
  match s.plans.arm with
  | some a =>
    if a.pepoch ≠ pep then refuseCmd s 0x41
    else if a.passed ∨ (s.ftSet ∧ a.c ≤ s.ftNow + 500000) then refuseCmd s 0x43
    else { st := (drop s).disarm a 0x25, status := 0 }
  | none =>
    if s.plans.staged.any fun p : Plan => decide (p.pepoch = pep) then { st := drop s, status := 0 } else refuseCmd s 0x41

/-- PLAN_ABORT as the request of mailbox `m`. -/
def execPlanAbort (m t : Nat) (s : State) : Out State :=
  let s := s.tick t
  onUnit (decide (m < 8)) (s.command m { op := 0x0102, alen := 4, admin := true, noPlan := true } planAbort)

/-! ### MEM_REGION_MAP (R549) -/

/-- An image with a region entry replaced where its REGION section holds the entry, and with a new PDIG and LDIG. -/
def editImage (img : List Byte) (n : Nat) (r : BitVec 256) (pdig : Nat) : List Byte :=
  let img := match ofType (sects img) 0x08 with
    | [] => img
    | c :: _ => (List.range (c.len / 40)).foldl (fun img i =>
        if leAt img (c.off + 40 * i) 2 = n then splice img (c.off + 40 * i + 8) (toLE 32 r.toNat) else img) img
  let img := splice img 8 (toLE 8 pdig)
  splice img 16 (toLE 8 (imageDigest img).toNat)

/-- What MEM_REGION_MAP decides. -/
def memRegionMap (c : Call) (s : State) : Verdict :=
  let n := c.arg 5 4
  let r : BitVec 256 := BitVec.ofNat 256 (c.arg 47 16)
  if 1023 < n then refuseCmd s 0x71
  else match s.plans.staged with
    | none => refuseCmd s 0x41
    | some p =>
      if p.pepoch ≠ c.arg 3 0 then refuseCmd s 0x41
      else if s.plans.arm.isSome then refuseCmd s 0x43
      else if !regionOk r || !regionApart p.regions n r then refuseCmd s 0x11
      else
        let old := p.regions.at n 0
        if c.foreign (some (rePart r)) || (reValid old && c.foreign (some (rePart old))) then refuseCmd s 0x43
        else
          let img := editImage p.image n r (c.arg 15 8)
          let p := { p with regions := p.regions.put n r, pdig := imPdig img, ldig := imLdig img, image := img }
          { st := { s with plans := { s.plans with staged := some p } }, status := 0 }

/-- MEM_REGION_MAP as the request of mailbox `m`. -/
def execMemRegionMap (m t : Nat) (s : State) : Out State :=
  let s := s.tick t
  onUnit (decide (m < 8)) (s.command m { op := 0x0400, alen := 48, admin := false } memRegionMap)

end Sys2Proof.Machine
end

