-- ==== Sys2Proof/Machine/Life.lean ====
section
/-!
DEFINITION. Ports, partitions and clusters: the enables and disables of Table RES-7 and what ends their STARTING and STOPPING
(R39, R359, R397, R489, R515 to R517, R525, R536, R540, R541).
-/
namespace Sys2Proof.Machine

/-- A request accepted and carried on: OK now, the outcome by event. -/
def deferred (s : State) : Verdict := { st := s, status := 0, defer := true }

/-- A request that changes nothing. -/
def noChange (s : State) : Verdict := { st := s, status := 0 }

/-- A request queued until OFF is reached (R516). -/
def queuedV (s : State) : Verdict := { st := s, status := 0x42, defer := true }

/-! ### Ports -/

/-- The partition whose endpoint a link serves in the active plan. -/
def State.linkOwner (s : State) (l : Nat) : Option Nat := (s.linkParts l).head?

/-- A port request: its link, or what refuses it (R397, R536). -/
def State.portArg (s : State) (c : Call) (f : Nat → Verdict) : Verdict :=
  let l := c.arg 1 0
  if !s.namesLink l then refuseCmd s 0x71 else if c.foreign (s.linkOwner l) then refuseCmd s 0x43 else f l

/-- What PORT_ENABLE decides (R359, R401, R516). -/
def portEnable (c : Call) (s : State) : Verdict :=
  s.portArg c fun l =>
    let k := s.link l
    match k.st with
    | .disabled =>
      deferred ((s.setLink l { k with fn := { k.fn with start := some c.req }, awaited := some s.now }).startOff l)
    | .stopping => let x := k.fn.enqueue c.req [] s; queuedV (x.2.setLink l { k with fn := x.1 })
    | _ => noChange s

/-- PORT_ENABLE as the request of mailbox `m`. -/
def execPortEnable (m t : Nat) (s : State) : Out State :=
  let s := s.tick t
  onUnit (decide (m < 8)) (s.command m { op := 0x0300, alen := 2, admin := false } portEnable)

/-- What PORT_DISABLE decides (R359, R516, R517). -/
def portDisable (c : Call) (s : State) : Verdict :=
  s.portArg c fun l =>
    if (s.link l).st = .disabled then noChange s
    else
      let k := s.link l
      let s := match k.fn.queued with | none => s | some x => s.complete x.1 0x25 0
      let s := s.setLink l { s.link l with fn := { k.fn with queued := none, stops := k.fn.stops ++ [c.req] }, restart := false }
      deferred (if k.st = .stopping then s else s.linkStop l)

/-- PORT_DISABLE as the request of mailbox `m`. -/
def execPortDisable (m t : Nat) (s : State) : Out State :=
  let s := s.tick t
  onUnit (decide (m < 8)) (s.command m { op := 0x0301, alen := 2, admin := false } portDisable)

/-! ### Partitions (R525, R540, R541) -/

/-- A link, slot or region of the active plan names a partition. -/
def State.namesPart (s : State) (p : Nat) : Bool :=
  match s.plans.active with
  | none => false
  | some a =>
    (a.cids.any fun e => decide (fld e 43 38 = p)) ||
    (a.regions.any fun r => reValid r.2 && decide (rePart r.2 = p)) ||
    (a.weights.any fun w => weValid w && decide (wePart w = p)) ||
    ((List.range 580).any fun l => s.namesLink l &&
      (lePart (a.route.linkEnt l) p || (leOwnValid (a.route.linkEnt l) && decide (leOwn (a.route.linkEnt l) = p))))

/-- A mailbox is assigned to another partition. -/
def State.mbxTaken (s : State) (p m : Nat) : Bool :=
  decide (m ≠ 0) && (match (s.box m).part with | none => false | some q => decide (q ≠ p))

/-- PART_CREATE may not run for a partition (R540). -/
def State.partRefused (s : State) (p : Nat) : Bool := (s.part p).fenced || !s.namesPart p

/-- A partition starts, and its mailbox is assigned. -/
def State.partStart (s : State) (p m : Nat) (r : Req) : State :=
  let s := s.setPart p { s.part p with fn := { st := .starting, start := some r }, mbx := m }
  if m = 0 then s else s.setBox m { s.box m with part := some p }

/-- What PART_CREATE decides. -/
def partCreate (c : Call) (s : State) : Verdict :=
  let p := c.arg 0 0
  let m := c.arg 1 1
  if 63 < p ∨ 7 < m then refuseCmd s 0x71
  else if s.partRefused p then refuseCmd s 0x43
  else
    let x := s.part p
    match x.fn.onEnable with
    | .keep => if m ≠ x.mbx then refuseCmd s 0x71 else noChange s
    | .start => if s.mbxTaken p m then refuseCmd s 0x43 else deferred (s.partStart p m c.req)
    | .queue => let y := x.fn.enqueue c.req [m] s; queuedV (y.2.setPart p { x with fn := y.1 })

/-- PART_CREATE as the request of mailbox `m`. -/
def execPartCreate (m t : Nat) (s : State) : Out State :=
  let s := s.tick t
  onUnit (decide (m < 8)) (s.command m { op := 0x0200, alen := 2, admin := true } partCreate)

/-- What PART_DESTROY decides: instances and messages end with ABORTED, and the endpoint links stop (Table RES-7). A fenced
partition that is OFF loses its mark (R490). -/
def partDestroy (c : Call) (s : State) : Verdict :=
  let p := c.arg 0 0
  if 63 < p then refuseCmd s 0x71
  else
    let x := s.part p
    if x.fn.st = .off then noChange (s.setPart p { x with fenced := false, c5 := [] })
    else
      let y := x.fn.disable c.req s
      let s := y.2.setPart p { x with fn := y.1 }
      if x.fn.st = .stopping then deferred s
      else
        let s := s.failWhere (fun e => !isShadow e.slot && decide (e.part = p)) stAborted
        deferred ((s.failMsgs p stAborted).stopEndpoints p)

/-- PART_DESTROY as the request of mailbox `m`. -/
def execPartDestroy (m t : Nat) (s : State) : Out State :=
  let s := s.tick t
  onUnit (decide (m < 8)) (s.command m { op := 0x0201, alen := 1, admin := true } partDestroy)

/-- PART_STARTED: the partition's configuration is installed (R515). -/
def execPartStarted (p t : Nat) (s : State) : Out State :=
  let s := s.tick t
  onUnit (decide (p < 64)) (
    let x := s.part p
    if x.fn.st = .starting ∧ s.mpServes then
      let s := s.setPart p { x with fn := { x.fn with st := .on, start := none } }
      match x.fn.start with
      | none => s
      | some r => s.complete r 0 0
    else s)

/-- Every endpoint link of a partition is DISABLED. -/
def State.endpointsOff (s : State) (p : Nat) : Bool :=
  s.links.all fun x => decide (x.2.st = .disabled ∨ s.linkOwner x.1 ≠ some p)

/-- A partition reaches OFF: its mailbox is free and empty, its mark is gone, the disables complete, and a queued
PART_CREATE is decided (R490, R516, R517, R525). -/
def State.partOff (s : State) (p : Nat) : State :=
  let x := s.part p
  let s := x.fn.doneOff s
  let s := if x.mbx = 0 then s
    else s.setBox x.mbx { s.box x.mbx with part := none, events := [], dest := none }
  let s := s.setPart p {}
  match x.fn.queued with
  | none => s
  | some (r, a) =>
    let m := a.headD 0
    if s.partRefused p || s.mbxTaken p m then s.complete r 0x43 0 else s.partStart p m r

/-- PART_STOPPED (R515). -/
def execPartStopped (p t : Nat) (s : State) : Out State :=
  let s := s.tick t
  onUnit (decide (p < 64)) (when_ (decide ((s.part p).fn.st = .stopping) && s.endpointsOff p && s.mpServes) s (s.partOff p))

/-! ### Clusters (R33, R39, R104) -/

/-- The lifecycle of a cluster's cores replaced. -/
def State.setCluster (s : State) (cl : Nat) (f : Fn) : State := { s with mp := { s.mp with clusters := s.mp.clusters.put cl f } }

/-- What CLUSTER_ENABLE decides. -/
def clusterEnable (c : Call) (s : State) : Verdict :=
  let cl := c.arg 0 0
  if Config.clusters ≤ cl then refuseCmd s 0x71
  else
    let f := s.clusterFn cl
    match f.onEnable with
    | .start => deferred (s.setCluster cl { st := .starting, start := some c.req })
    | .keep => noChange s
    | .queue => let x := f.enqueue c.req [] s; queuedV (x.2.setCluster cl x.1)

/-- CLUSTER_ENABLE as the request of mailbox `m`. -/
def execClusterEnable (m t : Nat) (s : State) : Out State :=
  let s := s.tick t
  onUnit (decide (m < 8)) (s.command m { op := 0x0302, alen := 1, admin := true, p0 := true } clusterEnable)

/-- What CLUSTER_DISABLE decides (R39). -/
def clusterDisable (c : Call) (s : State) : Verdict :=
  let cl := c.arg 0 0
  if Config.clusters ≤ cl then refuseCmd s 0x71
  else if s.plans.active.any fun p : Plan => p.ownersUsed.contains cl then refuseCmd s 0x43
  else
    let f := s.clusterFn cl
    if f.st = .off then noChange s
    else let x := f.disable c.req s; deferred (x.2.setCluster cl x.1)

/-- CLUSTER_DISABLE as the request of mailbox `m`. -/
def execClusterDisable (m t : Nat) (s : State) : Out State :=
  let s := s.tick t
  onUnit (decide (m < 8)) (s.command m { op := 0x0303, alen := 1, admin := true } clusterDisable)

/-- CLUSTER_STARTED: the cores are powered and their programs loaded (R515). -/
def execClusterStarted (cl t : Nat) (s : State) : Out State :=
  let s := s.tick t
  onUnit (decide (cl < Config.clusters)) (
    let f := s.clusterFn cl
    if f.st = .starting ∧ s.mpServes then
      let s := s.setCluster cl { st := .on }
      match f.start with
      | none => s
      | some r => s.complete r 0 0
    else s)

/-- No core of a cluster holds a live context (R104). -/
def State.clusterIdle (s : State) (cl : Nat) : Bool :=
  s.cores.all fun x => decide (clusterOf x.1 ≠ cl) || x.2.ctxs.isEmpty

/-- CLUSTER_STOPPED: the cores are gated (R104, R515). -/
def execClusterStopped (cl t : Nat) (s : State) : Out State :=
  let s := s.tick t
  onUnit (decide (cl < Config.clusters)) (
    let f := s.clusterFn cl
    when_ (decide (f.st = .stopping) && s.clusterIdle cl && s.mpServes) s (
      let s := f.doneOff (s.setCluster cl { st := .off })
      match f.queued with
      | none => s
      | some (r, _) => s.setCluster cl { st := .starting, start := some r }))

end Sys2Proof.Machine
end

