-- ==== Sys2Proof/Machine/Fawn.lean ====
section
/-!
DEFINITION. Fawn mode: targets, their plan images, notices, rotation and the compare, on the side of the reserve and on that
of the target (R492 to R502, R515 to R517, R559, R560); and digest entries that stay open (R468).
-/
namespace Sys2Proof.Machine

/-! ### The reserve entry (Table RES-3) -/

/-- The reserve entry of the active plan. -/
def State.reserveEnt (s : State) : Option (BitVec 128) := s.plans.active.bind (·.reserve)
/-- PLANES. -/
def State.shPlanes (s : State) : Nat := match s.reserveEnt with | none => 0 | some e => fld e 31 0
/-- DWELL in ns; 0 means 1,000 ms. -/
def State.shDwell (s : State) : Nat :=
  let n := match s.reserveEnt with | none => 0 | some e => fld e 47 32
  (if n = 0 then 1000 else n) * 1000000
/-- PROBN. -/
def State.probn (s : State) : Nat := match s.reserveEnt with | none => 0 | some e => fld e 63 48
/-- CMPTO in ns; 0 means 100 ms. -/
def State.cmpto (s : State) : Nat :=
  let n := match s.reserveEnt with | none => 0 | some e => fld e 79 64
  (if n = 0 then 100 else n) * 1000000

/-! ### Notices (R495, Table RES-4) -/

/-- The notice in force sent to every A-port of the rack. -/
def State.sendNotice (s : State) : State :=
  match s.fawn.notice, s.newest with
  | some (start, plane), some r =>
    let dst := setBits (setBits r.self 11 4 0) 3 0 0
    let h := mkHdr [⟨31, 0, dst⟩, ⟨86, 79, aports r.rmap⟩, ⟨99, 96, 9⟩]
    let s := { s with fawn := { s.fawn with noticeAt := s.now } }
    s.fromMp 0 0 (mkPkt h (toLE 8 start ++ toLE 1 plane ++ toLE 1 s.fawn.nseq ++ zeros 54))
  | _, _ => s

/-- A new notice: plane `plane` from FT `start` on. -/
def State.announce (s : State) (start plane : Nat) : State :=
  ({ s with fawn := { s.fawn with notice := some (start, plane), nseq := (s.fawn.nseq + 1) % 256 } }).sendNotice

/-! ### Choosing a target (R494, R500) -/

/-- A PLAN_READ sent to the target (R559). -/
def State.planReadSend (s : State) (off len : Nat) : State :=
  match s.fawn.target with
  | none => s
  | some p => s.sendImage p 0x20 0 0 off len []

/-- What the shadow configuration holds is abandoned: records, contexts and packets on their way to it (R500). -/
def State.dropShadow (s : State) : State :=
  let s := s.clearRecords isShadow
  let steer := s.sw.steer.filter fun x : Steered =>
    !(x.dest.isSome && isCollKind (hKind x.pkt.hdr) && decide (cPlane (hDst x.pkt.hdr) ≠ s.plane))
  { s with sw := { s.sw with steer := steer }, fawn := { s.fawn with plan := none, live := false } }

/-- A target plane begun: bytes [63:0] of its plan image are asked for (R494 step 1, R559). -/
def State.beginTarget (s : State) (p : Nat) : State :=
  let s := s.dropShadow
  let rd : BulkRead := { off := 0, len := 64, tag := 0, sentAt := s.now, first := s.now, resends := 0 }
  let s := { s with fawn := { s.fawn with
    target := some p, act := none, since := s.now, len := none, got := [], next := 64, reads := [rd], query := none,
    fused := [], fusedAll := none } }
  s.planReadSend 0 64

/-- The next plane of PLANES after `p`, wrapping past 31. -/
def nextPlane (planes p : Nat) : Nat :=
  (((List.range 32).map fun k => (p + 1 + k) % 32).find? (bit planes)).getD p

/-! ### SHADOW_START and SHADOW_STOP (R493, R501, R515 to R517) -/

/-- The first target of a SHADOW_START whose plane argument is `a`: the plane, or with 0xFF the lowest of PLANES. -/
def State.firstTarget (s : State) (a : Nat) : Option Nat :=
  if a = 0xFF then (List.range 32).find? (bit s.shPlanes) else some a

/-- What refuses a SHADOW_START (R493). -/
def State.shadowRefused (s : State) (a : Nat) : Bool :=
  decide (s.newest.all (fun r : Route => decide (r.role ≠ 3))) || !s.ftSet ||
  (match s.firstTarget a with
    | none => true
    | some p => !bit s.shPlanes p || !(s.member p).present)

/-- Fawn mode starts on its first target. -/
def State.shadowBegin (s : State) (a : Nat) (pin : Bool) (r : Req) : State :=
  match s.firstTarget a with
  | none => s.complete r 0x43 0
  | some p =>
    ({ s with fawn := { s.fawn with fn := { st := .starting, start := some r }, pin := pin, finalAt := none } }).beginTarget p

/-- What SHADOW_START decides. A pinned target that is ON gives way to the new one (R501; log entry 24). -/
def shadowStart (c : Call) (s : State) : Verdict :=
  let a := c.arg 0 0
  let pin := bit (c.arg 1 1) 0
  if (a = 0xFF ∧ pin = true) ∨ (31 < a ∧ a ≠ 0xFF) then refuseCmd s 0x71
  else if s.shadowRefused a then refuseCmd s 0x43
  else match s.fawn.fn.onEnable with
    | .start => deferred (s.shadowBegin a pin c.req)
    | .queue =>
      let x := s.fawn.fn.enqueue c.req [a, b2n pin] s
      queuedV { x.2 with fawn := { x.2.fawn with fn := x.1 } }
    | .keep =>
      if s.fawn.fn.st = .on ∧ s.fawn.pin then
        let s := { s with fawn := { s.fawn with pin := pin } }
        match s.firstTarget a with
        | none => noChange s
        | some p => noChange (if s.fawn.target = some p then s else s.beginTarget p)
      else noChange s

/-- SHADOW_START as the request of mailbox `m`. -/
def execShadowStart (m t : Nat) (s : State) : Out State :=
  let s := s.tick t
  onUnit (decide (m < 8)) (s.command m { op := 0x0500, alen := 2, admin := true, p0 := true } shadowStart)

/-- What SHADOW_STOP decides: the final notice applies 1 ms from now (R495; log entry 24). -/
def shadowStop (c : Call) (s : State) : Verdict :=
  if s.fawn.fn.st = .off then noChange s
  else
    let was := s.fawn.fn.st
    let x := s.fawn.fn.disable c.req s
    let s := { x.2 with fawn := { x.2.fawn with fn := x.1 } }
    if was = .stopping then deferred s
    else
      let start := s.ftNow + 1000000
      deferred (({ s with fawn := { s.fawn with finalAt := some start, live := false } }).announce start 0xFF)

/-- SHADOW_STOP as the request of mailbox `m`. -/
def execShadowStop (m t : Nat) (s : State) : Out State :=
  let s := s.tick t
  onUnit (decide (m < 8)) (s.command m { op := 0x0501, alen := 0, admin := true } shadowStop)

/-- Fawn mode reaches OFF: an enable that was starting completes with `status`, the disables complete, and a queued enable
is decided (R494, R516, R517, R559). -/
def State.fawnOff (s : State) (status : Nat) : State :=
  let f := s.fawn.fn
  let s := s.dropShadow
  let s := { s with fawn := { s.fawn with
    fn := {}, target := none, pin := false, act := none, len := none, got := [], next := 0, reads := [], query := none,
    fused := [], fusedAll := none, cmp := [], notice := none, finalAt := none } }
  let s := match f.start with | none => s | some r => s.complete r status 0
  let s := f.doneOff s
  match f.queued with
  | none => s
  | some (r, args) =>
    let a := args.headD 0xFF
    if s.shadowRefused a then s.complete r 0x43 0 else s.shadowBegin a (args.getD 1 0 = 1) r

/-- SHADOW_STOPPED: FROM of the final notice has passed, and the last entries are compared or past CMPTO (R515). -/
def execShadowStopped (t : Nat) (s : State) : Out State :=
  let s := s.tick t
  .next (when_ (decide (s.fawn.fn.st = .stopping) && s.mpServes && (s.fawn.finalAt.all fun x => decide (x ≤ s.ftNow)) &&
    s.fawn.cmp.isEmpty) s (s.fawnOff 0x25))

/-! ### The image of the target (R494, R559) -/

/-- The slots, extensions, core assignments and programs of an image that are shadowed (R494 step 2). -/
def shadowPlan (img : List Byte) : Plan :=
  let p := planOf img
  let slots := p.slots.filter p.shadowable
  let keep (n : Nat) : Bool := slots.any fun c : SlotCfg => decide (c.num = n)
  { p with
    slots := slots
    owners := p.owners.filter fun o : Nat × BitVec 128 => keep (owSlot o.2)
    progs := p.progs.filter fun r : ProgCfg => keep (heSlot r.head)
    streams := p.streams.filter fun r : StreamCfg => keep (heSlot r.head)
    regions := [], accounts := [], sched := [], gates := [], reserve := none, weights := [], mgmt := none, sram := [] }

/-- The programs of a shadow configuration fit beside the reserve's own (R109, R494). -/
def State.shadowFits (s : State) (p : Plan) : Bool :=
  p.clustersUsed.all fun cl => (List.range 128).all fun k => s.progsFit (128 * cl + k) (p.progsOf cl k)

/-- The whole image has arrived: the shadow configuration is installed, the activation FT is set and announced, and the
target is asked for the state of its FUSED chunks (R494 steps 2 to 4, R495). Bytes that are no image with a right digest
are not a complete image. -/
def State.shadowInstall (s : State) (len : Nat) : State :=
  let img := assemble len s.fawn.got
  if (structureBad img).isSome ∨ imageDigest img ≠ imLdig img then s
  else
    let p := shadowPlan img
    if !s.shadowFits p then s.fawnOff 0x43
    else
      let a := roundUp (s.ftNow + 2000000) 1000000
      let t := s.fawn.target.getD 0
      let s := { s with fawn := { s.fawn with plan := some p, got := [], act := some a, query := some (0, s.now) } }
      (s.sendImage t 0x30 0 0 0 8 (toLE 8 a)).announce a t

/-- PLAN_READs issued once LENGTH is known, and the image installed once every byte has arrived. -/
def State.shadowPump (s : State) : State :=
  match s.fawn.len with
  | none => s
  | some len =>
    let x := issueReads (fun r s => s.planReadSend r.off r.len) len s.fawn.next s.fawn.reads s
    let s : State := { x.2.2 with fawn := { x.2.2.fawn with next := x.1, reads := x.2.1 } }
    let got : Nat := (s.fawn.got.map fun b : Nat × List Byte => b.2.length).foldl (· + ·) 0
    if s.fawn.reads.isEmpty ∧ len ≤ s.fawn.next ∧ got = len then s.shadowInstall len else s

/-- Fawn mode is fetching the image of a target. -/
def State.fetchingShadow (s : State) : Bool :=
  decide ((s.fawn.fn.st = .starting ∨ s.fawn.fn.st = .on) ∧ s.fawn.plan = none ∧ s.fawn.target ≠ none)

/-- PLAN_DATA received: bytes with STATUS OK are kept; an answer without the bytes asked for leaves the image incomplete
(R494, R559; log entry 24). -/
def State.planData (s : State) (f : Frame) : State :=
  if !s.fetchingShadow ∨ s.fawn.target ≠ some (frSplane f) then s
  else match s.fawn.reads.find? fun r : BulkRead => decide (r.off = ihOff f) with
    | none => s
    | some r =>
      let s := { s with fawn := { s.fawn with reads := s.fawn.reads.filter fun x : BulkRead => !decide (x.off = r.off) } }
      if ihStatus f ≠ 0 ∨ ihLen f ≠ r.len ∨ (ihData f).length ≠ r.len then s
      else
        let s := { s with fawn := { s.fawn with got := s.fawn.got ++ [(r.off, ihData f)] } }
        if s.fawn.len.isSome then s.shadowPump
        else
          let n := imLength (ihData f)
          if n % 8 ≠ 0 ∨ n < 256 ∨ 134217728 < n then s
          else ({ s with fawn := { s.fawn with len := some n } }).shadowPump

/-- PLAN_DATA (R559). -/
def execPlanData (f : Frame) (t : Nat) (s : State) : Out State :=
  let s := s.tick t
  .next (s.trailMp f 6 (some 0x21) fun s => s.planData f)

/-- PLAN_NONE: the read has been answered, and no byte has come (R494, R559; log entry 24). -/
def execPlanNone (f : Frame) (t : Nat) (s : State) : Out State :=
  let s := s.tick t
  .next (s.trailMp f 6 (some 0x22) fun s =>
    if !s.fetchingShadow ∨ s.fawn.target ≠ some (frSplane f) then s
    else { s with fawn := { s.fawn with
      reads := s.fawn.reads.filter fun x : BulkRead => !decide (x.off = ihOff f ∧ x.len = ihLen f) } })

/-- PLAN_READ_RESEND: a read without an answer for 10 ms, resent at most four times (R559). -/
def execPlanReadResend (off t : Nat) (s : State) : Out State :=
  let s := s.tick t
  .next (
    if !s.fetchingShadow ∨ !s.mpServes then s
    else match s.fawn.reads.find? fun r : BulkRead => decide (r.off = off) with
      | none => s
      | some r =>
        if s.now < r.sentAt + resendNs then s
        else if r.resends < 4 then
          let again (x : BulkRead) : BulkRead := { x with sentAt := s.now, resends := x.resends + 1 }
          let rs := modWhere (fun x : BulkRead => decide (x.off = off)) again s.fawn.reads
          ({ s with fawn := { s.fawn with reads := rs } }).planReadSend r.off r.len
        else s.fawnOff 0x20)

/-- SHADOW_IMAGE_TIMEOUT: no complete image within 1 s (R494 step 1). -/
def execShadowImageTimeout (t : Nat) (s : State) : Out State :=
  let s := s.tick t
  .next (when_ (s.fetchingShadow && s.mpServes && decide (s.fawn.since + 1000000000 ≤ s.now)) s (s.fawnOff 0x20))

/-- SHADOW_ACTIVATION: at A shadowing begins, and a start completes (R494 step 3, R515). -/
def execShadowActivation (t : Nat) (s : State) : Out State :=
  let s := s.tick t
  .next (
    if (s.fawn.fn.st = .starting ∨ s.fawn.fn.st = .on) ∧ s.fawn.plan ≠ none ∧ !s.fawn.live ∧ s.ftSet ∧ s.mpServes ∧
        (s.fawn.act.any fun a => decide (a ≤ s.ftNow)) then
      let f := s.fawn.fn
      let s := { s with fawn := { s.fawn with live := true, since := s.now, fn := { f with st := .on, start := none } } }
      match f.start with
      | none => s
      | some r => s.complete r 0 0
    else s)

/-! ### Notices, rotation and compare timeouts -/

/-- A takeover is armed: its final notice stands (R507). -/
def State.promoting (s : State) : Bool := s.plans.arm.any fun a : Arm => a.promote

/-- SHADOW_NOTICE: every 100 ms while Fawn mode is ON; after a takeover that did not come about, the target is announced
anew (R495; log entry 24). -/
def execShadowNotice (t : Nat) (s : State) : Out State :=
  let s := s.tick t
  .next (
    if s.fawn.fn.st = .on ∧ s.mpServes ∧ s.fawn.noticeAt + 100000000 ≤ s.now then
      match s.fawn.target, s.fawn.notice with
      | some p, some (_, q) =>
        if s.fawn.live ∧ p ≠ q ∧ !s.promoting then s.announce (s.ftNow + 1000000) p else s.sendNotice
      | _, _ => s.sendNotice
    else s)

/-- SHADOW_ROTATE: without PIN, the next target once DWELL has passed (R500). -/
def execShadowRotate (t : Nat) (s : State) : Out State :=
  let s := s.tick t
  .next (match s.fawn.target with
    | none => s
    | some p =>
      if s.fawn.fn.st = .on ∧ !s.fawn.pin ∧ s.fawn.live ∧ !s.promoting ∧ s.mpServes ∧ s.fawn.since + s.shDwell ≤ s.now then
        s.beginTarget (nextPlane s.shPlanes p)
      else s)

/-- SHADOW_COMPARE_TIMEOUT: an entry without its pair CMPTO after it was closed is a SKIP (Table RES-5). -/
def execShadowCompareTimeout (cid inst pepoch t : Nat) (s : State) : Out State :=
  let s := s.tick t
  let late (x : CmpEntry) : Bool := decide (entryKey x.ent = (cid, inst, pepoch) ∧ x.at_ + s.cmpto ≤ s.now)
  .next (
    if s.fawn.cmp.any late ∧ s.mpServes then
      ({ s with fawn := { s.fawn with cmp := s.fawn.cmp.filter fun x => !late x } }).countN .shadowSkip 0 0
        (s.fawn.cmp.filter late).length
    else s)

/-- An ENTRY of a target: of the present one, or of an old one for an entry of this switch that waits (R499, R500). -/
def State.shadowEntry (s : State) (f : Frame) : State :=
  let e : BitVec 256 := BitVec.ofNat 256 (leAt f.payload 8 32)
  let p := frSplane f
  let waits := s.fawn.cmp.any fun x : CmpEntry => !x.target && decide (x.plane = p ∧ entryKey x.ent = entryKey e)
  if f.payload.length = 40 ∧ ((s.fawn.fn.st = .on ∧ s.fawn.target = some p ∧ s.fawn.live) ∨ waits) then
    shadowPair s { target := true, ent := e, at_ := s.now, plane := p }
  else s

/-- SHADOW_ENTRY (R499, R560). -/
def execShadowEntry (f : Frame) (t : Nat) (s : State) : Out State :=
  let s := s.tick t
  .next (s.trailMp f 5 (some 1) fun s => s.shadowEntry f)

/-- SHADOW_RESULT: a MISMATCH recorded at the target (R499, R560). -/
def execShadowResult (f : Frame) (t : Nat) (s : State) : Out State :=
  let s := s.tick t
  .next (s.trailMp f 5 (some 2) fun s =>
    if f.payload.length = 72 ∧ leAt f.payload 1 1 = 1 then
      let k := entryKey (BitVec.ofNat 256 (leAt f.payload 8 32))
      (s.health hMismatch 1).event evMismatch 0 (k.1 + k.2.1 <<< 24 + frSplane f <<< 40) (cidParts s.plans.active k.1)
    else s)

/-! ### FUSED chunks (R494, R559) -/

/-- FUSED_QUERY_RESEND: entries are still lacking 10 ms after A (R559). -/
def execFusedQueryResend (t : Nat) (s : State) : Out State :=
  let s := s.tick t
  .next (match s.fawn.query, s.fawn.act, s.fawn.target with
    | some (n, at_), some a, some p =>
      let lacks := s.fawn.fusedAll.all fun k => decide (s.fawn.fused.length < k)
      if (s.fawn.fn.st = .starting ∨ s.fawn.fn.st = .on) ∧ lacks ∧ s.mpServes ∧ a + resendNs ≤ s.ftNow ∧ at_ + resendNs ≤ s.now then
        if n < 4 then
          ({ s with fawn := { s.fawn with query := some (n + 1, s.now) } }).sendImage p 0x30 0 0 0 8 (toLE 8 a)
        else s.fawnOff 0x20
      else s
    | _, _, _ => s)

/-- One 16-byte entry of a FUSED_STATE frame: slot, chunk, instance, step. -/
def fusedEntry (b : List Byte) : Nat × Nat × Nat × Nat :=
  (bits (leAt b 0 2) 13 0, bits (leAt b 2 4) 19 0, leAt b 6 2, leAt b 8 2)

/-- An entry taken over: the chunk is admitted from the first instance whose step count at the target is 0, and its residual
starts at +0 (R494). -/
def State.takeFused (s : State) (x : Nat × Nat × Nat × Nat) : State :=
  match s.fawn.plan with
  | none => s
  | some p => match p.slot x.1, p.ownerOf x.1 x.2.1 with
    | some c, some cl =>
      let wait := if x.2.2.2 % max 1 c.rperiod = 0 then 0 else c.rperiod - x.2.2.2 % max 1 c.rperiod
      if c.fused ∧ c.rperiod ≠ 0 ∧ (s.chunk cl (x.1 + shadowBase) x.2.1).cur.isNone then
        s.setChunk cl (x.1 + shadowBase) x.2.1 { cur := some ((x.2.2.1 + wait) % 65536) }
      else s
    | _, _ => s

/-- FUSED_STATE received from the target. -/
def State.fusedState (s : State) (f : Frame) : State :=
  if s.fawn.target ≠ some (frSplane f) ∨ s.fawn.query = none ∨ !(s.fawn.fn.st = .starting ∨ s.fawn.fn.st = .on) then s
  else if ihStatus f = 0x43 then s.fawnOff 0x43
  else
    let es := (chunksOf 256 16 (ihData f)).map fusedEntry
    let new := es.filter fun x => !(s.fawn.fused.any fun y => decide (y.1 = x.1 ∧ y.2.1 = x.2.1))
    let s := { s with fawn := { s.fawn with fused := s.fawn.fused ++ new, fusedAll := some (ihTotal f) } }
    new.foldl State.takeFused s

/-- FUSED_STATE (R559). -/
def execFusedState (f : Frame) (t : Nat) (s : State) : Out State :=
  let s := s.tick t
  .next (s.trailMp f 6 (some 0x31) fun s => s.fusedState f)

/-! ### The target's side (R499, R559) -/

/-- PLAN_READ answered from the image of the active plan. -/
def State.planRead (s : State) (f : Frame) : State :=
  let p := frSplane f
  let s := { s with fawn := { s.fawn with watcher := some p } }
  match s.plans.active with
  | none => s.sendImage p 0x22 0x75 0 (ihOff f) (ihLen f) []
  | some a =>
    if a.image.length < ihOff f + ihLen f ∨ 4096 < ihLen f then s.sendImage p 0x22 0x43 0 (ihOff f) (ihLen f) []
    else
      s.sendImage p 0x21 (if imageDigest a.image = imLdig a.image then 0 else stCheck) 0 (ihOff f) (ihLen f) ((a.image.drop (ihOff f)).take (ihLen f))

/-- PLAN_READ (R559). -/
def execPlanRead (f : Frame) (t : Nat) (s : State) : Out State :=
  let s := s.tick t
  .next (s.trailMp f 6 (some 0x20) fun s => s.planRead f)

/-- The FUSED chunks of the active plan with their current instance and step count, by slot and chunk. -/
def State.fusedChunks (s : State) : List (Nat × Nat × Nat × Nat) :=
  match s.plans.active with
  | none => []
  | some p =>
    let slots := sortBy (fun a b : SlotCfg => decide (a.num ≤ b.num)) (p.slots.filter fun c : SlotCfg => c.fused)
    slots.flatMap fun c : SlotCfg =>
      let os := p.owners.filter fun o : Nat × BitVec 128 => decide (owSlot o.2 = c.num)
      let hs := os.flatMap fun o : Nat × BitVec 128 =>
        (List.range (owLast o.2 + 1 - owFirst o.2)).map fun k => (owFirst o.2 + k, o.1)
      (sortBy (fun a b : Nat × Nat => decide (a.1 ≤ b.1)) hs).filterMap fun h =>
        let x := s.chunk h.2 c.num h.1
        (s.curInst c c.num x).map fun i => (c.num, h.1, i, x.step)

/-- Groups of at most 256 entries with the index of their first. -/
def entryGroups : Nat → Nat → List (Nat × Nat × Nat × Nat) → List (Nat × List (Nat × Nat × Nat × Nat))
  | 0, _, _ => []
  | k + 1, i, es => if es.isEmpty then [] else (i, es.take 256) :: entryGroups k (i + 256) (es.drop 256)

/-- FUSED_STATE frames with recorded entries sent to a plane: one with LEN 0 when there is none. -/
def State.sendFused (s : State) (plane : Nat) (es : List (Nat × Nat × Nat × Nat)) : State :=
  if es.isEmpty then s.sendImage plane 0x31 0 0 0 0 []
  else (entryGroups (es.length / 256 + 1) 0 es).foldl (fun s g =>
    s.sendImage plane 0x31 0 es.length g.1 (16 * g.2.length)
      (g.2.flatMap fun x => toLE 2 x.1 ++ toLE 4 x.2.1 ++ toLE 2 x.2.2.1 ++ toLE 2 x.2.2.2 ++ zeros 6)) s

/-- A FUSED_QUERY: noted for A, answered from what was recorded at A, or DENIED when it is the first and comes too late. -/
def State.fusedQuery (s : State) (f : Frame) : State :=
  let p := frSplane f
  let a := leAt (ihData f) 0 8
  let s := { s with fawn := { s.fawn with watcher := some p } }
  match s.fawn.recorded.find? fun x => decide (x.1 = a) with
  | some x => s.sendFused p x.2
  | none =>
    if s.fawn.asked.contains (p, a) then s
    else if a ≤ s.ftNow then s.sendImage p 0x31 0x43 0 0 0 []
    else { s with fawn := { s.fawn with asked := s.fawn.asked ++ [(p, a)] } }

/-- FUSED_QUERY (R559). -/
def execFusedQuery (f : Frame) (t : Nat) (s : State) : Out State :=
  let s := s.tick t
  .next (s.trailMp f 6 (some 0x30) fun s => s.fusedQuery f)

/-- One noted query answered: the states are recorded at its A and sent. A record is kept for 1 s of FT. -/
def State.recordFused (s : State) (q : Nat × Nat) : State :=
  let es := s.fusedChunks
  let keep := s.fawn.recorded.filter fun x => decide (x.1 ≠ q.2 ∧ s.ftNow < x.1 + 1000000000)
  ({ s with fawn := { s.fawn with
      asked := s.fawn.asked.filter fun x => !decide (x = q), recorded := keep ++ [(q.2, es)] } }).sendFused q.1 es

/-- FUSED_STATE_RECORD: every query whose A has come (R559). -/
def execFusedStateRecord (t : Nat) (s : State) : Out State :=
  let s := s.tick t
  .next (if s.ftSet ∧ s.mpServes then
      (s.fawn.asked.filter fun q => decide (q.2 ≤ s.ftNow)).foldl State.recordFused s
    else s)

/-! ### Digest entries that stay open (R468) -/

/-- DIGEST_ENTRY_TIMEOUT: an entry open for 2 × TIMEOUT closes as PARTIAL. -/
def execDigestEntryTimeout (slot inst t : Nat) (s : State) : Out State :=
  let s := s.tick t
  .next (match s.coll.open_.find? fun o : OpenDigest => decide (o.slot = slot ∧ o.inst = inst) with
    | none => s
    | some o => match (s.planOfSlot slot).bind fun p => p.slot slot with
      | none => s
      | some c => when_ (decide (o.since + 2 * c.timeout ≤ s.now)) s (s.closeDigest o true))

end Sys2Proof.Machine
end

