-- ==== Sys2Proof/Machine/Handlers.lean ====
section
/-!
DEFINITION. Handlers dispatched on a core, and the watchdog (R96 to R103, R204, R207, R485).
-/
namespace Sys2Proof.Machine

/-- A context that may run a handler: its instance lives and has not failed, and the cores run, in P0 (R40). -/
def State.readyCtx (s : State) (g : Nat) (id : CtxId) : Option (Ctx × Plan × ProgCfg) :=
  if decide (s.roe.pstate ≠ .p0) || (s.core g).run.isSome || s.instDead g id then none
  else match (s.core g).ctx id with
    | none => none
    | some x => (s.ctxProg g x).map fun p => (x, p)

/-- INIT_HANDLER: the INIT handler of a new context (R96, R102). -/
def execInitHandler (g slot inst chunk : Nat) (s : State) : Out State :=
  onUnit (decide (g < Config.cores)) (
    match s.readyCtx g ⟨slot, inst, chunk⟩ with
    | none => s
    | some (x, p, q) => match q.init with
      | none => s
      | some pc => if x.initDone then s else s.dispatch g x p q .init pc none)

/-- Whether a slice in the ring of a core may be handled now: its instance goes on, and its context's INIT is done. -/
def State.sliceReady (s : State) (g : Nat) (x : Slice) : Bool :=
  match s.readyCtx g x.ctx with
  | none => false
  | some (c, p, _) => c.initDone && !c.finalStarted &&
      (match p.slot x.ctx.slot with | none => false | some k => !k.direct)

/-- SLICE_HANDLER: the first slice presented to a core, in the order of presentation (R96, R98). `ecc`: an uncorrectable
error is found as the context is parked or loaded (R485). -/
def execSliceHandler (g : Nat) (ecc : Bool) (t : Nat) (s : State) : Out State :=
  let s := s.tick t
  onUnit (decide (g < Config.cores)) (
    let c := s.core g
    match takeFirst (fun x : Slice => !s.instDead g x.ctx) c.ring with
    | none => s
    | some (x, rest) =>
      if !s.sliceReady g x then s
      else
        let s := s.setCore g { c with ring := rest }
        if ecc then s.coreEcc g x.ctx
        else match s.readyCtx g x.ctx with
          | none => s
          | some (k, p, q) => s.dispatch g k p q .slice q.slice (some x))

/-- FINAL_HANDLER: the chunk is complete and current, and every SLICE handler of the context has ended (R96, R204). -/
def execFinalHandler (g slot inst chunk : Nat) (ecc : Bool) (t : Nat) (s : State) : Out State :=
  let s := s.tick t
  let id : CtxId := ⟨slot, inst, chunk⟩
  onUnit (decide (g < Config.cores)) (
    match s.readyCtx g id, (s.chunk (clusterOf g) slot chunk).recOf inst with
    | some (x, p, q), some r =>
      let c := s.core g
      if x.initDone && !x.finalStarted && decide (r.st = .complete) && c.ring.all fun y => decide (y.ctx ≠ id) then
        if ecc then s.coreEcc g id
        else
          let x := { x with finalStarted := true }
          (s.setCore g (c.putCtx x)).dispatch g x p q .final q.final none
      else s
    | _, _ => s)

/-- Cycles that a handler has run when it goes on: the wait for the registers of its next instruction included, and the
`waited` cycles of its present wait unless that is for room (R103, R114, R177). -/
def Run.spent (r : Run) (q : ProgCfg) (waited : Nat) : Nat :=
  let w := (q.code[r.pc]?).getD 0
  if r.wait = .room then r.cycles
  else if r.wait = .none then (if r.pc < q.ninst then r.issueAt (fld w 63 56) (wordFields w) else r.cycles)
  else r.cycles + waited

/-- WATCHDOG_TIMEOUT: a handler that has run for more cycles than its limit (R103). -/
def execWatchdogTimeout (g waited : Nat) (s : State) : Out State :=
  onUnit (decide (g < Config.cores)) (
    match (s.core g).run with
    | none => s
    | some r => match (s.core g).ctx r.ctx with
      | none => s
      | some x => match s.ctxProg g x with
        | none => s
        | some (_, q) =>
          if s.roe.pstate = .p0 ∧ q.limit < r.spent q waited then
            ((s.modRun g fun y => { y with cycles := y.spent q waited }).faultAt g r.ctx stTimeout).overRun g
          else s)

end Sys2Proof.Machine
end

