-- ==== Sys2Proof/Machine/Promote.lean ====
section
/-!
DEFINITION. Promotion of a reserve switch and the restore of its mirrored regions (R503 to R511, R558).
-/
namespace Sys2Proof.Machine

/-! ### RESERVE_PROMOTE (R506) -/

/-- The staged promotion plan for a plane (R505). -/
def State.promotionFor (s : State) (p : Nat) : Option Plan :=
  match s.plans.active with
  | none => none
  | some a => s.plans.staged.filter fun q : Plan => promotes a.route q.route && decide (cPlane q.route.self = p)

/-- A buddy that the restore under a promotion plan reads from (R508) is ABSENT. -/
def State.buddiesGone (s : State) (q : Plan) : Bool :=
  q.regions.any fun x : Nat × BitVec 256 => reValid x.2 && rePrimary x.2 && s.memberGone (reBuddy x.2)

/-- What RESERVE_PROMOTE decides; the commit takes the default overlap, and the final notice goes out at once (R507; log
entry 25). A plan whose restore needs an ABSENT buddy is TRAIL_FAIL (R553; log entry 44). -/
def reservePromote (c : Call) (s : State) : Verdict :=
  let p := c.arg 0 0
  let ft := c.arg 15 8
  if 31 < p then refuseCmd s 0x71
  else match s.promotionFor p with
    | none => refuseCmd s 0x43
    | some q =>
      if s.fawn.clean < s.probn ∨ !s.ftSet ∨ ft < s.ftNow + 2000000 then refuseCmd s 0x43
      else if s.buddiesGone q then refuseCmd s stTrail
      else if s.plans.arm.isSome || s.overlap || s.routeBusy q ft then refuseCmd s 0x24
      else
        let a : Arm := { req := c.req, pepoch := q.pepoch, c := ft, o := 10000000, passed := false, promote := true }
        let s := { s with plans := { s.plans with arm := some a } }
        deferred (if s.fawn.fn.st = .starting ∨ s.fawn.fn.st = .on then s.announce ft 0xFF else s)

/-- RESERVE_PROMOTE as the request of mailbox `m`. -/
def execReservePromote (m t : Nat) (s : State) : Out State :=
  let s := s.tick t
  onUnit (decide (m < 8)) (s.command m { op := 0x0502, alen := 16, admin := true, p0 := true } reservePromote)

/-! ### The restore (R508, R558) -/

/-- READs of the buddy's secondary for a region in RESTORING, at most 16 of them outstanding (log entry 25). -/
def State.restoreNext (s : State) (e : Nat) : State :=
  let r := s.regionEnt e
  match (s.reg e).phase with
  | .restoring next landed =>
    let out := (s.mem.restore.filter fun x : Nat × BulkRead => decide (x.1 = e)).map fun x : Nat × BulkRead => x.2
    let x := issueReads (fun w s => s.mpRead (rePart r) (reBuddy r <<< 32 + reBbase r) w) (64 * reLen r) (64 * next) out s
    let s : State := x.2.2
    let s := s.setReg e { s.reg e with phase := .restoring (x.1 / 64) landed }
    let others := s.mem.restore.filter fun x : Nat × BulkRead => !decide (x.1 = e)
    { s with mem := { s.mem with restore := others ++ x.2.1.map fun w => (e, w) } }
  | _ => s

/-- A region waits for its restore. -/
def RegDyn.restores (d : RegDyn) : Bool := match d.phase with | .restoring _ _ => true | _ => false

/-- RESERVE_PROMOTE completes once every region has left RESTORING (R511). -/
def State.promoteDone (s : State) (status detail : Nat) : State :=
  if s.mem.regs.any fun x : Nat × RegDyn => x.2.restores then s
  else match s.fawn.promote with
    | none => s
    | some r => ({ s with fawn := { s.fawn with promote := none } }).complete r status detail

/-- The buddy has failed: the regions in RESTORING are LOST, the command ends, and their partitions are fenced (R511). -/
def State.buddyFail (s : State) : State :=
  let lost := (s.mem.regs.filter fun x : Nat × RegDyn => x.2.restores).map fun x : Nat × RegDyn => x.1
  if lost.isEmpty then s
  else
    let s := lost.foldl (fun s e => s.setReg e { s.reg e with phase := .lost }) s
    let s := ({ s with mem := { s.mem with restore := [] } }).promoteDone 0x25 stMirror
    let parts := (lost.map fun e => rePart (s.regionEnt e)).eraseDups
    parts.foldl (fun s p => s.fence p 0 stMirror []) s

/-- The restore read of a tag. -/
def State.restoreRead (s : State) (tag : Nat) : Option (Nat × BulkRead) :=
  s.mem.restore.find? fun x : Nat × BulkRead => decide (x.2.tag = tag)

/-- RESTORE_READ_RESPONSE: granules land; with the last one the region is an ordinary primary. Any other status than OK is a
failure of the buddy (R508, R511). -/
def execRestoreReadResponse (t : Nat) (s : State) : Out State :=
  let s := s.tick t
  .next (match s.takeMp fun x => decide (hKind x.pkt.hdr = 6) && (s.restoreRead (hTag x.pkt.hdr)).isSome with
    | none => s
    | some (x, s) => s.mpPacket x fun s =>
      match s.restoreRead (hTag x.pkt.hdr) with
      | none => s
      | some (e, w) =>
        let r := s.regionEnt e
        if hStatus x.pkt.hdr ≠ 0 ∨ x.pkt.payload.length ≠ w.len then s.buddyFail
        else
          let s := (s.dramPut (servingCluster (reBase r)) (64 * reBase r + w.off) x.pkt.payload).1
          let rest := s.mem.restore.filter fun y : Nat × BulkRead => !decide (y.2.tag = w.tag)
          let s := { s with mem := { s.mem with restore := rest } }
          match (s.reg e).phase with
          | .restoring next landed =>
            let n := landed + w.len / 64
            if reLen r ≤ n then (s.setReg e {}).promoteDone 0 0
            else (s.setReg e { s.reg e with phase := .restoring next n }).restoreNext e
          | _ => s)

/-- RESTORE_READ_RESEND: a READ without a response for 10 ms (R558). -/
def execRestoreReadResend (tag t : Nat) (s : State) : Out State :=
  let s := s.tick t
  .next (match s.restoreRead tag with
    | none => s
    | some (e, w) =>
      if s.now < w.sentAt + resendNs then s
      else
        let r := s.regionEnt e
        let again (y : Nat × BulkRead) : Nat × BulkRead := (y.1, { y.2 with sentAt := s.now, resends := y.2.resends + 1 })
        let rs := modWhere (fun y : Nat × BulkRead => decide (y.2.tag = tag)) again s.mem.restore
        ({ s with mem := { s.mem with restore := rs } }).mpRead (rePart r) (reBuddy r <<< 32 + reBbase r) w)

/-- The Trail position of a buddy that a restore reads from is in bypass (R511, R553). -/
def State.buddyAbsent (s : State) : Bool :=
  s.mem.regs.any fun x : Nat × RegDyn => x.2.restores && !(s.member (cPlane (reBuddy (s.regionEnt x.1)))).present

/-- BUDDY_TIMEOUT: no response within 100 ms of the first send, or the buddy is in bypass (R511, R558). -/
def execBuddyTimeout (t : Nat) (s : State) : Out State :=
  let s := s.tick t
  .next (when_ ((s.mem.restore.any fun x : Nat × BulkRead => decide (x.2.first + 100000000 ≤ s.now)) || s.buddyAbsent) s
    s.buddyFail)

/-! ### The takeover (R507) -/

/-- An endpoint link stops, to start again from DISABLED; one that is DISABLED or already stopping stays as it is. -/
def State.linkRecycle (s : State) (l : Nat) : State :=
  let k := s.link l
  if k.st = .disabled ∨ k.st = .stopping then s else (s.setLink l { k with restart := true }).linkStop l

/-- Fawn mode ends at the takeover. -/
def State.fawnEnd (s : State) : State := if s.fawn.fn.st = .off then s else s.fawnOff 0x25

/-- What follows the commit of a promotion plan: Fawn mode has ended with the copies it had taken, the endpoint links
start again, and the mirrored primaries are restored. -/
def State.afterTakeover (s : State) (p : Plan) (a : Arm) : State :=
  let steer := s.sw.steer.filter fun x : Steered => !(x.dest.isSome && isCollKind (hKind x.pkt.hdr))
  let s := ({ s with sw := { s.sw with steer := steer } }).fawnEnd
  let s := ((List.range 580).filter p.route.endpointLink).foldl State.linkRecycle s
  let s := { s with fawn := { s.fawn with promote := some a.req } }
  let es := (s.mem.regs.filter fun x : Nat × RegDyn => x.2.restores).map fun x : Nat × RegDyn => x.1
  (es.foldl State.restoreNext s).promoteDone 0 0

/-- TAKEOVER (R507). -/
def execTakeover (t : Nat) (s : State) : Out State :=
  let s := s.tick t
  .next (s.commitNow true fun p a s => s.afterTakeover p a)

end Sys2Proof.Machine
end

