-- ==== Sys2Proof/Machine/TrailRows.lean ====
section
/-!
DEFINITION. The Trail's frames other than those of a transfer: packets, time, digests, the census, wakes, and the insertion of
the part into the ring (R384, R457, R473, R553 to R557).
-/
namespace Sys2Proof.Machine

/-! ### PKT, TSYNC and DIGEST frames (R384, R457, R472, R473) -/

/-- The VC of a packet that comes over the Trail: a frame does not carry it, and it follows from the KIND (log entry 26). -/
def kindVc (h : BitVec 256) : Nat :=
  let k := hKind h
  if 1 ≤ k ∧ k ≤ 4 then 2 else if k = 5 then 3 else if k = 6 then 4 else if k = 8 then 7 else if 9 ≤ k ∧ k ≤ 13 then 0 else 5

/-- TRAIL_PKT_FRAME: the packet of a frame enters the part (R384, R551). -/
def execTrailPktFrame (f : Frame) (t : Nat) (s : State) : Out State :=
  let s := s.tick t
  .next (s.trailRx f (decide (frType f = 1)) fun s =>
    let h : BitVec 256 := BitVec.ofNat 256 (leAt f.payload 0 32)
    let p : Packet := { hdr := h, payload := f.payload.drop 32 }
    if f.payload.length < 32 ∨ hLen h ≠ p.payload.length then s.count .malformed 580 0
    else
      let n := flitsOf p.payload.length
      let bad := decide (checkOf p.payload ≠ hCheck h)
      let s := if bad then (s.count .checkIn 580 0).health hCheckIn 1 else s
      (arrive s .trail (kindVc h) n n p bad).1)

/-- TRAIL_TSYNC_FRAME: the exchange of a grandmaster with its Trail source, and a source's answer (R453, R457). -/
def execTrailTsyncFrame (f : Frame) (t : Nat) (s : State) : Out State :=
  let s := s.tick t
  .next (s.trailRx f (decide (frType f = 2 ∧ f.payload.length = 16)) fun s =>
    let w : BitVec 128 := BitVec.ofNat 128 (leAt f.payload 0 16)
    let answer : State := s.trailTsync (frSplane f) (some (fld w 11 8, s.now))
    match s.timeEnt with
    | none => answer
    | some e =>
      if teGm e && teTrail e && decide (frSplane f = teTplane e) then
        let s := { s with trail := { s.trail with tsRecv := some (fld w 11 8, s.now) } }
        match tsyncMatch w s.trail.tsSent with
        | none => s.count .tsyncUnused 580 0
        | some t1 => s.useOffset (s.tsyncTheta w t1 s.now (teAsym e 64)) (fld w 63 56) true
      else answer)

/-- TRAIL_DIGEST_FRAME: a member's DIGEST word compared with the active plan (R473). -/
def execTrailDigestFrame (f : Frame) (t : Nat) (s : State) : Out State :=
  let s := s.tick t
  .next (s.trailRx f (decide (frType f = 3 ∧ f.payload.length = 16)) fun s =>
    let w : BitVec 128 := BitVec.ofNat 128 (leAt f.payload 0 16)
    let p := frSplane f
    let m := s.member p
    let c := s.digestCompare w
    let lst := s.lasting c m.digCmp m.digLasting
    let s := s.setMember p { m with dig := w, digAt := some s.now, digCmp := c, digLasting := lst }
    s.digestResult 580 (0xFFFF + p <<< 16 + fld w 63 32 <<< 24) c m.digLasting lst [])

/-! ### The census (R553, R555) -/

/-- The part's CENSUS payload (R553). -/
def State.censusWord (s : State) : Nat :=
  let role := match s.newest with | none => 0 | some r => r.role
  let pw : Nat := match s.roe.pstate with | .p0 => 0 | .p1 => 1 | .s1 => 2 | .s3 => 3 | .off => 4
  s.fuse.serial.toNat + role <<< 64 + b2n s.isLead <<< 72 + pw <<< 73 + s.time.st.code <<< 76 + b2n s.plans.active.isSome <<< 80

/-- CENSUS_FRAME: the sender is present; a lead that hears another reports it, and a ROM that waits for a lead has found it
(R553, R555, R580). -/
def execCensusFrame (f : Frame) (t : Nat) (s : State) : Out State :=
  let s := s.tick t
  .next (s.trailRx f (decide (frType f = 4 ∧ f.payload.length = 16)) fun s =>
    let p := frSplane f
    let m := s.member p
    let c : BitVec 128 := BitVec.ofNat 128 (leAt f.payload 0 16)
    let s := s.setMember p { m with census := c, at_ := s.now, present := true }
    let lead := bit c.toNat 72
    let s := if lead && s.isLead then s.event evLeadConflict 0 p [] else s
    if lead then s.bootLead p else s)

/-- CENSUS_SEND: every 10 µs in every power state but OFF (R553). -/
def execCensusSend (t : Nat) (s : State) : Out State :=
  let s := s.tick t
  .next (when_ (s.inRing && decide (s.roe.pstate ≠ .off ∧ s.trail.censusAt + 10000 ≤ s.now)) s
    (({ s with trail := { s.trail with censusAt := s.now } }).trailCast 0x4 (toLE 16 s.censusWord)))

/-- MEMBER_ABSENT: no CENSUS of a member for 100 µs; a restore from it has lost its buddy (R511, R553). -/
def execMemberAbsent (plane t : Nat) (s : State) : Out State :=
  let s := s.tick t
  onUnit (decide (plane < 32)) (
    let m := s.member plane
    if m.present = true ∧ m.at_ + 100000 ≤ s.now then
      let s := s.setMember plane { m with present := false }
      let reads := s.mem.regs.any fun x : Nat × RegDyn => x.2.restores && decide (cPlane (reBuddy (s.regionEnt x.1)) = plane)
      if reads then s.buddyFail else s
    else s)

end Sys2Proof.Machine
end

