-- ==== Sys2Proof/Machine/Power.lean ====
section
/-!
DEFINITION. The Roe block: resets, the Trail bypass, PLLs, thermal and power levels, trips and faults, lasers, the MP's
heartbeat, and the power states with their wakes (R32, R330, R552, R554, R557, R561 to R568, R592 to R605, R610, R614).
Temperatures are in units of 0.25 °C, as `ROE_STATUS` gives them.
-/
namespace Sys2Proof.Machine

/-! ### The bypass (R554, R601) -/

/-- Nothing holds the part out of the ring. -/
def State.bypGood (s : State) : Bool :=
  s.roe.aon && !s.roe.porst && !s.roe.c6 && s.roe.trailPll && !s.roe.forcebyp && decide (s.roe.pstate ≠ .off)

/-- TRAIL_BYP_N after a change from `old`: undriven without VDD_AON and in OFF, low while something holds the part out, and
otherwise as it was; K28.5 begins when nothing holds the part out any more. -/
def State.bypass (s old : State) : State :=
  if !s.roe.aon ∨ s.roe.pstate = .off then { s with roe := { s.roe with bypN := none } }
  else if !s.bypGood then { s with roe := { s.roe with bypN := some false } }
  else if old.bypGood then s
  else { s with roe := { s.roe with bypN := some false, k28At := s.now } }

/-- TRAIL_INSERT: after 10 µs of K28.5 on the Trail output (R554). -/
def execTrailInsert (t : Nat) (s : State) : Out State :=
  let s := s.tick t
  .next (when_ (s.bypGood && decide (s.roe.bypN = some false ∧ s.roe.k28At + 10000 ≤ s.now)) s
    { s with roe := { s.roe with bypN := some true } })

/-! ### Resets (R592, R600 to R603) -/

/-- The part held in reset: what the fuses hold, the commands that wait, the clock of the model and what stands on VDD_AON
remain. FT is 0. -/
def State.heldReset (s : State) (aon : Bool) : State :=
  { State.reset with
    pending := s.pending
    fuse := s.fuse
    links := []
    roe := { State.reset.roe with aon := aon, porst := true, trailPll := aon && s.roe.trailPll,
                                  bypN := if aon then some false else none }
    time := { ft := s.time.ft, off := -(s.time.ft : Int) }
    free := s.free }

/-- PORST_N_ASSERT (R600, R601). -/
def execPorstNAssert (s : State) : Out State := .next (when_ s.roe.aon s (s.heldReset true))

/-- PORST_N_RELEASE: the straps are sampled and the edge ports start (R556, R592); the boot ROM follows with the die PLLs
(R605). -/
def execPorstNRelease (st : Straps) (s : State) : Out State :=
  .next (when_ (s.roe.aon && s.roe.porst) s (
    let s' : State := { s with fuse := { s.fuse with straps := st }, roe := { s.roe with porst := false }, links := State.reset.links }
    s'.bypass s))

/-- VDD_AON_UP: the Roe block starts with the bypass closed and PORST_N low (R600, R601). -/
def execVddAonUp (s : State) : Out State := .next (when_ (!s.roe.aon) s (s.heldReset true))

/-- VDD_AON_DOWN: nothing runs and TRAIL_BYP_N is undriven (R601, R602). -/
def execVddAonDown (s : State) : Out State := .next (s.heldReset false)

/-! ### Stops (R475, R562, R605) -/

/-- The Roe block runs and judges the part: VDD_AON is there, PORST_N is high and the part is not in OFF (R600). -/
def State.roeJudges (s : State) : Bool := s.roe.aon && !s.roe.porst && decide (s.roe.pstate ≠ .off)

/-- A class C6 stop: the part stops, every link goes DOWN and the bypass closes (R475). -/
def State.c6Stop (s : State) : State :=
  if s.roe.c6 then s
  else
    let old := s
    let s := { s with mp := { s.mp with running := false }, roe := { s.roe with c6 := true, waking := false, trans := none } }
    let s := { s with sw := { s.sw with wait := [], steer := [] }
                      cores := s.cores.map fun x : Nat × Core => (x.1, { x.2 with run := none }) }
    let up := (s.links.filter fun x : Nat × Link => !decide (x.2.st = .disabled ∨ x.2.st = .down)).map fun x : Nat × Link => x.1
    let s := up.foldl (fun s l => s.linkDown l 0x50) s
    (({ s with sw := { s.sw with buf := [] } }) : State).bypass old

/-- THERMAL_TRIP: two raw samples at 115 °C or more (R562, R603). -/
def execThermalTrip (raw0 raw1 t : Nat) (s : State) : Out State :=
  let s := s.tick t
  .next (when_ (s.roeJudges && decide (460 ≤ raw0 ∧ 460 ≤ raw1)) s (
    let s := s.roeEvent 1
    let tripped : State := { s with roe := { s.roe with thermtrip := true } }
    tripped.c6Stop))

/-- RAIL_FAULT: a rail outside its fault window for 10 µs (R562, R600). -/
def execRailFault (rail us t : Nat) (s : State) : Out State :=
  let s := s.tick t
  onUnit (decide (rail < 7)) (when_ (s.roeJudges && decide (10 ≤ us)) s (s.roeEvent 2).c6Stop)

/-- REFCLK_LOSS: no reference edge for 1 µs (R562, R604). -/
def execRefclkLoss (ns t : Nat) (s : State) : Out State :=
  let s := s.tick t
  .next (when_ (s.roeJudges && decide (1000 ≤ ns)) s (s.roeEvent 3).c6Stop)

/-! ### PLLs (R605) -/

/-- PLL_LOCK: with the fourth die PLL the boot ROM starts (Table ELE-5A). -/
def execPllLock (u : PllRef) (t : Nat) (s : State) : Out State :=
  let s := s.tick t
  match u with
  | .die d => onUnit (decide (d < 4)) (
      if !s.roeJudges || s.roe.c6 || s.roe.diePll.contains d then s
      else
        let s : State := { s with roe := { s.roe with diePll := d :: s.roe.diePll } }
        if s.roe.diePll.length = 4 ∧ s.boot.phase = .start ∧ s.boot.attempts = 0 then s.romStart else s)
  | .trail => .next (when_ s.roe.aon s (
      let s' : State := { s with roe := { s.roe with trailPll := true } }
      s'.bypass s))
  | .lane l _ => onUnit (decide (l < Config.links)) s

/-- PLL_LOCK_LOSS (R554, R605). -/
def execPllLockLoss (u : PllRef) (t : Nat) (s : State) : Out State :=
  let s := s.tick t
  match u with
  | .die d => onUnit (decide (d < 4)) (
      if !s.roeJudges || s.roe.c6 || !s.roe.diePll.contains d then s
      else
        let s : State := { s with roe := { s.roe with diePll := s.roe.diePll.filter fun x => !decide (x = d) } }
        if d = 0 then s.c6Stop else s.unitError (.die d))
  | .trail => .next (
      let s' : State := { s with roe := { s.roe with trailPll := false } }
      s'.bypass s)
  | .lane l lane => onUnit (decide (l < Config.links)) (
      when_ ((s.link l).live && bit (s.link l).good lane) s (s.laneFailed l lane))

/-! ### The throttle level (R562, R563, R597) -/

/-- The throttle level L. -/
def State.level (s : State) : Nat := max s.roe.tlevel s.roe.plevel

/-- The clock and the voltage follow L: at a rise both fall at once; at a fall the voltage rises first, and the frequency
waits for the regulator. A change that comes during another waits for its end (R597). -/
def State.followLevel (s : State) : State :=
  let l := s.level
  match s.roe.avs with
  | .raising _ _ => s
  | .idle =>
    if s.roe.applied < l then { s with roe := { s.roe with applied := l, vcore := s.setPoint l } }
    else if l < s.roe.applied then { s with roe := { s.roe with vcore := s.setPoint l, avs := .raising l s.now } }
    else s

/-- THROTTLE reported (Table MGT-8). -/
def State.throttled (s : State) (cause : Nat) : State := s.event evThrottle 0 (s.level + cause <<< 8) []

/-- What follows a step of a level from `old`: when L rises from 0 it is reported (R563). -/
def State.levelMoved (s old : State) (cause : Nat) : State :=
  let s := if old.level = 0 ∧ 0 < s.level then ((s.roeEvent 0).throttled cause).health hThrottle 1 else s
  s.followLevel

/-- A step of a level is due: the last one was at least `ns` ago. -/
def State.stepDue (s : State) (last : Option Nat) (ns : Nat) : Bool :=
  s.roeJudges && !s.roe.c6 && last.all fun x => decide (x + ns ≤ s.now)

/-- The hottest filtered die sensor noted (Table MGT-16). -/
def State.noteTemp (s : State) (temp : Nat) : State :=
  if s.roeJudges then { s with roe := { s.roe with tmax := min 1023 temp } } else s

/-- THERMAL_LEVEL_UP: 100 °C or more. -/
def execThermalLevelUp (temp t : Nat) (s : State) : Out State :=
  let s := (s.tick t).noteTemp temp
  .next (when_ (s.stepDue s.roe.tlevelAt 100000 && decide (400 ≤ temp ∧ s.roe.tlevel < 10)) s (
    let s' : State := { s with roe := { s.roe with tlevel := s.roe.tlevel + 1, tlevelAt := some s.now } }
    s'.levelMoved s 0))

/-- THERMAL_LEVEL_DOWN: 97 °C or less. -/
def execThermalLevelDown (temp t : Nat) (s : State) : Out State :=
  let s := (s.tick t).noteTemp temp
  .next (when_ (s.stepDue s.roe.tlevelAt 1000000 && decide (temp ≤ 388 ∧ 0 < s.roe.tlevel)) s (
    let s' : State := { s with roe := { s.roe with tlevel := s.roe.tlevel - 1, tlevelAt := some s.now } }
    s'.levelMoved s 0))

/-- Package power in mW: `mw`, the measured power of VDD_CORE, VDD_SWX and VDD_SRAM, 40 W, and 0.30 W for each lane of an
enabled link (R598). -/
def State.packagePower (s : State) (mw : Nat) : Nat :=
  mw + 40000 + s.links.foldl (fun n x => if x.2.st = .disabled then n else n + 300 * popcount 8 (s.fullLanes x.1)) 0

/-- POWER_LEVEL_UP: above CAP. -/
def execPowerLevelUp (mw t : Nat) (s : State) : Out State :=
  let s := s.tick t
  .next (when_ (s.stepDue s.roe.plevelAt 1000000 &&
      decide (s.roe.cap ≠ 0 ∧ 1000 * s.roe.cap < s.packagePower mw ∧ s.roe.plevel < 10)) s (
    let s' : State := { s with roe := { s.roe with plevel := s.roe.plevel + 1, plevelAt := some s.now } }
    s'.levelMoved s 1))

/-- POWER_LEVEL_DOWN: below 0.95 × CAP, or no CAP. -/
def execPowerLevelDown (mw t : Nat) (s : State) : Out State :=
  let s := s.tick t
  .next (when_ (s.stepDue s.roe.plevelAt 10000000 &&
      decide ((s.roe.cap = 0 ∨ s.packagePower mw < 950 * s.roe.cap) ∧ 0 < s.roe.plevel)) s (
    let s' : State := { s with roe := { s.roe with plevel := s.roe.plevel - 1, plevelAt := some s.now } }
    s'.levelMoved s 1))

/-- The change at the regulator has ended: the frequency is raised, and a further change follows. -/
def State.avsDone (s : State) (level : Nat) : State :=
  let s : State := { s with roe := { s.roe with applied := level, avs := .idle } }
  s.followLevel

/-- AVS_CONFIRM (R597). -/
def execAvsConfirm (t : Nat) (s : State) : Out State :=
  let s := s.tick t
  .next (match s.roe.avs with | .raising l _ => s.avsDone l | .idle => s)

/-- AVS_CONFIRM_TIMEOUT: no confirmation within 50 µs (R597). -/
def execAvsConfirmTimeout (t : Nat) (s : State) : Out State :=
  let s := s.tick t
  .next (match s.roe.avs with
    | .raising l at_ => if at_ + 50000 ≤ s.now then s.avsDone l else s
    | .idle => s)

/-! ### DRAM stacks (R562, R610) -/

/-- A number put into, or taken out of, a list without repeats. -/
def listed (on : Bool) (x : Nat) (xs : List Nat) : List Nat :=
  let rest := xs.filter fun y => !decide (y = x)
  if on then x :: rest else rest

/-- The refresh rate of a stack follows its hottest sensor and its throttle (R610). -/
def State.refreshRate (s : State) (stack temp : Nat) : State :=
  { s with roe := { s.roe with refresh2 := listed (s.roe.dramThr.contains stack || decide (340 ≤ temp)) stack s.roe.refresh2 } }

/-- DRAM_THROTTLE_ON: a stack at 95 °C or more. -/
def execDramThrottleOn (stack temp t : Nat) (s : State) : Out State :=
  let s := s.tick t
  onUnit (decide (stack < 4)) (when_ (s.roeJudges && !s.roe.dramThr.contains stack && decide (380 ≤ temp)) s (
    let s : State := { s with roe := { s.roe with dramThr := listed true stack s.roe.dramThr } }
    (s.refreshRate stack temp).throttled 2))

/-- DRAM_THROTTLE_OFF: a stack at 92 °C or less. -/
def execDramThrottleOff (stack temp t : Nat) (s : State) : Out State :=
  let s := s.tick t
  onUnit (decide (stack < 4)) (when_ (s.roeJudges && s.roe.dramThr.contains stack && decide (temp ≤ 368)) s (
    let s : State := { s with roe := { s.roe with dramThr := listed false stack s.roe.dramThr } }
    s.refreshRate stack temp))

/-- REFRESH_RATE_DOUBLED: a stack crosses 85 °C (R610). -/
def execRefreshRateDoubled (stack temp t : Nat) (s : State) : Out State :=
  let s := s.tick t
  onUnit (decide (stack < 4)) (when_ s.roeJudges s (s.refreshRate stack temp))

/-! ### Lasers (R330, R614) -/

/-- LASER_FAULT: three samples below the threshold. -/
def execLaserFault (engine samples t : Nat) (s : State) : Out State :=
  let s := s.tick t
  onUnit (decide (engine < Config.clusters)) (
    when_ (s.roeJudges && !s.roe.laser.contains engine && decide (3 ≤ samples)) s (
      let s : State := { s with roe := { s.roe with laser := engine :: s.roe.laser } }
      let s := s.roeEvent 7
      let hit := (s.links.filter fun x : Nat × Link =>
        decide (engineOf x.1 = engine) && !decide (x.2.st = .disabled ∨ x.2.st = .stopping ∨ x.2.st = .down)).map
          fun x : Nat × Link => x.1
      hit.foldl (fun s l => s.linkDown l 0x56) s))

/-- LASER_CLEAR: three samples at or above it. -/
def execLaserClear (engine samples t : Nat) (s : State) : Out State :=
  let s := s.tick t
  onUnit (decide (engine < Config.clusters)) (when_ (s.roeJudges && decide (3 ≤ samples)) s
    { s with roe := { s.roe with laser := listed false engine s.roe.laser } })

/-! ### The MP's heartbeat (R32, R564) -/

/-- MP_HEARTBEAT. -/
def execMpHeartbeat (t : Nat) (s : State) : Out State :=
  let s := s.tick t
  .next (when_ s.mpServes s { s with roe := { s.roe with beatAt := s.now } })

/-- An entry of the MP fault log: FT, and a code and a detail that the manual does not give (Table MGT-21). -/
def State.logFault (s : State) : State :=
  let x := s.drawFree 64
  let e : BitVec 128 := BitVec.ofNat 128 (s.ftNow % 2 ^ 64 + x.1 <<< 64)
  let log := s.roe.log ++ [e]
  { x.2 with roe := { x.2.roe with log := log.drop (log.length - 256) } }

/-- MPSTOP: the firmware has sent no heartbeat for 1 s; the Roe block reports it once, and the MP stays stopped until reset
(R475, R564). -/
def execMpstop (t : Nat) (s : State) : Out State :=
  let s := s.tick t
  .next (when_ (s.roeJudges && !s.roe.mpLost && decide (s.boot.phase = .firmware ∧ s.roe.pstate ≠ .s3 ∧
      s.roe.beatAt + 1000000000 ≤ s.now)) s (
    let s : State := { s with roe := { s.roe with mpLost := true }, mp := { s.mp with running := false } }
    s.logFault.roeEvent 4))

/-- MP_STOPS_EXECUTING: configuration and reporting stop; the data path goes on (R32). -/
def execMpStopsExecuting (s : State) : Out State := .next { s with mp := { s.mp with running := false } }

/-! ### Power states (R565 to R568) -/

/-- The power state of a code (Table MGT-14). -/
def pstateOf : Nat → PState
  | 0 => .p0 | 1 => .p1 | 2 => .s1 | 3 => .s3 | _ => .off

/-- Links taken down before S3 and OFF: each stops, and those of S3 train again after the wake. -/
def State.stopLinks (s : State) : State :=
  s.links.foldl (fun s x =>
    let k := s.link x.1
    if k.st = .disabled then s
    else
      let again := decide (k.st ≠ .stopping) || k.fn.queued.isSome || k.restart
      let s := if again then { s with roe := { s.roe with wakeLinks := s.roe.wakeLinks ++ [x.1] } } else s
      let s := match k.fn.queued with | none => s | some q => s.complete q.1 0x25 0
      let s := s.setLink x.1 { s.link x.1 with fn := { k.fn with queued := none }, restart := false }
      if k.st = .stopping then s else s.linkStop x.1) { s with roe := { s.roe with wakeLinks := [] } }

/-- What ends before a transition begins (R566). -/
def State.leaving (s : State) (dest : PState) : State :=
  let s := if s.roe.pstate = .p0 ∧ dest ≠ .p0 then s.failWhere (fun _ => true) stAborted else s
  let s := if (s.roe.pstate = .p0 ∨ s.roe.pstate = .p1) ∧ dest ≠ .p0 ∧ dest ≠ .p1 then
      (List.range 64).foldl (fun s p => s.failMsgs p stAborted) s
    else s
  if dest = .s3 ∨ dest = .off then s.stopLinks else s

/-- What POWER_STATE_SET decides (R566, R567). -/
def powerStateSet (c : Call) (s : State) : Verdict :=
  let code := c.arg 0 0
  let wake := c.arg 1 1
  let cap := c.arg 3 2
  if 4 < code ∨ !(wake = 0 ∨ wake = 2) ∨ !(cap = 0 ∨ (300 ≤ cap ∧ cap ≤ 900)) then refuseCmd s 0x71
  else if s.roe.trans.isSome || s.roe.waking then refuseCmd s 0x24
  else
    let dest := pstateOf code
    let s := s.leaving dest
    deferred { s with roe := { s.roe with cap := cap, trans := some (dest, c.req), waketo := pstateOf wake } }

/-- POWER_STATE_SET as the request of mailbox `m`. -/
def execPowerStateSet (m t : Nat) (s : State) : Out State :=
  let s := s.tick t
  onUnit (decide (m < 8)) (s.command m { op := 0x0900, alen := 4, admin := true, noPlan := true } powerStateSet)

/-- Every link is DISABLED. -/
def State.allDisabled (s : State) : Bool := s.links.all fun x : Nat × Link => decide (x.2.st = .disabled)

/-- The wake has reached WAKETO: FT starts at 0 and is UNSET, and the enabled links train again (R44, R444, R567, R568). -/
def State.woken (s : State) : State :=
  let ls := s.roe.wakeLinks
  let s : State := { s with roe := { s.roe with pstate := s.roe.waketo, waking := false, wakeLinks := [], beatAt := s.now } }
  let s : State := { s with time := { s.time with stop := none, off := -(s.now : Int), frac := 0 } }
  let s := (s.enterTime .unset).roeEvent 5
  ls.foldl (fun s l => (s.setLink l { s.link l with awaited := some s.now }).startOff l) s

/-- A transition has reached its state: the command completes, and FT stops in S3 and OFF (R44, R567). -/
def State.reached (s : State) (dest : PState) (r : Req) : State :=
  let old := s
  let s : State := ({ s with roe := { s.roe with trans := none } } : State).complete r 0 0
  let s : State := { s with roe := { s.roe with pstate := dest } }
  let s : State := if dest = .s3 ∨ dest = .off then { s with time := { s.time with stop := some s.now } } else s
  if dest = .off then ({ s with mp := { s.mp with running := false } } : State).bypass old else s

/-- No core holds a live context (R104). -/
def State.coresIdle (s : State) : Bool := s.cores.all fun x : Nat × Core => x.2.ctxs.isEmpty && x.2.run.isNone

/-- POWER_TRANSITION_DONE: S3 and OFF wait until every link is DISABLED, and the cores stop running outside P0 only while
they hold no live context (R40, R104, R567). -/
def execPowerTransitionDone (t : Nat) (s : State) : Out State :=
  let s := s.tick t
  .next (if s.roe.c6 then s
    else if s.roe.waking then s.woken
    else match s.roe.trans with
      | none => s
      | some (dest, r) =>
        if ((dest = .s3 ∨ dest = .off) ∧ !s.allDisabled) ∨ (dest ≠ .p0 ∧ !s.coresIdle) then s else s.reached dest r)

/-- A wake begins in S3. -/
def State.wakeUp (s : State) : State :=
  if s.roe.pstate = .s3 ∧ s.roe.c6 = false then { s with roe := { s.roe with waking := true } } else s

/-- WAKE_FRAME (R557, R568). -/
def execWakeFrame (f : Frame) (t : Nat) (s : State) : Out State :=
  let s := s.tick t
  .next (s.trailRx f (decide (frType f = 7)) fun s => if frBcast f then s else s.wakeUp)

/-- EDGE_WAKE_DETECT: 1 ms of signal detect on an edge port while EDGEWAKE is 1 (R568). -/
def execEdgeWakeDetect (ep us t : Nat) (s : State) : Out State :=
  let s := s.tick t
  onUnit (decide (ep < 4)) (when_ (s.roe.edgewake && decide (1000 ≤ us)) s s.wakeUp)

end Sys2Proof.Machine
end

