-- ==== Sys2Proof/Machine/Reads.lean ====
section
/-!
DEFINITION. Commands that read or set what the part measures: counters, digests, maps and events, sampling, health, FT, and
the part's own identity (R2, R186, R276, R404, R436 to R439, R450, R469, R513, R538, R539, R543).
-/
namespace Sys2Proof.Machine

/-! ### Counters (R539, Table MGT-6) -/

/-- Counters of Table COL-7 kept per slot, in row order. -/
def slotCtrs : List Ctr :=
  [.absorbed, .dup, .late, .busy, .epoch, .index, .metaF, .length, .check, .part, .relayed, .done, .aborted]
/-- Table LNK-10: those before the per-lane rows. -/
def linkCtrs : List Ctr := [.blocksTx, .blocksRx, .badBlocks, .dupBlocks, .replays, .naksTx, .retrains, .degrades]
/-- Table LNK-10: those after the per-lane rows. -/
def linkCtrs2 : List Ctr := [.abortsRx, .abortsTx, .lostBlocks, .vcAbsent, .ctrlUnknown]
/-- Table RTE-15. -/
def routeCtrs : List Ctr :=
  [.malformed, .unknownColl, .spoof, .unroutable, .noRoute, .fenceIn, .fenceOut, .epochEsc, .epochDrop, .aged, .trailTx,
   .trailFull, .mcCopies]
/-- Table TIM-10, rows per link. -/
def timeCtrs : List Ctr := [.tsyncTx, .tsyncRx, .tsyncUnused, .planConflict, .planSkew, .digestMissing]
/-- Table MEM-12. -/
def memCtrs : List Ctr :=
  [.reads, .writes, .atomics, .accums, .msgApplied, .msgFailed, .mDup, .mLate, .mBusy, .mRefused, .refuseLost, .eccCorr,
   .eccUncorr, .mirrorFail]
/-- Group 4 up to SHADOW_SKIP: Table TIM-10 per switch, then as Table MGT-6 names them. -/
def switchCtrs : List Ctr :=
  [.timeUnset, .holdovers, .parentSwitch, .cmapSent, .cmapLost, .mpCheck, .checkInt, .hdrParity, .shadowDrop, .shadowSkip]
/-- Group 4 after the CLEAN count. -/
def switchCtrs2 : List Ctr :=
  [.reqReplaced, .eventLost, .trailBad, .trailNodest, .trailLoop, .trailFwdDrop, .trailSleepDrop]

/-- Keys of single counters of a unit. -/
def keys1 (cs : List Ctr) (i : Nat) : List CKey := cs.map fun c => ⟨c, i, 0⟩
/-- Keys of counters kept for the eight VCs or lanes of a link. -/
def keys8 (cs : List Ctr) (l : Nat) : List CKey := cs.flatMap fun c => (List.range 8).map fun v => ⟨c, l, v⟩

/-- The value of a counter by its key. -/
def State.at_ (s : State) (k : CKey) : Nat := s.cnt.at k 0

/-- Counters set to 0. -/
def State.clearKeys (s : State) (ks : List CKey) : State := ks.foldl (fun s k => { s with cnt := s.cnt.drop k }) s

/-- The state word of a link (Table MGT-6). -/
def State.stateWord (s : State) (l : Nat) : Nat :=
  let k := s.link l
  k.st.code + (k.cause % 256) <<< 8 + (k.lanes % 256) <<< 16 + k.disc.code <<< 24

/-- A counter of a slot: the sum over its clusters. -/
def State.slotSum (s : State) (c : Ctr) (slot : Nat) : Nat :=
  min Config.ctrMax ((List.range Config.clusters).foldl (fun n cl => n + s.ctr c slot cl) 0)

/-- Clusters that own chunks of a slot in the active plan. -/
def State.slotOwners (s : State) (slot : Nat) : List Nat :=
  match s.plans.active with
  | none => []
  | some p => ((p.owners.filter fun o => decide (owSlot o.2 = slot)).map (·.1)).eraseDups

/-- Group 0: a slot (Table COL-7, RELEASE_LATE, program counters). -/
def State.group0 (s : State) (slot : Nat) (clear : Bool) : List Nat × State :=
  let owners := s.slotOwners slot
  let ws := (slotCtrs.map fun c => s.slotSum c slot) ++
    [min Config.ctrMax (owners.foldl (fun n cl => n + s.ctr .answerLost cl 0) 0), s.slotSum .releaseLate slot] ++
    (List.range 4).map fun k => (s.coll.pcnt.at (slot, k) 0).toNat
  let keys := (.releaseLate :: slotCtrs).flatMap fun c => (List.range Config.clusters).map fun cl => (⟨c, slot, cl⟩ : CKey)
  if clear then
    let s := (s.clearKeys keys).clearKeys (owners.map fun cl => (⟨.answerLost, cl, 0⟩ : CKey))
    (ws, { s with coll := { s.coll with pcnt := s.coll.pcnt.filter fun x => !decide (x.1.1 = slot) } })
  else (ws, s)

/-- Group 1: a link (Tables LNK-10, SWC-8, RTE-15, TIM-10). DEPTH_MAX and STARVE are cleared by the read (R438). -/
def State.group1 (s : State) (l : Nat) (clear : Bool) : List Nat × State :=
  let vcs := List.range 8
  let k1 := keys1 linkCtrs l ++ keys8 [.fecCorr, .fecUncorr] l ++ keys1 linkCtrs2 l ++
    keys8 [.txPkts, .txFlits, .rxPkts, .rxFlits] l
  let k2 := keys8 [.stallCredit, .stallGate, .stallShape] l ++ keys1 [.tailDrop, .pushout, .holdCuts] l
  let k3 := keys8 [.starveEvents] l ++ keys1 ([.linkFlush, .gateLate, .sampled, .sampleLost] ++ routeCtrs ++ timeCtrs) l
  let ws := [s.stateWord l] ++ k1.map s.at_ ++ (vcs.map fun v => s.depth l v) ++ (vcs.map fun v => (s.chan l v).depthMax) ++
    k2.map s.at_ ++ (vcs.map fun v => b2n (s.chan l v).starve) ++ k3.map s.at_
  let s := vcs.foldl (fun s v => s.setChan l v { s.chan l v with depthMax := 0, starve := false }) s
  (ws, if clear then s.clearKeys (k1 ++ k2 ++ k3) else s)

/-- Group 2: a cluster (Table MEM-12). -/
def State.group2 (s : State) (cl : Nat) (clear : Bool) : List Nat × State :=
  let ks := keys1 memCtrs cl
  (ks.map s.at_, if clear then s.clearKeys ks else s)

/-- Group 3: the fault and count of a weight entry, read and cleared (R276); the fault as one word of four 16-bit fields,
tile row, tile column, row and group (log entry 22). -/
def State.group3 (s : State) (n : Nat) : List Nat × State :=
  let w := s.mem.wfault.at n {}
  let pos := match w.pos with | some [a, b, c, d] => a % 65536 + (b % 65536) <<< 16 + (c % 65536) <<< 32 + (d % 65536) <<< 48 | _ => 0
  ([pos, w.count], { s with mem := { s.mem with wfault := s.mem.wfault.drop n } })

/-- Group 4: the switch, its internal endpoints and the Trail. -/
def State.group4 (s : State) (clear : Bool) : List Nat × State :=
  let k1 := keys1 switchCtrs 0
  let k2 := keys1 switchCtrs2 0 ++ keys1 routeCtrs 581 ++ keys1 routeCtrs 580
  (k1.map s.at_ ++ [s.fawn.clean] ++ k2.map s.at_,
    if clear then let s := s.clearKeys (k1 ++ k2); { s with fawn := { s.fawn with clean := 0 } } else s)

/-- Group 5: the queued event records of a mailbox, oldest first, taken from the queue. -/
def State.group5 (s : State) (m : Nat) : List Byte × State :=
  ((s.box m).events.flatMap fun e => toLE 32 e.toNat, s.setBox m { s.box m with events := [] })

/-- The object of a counter group belongs to another partition than the mailbox's (R536). -/
def groupForeign (c : Call) (s : State) (g i : Nat) : Bool :=
  let part : Option Nat := match s.plans.active with
    | none => none
    | some p =>
      if g = 0 then if p.cids.any fun e => decide (fld e 37 24 = i) then some (p.partOf i) else none
      else if g = 1 then s.linkOwner i
      else if g = 3 then (p.weights[i]?).map wePart
      else none
  c.foreign part

/-- GROUP and INDEX name something (Table MGT-6). -/
def groupNames (s : State) (g i : Nat) : Bool :=
  if g = 0 then decide (i < 16384) else if g = 1 then s.namesLink i else if g = 2 then decide (i < Config.clusters)
  else if g = 3 then decide (i < 256) else decide (g ≤ 5 ∧ i = 0)

/-- What COUNTER_READ decides. -/
def counterRead (c : Call) (s : State) : Verdict :=
  let g := c.arg 0 0
  let clear := bit (c.arg 1 1) 0
  let i := c.arg 3 2
  let words (r : List Nat × State) : Verdict := { st := r.2, status := 0, body := r.1.flatMap (toLE 8) }
  if !groupNames s g i then refuseCmd s 0x71
  else if g = 5 then let r := s.group5 c.req.mbx; { st := r.2, status := 0, body := r.1 }
  else if groupForeign c s g i then refuseCmd s 0x43
  else if g = 0 then words (s.group0 i clear)
  else if g = 1 then words (s.group1 i clear)
  else if g = 2 then words (s.group2 i clear)
  else if g = 3 then words (s.group3 i)
  else words (s.group4 clear)

/-- COUNTER_READ as the request of mailbox `m`. -/
def execCounterRead (m t : Nat) (s : State) : Out State :=
  let s := s.tick t
  onUnit (decide (m < 8)) (s.command m { op := 0x0701, alen := 4, admin := false, noPlan := true } counterRead)

/-! ### Digests (R469) -/

/-- The ring entries that a mailbox may read: all, or those of its partition's slots. -/
def ringFor (c : Call) (s : State) : List (BitVec 256) :=
  match c.part with
  | none => s.coll.ring
  | some p => s.coll.ring.filter fun e => (cidParts s.plans.active (fld e 87 64)).contains p

/-- What DIGEST_READ decides. -/
def digestRead (c : Call) (s : State) : Verdict :=
  let n := c.arg 2 2
  if n = 0 ∨ 127 < n then refuseCmd s 0x71
  else
    let es := ((ringFor c s).drop (c.arg 1 0)).take n
    { st := s, status := 0, body := toLE 8 es.length ++ es.flatMap fun e => toLE 32 e.toNat }

/-- DIGEST_READ as the request of mailbox `m`. -/
def execDigestRead (m t : Nat) (s : State) : Out State :=
  let s := s.tick t
  onUnit (decide (m < 8)) (s.command m { op := 0x0700, alen := 3, admin := false } digestRead)

/-! ### Congestion maps, events and samples -/

/-- No coordinate (R538). -/
def noCoord : Nat := 0xFFFFFFFF

/-- TELEM_CONFIG SUB 0 with a destination (R439, R516, R517). -/
def telemOn (c : Call) (dst us part : Nat) (s : State) : Verdict :=
  let tel := s.mp.telem
  match tel.fn.onEnable with
  | .start =>
    let tel := { tel with fn := { st := .starting, start := some c.req }, dest := some dst, interval := us, part := part,
                          at_ := some s.ftNow }
    deferred { s with mp := { s.mp with telem := tel } }
  | .keep => noChange s
  | .queue =>
    let x := tel.fn.enqueue c.req [dst, us, part] s
    queuedV { x.2 with mp := { x.2.mp with telem := { tel with fn := x.1 } } }

/-- TELEM_CONFIG SUB 0 without a destination: the last map leaves the MP, then the maps are OFF (R515). -/
def telemStop (c : Call) (s : State) : Verdict :=
  let tel := s.mp.telem
  if tel.fn.st = .off then noChange s
  else
    let x := tel.fn.disable c.req s
    let s := { x.2 with mp := { x.2.mp with telem := { tel with fn := x.1 } } }
    deferred (if s.sw.wait.any isCmap then s else s.telemOff)

/-- The event destination of a mailbox set; records that wait are sent (R543). -/
def State.setEventDest (s : State) (m : Nat) (d : Option (Nat × Nat)) : State :=
  let b := s.box m
  match d with
  | none => s.setBox m { b with dest := none }
  | some (dst, part) =>
    b.events.foldl (fun s e =>
      s.fromMp 0 part (mkPkt (mkHdr [⟨31, 0, dst⟩, ⟨99, 96, 0xD⟩, ⟨102, 100, m⟩]) (toLE 32 e.toNat)))
      (s.setBox m { b with dest := d, events := [] })

/-- What TELEM_CONFIG decides (R439, R538). -/
def telemConfig (c : Call) (s : State) : Verdict :=
  let sub := c.arg 0 0
  let dst := c.arg 7 4
  let us := c.arg 11 8
  let part := c.arg 12 12
  if 1 < sub ∨ 63 < part then refuseCmd s 0x71
  else if sub = 1 then
    if c.foreign (some part) then refuseCmd s 0x43
    else { st := s.setEventDest c.req.mbx (if dst = noCoord then none else some (dst, part)), status := 0 }
  else if c.part.isSome then refuseCmd s 0x43
  else if us ≠ 0 ∧ (us < 10 ∨ 1000000 < us) then refuseCmd s 0x71
  else if dst = noCoord then telemStop c s
  else if s.newest.any fun r : Route => decide (r.role = 0 ∧ r.rmap = 3) then refuseCmd s 0x43
  else telemOn c dst (if us = 0 then 100 else us) part s

/-- TELEM_CONFIG as the request of mailbox `m`. -/
def execTelemConfig (m t : Nat) (s : State) : Out State :=
  let s := s.tick t
  onUnit (decide (m < 8)) (s.command m { op := 0x0702, alen := 13, admin := false } telemConfig)

/-- What SAMPLE_SET decides (R436). -/
def sampleSet (c : Call) (s : State) : Verdict :=
  s.portArg c fun l =>
    let n := c.arg 7 4
    if 0xFFFFFF < n then refuseCmd s 0x71 else noChange (s.setLink l { s.link l with sampN := n, sampCnt := 0 })

/-- SAMPLE_SET as the request of mailbox `m`. -/
def execSampleSet (m t : Nat) (s : State) : Out State :=
  let s := s.tick t
  onUnit (decide (m < 8)) (s.command m { op := 0x0703, alen := 8, admin := false } sampleSet)

/-! ### Health (R513) -/

/-- The health score. -/
def State.score (s : State) : Nat := 1000 - min 1000 s.mp.debt

/-- What HEALTH_READ answers. -/
def healthRead (_ : Call) (s : State) : Verdict :=
  { st := s, status := 0, body := toLE 4 s.score ++ toLE 4 s.mp.debt ++ (List.range 15).flatMap fun r => toLE 8 (s.mp.health.at r 0) }

/-- HEALTH_READ as the request of mailbox `m`. -/
def execHealthRead (m t : Nat) (s : State) : Out State :=
  let s := s.tick t
  onUnit (decide (m < 8)) (s.command m { op := 0x0704, alen := 0, admin := false, noPlan := true } healthRead)

/-- HEALTH_DECAY: at every 60 s of FT the debt loses one 128th (R513). -/
def execHealthDecay (t : Nat) (s : State) : Out State :=
  let s := s.tick t
  let k := s.ftNow / 60000000000
  .next (when_ (s.mp.running && decide (k ≠ s.mp.decayed)) s
    { s with mp := { s.mp with debt := s.mp.debt - cdiv s.mp.debt 128, decayed := k } })

/-! ### FT at a grandmaster (R450) -/

/-- FT loaded with a value by TIME_SET: the switch is in GM. -/
def State.gmLoad (s : State) (ft : Nat) : State :=
  ((s.loadFt ((ft : Int) * 65536 - s.ftFine s.now)).enterTime .gm).missCommit

/-- What TIME_SET decides. -/
def timeSet (c : Call) (s : State) : Verdict :=
  let ft := c.arg 7 0
  match s.timeEnt with
  | none => refuseCmd s 0x75
  | some e =>
    if !teGm e ∨ teTrail e then refuseCmd s 0x43
    else if !s.ftSet then noChange (s.gmLoad ft)
    else
      let d : Int := (s.ftNow : Int) - ft
      if d.natAbs ≤ 1000 then noChange { s with time := { s.time with remove := d * 65536 } }
      else if bit (c.arg 8 8) 0 then noChange ((s.enterTime .unset).gmLoad ft)
      else refuseCmd s 0x43

/-- TIME_SET as the request of mailbox `m`. -/
def execTimeSet (m t : Nat) (s : State) : Out State :=
  let s := s.tick t
  onUnit (decide (m < 8)) (s.command m { op := 0x0800, alen := 9, admin := true } timeSet)

/-! ### Identity (R2) -/

/-- What FW_INFO answers. -/
def fwInfo (_ : Call) (s : State) : Verdict :=
  { st := s, status := 0
    body := [0xB0, BitVec.ofNat 8 s.fuse.lid, 0, 0] ++ toLE 4 s.boot.fwver ++ toLE 4 s.boot.fwsvn ++ zeros 4 ++
      toLE 8 s.fuse.serial.toNat }

/-- FW_INFO as the request of mailbox `m`. -/
def execFwInfo (m t : Nat) (s : State) : Out State :=
  let s := s.tick t
  onUnit (decide (m < 8)) (s.command m { op := 0x0A01, alen := 0, admin := false, noPlan := true } fwInfo)

end Sys2Proof.Machine
end

