-- ==== Sys2Proof/Machine/Sideband.lean ====
section
/-!
DEFINITION. The I3C sideband: common command codes, the registers of Table MGT-15, the diagnostic windows, and mailbox 0 as
I3C reaches it (R526 to R531, R569 to R571, R589).
-/
namespace Sys2Proof.Machine

/-- The sideband works: in every state but OFF, reset included out (R569, R602). -/
def State.sideband (s : State) : Bool := s.roe.aon && !s.roe.porst && decide (s.roe.pstate ≠ .off)

/-- A sideband command: no effect where the sideband does not work. -/
def onSideband (s : State) (f : State → State) : Out State := .next (if s.sideband then f s else s)

/-! ### Common command codes (R569) -/

/-- ENTDAA assigns a dynamic address to a target that has none. -/
def execEntdaa (addr : Nat) (s : State) : Out State :=
  onSideband s fun s => if s.i3c.dyn.isSome then s else { s with i3c := { s.i3c with dyn := some (addr % 128) } }

/-- SETDASA does so from the static address. -/
def execSetdasa (addr : Nat) (s : State) : Out State :=
  onSideband s fun s => if s.i3c.dyn.isSome then s else { s with i3c := { s.i3c with dyn := some (addr % 128) } }

/-- SETNEWDA changes the dynamic address. -/
def execSetnewda (addr : Nat) (s : State) : Out State :=
  onSideband s fun s => if s.i3c.dyn.isSome then { s with i3c := { s.i3c with dyn := some (addr % 128) } } else s

/-- RSTDAA takes the dynamic address back. -/
def execRstdaa (s : State) : Out State := onSideband s fun s => { s with i3c := { s.i3c with dyn := none } }

/-- Bytes returned to the controller. -/
def State.answerI3c (s : State) (bs : List Byte) : State := { s with i3c := { s.i3c with rdata := bs } }

/-- GETPID: the provisioned ID, most significant byte first. -/
def execGetpid (s : State) : Out State := onSideband s fun s => s.answerI3c (toLE 6 Config.i3cPid.toNat).reverse

/-- GETBCR. -/
def execGetbcr (s : State) : Out State := onSideband s fun s => s.answerI3c (toLE 1 Config.i3cBcr.toNat)

/-- GETDCR. -/
def execGetdcr (s : State) : Out State := onSideband s fun s => s.answerI3c (toLE 1 Config.i3cDcr.toNat)

/-- GETSTATUS: two status bytes, most significant first. -/
def execGetstatus (s : State) : Out State :=
  onSideband s fun s =>
    let s := s.answerI3c (toLE 2 (Config.i3cStatus s.i3c.nstat).toNat).reverse
    { s with i3c := { s.i3c with nstat := s.i3c.nstat + 1 } }

/-- ENEC: bit 0 of the event byte enables IBIs. -/
def execEnec (v : BitVec 8) (s : State) : Out State :=
  onSideband s fun s => if bit v.toNat 0 then { s with i3c := { s.i3c with ibiOn := true } } else s

/-- DISEC: bit 0 of the event byte disables them. -/
def execDisec (v : BitVec 8) (s : State) : Out State :=
  onSideband s fun s => if bit v.toNat 0 then { s with i3c := { s.i3c with ibiOn := false } } else s

/-- RSTACT: its defining byte is kept. -/
def execRstact (v : BitVec 8) (s : State) : Out State :=
  onSideband s fun s => { s with i3c := { s.i3c with rstact := v } }

/-! ### Registers (Tables MGT-15 to MGT-20, SEC-7 to SEC-10) -/

/-- Power state codes (Table MGT-14). -/
def PState.code : PState → Nat
  | .p0 => 0 | .p1 => 1 | .s1 => 2 | .s3 => 3 | .off => 4

/-- `ROE_STATUS`. -/
def State.roeStatus (s : State) : Nat :=
  s.roe.tmax % 1024 + s.level <<< 10 + s.roe.pstate.code <<< 14 + b2n (!s.roe.dramThr.isEmpty) <<< 17 +
    b2n (decide (0 < s.roe.plevel)) <<< 18 + b2n (decide (s.roe.bypN = some false)) <<< 19

/-- `ROE_CTRL`; WAKE is write only. -/
def State.roeCtrl (s : State) : Nat := b2n s.roe.edgewake <<< 1 + b2n s.roe.forcebyp <<< 2

/-- Members that are not ABSENT, this part included. -/
def State.presentCount (s : State) : Nat := 1 + (s.trail.members.filter fun x : Nat × Member => x.2.present).length

/-- `TRAIL_STATUS`. -/
def State.trailStatus (s : State) : Nat :=
  s.fuse.straps.planeSel.toNat + b2n s.isLead <<< 5 + b2n s.inRing <<< 6 + b2n s.trail.rxlock <<< 7 + (s.presentCount % 64) <<< 8

/-- `DIAG_SEL`. -/
def State.diagSel (s : State) : Nat := s.i3c.win % 16 + (s.i3c.ptr % 65536) <<< 4

/-- PHASE codes (Table SEC-8). -/
def Phase.code : Phase → Nat
  | .start => 0 | .fetch => 1 | .verify => 2 | .identity => 3 | .firmware => 4 | .halted => 5

/-- `BOOT_STATUS`. -/
def State.bootStatus (s : State) : Nat :=
  s.boot.phase.code + b2n s.boot.trail <<< 4 + s.fuse.straps.bootEp.toNat <<< 6 + (s.boot.error % 256) <<< 8 +
    (s.boot.attempts % 256) <<< 16

/-- `SEC_STATUS`. -/
def State.secStatus (s : State) : Nat :=
  s.fuse.lifecycle % 16 + b2n s.fuse.debugLock <<< 4 + b2n s.debugOpen <<< 5 + (s.fuse.floor % 128) <<< 6 +
    (s.boot.fwsvn % 128) <<< 13

/-- `LMS_STATUS`. -/
def State.lmsStatus (s : State) : Nat :=
  s.fuse.lmsCtr % 8192 + (s.boot.lowUsed % 2048) <<< 13 + b2n s.boot.lmsLow <<< 24 + b2n s.boot.lmsOut <<< 25

/-- Word `k` of a 384-bit value. -/
def word384 (v : BitVec 384) (k : Nat) : Nat := fld v (32 * k + 31) (32 * k)

/-- A sideband register as a private read returns it; a reserved address reads 0, and so do the mailbox windows in S3
(R569, R570, R589). `DIAG_DATA` has its own command. -/
def State.regRead (s : State) (a : Nat) : Nat :=
  let cell (m : List Host.Cell) (o : Nat) : Nat := if s.sleeps then 0 else ofLE (memRead m o 4)
  if a = 0x0000 then s.roeStatus
  else if a = 0x0004 then s.roeCtrl
  else if a = 0x0008 then s.roe.event.toNat
  else if a = 0x0010 then s.trailStatus
  else if a = 0x0020 then s.diagSel
  else if a = 0x0100 then s.bootStatus
  else if a = 0x0104 then s.secStatus
  else if a = 0x0108 then s.lmsStatus
  else if a = 0x0110 then fld s.fuse.serial 31 0
  else if a = 0x0114 then fld s.fuse.serial 63 32
  else if 0x0120 ≤ a ∧ a ≤ 0x014C then word384 s.fuse.rootEcc ((a - 0x0120) / 4)
  else if 0x0150 ≤ a ∧ a ≤ 0x017C then word384 s.fuse.rootLms ((a - 0x0150) / 4)
  else if a = 0x0180 then fld s.fuse.mbxRights 31 0
  else if a = 0x0184 then fld s.fuse.mbxRights 39 32
  else if 0x0200 ≤ a ∧ a ≤ 0x022C then word384 s.boot.fwmeas ((a - 0x0200) / 4)
  else if 0x1000 ≤ a ∧ a ≤ 0x1FFF then cell (s.box 0).req (a - 0x1000)
  else if 0x2000 ≤ a ∧ a ≤ 0x2FFF then cell (s.box 0).rsp (a - 0x2000)
  else 0

/-! ### Diagnostic windows (Table MGT-21) -/

/-- Filtered sensors of window 1: 48 die, 16 stack and 36 engine temperatures, 24 rail voltages, 12 rail currents and 36
laser powers. -/
def sensorWords : Nat := 172

/-- Word `p` of window `w`, zero beyond its end; a sensor reading is a free value (log entry 27). -/
def State.diagWord (s : State) (w p : Nat) : Nat × State :=
  if w = 0 then ((match s.roe.log[p / 4]? with | none => 0 | some e => fld e (32 * (p % 4) + 31) (32 * (p % 4))), s)
  else if w = 1 then (if p < sensorWords then s.drawFree 32 else (0, s))
  else if w = 2 then ((if p < 1160 then bits (s.stateWord (p / 2)) (32 * (p % 2) + 31) (32 * (p % 2)) else 0), s)
  else if w = 3 then
    let pl := p / 4
    let c := if pl = s.plane then s.censusWord
      else if (s.member pl).present then (s.member pl).census.toNat else 0
    ((if p < 128 then bits c (32 * (p % 4) + 31) (32 * (p % 4)) else 0), s)
  else (0, s)

/-- DIAG_DATA_READ (R571). -/
def execDiagDataRead (s : State) : Out State :=
  onSideband s fun s =>
    let x := s.diagWord s.i3c.win s.i3c.ptr
    let s := x.2.answerI3c (toLE 4 x.1)
    { s with i3c := { s.i3c with ptr := (s.i3c.ptr + 1) % 65536, addr := 0x0028 } }

/-! ### Register writes -/

/-- The address of the last write, from which a read goes on. -/
def State.wroteAt (s : State) (a : Nat) : State := { s with i3c := { s.i3c with addr := a } }

/-- A write of `ROE_CTRL` (Table MGT-17, R554, R568). -/
def State.writeRoeCtrl (s : State) (v : BitVec 32) : State :=
  let old := s
  let s : State := { s with roe := { s.roe with edgewake := bit v.toNat 1, forcebyp := bit v.toNat 2 } }
  let s := s.bypass old
  if bit v.toNat 0 then s.wakeUp else s

/-- ROE_WAKE_WRITE: a write of `ROE_CTRL` (R568). -/
def execRoeWakeWrite (v : BitVec 32) (t : Nat) (s : State) : Out State :=
  onSideband (s.tick t) fun s => (s.writeRoeCtrl v).wroteAt 0x0004

/-- FORCEBYP_WRITE: a write of `ROE_CTRL` (R554). -/
def execForcebypWrite (v : BitVec 32) (t : Nat) (s : State) : Out State :=
  onSideband (s.tick t) fun s => (s.writeRoeCtrl v).wroteAt 0x0004

/-- A write to the request area of mailbox 0 over I3C: source class 0 needs its right, and nothing is written while the MP
does not serve or the mailbox executes (R527, R529, R535, R569). -/
def State.i3cMailbox (s : State) (a : Nat) (data : List Byte) : State :=
  if !s.mpServes || !bit (s.rights 0) 0 || (s.box 0).busy then s
  else s.writeReq 0 (a - 0x1000) (data.take (0x2000 - a)) none

/-- I3C_MAILBOX_WRITE: 4n bytes from an address of `MBX0_REQ` (R529, R569). -/
def execI3cMailboxWrite (addr : Nat) (data : List Byte) (t : Nat) (s : State) : Out State :=
  onSideband (s.tick t) fun s =>
    let a := addr / 4 * 4
    let s := s.wroteAt a
    if 0x1000 ≤ a ∧ a ≤ 0x1FFF then s.i3cMailbox a (data.take (data.length / 4 * 4)) else s

/-- REGISTER_WRITE: `ROE_EVENT` clears the bits written as 1, `DIAG_SEL` takes its fields, and a read-only or reserved
address changes nothing (R570). -/
def execRegisterWrite (addr : Nat) (v : BitVec 32) (s : State) : Out State :=
  onSideband s fun s =>
    let s := s.wroteAt addr
    if addr = 0x0004 then s.writeRoeCtrl v
    else if addr = 0x0008 then { s with roe := { s.roe with event := s.roe.event &&& ~~~v } }
    else if addr = 0x0020 then { s with i3c := { s.i3c with win := fld v 3 0, ptr := fld v 19 4 } }
    else if 0x1000 ≤ addr ∧ addr ≤ 0x1FFF then s.i3cMailbox (addr / 4 * 4) (toLE 4 v.toNat)
    else s

end Sys2Proof.Machine
end

