-- ==== Sys2Proof/Machine/Snapshots.lean ====
section
/-!
DEFINITION. Snapshot regions: take, export and restore, and the snapshot digest (R318 to R321, R490, R547 step 2).
-/
namespace Sys2Proof.Machine

/-! ### The digest (R319) -/

/-- The hashes of the words of a byte string from word `i` on, added modulo 2^64. -/
def snapSum : Nat → Nat → List Byte → Word
  | 0, _, _ => 0
  | n + 1, i, bs => mix64 (BitVec.ofNat 64 i) (BitVec.ofNat 64 (leAt bs 0 8)) + snapSum n (i + 1) (bs.drop 8)

/-- D of the bytes of a region. -/
def snapDigest (bs : List Byte) : Word := snapSum (bs.length / 8) 0 bs

/-- D of a region as it stands. -/
def State.regionDigest (s : State) (r : BitVec 256) : Nat :=
  (snapDigest (s.dramGet (64 * reBase r) (64 * reLen r))).toNat

/-- The granules of a region from byte `off` on hold one whose check fails (R280). -/
def State.regionBad (s : State) (r : BitVec 256) (off : Nat) : Bool :=
  s.mem.bad.any fun g => decide (reBase r + off / 64 ≤ g ∧ g < reBase r + reLen r)

/-! ### The commands in progress -/

/-- The codes of the three commands. -/
def opTake : Nat := 0x0600
/-- SNAPSHOT_RESTORE. -/
def opRestore : Nat := 0x0601
/-- SNAPSHOT_EXPORT. -/
def opExport : Nat := 0x0602

/-- The snapshot command in progress on an entry. -/
def State.snapOn (s : State) (e : Nat) : Option SnapOp := s.mem.snaps.find? fun o => decide (o.entry = e)

/-- The command in progress that waits for the answer to a tag. -/
def State.snapTag (s : State) (op tag : Nat) : Option SnapOp :=
  s.mem.snaps.find? fun o => decide (o.req.op = op) && o.reads.any fun r => decide (r.tag = tag)

/-- A command in progress put in or replaced. -/
def State.setSnap (s : State) (o : SnapOp) : State :=
  { s with mem := { s.mem with snaps := (s.mem.snaps.filter fun x => !decide (x.entry = o.entry)) ++ [o] } }

/-- A command in progress ends, and its outcome is reported. -/
def State.endSnap (s : State) (o : SnapOp) (status detail : Nat) : State :=
  ({ s with mem := { s.mem with snaps := s.mem.snaps.filter fun x => !decide (x.entry = o.entry) } }).complete o.req status detail

/-- A snapshot command accepted: its region is a valid SNAPSHOT region that the mailbox may name, no other such command runs
on it, and `refuse` gives nothing (R321, R490, R536, R553; log entries 23 and 44). -/
def State.snapArg (s : State) (c : Call) (refuse : BitVec 256 → Option Nat) (f : BitVec 256 → SnapOp → State) : Verdict :=
  let e := c.arg 1 0
  let r := s.regionEnt e
  if 1023 < e then refuseCmd s 0x71
  else if c.foreign (some (rePart r)) ∨ !reValid r ∨ reType r ≠ 3 then refuseCmd s 0x43
  else if (s.snapOn e).isSome then refuseCmd s 0x24
  else match refuse r with
    | some x => refuseCmd s x
    | none =>
      { st := f r { req := c.req, entry := e, arg := c.arg 15 8, want := c.arg 23 16, next := 0, done := 0, reads := [] },
        status := 0, defer := true }

/-- The partition of a region is fenced (R490). -/
def State.fencedRegion (s : State) (r : BitVec 256) : Bool := (s.part (rePart r)).fenced

/-! ### SNAPSHOT_TAKE (R318) -/

/-- What SNAPSHOT_TAKE decides: a target FT needs FT to be set (R445). -/
def snapshotTake (c : Call) (s : State) : Verdict :=
  s.snapArg c
    (fun r =>
      if !s.ftSet ∨ s.fencedRegion r then some 0x43
      else if (s.reg (c.arg 1 0)).phase = .snapBad then some stCheck else none)
    fun _ o => (s.setReg o.entry { s.reg o.entry with sealAt := some o.arg }).setSnap o

/-- SNAPSHOT_TAKE as the request of mailbox `m`. -/
def execSnapshotTake (m t : Nat) (s : State) : Out State :=
  let s := s.tick t
  onUnit (decide (m < 8)) (s.command m { op := opTake, alen := 16, admin := false } snapshotTake)

/-- An answer to a write of a region has not left yet: a message holds it, or it waits for room. -/
def State.answersDue (s : State) (e : Nat) (r : BitVec 256) : Bool :=
  (s.mem.msgs.any fun m => decide (m.entry = e) && m.held.isSome) ||
  (s.sw.wait.any fun w => decide (hKind w.pkt.hdr = 6 ∧ (hMop w.pkt.hdr = 1 ∨ hMop w.pkt.hdr = 2) ∧
    reBase r ≤ hOffset w.pkt.hdr ∧ hOffset w.pkt.hdr < reBase r + reLen r))

/-- SNAPSHOT_TAKE_DONE: the seal FT has passed and every earlier write has been answered; the region is SEALED, and D goes
with the completion, or CHECK_FAIL when a granule cannot be read (R280, R318, R319). -/
def execSnapshotTakeDone (e t : Nat) (s : State) : Out State :=
  let s := s.tick t
  .next (match s.snapOn e with
    | none => s
    | some o =>
      let r := s.regionEnt e
      if o.req.op = opTake ∧ s.ftSet ∧ o.arg ≤ s.ftNow ∧ s.mpServes ∧ !s.answersDue e r then
        let s := s.setReg e { s.reg e with sealed := true, sealAt := none }
        if s.regionBad r 0 then (s.eccUncorr (servingCluster (reBase r)) 1).endSnap o stCheck 0
        else s.endSnap o 0 (s.regionDigest r)
      else s)

/-! ### SNAPSHOT_EXPORT (R320, R490) -/

/-- A WRITE of an export sent: its bytes are read from the region. -/
def State.exportSend (s : State) (r : BitVec 256) (dst : Nat) (w : BulkRead) : State :=
  s.fromMp 3 (rePart r) (reqPkt mopWrite w.etag w.tag dst w.off w.len (s.dramGet (64 * reBase r + w.off) w.len))

/-- WRITEs of an export issued, at most 16 of them outstanding (log entry 23); it ends when every one has been answered, or
with CHECK_FAIL at a granule that cannot be read. -/
def State.exportPump (s : State) (o : SnapOp) : State :=
  let r := s.regionEnt o.entry
  if o.next < 64 * reLen r ∧ s.regionBad r o.next then (s.eccUncorr (servingCluster (reBase r)) 1).endSnap o stCheck 0
  else
    let x := issueReads (fun w s => s.exportSend r o.arg w) (64 * reLen r) o.next o.reads s
    let o := { o with next := x.1, reads := x.2.1 }
    let s := x.2.2
    if o.reads = [] ∧ 64 * reLen r ≤ o.next then s.endSnap o 0 (s.regionDigest r) else s.setSnap o

/-- What SNAPSHOT_EXPORT decides: the region is sealed, and its die has no class C5 error (R490). -/
def snapshotExport (c : Call) (s : State) : Verdict :=
  let d := s.reg (c.arg 1 0)
  s.snapArg c
    (fun r =>
      if !d.sealed || (s.part (rePart r)).c5.contains (reBase r / Config.dieGranules) then some 0x43
      else if d.phase = .snapBad then some stCheck
      else if s.memberGone (c.arg 15 8 >>> 32) then some stTrail else none)
    fun _ o => s.exportPump o

/-- SNAPSHOT_EXPORT as the request of mailbox `m`. -/
def execSnapshotExport (m t : Nat) (s : State) : Out State :=
  let s := s.tick t
  onUnit (decide (m < 8)) (s.command m { op := opExport, alen := 16, admin := false } snapshotExport)

/-- The status codes other than OK that the manual defines (Table SCO-4, Table LNK-9, Table MEM-5, chapter MGT). -/
def definedCodes : List Nat :=
  [0x10, 0x11, 0x12, 0x20, 0x21, 0x22, 0x23, 0x24, 0x25, 0x30, 0x31, 0x40, 0x41, 0x42, 0x43] ++
  (List.range 11).map (0x50 + ·) ++ (List.range 8).map (0x60 + ·) ++ (List.range 6).map (0x70 + ·)

/-- A free value drawn among the defined codes (R10, R11). -/
def State.freeCode (s : State) : Nat × State :=
  let v := s.drawFree 8
  ((definedCodes[v.1 % definedCodes.length]?).getD 0x25, v.2)

/-- EXPORT_WRITE_RESPONSE: BUSY is resent after a wait (R202, R296); the manual gives no status to an export that its node
refuses, so that status is a free value among the defined codes (log entry 23). -/
def execExportWriteResponse (t : Nat) (s : State) : Out State :=
  let s := s.tick t
  .next (match s.takeMp fun x => decide (hKind x.pkt.hdr = 6) && (s.snapTag opExport (hTag x.pkt.hdr)).isSome with
    | none => s
    | some (x, s) => if !s.mpServes then s else s.mpPacket x fun s =>
      match s.snapTag opExport (hTag x.pkt.hdr) with
      | none => s
      | some o => match o.reads.find? fun r => decide (r.tag = hTag x.pkt.hdr) with
        | none => s
        | some w =>
          if hStatus x.pkt.hdr = 0x24 then s.setSnap { o with reads := busyRead o.reads w.tag s.now }
          else if hStatus x.pkt.hdr ≠ 0 then let v := s.freeCode; v.2.endSnap o v.1 0
          else s.exportPump { o with reads := dropRead o.reads w.tag })

/-! ### SNAPSHOT_RESTORE (R321) -/

/-- A restore has failed: the region is SEALED and refuses everything. -/
def State.failRestore (s : State) (o : SnapOp) (status detail : Nat) : State :=
  (s.setReg o.entry { s.reg o.entry with sealed := true, phase := .snapBad }).endSnap o status detail

/-- READs of a restore issued; once every byte has been written, D is compared. -/
def State.restorePump (s : State) (o : SnapOp) : State :=
  let r := s.regionEnt o.entry
  let x := issueReads (fun w s => s.mpRead (rePart r) o.arg w) (64 * reLen r) o.next o.reads s
  let o := { o with next := x.1, reads := x.2.1 }
  let s := x.2.2
  if o.reads = [] ∧ 64 * reLen r ≤ o.next then
    let d := s.regionDigest r
    if d = o.want then (s.setReg o.entry { s.reg o.entry with sealed := false, phase := .normal }).endSnap o 0 0
    else s.failRestore o stCheck d
  else s.setSnap o

/-- What SNAPSHOT_RESTORE decides. -/
def snapshotRestore (c : Call) (s : State) : Verdict :=
  s.snapArg c (fun r => if s.fencedRegion r then some 0x43 else if s.memberGone (c.arg 15 8 >>> 32) then some stTrail else none)
    fun _ o =>
    (s.setReg o.entry { s.reg o.entry with phase := .snapRestore, sealAt := none }).restorePump o

/-- SNAPSHOT_RESTORE as the request of mailbox `m`. -/
def execSnapshotRestore (m t : Nat) (s : State) : Out State :=
  let s := s.tick t
  onUnit (decide (m < 8)) (s.command m { op := opRestore, alen := 24, admin := false } snapshotRestore)

/-- SNAPSHOT_RESTORE_READ_RESP (R321, R547 step 2). -/
def execSnapshotRestoreReadResp (t : Nat) (s : State) : Out State :=
  let s := s.tick t
  .next (match s.takeMp fun x => decide (hKind x.pkt.hdr = 6) && (s.snapTag opRestore (hTag x.pkt.hdr)).isSome with
    | none => s
    | some (x, s) => if !s.mpServes then s else s.mpPacket x fun s =>
      match s.snapTag opRestore (hTag x.pkt.hdr) with
      | none => s
      | some o => match o.reads.find? fun r => decide (r.tag = hTag x.pkt.hdr) with
        | none => s
        | some w =>
          let r := s.regionEnt o.entry
          if hStatus x.pkt.hdr = 0x24 then s.setSnap { o with reads := busyRead o.reads w.tag s.now }
          else if hStatus x.pkt.hdr ≠ 0 ∨ x.pkt.payload.length ≠ w.len then s.failRestore o 0x74 0
          else
            let s := (s.dramPut (servingCluster (reBase r)) (64 * reBase r + w.off) x.pkt.payload).1
            s.restorePump { o with reads := dropRead o.reads w.tag, done := o.done + w.len / 64 })

/-- Requests of the snapshot commands whose wait after BUSY is over, sent again (R202, R296); an export whose bytes can no
longer be read ends with CHECK_FAIL (R280). -/
def State.snapDue (s : State) (o : SnapOp) : State :=
  let r := s.regionEnt o.entry
  let ws := o.reads.filter fun w => w.due s.now
  let bad := ws.flatMap fun w => s.badIn (64 * reBase r + w.off) w.len
  if !s.mpServes ∨ ws = [] then s
  else if o.req.op = opExport ∧ bad ≠ [] then (s.eccUncorr (servingCluster (reBase r)) bad.length).endSnap o stCheck 0
  else ws.foldl (fun s w => if o.req.op = opExport then s.exportSend r o.arg w else s.mpRead (rePart r) o.arg w)
    (s.setSnap { o with reads := dueRead o.reads s.now })

/-- Every snapshot command in progress. -/
def State.snapsDue (s : State) : State := s.mem.snaps.foldl State.snapDue s

/-- SNAPSHOT_RESTORE_READ_RESEND: a READ without a response for 10 ms, resent at most four times, or one whose wait after
BUSY is over (R321, R547 step 2). -/
def execSnapshotRestoreReadResend (tag t : Nat) (s : State) : Out State :=
  let s := s.tick t
  .next (match s.snapTag opRestore tag with
    | none => s
    | some o => match o.reads.find? fun r => decide (r.tag = tag) with
      | none => s
      | some w =>
        if w.held then s.snapDue o
        else if !s.mpServes ∨ s.now < w.sentAt + resendNs then s
        else if w.resends < 4 then
          (s.setSnap { o with reads := againRead o.reads tag s.now true }).mpRead (rePart (s.regionEnt o.entry)) o.arg w
        else s.failRestore o 0x74 0)

end Sys2Proof.Machine
end

