-- ==== Sys2Proof/Machine/Dispatch.lean ====
section
/-!
DEFINITION. The one dispatch: every command goes to its own meaning.
-/
namespace Sys2Proof.Machine

/-- The effect of a command on everything but the queue. -/
def exec (i : Instr) (s : State) : Host.Outcome State Fault Refusal :=
  match i with
  | .recv g f => Sys2Proof.Machine.execRecv g f s
  | .ldv g f => Sys2Proof.Machine.execLdv g f s
  | .stv g f => Sys2Proof.Machine.execStv g f s
  | .lds g f => Sys2Proof.Machine.execLds g f s
  | .movi g f => Sys2Proof.Machine.execMovi g f s
  | .saddi g f => Sys2Proof.Machine.execSaddi g f s
  | .vmov g f => Sys2Proof.Machine.execVmov g f s
  | .movm g f => Sys2Proof.Machine.execMovm g f s
  | .vsplat g f => Sys2Proof.Machine.execVsplat g f s
  | .xadd g f => Sys2Proof.Machine.execXadd g f s
  | .xcin g f => Sys2Proof.Machine.execXcin g f s
  | .xclr g f => Sys2Proof.Machine.execXclr g f s
  | .xmov g f => Sys2Proof.Machine.execXmov g f s
  | .xfold g f => Sys2Proof.Machine.execXfold g f s
  | .xpadd g f => Sys2Proof.Machine.execXpadd g f s
  | .xssum g f => Sys2Proof.Machine.execXssum g f s
  | .vbit g f => Sys2Proof.Machine.execVbit g f s
  | .dot g f => Sys2Proof.Machine.execDot g f s
  | .ssq g f => Sys2Proof.Machine.execSsq g f s
  | .xpsum g f => Sys2Proof.Machine.execXpsum g f s
  | .expand g f => Sys2Proof.Machine.execExpand g f s
  | .rnd g f => Sys2Proof.Machine.execRnd g f s
  | .cvt g f => Sys2Proof.Machine.execCvt g f s
  | .mxq g f => Sys2Proof.Machine.execMxq g f s
  | .xcenc g f => Sys2Proof.Machine.execXcenc g f s
  | .vmax g f => Sys2Proof.Machine.execVmax g f s
  | .vmin g f => Sys2Proof.Machine.execVmin g f s
  | .hmax g f => Sys2Proof.Machine.execHmax g f s
  | .hmin g f => Sys2Proof.Machine.execHmin g f s
  | .vflag g f => Sys2Proof.Machine.execVflag g f s
  | .vcmp g f => Sys2Proof.Machine.execVcmp g f s
  | .vcmps g f => Sys2Proof.Machine.execVcmps g f s
  | .mlog g f => Sys2Proof.Machine.execMlog g f s
  | .mpop g f => Sys2Proof.Machine.execMpop g f s
  | .filt g f => Sys2Proof.Machine.execFilt g f s
  | .fidx g f => Sys2Proof.Machine.execFidx g f s
  | .vsel g f => Sys2Proof.Machine.execVsel g f s
  | .mkrec g f => Sys2Proof.Machine.execMkrec g f s
  | .rinit g f => Sys2Proof.Machine.execRinit g f s
  | .sort g f => Sys2Proof.Machine.execSort g f s
  | .merge g f => Sys2Proof.Machine.execMerge g f s
  | .topk g f => Sys2Proof.Machine.execTopk g f s
  | .unrec g f => Sys2Proof.Machine.execUnrec g f s
  | .gath g f => Sys2Proof.Machine.execGath g f s
  | .scat g f => Sys2Proof.Machine.execScat g f s
  | .ksel g f => Sys2Proof.Machine.execKsel g f s
  | .emit g f => Sys2Proof.Machine.execEmit g f s
  | .emita g f => Sys2Proof.Machine.execEmita g f s
  | .emsc g f => Sys2Proof.Machine.execEmsc g f s
  | .endHandler g f => Sys2Proof.Machine.execEndHandler g f s
  | .br g f => Sys2Proof.Machine.execBr g f s
  | .bz g f => Sys2Proof.Machine.execBz g f s
  | .bm g f => Sys2Proof.Machine.execBm g f s
  | .loop g f => Sys2Proof.Machine.execLoop g f s
  | .scalc g f => Sys2Proof.Machine.execScalc g f s
  | .fetch g f => Sys2Proof.Machine.execFetch g f s
  | .waitf g f => Sys2Proof.Machine.execWaitf g f s
  | .skip g f => Sys2Proof.Machine.execSkip g f s
  | .stat g f => Sys2Proof.Machine.execStat g f s
  | .raise g f => Sys2Proof.Machine.execRaise g f s
  | .pcnt g f => Sys2Proof.Machine.execPcnt g f s
  | .outputRoomResume g t => Sys2Proof.Machine.execOutputRoomResume g t s
  | .initHandler g slot inst chunk => Sys2Proof.Machine.execInitHandler g slot inst chunk s
  | .sliceHandler g ecc t => Sys2Proof.Machine.execSliceHandler g ecc t s
  | .finalHandler g slot inst chunk ecc t => Sys2Proof.Machine.execFinalHandler g slot inst chunk ecc t s
  | .watchdogTimeout g waited => Sys2Proof.Machine.execWatchdogTimeout g waited s
  | .directAccumulate g => Sys2Proof.Machine.execDirectAccumulate g s
  | .sparseRunDecode g => Sys2Proof.Machine.execSparseRunDecode g s
  | .contribRx cl t => Sys2Proof.Machine.execContribRx cl t s
  | .cstatMemberRx cl t => Sys2Proof.Machine.execCstatMemberRx cl t s
  | .resultRelay cl t => Sys2Proof.Machine.execResultRelay cl t s
  | .chunkTimeout cl slot chunk t => Sys2Proof.Machine.execChunkTimeout cl slot chunk t s
  | .cstatSend cl slot inst chunk t => Sys2Proof.Machine.execCstatSend cl slot inst chunk t s
  | .chunkOutputFlush cl slot inst chunk t => Sys2Proof.Machine.execChunkOutputFlush cl slot inst chunk t s
  | .chunkEnd cl slot inst chunk t => Sys2Proof.Machine.execChunkEnd cl slot inst chunk t s
  | .qPartialRx cl t => Sys2Proof.Machine.execQPartialRx cl t s
  | .sideAbortRx cl t => Sys2Proof.Machine.execSideAbortRx cl t s
  | .qPartialTimeout cl slot inst chunk t => Sys2Proof.Machine.execQPartialTimeout cl slot inst chunk t s
  | .tbarrierRelease link t => Sys2Proof.Machine.execTbarrierRelease link t s
  | .read cl t => Sys2Proof.Machine.execRead cl t s
  | .write cl t => Sys2Proof.Machine.execWrite cl t s
  | .writeSignal cl t => Sys2Proof.Machine.execWriteSignal cl t s
  | .atomic cl t => Sys2Proof.Machine.execAtomic cl t s
  | .accum cl t => Sys2Proof.Machine.execAccum cl t s
  | .accumSignal cl t => Sys2Proof.Machine.execAccumSignal cl t s
  | .messageTimeout cl src tag t => Sys2Proof.Machine.execMessageTimeout cl src tag t s
  | .messageEntryFree cl src tag t => Sys2Proof.Machine.execMessageEntryFree cl src tag t s
  | .mirrorResponse cl t => Sys2Proof.Machine.execMirrorResponse cl t s
  | .mirrorTimeout cl tag t => Sys2Proof.Machine.execMirrorTimeout cl tag t s
  | .patrolScrub granule upset => Sys2Proof.Machine.execPatrolScrub granule upset s
  | .snapshotTakeDone entry t => Sys2Proof.Machine.execSnapshotTakeDone entry t s
  | .snapshotRestoreReadResp t => Sys2Proof.Machine.execSnapshotRestoreReadResp t s
  | .exportWriteResponse t => Sys2Proof.Machine.execExportWriteResponse t s
  | .fetchResponse cl t => Sys2Proof.Machine.execFetchResponse cl t s
  | .memwrResponse cl t => Sys2Proof.Machine.execMemwrResponse cl t s
  | .requestResend cl tag t => Sys2Proof.Machine.execRequestResend cl tag t s
  | .blockTx link parity t => Sys2Proof.Machine.execBlockTx link parity t s
  | .blockRx link b fec t => Sys2Proof.Machine.execBlockRx link b fec t s
  | .replayTimeout link t => Sys2Proof.Machine.execReplayTimeout link t s
  | .nakRepeat link t => Sys2Proof.Machine.execNakRepeat link t s
  | .laneFail link lane t => Sys2Proof.Machine.execLaneFail link lane t s
  | .degradeRepeat link t => Sys2Proof.Machine.execDegradeRepeat link t s
  | .degradeTimeout link t => Sys2Proof.Machine.execDegradeTimeout link t s
  | .retrainDone link found ack t => Sys2Proof.Machine.execRetrainDone link found ack t s
  | .signalDetect link t => Sys2Proof.Machine.execSignalDetect link t s
  | .equaliseDone link good t => Sys2Proof.Machine.execEqualiseDone link good t s
  | .equaliseTimeout link good t => Sys2Proof.Machine.execEqualiseTimeout link good t s
  | .fecLockDone link found t => Sys2Proof.Machine.execFecLockDone link found t s
  | .fecLockTimeout link t => Sys2Proof.Machine.execFecLockTimeout link t s
  | .discoverTimeout link t => Sys2Proof.Machine.execDiscoverTimeout link t s
  | .initTimeout link t => Sys2Proof.Machine.execInitTimeout link t s
  | .linkRestart link t => Sys2Proof.Machine.execLinkRestart link t s
  | .stoppingAbortTimeout link t => Sys2Proof.Machine.execStoppingAbortTimeout link t s
  | .stoppingDone link t => Sys2Proof.Machine.execStoppingDone link t s
  | .helloRepeat link t => Sys2Proof.Machine.execHelloRepeat link t s
  | .tsyncSend link t => Sys2Proof.Machine.execTsyncSend link t s
  | .digestHeartbeat t => Sys2Proof.Machine.execDigestHeartbeat t s
  | .digestMissing link t => Sys2Proof.Machine.execDigestMissing link t s
  | .replayAgeTimeout link t => Sys2Proof.Machine.execReplayAgeTimeout link t s
  | .neighbourMissingTimeout link t => Sys2Proof.Machine.execNeighbourMissingTimeout link t s
  | .packetIngress link vc parity t => Sys2Proof.Machine.execPacketIngress link vc parity t s
  | .packetAgeTimeout id t => Sys2Proof.Machine.execPacketAgeTimeout id t s
  | .routeSetDiscard t => Sys2Proof.Machine.execRouteSetDiscard t s
  | .outputArbitration link vc t => Sys2Proof.Machine.execOutputArbitration link vc t s
  | .holdCut link vc cycles t => Sys2Proof.Machine.execHoldCut link vc cycles t s
  | .starve link vc id t => Sys2Proof.Machine.execStarve link vc id t s
  | .shaperRefill t => Sys2Proof.Machine.execShaperRefill t s
  | .gateTakeover link t => Sys2Proof.Machine.execGateTakeover link t s
  | .quRefresh die => Sys2Proof.Machine.execQuRefresh die s
  | .cmapTake t => Sys2Proof.Machine.execCmapTake t s
  | .holdoverEntry t => Sys2Proof.Machine.execHoldoverEntry t s
  | .holdoverExpiry t => Sys2Proof.Machine.execHoldoverExpiry t s
  | .digestEntryTimeout slot inst t => Sys2Proof.Machine.execDigestEntryTimeout slot inst t s
  | .unitError u t => Sys2Proof.Machine.execUnitError u t s
  | .healthDecay t => Sys2Proof.Machine.execHealthDecay t s
  | .shadowActivation t => Sys2Proof.Machine.execShadowActivation t s
  | .shadowImageTimeout t => Sys2Proof.Machine.execShadowImageTimeout t s
  | .shadowNotice t => Sys2Proof.Machine.execShadowNotice t s
  | .shadowRotate t => Sys2Proof.Machine.execShadowRotate t s
  | .shadowCompareTimeout cid inst pepoch t => Sys2Proof.Machine.execShadowCompareTimeout cid inst pepoch t s
  | .planReadResend off t => Sys2Proof.Machine.execPlanReadResend off t s
  | .fusedQueryResend t => Sys2Proof.Machine.execFusedQueryResend t s
  | .takeover t => Sys2Proof.Machine.execTakeover t s
  | .restoreReadResponse t => Sys2Proof.Machine.execRestoreReadResponse t s
  | .restoreReadResend tag t => Sys2Proof.Machine.execRestoreReadResend tag t s
  | .buddyTimeout t => Sys2Proof.Machine.execBuddyTimeout t s
  | .armPoint t => Sys2Proof.Machine.execArmPoint t s
  | .commit t => Sys2Proof.Machine.execCommit t s
  | .overlapEnd t => Sys2Proof.Machine.execOverlapEnd t s
  | .stageReadResponse t => Sys2Proof.Machine.execStageReadResponse t s
  | .stageReadResend tag t => Sys2Proof.Machine.execStageReadResend tag t s
  | .stageComplete t => Sys2Proof.Machine.execStageComplete t s
  | .partStarted p t => Sys2Proof.Machine.execPartStarted p t s
  | .partStopped p t => Sys2Proof.Machine.execPartStopped p t s
  | .clusterStarted cl t => Sys2Proof.Machine.execClusterStarted cl t s
  | .clusterStopped cl t => Sys2Proof.Machine.execClusterStopped cl t s
  | .shadowStopped t => Sys2Proof.Machine.execShadowStopped t s
  | .mbwr t => Sys2Proof.Machine.execMbwr t s
  | .mbrd t => Sys2Proof.Machine.execMbrd t s
  | .planStage m t => Sys2Proof.Machine.execPlanStage m t s
  | .planCommit m t => Sys2Proof.Machine.execPlanCommit m t s
  | .planAbort m t => Sys2Proof.Machine.execPlanAbort m t s
  | .partCreate m t => Sys2Proof.Machine.execPartCreate m t s
  | .partDestroy m t => Sys2Proof.Machine.execPartDestroy m t s
  | .portEnable m t => Sys2Proof.Machine.execPortEnable m t s
  | .portDisable m t => Sys2Proof.Machine.execPortDisable m t s
  | .clusterEnable m t => Sys2Proof.Machine.execClusterEnable m t s
  | .clusterDisable m t => Sys2Proof.Machine.execClusterDisable m t s
  | .memRegionMap m t => Sys2Proof.Machine.execMemRegionMap m t s
  | .shadowStart m t => Sys2Proof.Machine.execShadowStart m t s
  | .shadowStop m t => Sys2Proof.Machine.execShadowStop m t s
  | .reservePromote m t => Sys2Proof.Machine.execReservePromote m t s
  | .snapshotTake m t => Sys2Proof.Machine.execSnapshotTake m t s
  | .snapshotRestore m t => Sys2Proof.Machine.execSnapshotRestore m t s
  | .snapshotExport m t => Sys2Proof.Machine.execSnapshotExport m t s
  | .digestRead m t => Sys2Proof.Machine.execDigestRead m t s
  | .counterRead m t => Sys2Proof.Machine.execCounterRead m t s
  | .telemConfig m t => Sys2Proof.Machine.execTelemConfig m t s
  | .sampleSet m t => Sys2Proof.Machine.execSampleSet m t s
  | .healthRead m t => Sys2Proof.Machine.execHealthRead m t s
  | .timeSet m t => Sys2Proof.Machine.execTimeSet m t s
  | .powerStateSet m t => Sys2Proof.Machine.execPowerStateSet m t s
  | .attestGet m t => Sys2Proof.Machine.execAttestGet m t s
  | .fwInfo m t => Sys2Proof.Machine.execFwInfo m t s
  | .mpHeartbeat t => Sys2Proof.Machine.execMpHeartbeat t s
  | .mpstop t => Sys2Proof.Machine.execMpstop t s
  | .thermalLevelUp temp t => Sys2Proof.Machine.execThermalLevelUp temp t s
  | .thermalLevelDown temp t => Sys2Proof.Machine.execThermalLevelDown temp t s
  | .powerLevelUp mw t => Sys2Proof.Machine.execPowerLevelUp mw t s
  | .powerLevelDown mw t => Sys2Proof.Machine.execPowerLevelDown mw t s
  | .avsConfirm t => Sys2Proof.Machine.execAvsConfirm t s
  | .avsConfirmTimeout t => Sys2Proof.Machine.execAvsConfirmTimeout t s
  | .dramThrottleOn stack temp t => Sys2Proof.Machine.execDramThrottleOn stack temp t s
  | .dramThrottleOff stack temp t => Sys2Proof.Machine.execDramThrottleOff stack temp t s
  | .thermalTrip raw0 raw1 t => Sys2Proof.Machine.execThermalTrip raw0 raw1 t s
  | .railFault rail us t => Sys2Proof.Machine.execRailFault rail us t s
  | .refclkLoss ns t => Sys2Proof.Machine.execRefclkLoss ns t s
  | .laserFault engine samples t => Sys2Proof.Machine.execLaserFault engine samples t s
  | .laserClear engine samples t => Sys2Proof.Machine.execLaserClear engine samples t s
  | .pllLock u t => Sys2Proof.Machine.execPllLock u t s
  | .pllLockLoss u t => Sys2Proof.Machine.execPllLockLoss u t s
  | .powerTransitionDone t => Sys2Proof.Machine.execPowerTransitionDone t s
  | .edgeWakeDetect ep us t => Sys2Proof.Machine.execEdgeWakeDetect ep us t s
  | .roeWakeWrite v t => Sys2Proof.Machine.execRoeWakeWrite v t s
  | .forcebypWrite v t => Sys2Proof.Machine.execForcebypWrite v t s
  | .diagDataRead => Sys2Proof.Machine.execDiagDataRead s
  | .i3cMailboxWrite addr data t => Sys2Proof.Machine.execI3cMailboxWrite addr data t s
  | .registerWrite addr v => Sys2Proof.Machine.execRegisterWrite addr v s
  | .entdaa addr => Sys2Proof.Machine.execEntdaa addr s
  | .setdasa addr => Sys2Proof.Machine.execSetdasa addr s
  | .setnewda addr => Sys2Proof.Machine.execSetnewda addr s
  | .rstdaa => Sys2Proof.Machine.execRstdaa s
  | .getpid => Sys2Proof.Machine.execGetpid s
  | .getbcr => Sys2Proof.Machine.execGetbcr s
  | .getdcr => Sys2Proof.Machine.execGetdcr s
  | .getstatus => Sys2Proof.Machine.execGetstatus s
  | .enec v => Sys2Proof.Machine.execEnec v s
  | .disec v => Sys2Proof.Machine.execDisec v s
  | .rstact v => Sys2Proof.Machine.execRstact v s
  | .trailPktFrame f t => Sys2Proof.Machine.execTrailPktFrame f t s
  | .trailTsyncFrame f t => Sys2Proof.Machine.execTrailTsyncFrame f t s
  | .trailDigestFrame f t => Sys2Proof.Machine.execTrailDigestFrame f t s
  | .censusFrame f t => Sys2Proof.Machine.execCensusFrame f t s
  | .censusSend t => Sys2Proof.Machine.execCensusSend t s
  | .memberAbsent plane t => Sys2Proof.Machine.execMemberAbsent plane t s
  | .wakeFrame f t => Sys2Proof.Machine.execWakeFrame f t s
  | .shadowEntry f t => Sys2Proof.Machine.execShadowEntry f t s
  | .shadowResult f t => Sys2Proof.Machine.execShadowResult f t s
  | .planRead f t => Sys2Proof.Machine.execPlanRead f t s
  | .planData f t => Sys2Proof.Machine.execPlanData f t s
  | .planNone f t => Sys2Proof.Machine.execPlanNone f t s
  | .fusedQuery f t => Sys2Proof.Machine.execFusedQuery f t s
  | .fusedStateRecord t => Sys2Proof.Machine.execFusedStateRecord t s
  | .fusedState f t => Sys2Proof.Machine.execFusedState f t s
  | .bootRead f t => Sys2Proof.Machine.execBootRead f t s
  | .bootData f t => Sys2Proof.Machine.execBootData f t s
  | .bootNone f t => Sys2Proof.Machine.execBootNone f t s
  | .bootNoneRetry t => Sys2Proof.Machine.execBootNoneRetry t s
  | .leadWaitTimeout t => Sys2Proof.Machine.execLeadWaitTimeout t s
  | .trailInsert t => Sys2Proof.Machine.execTrailInsert t s
  | .porstNAssert => Sys2Proof.Machine.execPorstNAssert s
  | .porstNRelease st => Sys2Proof.Machine.execPorstNRelease st s
  | .vddAonUp => Sys2Proof.Machine.execVddAonUp s
  | .bootFetchResponse t => Sys2Proof.Machine.execBootFetchResponse t s
  | .bootReadResend off t => Sys2Proof.Machine.execBootReadResend off t s
  | .bootRetry t => Sys2Proof.Machine.execBootRetry t s
  | .snapshotRestoreReadResend tag t => Sys2Proof.Machine.execSnapshotRestoreReadResend tag t s
  | .bootTrainTimeout t => Sys2Proof.Machine.execBootTrainTimeout t s
  | .vddAonDown => Sys2Proof.Machine.execVddAonDown s
  | .mpStopsExecuting => Sys2Proof.Machine.execMpStopsExecuting s
  | .refreshRateDoubled stack temp t => Sys2Proof.Machine.execRefreshRateDoubled stack temp t s

end Sys2Proof.Machine
end

