-- ==== Sys2Proof/Machine/Step.lean ====
section
/-!
DEFINITION. One step of the block: the command at the front of the queue, run on the state with the queue's rest.
-/
namespace Sys2Proof.Machine

/-- With an empty queue no command changes anything: requests of the MP whose wait after BUSY is over leave again (R202),
and the Trail serialiser sends the next frame that waits (R552; log entry 9). -/
def State.idle (s : State) : State := s.stageDue.snapsDue.bootDue.trailEmit

/-- The block takes the command at the front of its queue. -/
def step (s : State) : Host.Outcome State Fault Refusal :=
  match s.pending with
  | [] => .next s.idle
  | c :: rest => exec c { s with pending := rest }

/-- The state with the command a word spells put at the front of the queue; no word spells one. -/
def State.withFetchWord (s : State) (nbits w : Nat) : State :=
  match decodeTableWord nbits w with
  | none => s
  | some c => { s with pending := c :: s.pending }

end Sys2Proof.Machine
end

