-- ==== Sys2Proof/Safety.lean ====
section
/-!
DEFINITION. The terms that statements are made in: what is promised of every state and of every step (the form of the byte
memories, the bounds of the two fuse counters, what may become of the fuse bank), and how a TSI instruction goes on.
-/
namespace Sys2Proof.Machine

/-- The data SRAMs and the DRAM are in canonical form. -/
def State.MemOk (s : State) : Prop := Memory.wf s.coll.sram = true ∧ Memory.wf s.mem.dram = true

/-- SVN_FLOOR and LMS_CTR have no more set bits than R572 gives them bits. -/
def State.FuseOk (s : State) : Prop := s.fuse.floor ≤ 64 ∧ s.fuse.lmsCtr ≤ 4096

/-- What holds of every state a run comes to. -/
def State.Inv (s : State) : Prop := s.MemOk ∧ s.FuseOk

/-- A fuse bank `b` that `a` may become: nothing but SVN_FLOOR, LMS_CTR and the sampled straps differs, and neither
thermometer has lost a set bit (R572, R573). -/
def Fuse.Grows (a b : Fuse) : Prop :=
  b = { a with floor := b.floor, lmsCtr := b.lmsCtr, straps := b.straps } ∧ a.floor ≤ b.floor ∧ a.lmsCtr ≤ b.lmsCtr

/-- What most commands leave alone: the queue, the fuse bank, the data SRAMs and the DRAM. -/
def State.keep (s : State) : List Instr × Fuse × List Host.Cell × List Host.Cell :=
  (s.pending, s.fuse, s.coll.sram, s.mem.dram)

/-- The outcome of a command is a next state. -/
def Completes (o : Out State) : Prop := ∃ t, o = .next t

/-- Core `g` exists and its running handler is about to execute the instruction of opcode `op` with the fields `f`: it waits
for nothing, is within its watchdog limit, and the word at its offset is that instruction (R97, R103, Table TSI-6). -/
def State.Runs (s : State) (g op : Nat) (f : TsiFields) (e : Env) : Prop :=
  g < Config.cores ∧ s.tsiEnv g op f = some e

/-- The handler of `e` goes on at offset `pc` with the registers of `c` after the `n` cycles of its instruction and those
it waited for its registers (R114); past the last instruction it ends as if it had executed END, at END's cost of 1 cycle,
unless it is past its limit (R97, R103). -/
def State.onward (s : State) (e : Env) (c : Core) (pc n : Nat) : State :=
  let s' := s.setCore e.g { c with run := some { e.run.issue e.op e.f n with pc := pc }, ctxs := (s.core e.g).ctxs }
  if pc < e.prog.ninst then s' else s'.fallOff e

/-- The handler of `e` goes on at the next offset. -/
def State.goesOn (s : State) (e : Env) (c : Core) (n : Nat) : State := s.onward e c (e.run.pc + 1) n

/-- The handler of `e` stops after `n` cycles on a fault with the registers of `c`, and its context records the status
(Table TSI-9, R137). -/
def State.stopsOn (s : State) (e : Env) (c : Core) (n st : Nat) : State :=
  ((s.setCore e.g { c with run := some (e.run.issue e.op e.f n), ctxs := (s.core e.g).ctxs }).faultAt e.g e.run.ctx st).overRun e.g

/-- The handler of `e` waits and its instruction has had no effect (R177, R180, R181). -/
def State.waitsFor (s : State) (e : Env) (w : Wait) : State := s.setRun e.g (some (e.run.pause w s.now))

/-- A handler is dispatched on core `g`: it runs at the program's entry, four cycles spent, with V and M zero, CURSORs 0,
S1 to S6 as Table TSI-2, S7 to S15 zero, and its context resident (R93, R94, R97, R99, R102). -/
def State.Dispatched (s : State) (g : Nat) (x : Ctx) (p : Plan) (q : ProgCfg) (k : HKind) (pc : Nat) (sl : Option Slice)
    (t : State) : Prop :=
  let c := t.core g
  c.run = some { ctx := x.id, kind := k, pc := pc, cycles := 4, slice := sl, wait := .none, fetches := [] } ∧
  c.resident = some x.id ∧ c.v = [] ∧ c.m = [] ∧ c.cur = [] ∧
  c.rs 1 = BitVec.ofNat 64 ((sl.map (·.contrib)).getD 0) ∧ c.rs 2 = BitVec.ofNat 64 x.id.chunk ∧
  c.rs 3 = BitVec.ofNat 64 x.id.inst ∧ c.rs 4 = BitVec.ofNat 64 (firstElem p g x.id.slot x.id.chunk) ∧
  c.rs 5 = BitVec.ofNat 64 (match sl with | none => 0 | some y => cdiv y.data.length 64) ∧
  c.rs 6 = BitVec.ofNat 64 (p.cidOf x.id.slot) ∧ (∀ n, 7 ≤ n → n < 16 → c.rs n = 0) ∧
  (∀ n k', n < 8 → k' < 16 → bit q.ctxXs n = false → c.rx n k' = {}) ∧
  (∀ n k', n < 4 → k' < 16 → bit q.ctxXp n = false → c.rp n k' = {}) ∧
  ∀ h, h ≠ g → t.core h = s.core h

/-- The commands of Table MGT-5 as requests of mailbox `m`: code, ALEN, whether only mailbox 0 may give it, whether it
runs without a plan, whether P1 and S1 refuse it (R538, R540), and what it decides. -/
def mailboxRows (m t : Nat) : List (Instr × CmdRule × (Call → State → Verdict)) :=
  [(.planStage m t, { op := 0x0100, alen := 16, admin := true, noPlan := true }, planStage),
   (.planCommit m t, { op := 0x0101, alen := 16, admin := true, noPlan := true }, planCommit),
   (.planAbort m t, { op := 0x0102, alen := 4, admin := true, noPlan := true }, planAbort),
   (.partCreate m t, { op := 0x0200, alen := 2, admin := true }, partCreate),
   (.partDestroy m t, { op := 0x0201, alen := 1, admin := true }, partDestroy),
   (.portEnable m t, { op := 0x0300, alen := 2, admin := false }, portEnable),
   (.portDisable m t, { op := 0x0301, alen := 2, admin := false }, portDisable),
   (.clusterEnable m t, { op := 0x0302, alen := 1, admin := true, p0 := true }, clusterEnable),
   (.clusterDisable m t, { op := 0x0303, alen := 1, admin := true }, clusterDisable),
   (.memRegionMap m t, { op := 0x0400, alen := 48, admin := false }, memRegionMap),
   (.shadowStart m t, { op := 0x0500, alen := 2, admin := true, p0 := true }, shadowStart),
   (.shadowStop m t, { op := 0x0501, alen := 0, admin := true }, shadowStop),
   (.reservePromote m t, { op := 0x0502, alen := 16, admin := true, p0 := true }, reservePromote)] ++
  [(.snapshotTake m t, { op := 0x0600, alen := 16, admin := false }, snapshotTake),
   (.snapshotRestore m t, { op := 0x0601, alen := 24, admin := false }, snapshotRestore),
   (.snapshotExport m t, { op := 0x0602, alen := 16, admin := false }, snapshotExport),
   (.digestRead m t, { op := 0x0700, alen := 3, admin := false }, digestRead),
   (.counterRead m t, { op := 0x0701, alen := 4, admin := false, noPlan := true }, counterRead),
   (.telemConfig m t, { op := 0x0702, alen := 13, admin := false }, telemConfig),
   (.sampleSet m t, { op := 0x0703, alen := 8, admin := false }, sampleSet),
   (.healthRead m t, { op := 0x0704, alen := 0, admin := false, noPlan := true }, healthRead),
   (.timeSet m t, { op := 0x0800, alen := 9, admin := true }, timeSet),
   (.powerStateSet m t, { op := 0x0900, alen := 4, admin := true, noPlan := true }, powerStateSet),
   (.attestGet m t, { op := 0x0A00, alen := 36, admin := false, noPlan := true }, attest),
   (.fwInfo m t, { op := 0x0A01, alen := 0, admin := false, noPlan := true }, fwInfo)]

/-- What becomes of frame `f` under the command `cmd` that brings it: frames of `kind` are the command's, and the one
taken has the effect `eff` (R551, R552, R557). -/
def State.Routed (s : State) (f : Frame) (t : Nat) (cmd : Instr) (kind : Prop) (eff : State → State) : Prop :=
  let s1 := s.tick t
  let u : State := { s1 with trail := { s1.trail with rxlock := true } }
  let type := fld f.hdr 3 0
  let src := fld f.hdr 8 4
  let good := f.crc = BitVec.ofNat 32 (crc32c (toLE 8 f.hdr.toNat ++ f.payload)) ∧ fld f.hdr 28 16 = f.payload.length ∧
    f.payload.length ≤ 4128 ∧ 1 ≤ type ∧ type ≤ 7
  let bcast := bit f.hdr.toNat 14 = true
  let mine := fld f.hdr 13 9 = s1.plane
  let dozes := s1.roe.pstate = .s3 ∧ type ≠ 7
  let gives := fun v : State => exec cmd s = .next v
  (s1.roe.bypN ≠ some true → gives s1) ∧
  (s1.roe.bypN = some true →
    (¬good → gives (u.count .trailBad 0 0)) ∧
    (good →
      (src = s1.plane → (bcast → gives u) ∧ (¬bcast → gives (u.count .trailNodest 0 0))) ∧
      (src ≠ s1.plane → fld f.hdr 36 32 = 31 → gives (u.count .trailLoop 0 0)) ∧
      (src ≠ s1.plane → fld f.hdr 36 32 ≠ 31 →
        (¬bcast → ¬mine → gives (u.forward f)) ∧
        (bcast → dozes → gives (u.forward f)) ∧
        (bcast → ¬dozes → (kind → gives (eff (u.forward f))) ∧ (¬kind → gives (u.forward f))) ∧
        (¬bcast → mine → dozes → gives (u.count .trailSleepDrop 0 0)) ∧
        (¬bcast → mine → ¬dozes → (kind → gives (eff u)) ∧ (¬kind → gives u)))))

end Sys2Proof.Machine
end

