-- ==== Sys2Proof/WellFormed.lean ====
section
/-!
DEFINITION. Which commands are well formed: the units they name exist (Table ARC-1, R16, R397), and the blocks,
frames and register values they carry have the shape their formats state (R333, R551, Table MGT-18).
-/
namespace Sys2Proof

/-- A block carries eight flits (R333). -/
def Block.wf (b : Block) : Bool := b.flits.length == 8

/-- A frame's payload is at most the 8 KiB that its 13-bit LEN can state (Table MGT-11). -/
def Frame.wf (f : Frame) : Bool := f.payload.length < 8192

/-- The unit of an error exists (Table ARC-1). -/
def UnitRef.wf : UnitRef → Bool
  | .core g => g < Config.cores
  | .clusterCtl c => c < Config.clusters
  | .die d => d < 4
  | .bridge d e => d < 4 && e < 4 && d != e

/-- The PLL exists (R605): one for each die, the TRAIL PLL and those of a link's eight lanes. -/
def PllRef.wf : PllRef → Bool
  | .die d => d < 4
  | .trail => true
  | .lane l n => l < Config.links && n < 8

/-- What a command names exists and what it carries has its stated shape. -/
inductive Scope where
  | core (g : Nat)
  | cluster (c : Nat)
  | link (l : Nat)
  | linkVc (l vc : Nat)
  | mailbox (m : Nat)
  | die (d : Nat)
  | shape (ok : Bool)
  deriving DecidableEq, Repr

/-- Whether the unit a command names exists, or its operand has its shape. -/
def Scope.ok : Scope → Bool
  | .core g => g < Config.cores
  | .cluster c => c < Config.clusters
  | .link l => l < Config.links
  | .linkVc l vc => l < Config.links && vc < 8
  | .mailbox m => m < 8
  | .die d => d < 4
  | .shape b => b

/-- The unit a command names, or the shape its operand must have (R16). -/
def Instr.scope : Instr → Scope
  | .recv g _ => .core g
  | .ldv g _ => .core g
  | .stv g _ => .core g
  | .lds g _ => .core g
  | .movi g _ => .core g
  | .saddi g _ => .core g
  | .vmov g _ => .core g
  | .movm g _ => .core g
  | .vsplat g _ => .core g
  | .xadd g _ => .core g
  | .xcin g _ => .core g
  | .xclr g _ => .core g
  | .xmov g _ => .core g
  | .xfold g _ => .core g
  | .xpadd g _ => .core g
  | .xssum g _ => .core g
  | .vbit g _ => .core g
  | .dot g _ => .core g
  | .ssq g _ => .core g
  | .xpsum g _ => .core g
  | .expand g _ => .core g
  | .rnd g _ => .core g
  | .cvt g _ => .core g
  | .mxq g _ => .core g
  | .xcenc g _ => .core g
  | .vmax g _ => .core g
  | .vmin g _ => .core g
  | .hmax g _ => .core g
  | .hmin g _ => .core g
  | .vflag g _ => .core g
  | .vcmp g _ => .core g
  | .vcmps g _ => .core g
  | .mlog g _ => .core g
  | .mpop g _ => .core g
  | .filt g _ => .core g
  | .fidx g _ => .core g
  | .vsel g _ => .core g
  | .mkrec g _ => .core g
  | .rinit g _ => .core g
  | .sort g _ => .core g
  | .merge g _ => .core g
  | .topk g _ => .core g
  | .unrec g _ => .core g
  | .gath g _ => .core g
  | .scat g _ => .core g
  | .ksel g _ => .core g
  | .emit g _ => .core g
  | .emita g _ => .core g
  | .emsc g _ => .core g
  | .endHandler g _ => .core g
  | .br g _ => .core g
  | .bz g _ => .core g
  | .bm g _ => .core g
  | .loop g _ => .core g
  | .scalc g _ => .core g
  | .fetch g _ => .core g
  | .waitf g _ => .core g
  | .skip g _ => .core g
  | .stat g _ => .core g
  | .raise g _ => .core g
  | .pcnt g _ => .core g
  | .outputRoomResume g _ => .core g
  | .initHandler g _ _ _ => .core g
  | .sliceHandler g _ _ => .core g
  | .finalHandler g _ _ _ _ _ => .core g
  | .watchdogTimeout g _ => .core g
  | .directAccumulate g => .core g
  | .sparseRunDecode g => .core g
  | .contribRx cl _ => .cluster cl
  | .cstatMemberRx cl _ => .cluster cl
  | .resultRelay cl _ => .cluster cl
  | .chunkTimeout cl _ _ _ => .cluster cl
  | .cstatSend cl _ _ _ _ => .cluster cl
  | .chunkOutputFlush cl _ _ _ _ => .cluster cl
  | .chunkEnd cl _ _ _ _ => .cluster cl
  | .qPartialRx cl _ => .cluster cl
  | .sideAbortRx cl _ => .cluster cl
  | .qPartialTimeout cl _ _ _ _ => .cluster cl
  | .tbarrierRelease link _ => .link link
  | .read cl _ => .cluster cl
  | .write cl _ => .cluster cl
  | .writeSignal cl _ => .cluster cl
  | .atomic cl _ => .cluster cl
  | .accum cl _ => .cluster cl
  | .accumSignal cl _ => .cluster cl
  | .messageTimeout cl _ _ _ => .cluster cl
  | .messageEntryFree cl _ _ _ => .cluster cl
  | .mirrorResponse cl _ => .cluster cl
  | .mirrorTimeout cl _ _ => .cluster cl
  | .patrolScrub granule _ => .shape (granule < 4 * Config.dieGranules)
  | .snapshotTakeDone _ _ => .shape true
  | .snapshotRestoreReadResp _ => .shape true
  | .exportWriteResponse _ => .shape true
  | .fetchResponse cl _ => .cluster cl
  | .memwrResponse cl _ => .cluster cl
  | .requestResend cl _ _ => .cluster cl
  | .blockTx link parity _ => .shape (link < Config.links && parity.all (· < 8))
  | .blockRx link b fec _ => .shape (link < Config.links && b.wf && fec.uncorr.length ≤ 8 && fec.corr.length ≤ 8)
  | .replayTimeout link _ => .link link
  | .nakRepeat link _ => .link link
  | .laneFail link _ _ => .link link
  | .degradeRepeat link _ => .link link
  | .degradeTimeout link _ => .link link
  | .retrainDone link _ _ _ => .link link
  | .signalDetect link _ => .link link
  | .equaliseDone link _ _ => .link link
  | .equaliseTimeout link _ _ => .link link
  | .fecLockDone link _ _ => .link link
  | .fecLockTimeout link _ => .link link
  | .discoverTimeout link _ => .link link
  | .initTimeout link _ => .link link
  | .linkRestart link _ => .link link
  | .stoppingAbortTimeout link _ => .link link
  | .stoppingDone link _ => .link link
  | .helloRepeat link _ => .link link
  | .tsyncSend link _ => .link link
  | .digestHeartbeat _ => .shape true
  | .digestMissing link _ => .link link
  | .replayAgeTimeout link _ => .link link
  | .neighbourMissingTimeout link _ => .link link
  | .packetIngress link vc _ _ => .linkVc link vc
  | .packetAgeTimeout _ _ => .shape true
  | .routeSetDiscard _ => .shape true
  | .outputArbitration link vc _ => .linkVc link vc
  | .holdCut link vc _ _ => .linkVc link vc
  | .starve link vc _ _ => .linkVc link vc
  | .shaperRefill _ => .shape true
  | .gateTakeover link _ => .link link
  | .quRefresh die => .die die
  | .cmapTake _ => .shape true
  | .holdoverEntry _ => .shape true
  | .holdoverExpiry _ => .shape true
  | .digestEntryTimeout _ _ _ => .shape true
  | .unitError u _ => .shape u.wf
  | .healthDecay _ => .shape true
  | .shadowActivation _ => .shape true
  | .shadowImageTimeout _ => .shape true
  | .shadowNotice _ => .shape true
  | .shadowRotate _ => .shape true
  | .shadowCompareTimeout _ _ _ _ => .shape true
  | .planReadResend _ _ => .shape true
  | .fusedQueryResend _ => .shape true
  | .takeover _ => .shape true
  | .restoreReadResponse _ => .shape true
  | .restoreReadResend _ _ => .shape true
  | .buddyTimeout _ => .shape true
  | .armPoint _ => .shape true
  | .commit _ => .shape true
  | .overlapEnd _ => .shape true
  | .stageReadResponse _ => .shape true
  | .stageReadResend _ _ => .shape true
  | .stageComplete _ => .shape true
  | .partStarted p _ => .shape (p < 64)
  | .partStopped p _ => .shape (p < 64)
  | .clusterStarted cl _ => .cluster cl
  | .clusterStopped cl _ => .cluster cl
  | .shadowStopped _ => .shape true
  | .mbwr _ => .shape true
  | .mbrd _ => .shape true
  | .planStage m _ => .mailbox m
  | .planCommit m _ => .mailbox m
  | .planAbort m _ => .mailbox m
  | .partCreate m _ => .mailbox m
  | .partDestroy m _ => .mailbox m
  | .portEnable m _ => .mailbox m
  | .portDisable m _ => .mailbox m
  | .clusterEnable m _ => .mailbox m
  | .clusterDisable m _ => .mailbox m
  | .memRegionMap m _ => .mailbox m
  | .shadowStart m _ => .mailbox m
  | .shadowStop m _ => .mailbox m
  | .reservePromote m _ => .mailbox m
  | .snapshotTake m _ => .mailbox m
  | .snapshotRestore m _ => .mailbox m
  | .snapshotExport m _ => .mailbox m
  | .digestRead m _ => .mailbox m
  | .counterRead m _ => .mailbox m
  | .telemConfig m _ => .mailbox m
  | .sampleSet m _ => .mailbox m
  | .healthRead m _ => .mailbox m
  | .timeSet m _ => .mailbox m
  | .powerStateSet m _ => .mailbox m
  | .attestGet m _ => .mailbox m
  | .fwInfo m _ => .mailbox m
  | .mpHeartbeat _ => .shape true
  | .mpstop _ => .shape true
  | .thermalLevelUp _ _ => .shape true
  | .thermalLevelDown _ _ => .shape true
  | .powerLevelUp _ _ => .shape true
  | .powerLevelDown _ _ => .shape true
  | .avsConfirm _ => .shape true
  | .avsConfirmTimeout _ => .shape true
  | .dramThrottleOn stack _ _ => .die stack
  | .dramThrottleOff stack _ _ => .die stack
  | .thermalTrip _ _ _ => .shape true
  | .railFault rail _ _ => .shape (rail < 7)
  | .refclkLoss _ _ => .shape true
  | .laserFault engine _ _ => .cluster engine
  | .laserClear engine _ _ => .cluster engine
  | .pllLock u _ => .shape u.wf
  | .pllLockLoss u _ => .shape u.wf
  | .powerTransitionDone _ => .shape true
  | .edgeWakeDetect ep _ _ => .die ep
  | .roeWakeWrite _ _ => .shape true
  | .forcebypWrite _ _ => .shape true
  | .diagDataRead => .shape true
  | .i3cMailboxWrite _ _ _ => .shape true
  | .registerWrite _ _ => .shape true
  | .entdaa addr => .shape (addr < 128)
  | .setdasa addr => .shape (addr < 128)
  | .setnewda addr => .shape (addr < 128)
  | .rstdaa => .shape true
  | .getpid => .shape true
  | .getbcr => .shape true
  | .getdcr => .shape true
  | .getstatus => .shape true
  | .enec _ => .shape true
  | .disec _ => .shape true
  | .rstact _ => .shape true
  | .trailPktFrame f _ => .shape f.wf
  | .trailTsyncFrame f _ => .shape f.wf
  | .trailDigestFrame f _ => .shape f.wf
  | .censusFrame f _ => .shape f.wf
  | .censusSend _ => .shape true
  | .memberAbsent plane _ => .shape (plane < 32)
  | .wakeFrame f _ => .shape f.wf
  | .shadowEntry f _ => .shape f.wf
  | .shadowResult f _ => .shape f.wf
  | .planRead f _ => .shape f.wf
  | .planData f _ => .shape f.wf
  | .planNone f _ => .shape f.wf
  | .fusedQuery f _ => .shape f.wf
  | .fusedStateRecord _ => .shape true
  | .fusedState f _ => .shape f.wf
  | .bootRead f _ => .shape f.wf
  | .bootData f _ => .shape f.wf
  | .bootNone f _ => .shape f.wf
  | .bootNoneRetry _ => .shape true
  | .leadWaitTimeout _ => .shape true
  | .trailInsert _ => .shape true
  | .porstNAssert => .shape true
  | .porstNRelease _ => .shape true
  | .vddAonUp => .shape true
  | .bootFetchResponse _ => .shape true
  | .bootReadResend _ _ => .shape true
  | .bootRetry _ => .shape true
  | .snapshotRestoreReadResend _ _ => .shape true
  | .bootTrainTimeout _ => .shape true
  | .vddAonDown => .shape true
  | .mpStopsExecuting => .shape true
  | .refreshRateDoubled stack _ _ => .die stack

/-- A command is well formed when the unit it names exists and its operands have their shape. -/
def Instr.wf (i : Instr) : Bool := i.scope.ok

end Sys2Proof
end

