-- ==== Sys2Proof/Certificates/Slice0/Obligations.lean ====
section
/-!
DEFINITION. The statements for the provers, family by family in the order of the opcode table, then those about the whole
machine. Terms that several of them share are in Safety.lean.
-/
open Sys2Proof Sys2Proof.Machine

/-- MOVI, SADDI and MOVM write a scalar or mask register in one cycle (Table TSI-8); SCALC writes the result of its
operation in one cycle, three for a product (R179); STAT writes the context's first status and its count of later faults
(R184). Nothing else of the machine changes but the handler's offset and cycles. -/
def Obligations.ScalarInstructionsWriteOneRegister : Prop :=
  ∀ (s : State) (g : Nat) (f : TsiFields) (e : Env),
    let c := s.core g
    let a := c.rs (sReg f.a)
    (s.Runs g 0x05 f e → exec (.movi g f) s = .next (s.goesOn e (c.ws (sReg f.d) (f.imm.signExtend 64)) 1)) ∧
    (s.Runs g 0x06 f e → exec (.saddi g f) s = .next (s.goesOn e (c.ws (sReg f.d) (a + f.imm.signExtend 64)) 1)) ∧
    (s.Runs g 0x08 f e → exec (.movm g f) s = .next (s.goesOn e (c.wm (xReg f.d) (a.toNat % 2 ^ 32)) 1)) ∧
    (s.Runs g 0xE5 f e → fld f.imm 19 16 < 8 →
      let b := if bit f.imm.toNat 20 then BitVec.ofNat 64 (fld f.imm 15 0) else c.rs (sReg f.b)
      let op := fld f.imm 19 16
      let x : Word := if op = 0 then a + b else if op = 1 then a - b else if op = 2 then a &&& b else if op = 3 then a ||| b
        else if op = 4 then a ^^^ b else if op = 5 then a <<< (b.toNat % 64) else if op = 6 then a >>> (b.toNat % 64) else a * b
      exec (.scalc g f) s = .next (s.goesOn e (c.ws (sReg f.d) x) (if op = 7 then 3 else 1))) ∧
    (∀ x : Ctx, s.Runs g 0xF0 f e → c.ctxs.find? (fun k => decide (k.id = e.run.ctx)) = some x →
      exec (.stat g f) s =
        .next (s.goesOn e (c.ws (sReg f.d) (BitVec.ofNat 64 (x.status + min x.later 0xFFFF * 256))) 1))

/-- VMOV, VBIT and VSPLAT write one V register, MLOG one mask register, and MPOP the number of elements that the set bits
of a mask govern (Tables TSI-8 and TSO-1, R119, R144). VSPLAT writes every element of the register. -/
def Obligations.VectorAndMaskMoves : Prop :=
  ∀ (s : State) (g : Nat) (f : TsiFields) (e : Env),
    let c := s.core g
    let va := c.rv f.a.toNat
    let vb := c.rv f.b.toNat
    let ma := c.rm (xReg f.a)
    let mb := c.rm (xReg f.b)
    let w := elemBits f.fa.toNat
    let op := fld f.imm 1 0
    (s.Runs g 0x07 f e → exec (.vmov g f) s = .next (s.goesOn e (c.wv f.d.toNat va) 1)) ∧
    (s.Runs g 0x17 f e → op < 3 →
      exec (.vbit g f) s = .next (s.goesOn e (c.wv f.d.toNat
        (if op = 0 then va &&& vb else if op = 1 then va ||| vb else va ^^^ vb)) 1)) ∧
    (s.Runs g 0x09 f e → w = 4 ∨ w = 8 ∨ w = 16 ∨ w = 32 →
      ∃ x, exec (.vsplat g f) s = .next (s.goesOn e (c.wv f.d.toNat x) 1) ∧ x < 2 ^ 512 ∧
        ∀ k, w * k < 512 → elemAt x w k = (c.rs (sReg f.a)).toNat % 2 ^ w) ∧
    (s.Runs g 0x09 f e → w = 6 →
      ∃ x, exec (.vsplat g f) s = .next (({ s with free := s.free + 1 } : State).goesOn e (c.wv f.d.toNat x) 1) ∧
        ∀ k, k < 64 → elemAt x w k = (c.rs (sReg f.a)).toNat % 2 ^ w) ∧
    (s.Runs g 0x52 f e →
      exec (.mlog g f) s = .next (s.goesOn e (c.wm (xReg f.d)
        (if op = 0 then ma &&& mb else if op = 1 then ma ||| mb else if op = 2 then ma ^^^ mb
          else ma &&& (mb ^^^ (2 ^ 32 - 1)))) 1)) ∧
    (s.Runs g 0x53 f e →
      exec (.mpop g f) s = .next (s.goesOn e (c.ws (sReg f.d) (BitVec.ofNat 64
        (if w = 32 then popcount 16 ma else if w = 16 then popcount 32 ma else 2 * popcount 32 ma))) 1))

/-- VMAX, VMIN and VSEL write the unmasked elements of one V register, element by element, and leave the masked-off
elements of VMAX and VMIN as they are (R95, R133, R146); HMAX and HMIN write the selected element and its number (R134).
-/
def Obligations.MaxMinAndSelect : Prop :=
  ∀ (s : State) (g : Nat) (f : TsiFields) (e : Env),
    let c := s.core g
    let fa := f.fa.toNat
    let w := elemBits fa
    let va := c.rv f.a.toNat
    let vb := c.rv f.b.toNat
    let vd := c.rv f.d.toNat
    let m := c.rm f.msk.toNat
    let n := elemsOfV w
    (w = 8 ∨ w = 16 ∨ w = 32) →
    (s.Runs g 0x40 f e → ∃ x, exec (.vmax g f) s = .next (s.goesOn e (c.wv f.d.toNat x) 1) ∧ x < 2 ^ 512 ∧
      ∀ k, k < n → elemAt x w k = if governs m w k then pick true fa (elemAt va w k) (elemAt vb w k) % 2 ^ w else elemAt vd w k) ∧
    (s.Runs g 0x41 f e → ∃ x, exec (.vmin g f) s = .next (s.goesOn e (c.wv f.d.toNat x) 1) ∧ x < 2 ^ 512 ∧
      ∀ k, k < n → elemAt x w k = if governs m w k then pick false fa (elemAt va w k) (elemAt vb w k) % 2 ^ w else elemAt vd w k) ∧
    (s.Runs g 0x56 f e → ∃ x, exec (.vsel g f) s = .next (s.goesOn e (c.wv f.d.toNat x) 1) ∧ x < 2 ^ 512 ∧
      ∀ k, k < n → elemAt x w k = if governs m w k then elemAt va w k else elemAt vb w k) ∧
    (∀ mx : Bool, s.Runs g (if mx then 0x42 else 0x43) f e →
      let on := fun k => k < n ∧ governs m w k = true ∧ (elemVal fa (elemAt va w k)).isNan = false
      let key := fun k => if mx then (elemVal fa (elemAt va w k)).key else -(elemVal fa (elemAt va w k)).key
      ∃ x q, exec (if mx then .hmax g f else .hmin g f) s =
          .next (s.goesOn e ((c.wv f.d.toNat x).ws f.c.toNat (BitVec.ofNat 64 q)) 2) ∧
        ((on q ∧ x = asRead fa (elemAt va w q) ∧ ∀ k, on k → key k < key q ∨ (key k = key q ∧ q ≤ k)) ∨
          ((∀ k, ¬on k) ∧ x = noBest mx fa ∧ q = 0)))

/-- VCMP and VCMPS write a mask register with exactly the bits whose elements are unmasked and meet the condition, both of
the two elements of an 8-bit format (R141, R143); FILT packs the unmasked elements in ascending order with zeros above
them and writes their count, FIDX packs their indices (R145). -/
def Obligations.CompareAndFilter : Prop :=
  ∀ (s : State) (g : Nat) (f : TsiFields) (e : Env),
    let c := s.core g
    let fa := f.fa.toNat
    let w := elemBits fa
    let va := c.rv f.a.toNat
    let m := c.rm f.msk.toNat
    let n := elemsOfV w
    let holds := fun (b k : Nat) => compareVals (fld f.imm 2 0) (bit f.imm.toNat 3) (bit f.imm.toNat 4)
      (elemVal fa (elemAt va w k)) (elemVal fa b)
    let on := (List.range n).filter fun k => governs m w k
    (w = 8 ∨ w = 16 ∨ w = 32) →
    (s.Runs g 0x50 f e → ∃ x, exec (.vcmp g f) s = .next (s.goesOn e (c.wm (xReg f.d) x) 1) ∧ x < 2 ^ 32 ∧
      ∀ k, k < 32 → let h := fun j => holds (elemAt (c.rv f.b.toNat) w j) j
        bit x k = (bit m k && (if w = 32 then decide (k < 16) && h k else if w = 16 then h k else h (2 * k) && h (2 * k + 1)))) ∧
    (s.Runs g 0x51 f e → ∃ x, exec (.vcmps g f) s = .next (s.goesOn e (c.wm (xReg f.d) x) 1) ∧ x < 2 ^ 32 ∧
      ∀ k, k < 32 → let h := fun j => holds ((c.rs f.c.toNat).toNat % 2 ^ w) j
        bit x k = (bit m k && (if w = 32 then decide (k < 16) && h k else if w = 16 then h k else h (2 * k) && h (2 * k + 1)))) ∧
    (s.Runs g 0x54 f e → ∃ x, exec (.filt g f) s =
        .next (s.goesOn e ((c.wv f.d.toNat x).ws f.c.toNat (BitVec.ofNat 64 on.length)) 2) ∧ x < 2 ^ 512 ∧
      ∀ k, k < n → elemAt x w k = match on[k]? with | some j => elemAt va w j | none => 0) ∧
    (s.Runs g 0x55 f e → ∃ x, exec (.fidx g f) s = .next (s.goesOn e (c.wvGroup f.d.toNat x (if w = 8 then 4 else 2)) 2) ∧
      ∀ k, elemAt x 32 k = match on[k]? with
        | some j => ((c.rs (sReg f.b)).toNat + fld f.imm 15 0 + j) % 2 ^ 32
        | none => 0)

/-- XCLR clears the accumulator registers that its immediate names; XMOV copies integer, flags and residue of 16 lanes;
XPADD adds each XS lane into the XP lane of its number at the XP scale; XSSUM and XPSUM add all 16 lanes into lane 0 and
clear the others (R116, R122; log entry 13 for the old value of lane 0). -/
def Obligations.AccumulatorMoves : Prop :=
  ∀ (s : State) (g : Nat) (f : TsiFields) (e : Env),
    let c := s.core g
    let xa := xReg f.a
    let xd := xReg f.d
    let pa := pReg f.a
    let pd := pReg f.d
    (s.Runs g 0x12 f e → ∃ c', exec (.xclr g f) s = .next (s.goesOn e c' 1) ∧
      (∀ n k, n < 8 → k < 16 → c'.rx n k = if bit (fld f.imm 7 0) n then {} else c.rx n k) ∧
      (∀ n k, n < 4 → k < 16 → c'.rp n k = if bit (fld f.imm 11 8) n then {} else c.rp n k) ∧
      c' = { c with xs := c'.xs, xp := c'.xp }) ∧
    (s.Runs g 0x13 f e → ∃ c', exec (.xmov g f) s = .next (s.goesOn e c' 1) ∧
      (∀ n k, n < 8 → k < 16 → c'.rx n k = c.rx (if n = xd then xa else n) k) ∧ c' = { c with xs := c'.xs }) ∧
    (s.Runs g 0x15 f e → ∃ c', exec (.xpadd g f) s = .next (s.goesOn e c' 2) ∧
      (∀ n k, n < 4 → k < 16 →
        c'.rp n k = if n = pd then (c.rp n k).plus (c.rx xa k).toXp else c.rp n k) ∧ c' = { c with xp := c'.xp }) ∧
    (s.Runs g 0x16 f e → ∃ c', exec (.xssum g f) s = .next (s.goesOn e c' 2) ∧
      (∀ n k, n < 8 → k < 16 → c'.rx n k =
        if n = xd then (if k = 0 then (c.rx xd 0).plus (sumLanes ((List.range 16).map (c.rx xa))) else {}) else c.rx n k) ∧
      c' = { c with xs := c'.xs }) ∧
    (s.Runs g 0x22 f e → ∃ c', exec (.xpsum g f) s = .next (s.goesOn e c' 2) ∧
      (∀ n k, n < 4 → k < 16 → c'.rp n k =
        if n = pd then (if k = 0 then (c.rp pd 0).plus (sumLanes ((List.range 16).map (c.rp pa))) else {}) else c.rp n k) ∧
      c' = { c with xp := c'.xp })

/-- XADD adds each unmasked element k exactly into lane k mod 16 of register D + ⌊k / 16⌋ (R120); DOT and SSQ add each
unmasked product exactly into its lane of XP[D] (R124, R125); XCIN decodes 16 XC elements of the slice into the lanes of
XS[D] and moves CURSOR to the next whole beat (R121); XFOLD adds each XP lane into the XS lane of its number (R123). -/
def Obligations.ExactAccumulation : Prop :=
  ∀ (s : State) (g : Nat) (f : TsiFields) (e : Env),
    let c := s.core g
    let fa := f.fa.toNat
    let w := elemBits fa
    let va := c.rv f.a.toNat
    let vb := c.rv f.b.toNat
    let m := c.rm f.msk.toNat
    let n := elemsOfV w
    let d := xReg f.d
    let per := n / 16
    (w = 8 ∨ w = 16 ∨ w = 32) →
    (s.Runs g 0x10 f e → ∃ c', exec (.xadd g f) s = .next (s.goesOn e c' (if w = 32 then 1 else 2)) ∧
      (∀ k, k < n → d + k / 16 < 8 → c'.rx (d + k / 16) (k % 16) =
        if governs m w k then (c.rx (d + k / 16) (k % 16)).add wXS (elemVal fa (elemAt va w k))
        else c.rx (d + k / 16) (k % 16)) ∧
      (∀ q k, (q < d ∨ d + n / 16 ≤ q) → k < 16 → c'.rx q k = c.rx q k) ∧ c' = { c with xs := c'.xs }) ∧
    (s.Runs g 0x20 f e → ∃ c', exec (.dot g f) s = .next (s.goesOn e c' (if fa = 0 then 2 else 1)) ∧
      (∀ i, i < 16 → c'.rp (pReg f.d) i = ((List.range per).map (per * i + ·)).foldl (fun l k =>
        if governs m w k then l.addProd (scaledProd (scaleOf e c 0 8 10 k) (elemVal fa (elemAt va w k))
          (scaleOf e c 4 9 11 k) (elemVal fa (elemAt vb w k))) else l) (c.rp (pReg f.d) i)) ∧
      (∀ q i, q ≠ pReg f.d → i < 16 → c'.rp q i = c.rp q i) ∧ c' = { c with xp := c'.xp }) ∧
    (s.Runs g 0x21 f e → ∃ c', exec (.ssq g f) s = .next (s.goesOn e c' (if fa = 0 then 2 else 1)) ∧
      (∀ i, i < 16 → c'.rp (pReg f.d) i = ((List.range per).map (per * i + ·)).foldl (fun l k =>
        if governs m w k then l.addProd (scaledProd (scaleOf e c 0 8 10 k) (elemVal fa (elemAt va w k))
          (scaleOf e c 0 8 10 k) (elemVal fa (elemAt va w k))) else l) (c.rp (pReg f.d) i)) ∧
      (∀ q i, q ≠ pReg f.d → i < 16 → c'.rp q i = c.rp q i) ∧ c' = { c with xp := c'.xp }) ∧
    (s.Runs g 0x14 f e → ((List.range 16).all fun k => (c.rp (pReg f.a) k).resOk) = true →
      ∃ c', exec (.xfold g f) s = .next (s.goesOn e c' 2) ∧
      (∀ k, k < 16 → c'.rx d k = foldLane (c.rx d k) (c.rp (pReg f.a) k)) ∧
      (∀ q k, q ≠ d → k < 16 → c'.rx q k = c.rx q k) ∧ c' = { c with xs := c'.xs }) ∧
    (∀ sl : Slice, s.Runs g 0x11 f e → dKind e.descC ≠ 0 → e.run.slice = some sl →
      let cur := c.cursor f.c.toNat
      let r := xcinLoop d 16 0 (sl.data.drop (64 * cur)) c 0 0
      r.2.2.2 = true →
      exec (.xcin g f) s = .next (s.goesOn e (r.1.setCursor f.c.toNat (cur + cdiv r.2.1 64)) (4 + 2 * r.2.2.1)))

/-- RND, CVT and MXQ convert each value once into the destination format under the descriptor's or the instruction's
rounding mode, write the unmasked elements and fold their flags into the record where the descriptor has FLAGREC = 1
(R127, R129, R130, R132); VFLAG folds NAN and INF flags and writes no register (R135); EXPAND writes 64 values as BF16 and
no flag, bit k of the mask governing its elements 2k and 2k + 1 (R126; log entry 43 for the mask). -/
def Obligations.RoundAndConvert : Prop :=
  ∀ (s : State) (g : Nat) (f : TsiFields) (e : Env),
    let c := s.core g
    let fa := f.fa.toNat
    let fd := f.fd.toNat
    let wd := elemBits fd
    let n := elemsOfV wd
    let m := c.rm f.msk.toNat
    let base := (c.rs (sReg f.b)).toNat + fld f.imm 15 0
    let rec_ := fun fl : List (Nat × Nat) => if dFlagrec e.descC then fl else []
    dKind e.descC ≠ 0 →
    (s.Runs g 0x30 f e → wd = 4 ∨ wd = 6 ∨ wd = 8 ∨ wd = 16 ∨ wd = 32 →
      (∀ k, k < n → (rndLane e c k).1.resOk = true) →
      let out := fun k => convert fd (rndOpt e (base + k)) ((rndLane e c k).1.val (rndLane e c k).2)
      ∃ x, exec (.rnd g f) s = .next ((s.foldFlagsAt e (rec_ (((List.range n).filter fun k => governs m wd k).map fun k =>
            (base + k, (out k).2)))).goesOn e (c.wv f.d.toNat x) (if wd = 32 then 1 else if wd = 16 then 2 else 4)) ∧
        x < 2 ^ 512 ∧
        (∀ k, k < n → elemAt x wd k = if governs m wd k then (out k).1 % 2 ^ wd else elemAt (c.rv f.d.toNat) wd k) ∧
        ∀ k, n ≤ k → elemAt x wd k = 0) ∧
    (s.Runs g 0x31 f e → wd = 16 ∨ wd = 32 →
      let src := c.rvGroup f.a.toNat (groupOf32 (elemBits fa))
      let old := c.rvGroup f.d.toNat (groupOf32 wd)
      let out := fun k => convert fd (rndOpt e (base + k)) (elemVal fa (elemAt src (elemBits fa) k))
      ∃ x, exec (.cvt g f) s = .next ((s.foldFlagsAt e (rec_ (((List.range 32).filter fun k => bit m k).map fun k =>
            (base + k, (out k).2)))).goesOn e (c.wvGroup f.d.toNat x (groupOf32 wd)) 2) ∧
        (∀ k, k < 32 → elemAt x wd k = if bit m k then (out k).1 % 2 ^ wd else elemAt old wd k)) ∧
    (s.Runs g 0x31 f e → wd = 4 ∨ wd = 6 ∨ wd = 8 →
      let src := c.rvGroup f.a.toNat (groupOf32 (elemBits fa))
      let out := fun k => convert fd (rndOpt e (base + k)) (elemVal fa (elemAt src (elemBits fa) k))
      ∃ x, exec (.cvt g f) s = .next ((({ s with free := s.free + 1 } : State).foldFlagsAt e
            (rec_ (((List.range 32).filter fun k => bit m k).map fun k => (base + k, (out k).2)))).goesOn e
            (c.wvGroup f.d.toNat x 1) 2) ∧
        (∀ k, k < 32 → elemAt x wd k = if bit m k then (out k).1 % 2 ^ wd else elemAt (c.rv f.d.toNat) wd k)) ∧
    (s.Runs g 0x32 f e →
      let lane := fun k => c.rx (xReg f.a + k / 16) (k % 16)
      let src := c.rvGroup f.a.toNat (groupOf32 (elemBits fa))
      let v := fun k => if fa = 0xE then (lane k).val wXS else elemVal fa (elemAt src (elemBits fa) k)
      (fa = 0xE → ∀ k, k < 32 → (lane k).resOk = true) →
      let q := mxBlock fd (fun k => rndOpt e (base + k)) ((List.range 32).map v)
      exec (.mxq g f) s = .next ((s.foldFlagsAt e (rec_ (q.2.zipIdx.map fun p => (base + p.2, p.1.2)))).goesOn e
        ((c.wv f.d.toNat (packElems wd (q.2.map (·.1)))).ws (fld f.imm 19 16) (BitVec.ofNat 64 q.1)) 2)) ∧
    (s.Runs g 0x44 f e →
      exec (.vflag g f) s = .next ((s.foldFlagsAt e (rec_ (((List.range (elemsOfV (elemBits fa))).filter fun k =>
          governs m (elemBits fa) k).map fun k => (base + k, match elemVal fa (elemAt (c.rv f.a.toNat) (elemBits fa) k) with
            | .nan => flNan | .inf _ => flInf | _ => 0)))).goesOn e c 1)) ∧
    (s.Runs g 0x23 f e → elemBits fa = 4 ∨ elemBits fa = 6 ∨ elemBits fa = 8 →
      let w := elemBits fa
      let half := if w = 4 ∧ bit f.imm.toNat 0 then c.rv f.a.toNat >>> 256 else c.rv f.a.toNat
      let z : Int := if bit f.imm.toNat 1 then sext 8 ((c.rs f.c.toNat).toNat) else 0
      let out := fun q : Nat =>
        if fa = 0x9 then elemAt (c.rv f.b.toNat) 16 q
        else if intBits fa ≠ 0 then bf16Of (.fin (decide (sext w q - z < 0)) (sext w q - z).natAbs 0)
        else bf16Of (elemVal fa q)
      ∃ x, exec (.expand g f) s = .next (s.goesOn e (c.wvGroup f.d.toNat x 2) 2) ∧ x < 2 ^ 1024 ∧
        ∀ k, k < 64 → elemAt x 16 k =
          if governs m 8 k then out (elemAt half w k) % 2 ^ 16 else elemAt (c.rvGroup f.d.toNat 2) 16 k)

/-- MKREC builds records of the stated fields (R148), RINIT writes sentinels (R149), SORT, MERGE and TOPK put records into
the order of R150 and keep the first 4r (R152 to R154; TOPK merges the registers as they stand after A is sorted), and
UNREC unpacks keys and payloads (R155), when every KFMT is FA or the sentinel's and the groups that must be sorted are
(R151, R153). -/
def Obligations.RecordInstructions : Prop :=
  ∀ (s : State) (g : Nat) (f : TsiFields) (e : Env),
    let c := s.core g
    let fa := f.fa.toNat
    let w := elemBits fa
    let r := fld f.imm 19 16 + 1
    let lt := recBefore (bit f.imm.toNat 20)
    let cost := 2 * r * clog2 (4 * r)
    let ga := groupRecs c f.a.toNat r
    let gb := groupRecs c f.b.toNat r
    let gd := groupRecs c f.d.toNat r
    (s.Runs g 0x60 f e →
      let part := fld f.imm 1 0
      exec (.mkrec g f) s = .next (s.goesOn e (putRecs c f.d.toNat 4 ((List.range 16).map fun k =>
        mkRec (elemAt (c.rv f.a.toNat) w (16 * part + k)) (elemAt (c.rv f.b.toNat) 32 k) ((c.rs 1).toNat % 2 ^ 16)
          ((c.rs f.c.toNat).toNat + 16 * part + k) fa)) 2)) ∧
    (s.Runs g 0x61 f e → exec (.rinit g f) s =
      .next (s.goesOn e (putRecs c f.d.toNat r (List.replicate (4 * r) (mkRec 0 0 0xFFFF 0xFFFFFFFF 0xF))) r)) ∧
    (s.Runs g 0x62 f e → fmtOk fa gd = true →
      exec (.sort g f) s = .next (s.goesOn e (putRecs c f.d.toNat r (sortRecs lt gd)) cost)) ∧
    (s.Runs g 0x63 f e → fmtOk fa (ga ++ gb) = true → sortedRecs lt ga = true → sortedRecs lt gb = true →
      exec (.merge g f) s =
        .next (s.goesOn e (putRecs c f.d.toNat r ((sortRecs lt (ga ++ gb)).take (4 * r))) (2 * r + 2))) ∧
    (s.Runs g 0x64 f e →
      let c1 := putRecs c f.a.toNat r (sortRecs lt ga)
      let d1 := groupRecs c1 f.d.toNat r
      fmtOk fa (ga ++ d1) = true → sortedRecs lt d1 = true →
      exec (.topk g f) s = .next (s.goesOn e (putRecs c1 f.d.toNat r
        ((sortRecs lt (d1 ++ groupRecs c1 f.a.toNat r)).take (4 * r))) (cost + 2 * r + 2))) ∧
    (s.Runs g 0x65 f e → fmtOk fa (groupRecs c f.a.toNat 4) = true →
      let rs := groupRecs c f.a.toNat 4
      let empty := match fpOf fa with | some q => q.nanRaw | none => 2 ^ (intBits fa - 1)
      exec (.unrec g f) s = .next (s.goesOn e ((c.wv f.d.toNat (packElems w (rs.map fun x =>
          if rFmt x = 0xF then empty else rKey x))).wv (f.d.toNat + 1) (packElems 32 (rs.map fun x =>
          if rFmt x = 0xF then 0xFFFFFFFF else rPay x))) 2))

/-- Any list of records that SORT, MERGE or TOPK puts into order holds the same records afterwards, and no record stands
before one that R150 puts ahead of it: for records of one key format and sentinels. -/
def Obligations.RecordSortIsAnOrderedPermutation : Prop :=
  ∀ (desc : Bool) (fa : Nat) (rs : List Nat), fmtOk fa rs = true →
    (sortRecs (recBefore desc) rs).Perm rs ∧
      (sortRecs (recBefore desc) rs).Pairwise fun a b => recBefore desc b a = false

/-- RECV copies n beats of the slice into registers D on and moves CURSOR by n (R117); SKIP moves CURSOR (R183); LDV and
STV move n beats between V registers and the LOCAL region, LDS loads 8 bytes (R118). No other byte of any data SRAM
changes. The conditions are those under which the manual lets the instruction complete: every byte addressed lies inside,
and no outstanding fetch will write it (R181). -/
def Obligations.LoadsStoresAndReceive : Prop :=
  ∀ (s : State) (g : Nat) (f : TsiFields) (e : Env),
    let c := s.core g
    let n := fld f.imm 18 16 + 1
    let d := e.descC
    let a := (c.rs (sReg f.a)).toNat + fld f.imm 15 0
    let base := Config.sramBytes * g + dAddr d
    let cur := c.cursor f.c.toNat
    dKind d ≠ 0 →
    (s.Runs g 0x01 f e → cur + n ≤ (c.rs 5).toNat →
      exec (.recv g f) s = .next (s.goesOn e ((foldRange n (fun k x =>
        x.wv (f.d.toNat + k) (ofLE (slice e.sliceBytes (64 * (cur + k)) 64))) c).setCursor f.c.toNat (cur + n)) n)) ∧
    (s.Runs g 0xE8 f e → cur + a ≤ (c.rs 5).toNat →
      exec (.skip g f) s = .next (s.goesOn e (c.setCursor f.c.toNat (cur + a)) 1)) ∧
    (s.Runs g 0x02 f e → a + n ≤ dLen d → e.fetchHits d a n = false →
      exec (.ldv g f) s = .next (s.goesOn e (foldRange n (fun k x =>
        x.wv (f.d.toNat + k) (ofLE (memRead s.coll.sram (base + 64 * (a + k)) 64))) c) n)) ∧
    (s.Runs g 0x03 f e → a + n ≤ dLen d → e.fetchHits d a n = false → Memory.wf s.coll.sram = true →
      ∃ s' : State, exec (.stv g f) s = .next (s'.goesOn e c n) ∧ s' = { s with coll := { s.coll with sram := s'.coll.sram } } ∧
        (∀ k i, k < n → i < 64 → memGet s'.coll.sram (base + 64 * (a + k) + i) =
          BitVec.ofNat 8 (c.rv (f.d.toNat + k) / 2 ^ (8 * i))) ∧
        ∀ x, (x < base + 64 * a ∨ base + 64 * (a + n) ≤ x) → memGet s'.coll.sram x = memGet s.coll.sram x) ∧
    (s.Runs g 0x04 f e → dKind d = 2 → a % 8 = 0 → a + 8 ≤ 64 * dLen d → e.fetchHits d (a / 64) 1 = false →
      exec (.lds g f) s =
        .next (s.goesOn e (c.ws (sReg f.d) (BitVec.ofNat 64 (ofLE (memRead s.coll.sram (base + a) 8)))) 1)) ∧
    (s.Runs g 0x04 f e → dKind d ≠ 2 → a % 8 = 0 → a + 8 ≤ e.sliceData.length →
      exec (.lds g f) s =
        .next (s.goesOn e (c.ws (sReg f.d) (BitVec.ofNat 64 (ofLE (slice e.sliceData a 8)))) 1))

/-- GATH reads and SCAT writes the indexed element of each unmasked lane, the higher lane winning (R156, R157); KSEL puts
the kept records first, each half by token index, and writes both counts (R159, R160). The clauses are for indices inside
the stream and beats that no outstanding fetch will write. -/
def Obligations.GatherScatterAndDispatch : Prop :=
  ∀ (s : State) (g : Nat) (f : TsiFields) (e : Env),
    let c := s.core g
    let w := elemBits f.fa.toNat
    let d := e.descC
    let m := c.rm f.msk.toNat
    let base := Config.sramBytes * g + dAddr d
    let on := (List.range 16).filter fun k => bit m k
    dKind d ≠ 0 → (w = 8 ∨ w = 16 ∨ w = 32) →
    (s.Runs g 0x70 f e →
      let idx := fun k => laneIndex (c.rs (sReg f.b)) (c.rv f.a.toNat) k
      let len := if dKind d = 2 then 64 * dLen d else e.sliceData.length
      (∀ k, k ∈ on → inStream (len * 8 / w) (idx k) = true ∧
        (dKind d = 2 → e.fetchHits d ((idx k).toNat * w / 512) 1 = false)) →
      ∃ x, exec (.gath g f) s = .next (s.goesOn e (c.wv f.d.toNat x) 2) ∧
        (∀ k, k < 16 → elemAt x w k = if bit m k then
            (let o := (idx k).toNat * (w / 8)
             ofLE (if dKind d = 2 then memRead s.coll.sram (base + o) (w / 8) else slice e.sliceData o (w / 8)))
          else elemAt (c.rv f.d.toNat) w k) ∧
        ∀ k, 16 ≤ k → elemAt x w k = 0) ∧
    (s.Runs g 0x71 f e →
      let idx := fun k => laneIndex (c.rs (sReg f.d)) (c.rv f.b.toNat) k
      (∀ k, k ∈ on → inStream (64 * dLen d * 8 / w) (idx k) = true ∧ e.fetchHits d ((idx k).toNat * w / 512) 1 = false) →
      ∃ s' : State, exec (.scat g f) s = .next (s'.goesOn e c 2) ∧
        s' = { s with coll := { s.coll with sram := on.foldl (fun x k =>
          memWrite x (base + (idx k).toNat * (w / 8)) (toLE (w / 8) (elemAt (c.rv f.a.toNat) w k))) s.coll.sram } }) ∧
    (s.Runs g 0x72 f e →
      let n := (c.rs (sReg f.a)).toNat
      let cap := (c.rs (sReg f.b)).toNat
      let b := fld f.imm 15 0
      let rs := elemsAt (ofLE (memRead s.coll.sram (base + 64 * b) (16 * n))) 128 n
      64 * b + 16 * n ≤ 64 * dLen d → e.fetchHits d b (cdiv n 4) = false → fmtOk f.fa.toNat rs = true →
      let ranked := sortRecs rankBefore rs
      let drop := n - min n cap
      let out := sortRecs tokenBefore (ranked.drop drop) ++ sortRecs tokenBefore (ranked.take drop)
      exec (.ksel g f) s = .next (({ s with coll := { s.coll with
          sram := memWrite s.coll.sram (base + 64 * b) (toLE (16 * n) (packElems 128 out)) } } : State).goesOn e
        ((c.ws (sReg f.d) (BitVec.ofNat 64 (min n cap))).ws (sReg f.d + 1) (BitVec.ofNat 64 (n - min n cap)))
        (16 + cdiv n 4 * (clog2 (max n 2) + 2))))

/-- BR, BZ, BM and LOOP go on at IMM[10:0] in two cycles when taken, else at the next offset in one (R178, Table TSO-1). -/
def Obligations.Branches : Prop :=
  ∀ (s : State) (g : Nat) (f : TsiFields) (e : Env),
    let c := s.core g
    let to_ := fld f.imm 10 0
    let go := fun (x : Core) (taken : Prop) [Decidable taken] =>
      if taken then s.onward e x to_ 2 else s.onward e x (e.run.pc + 1) 1
    let a := c.rs (sReg f.a)
    (s.Runs g 0xE1 f e → exec (.br g f) s = .next (s.onward e c to_ 2)) ∧
    (s.Runs g 0xE2 f e → exec (.bz g f) s = .next (go c (if bit f.imm.toNat 11 then a ≠ 0 else a = 0))) ∧
    (s.Runs g 0xE3 f e → exec (.bm g f) s =
      .next (go c (if bit f.imm.toNat 11 then c.rm f.msk.toNat ≠ 0 else c.rm f.msk.toNat = 0))) ∧
    (s.Runs g 0xE4 f e → exec (.loop g f) s = .next (go (c.ws (sReg f.a) (a - 1)) (a - 1 ≠ 0)))

/-- EMIT, EMSC, EMITA and XCENC hand their bytes to the output assembly of the chunk's record, or issue a WRITE for a
MEMWR descriptor (R165, R166, R170, R174) unless a residue failure withholds it (R89, R128); with no room in the assembly
an emit instruction waits and has no effect (R177). -/
def Obligations.EmitInstructions : Prop :=
  ∀ (s : State) (g : Nat) (f : TsiFields) (e : Env) (r : Rec),
    let c := s.core g
    let d := e.descC
    let cd := f.c.toNat
    let w := elemBits (dFmt d)
    let n := fld f.imm 18 16 + 1
    let at_ := (c.rs (sReg f.b)).toNat + fld f.imm 15 0
    let b := at_ * w / 512
    let puts := fun (off : Nat) (bs : List Byte) =>
      (s.putRunRec e (r.putAsm ((r.asm cd).put off bs).1)).pumpOutputs e.cenv e.run.ctx.inst
    let k := (c.rs (sReg f.b)).toNat
    let xs := (List.range 16).map fun i => xcEnc (c.rx (xReg f.a) i)
    let bytes := xs.flatten
    let padded := bytes ++ zeros (roundUp bytes.length 64 - bytes.length)
    let cost := 4 + 2 * (xs.filter fun x => decide (x.length = 48)).length
    dKind d ≠ 0 → s.runRec e = some r →
    (∀ i : Instr, i ∈ [Instr.emit g f, .emita g f, .emsc g f, .xcenc g f] →
      ∀ op, op = (match i with | .emit _ _ => 0x80 | .emita _ _ => 0x81 | .emsc _ _ => 0x82 | _ => 0x33) →
      s.Runs g op f e → s.noRoom g = true → exec i s = .next (s.waitsFor e .room)) ∧
    (s.noRoom g = false →
      (s.Runs g 0x80 f e → at_ * w % 512 = 0 → b + n ≤ dLen d → dKind d ≠ 4 →
        ((r.asm cd).put (64 * b) (vBytes c f.a.toNat n)).2 = false →
        exec (.emit g f) s = .next ((puts (64 * b) (vBytes c f.a.toNat n)).flow e .next n)) ∧
      (s.Runs g 0x80 f e → at_ * w % 512 = 0 → b + n ≤ dLen d → dKind d = 4 →
        let held := r.withAll = true ∨ ∃ t ∈ r.withheld, at_ < 1024 * (t + 1) ∧ 1024 * t < at_ + n * 512 / w
        (¬held → exec (.emit g f) s = .next ((s.memwr e cd b (vBytes c f.a.toNat n)).flow e .next n)) ∧
        (held → exec (.emit g f) s = .next (s.flow e .next n))) ∧
      (s.Runs g 0x82 f e → at_ / 32 < dMxblk d →
        let off := dMxblk d * 4 * w + at_ / 32
        let bs := [BitVec.ofNat 8 (c.rs (sReg f.a)).toNat]
        ((r.asm cd).put off bs).2 = false →
        exec (.emsc g f) s = .next ((puts off bs).flow e .next 1)) ∧
      (s.Runs g 0x81 f e → e.run.kind = .final → k ≤ n * elemsOfV w →
        exec (.emita g f) s = .next ((s.segment e fun x => { x with elems := x.elems ++
          ((List.range n).flatMap fun i => elemsAt (c.rv (f.a.toNat + i)) w (elemsOfV w)).take k }).flow e .next n)) ∧
      (s.Runs g 0x33 f e → dKind d ≠ 4 → e.run.kind = .final →
        ((List.range 16).all fun i => (c.rx (xReg f.a) i).resOk) = true →
        exec (.xcenc g f) s = .next ((s.segment e fun x => { x with groups := x.groups ++ [padded] }).flow e .next cost)) ∧
      (s.Runs g 0x33 f e → dKind d = 4 → ((List.range 16).all fun i => (c.rx (xReg f.a) i).resOk) = true →
        let cur := c.wcur.at cd 0
        let s1 := if r.withAll = true then s else s.memwr e cd cur padded
        let c1 := s1.core g
        exec (.xcenc g f) s = .next ((s1.setCore g { c1 with wcur := c1.wcur.put cd (cur + padded.length / 64) }).flow e .next
          cost)))

/-- The packets that wait for room leave as it allows, and a handler that waited for room runs its emit instruction once the
output assembly has room (R177); without such a handler nothing else happens. -/
def Obligations.OutputRoomResumeRunsTheEmit : Prop :=
  ∀ (g t : Nat) (s : State), g < Config.cores →
    let s1 := drainWait (s.tick t)
    ((∀ r, (s1.core g).run = some r → r.wait ≠ .room ∨ s1.noRoom g = true) →
      exec (.outputRoomResume g t) s = .next s1) ∧
    (∀ (r : Run) (op : Nat) (f : TsiFields) (e : Env), (s1.core g).run = some r → r.wait = .room → s1.noRoom g = false →
      let s2 := s1.setRun g (some { r with wait := .none })
      s2.tsiEnv g op f = some e →
      (op = 0x80 → exec (.outputRoomResume g t) s = exec (.emit g f) s2) ∧
      (op = 0x81 → exec (.outputRoomResume g t) s = exec (.emita g f) s2) ∧
      (op = 0x82 → exec (.outputRoomResume g t) s = exec (.emsc g f) s2) ∧
      (op = 0x33 → exec (.outputRoomResume g t) s = exec (.xcenc g f) s2) ∧
      Completes (exec (.outputRoomResume g t) s))

/-- END ends the handler in one cycle once no fetch is outstanding, WAITF goes on (R97, R182); FETCH issues one READ for
each 64 beats and goes on in two cycles, and waits where an outstanding fetch writes its destination or eight are
outstanding (R180, R181); PCNT adds a scalar to a program counter of the slot, modulo 2^64 (R186); RAISE records its code
as the context's fault and stops the handler (R185). -/
def Obligations.HandlerControl : Prop :=
  ∀ (s : State) (g : Nat) (f : TsiFields) (e : Env),
    let c := s.core g
    let a := c.rs (sReg f.a)
    let b := c.rs (sReg f.b)
    let loc := fld f.d 3 0
    let n := fld f.imm 6 0
    (s.Runs g 0xE0 f e → e.run.fetches = [] → ∃ t, exec (.endHandler g f) s = .next t ∧ (t.core g).run = none ∧
      t = (s.setRun g (some (e.run.issue 0xE0 f 1))).overRun g) ∧
    (s.Runs g 0xE7 f e → e.run.fetches = [] → exec (.waitf g f) s = .next (s.goesOn e c 1)) ∧
    (s.Runs g 0xE6 f e → dKind e.descC ≠ 0 → dKind (e.desc loc) ≠ 0 → a.toNat + n ≤ dLen e.descC →
      b.toNat + n ≤ dLen (e.desc loc) →
      (e.fetchHits (e.desc loc) b.toNat n = true → exec (.fetch g f) s = .next (s.waitsFor e .landing)) ∧
      (e.fetchHits (e.desc loc) b.toNat n = false → 8 ≤ e.run.fetchCount → exec (.fetch g f) s = .next (s.waitsFor e .fetchRoom)) ∧
      (e.fetchHits (e.desc loc) b.toNat n = false → e.run.fetchCount < 8 → e.run.pc + 1 < e.prog.ninst →
      ∃ t qs, exec (.fetch g f) s = .next t ∧
        (t.core g).run = some { e.run.issue 0xE6 f 2 with pc := e.run.pc + 1, fetches := e.run.fetches ++ qs } ∧
        qs.map (fun q => (q.desc, q.beat, q.n, q.status)) =
          (if n ≤ 64 then [(loc, b.toNat, n, none)]
            else [(loc, b.toNat, 64, none), (loc, b.toNat + 64, n - 64, none)]) ∧
        (t.core g).v = c.v ∧ (t.core g).s = c.s ∧ (t.core g).m = c.m ∧ (t.core g).xs = c.xs ∧ (t.core g).xp = c.xp)) ∧
    (s.Runs g 0xF2 f e →
      let key := (e.run.ctx.slot, fld f.imm 1 0)
      exec (.pcnt g f) s = .next (({ s with coll := { s.coll with
        pcnt := s.coll.pcnt.put key (s.coll.pcnt.at key 0 + a) } } : State).goesOn e c 1)) ∧
    (s.Runs g 0xF1 f e → exec (.raise g f) s = .next (s.stopsOn e c 1 (fld f.imm 7 0)))

/-- What stops a handler at run time (Table TSI-9, R136, R151, R153, R161, R165, R180): the registers and the data SRAM
are as the rules say, the context records the status, and the handler is over. A descriptor of KIND NONE stops any
instruction that names it. -/
def Obligations.RunTimeFaultsStopTheHandler : Prop :=
  ∀ (s : State) (g : Nat) (f : TsiFields) (e : Env),
    let c := s.core g
    let n := fld f.imm 18 16 + 1
    let d := e.descC
    let a := (c.rs (sReg f.a)).toNat + fld f.imm 15 0
    let cur := c.cursor f.c.toNat
    let r := fld f.imm 19 16 + 1
    (dKind d = 0 → ∀ op i, (op, i) ∈ [(0x01, Instr.recv g f), (0x02, .ldv g f), (0x03, .stv g f), (0x04, .lds g f),
        (0x11, .xcin g f), (0x30, .rnd g f), (0x31, .cvt g f), (0x32, .mxq g f), (0x44, .vflag g f), (0x70, .gath g f),
        (0x71, .scat g f), (0x72, .ksel g f), (0x80, .emit g f), (0x81, .emita g f), (0x82, .emsc g f), (0x33, .xcenc g f),
        (0xE8, .skip g f)] → s.Runs g op f e → exec i s = .next (s.stopsOn e c 1 0x10)) ∧
    (dKind d ≠ 0 →
      (s.Runs g 0x01 f e → (c.rs 5).toNat < cur + n →
        exec (.recv g f) s = .next (s.stopsOn e ((foldRange n (fun k x => x.wv (f.d.toNat + k)
          (if cur + k < (c.rs 5).toNat then ofLE (slice e.sliceBytes (64 * (cur + k)) 64) else 0)) c).setCursor f.c.toNat
            (cur + n)) n 0x12)) ∧
      (s.Runs g 0xE8 f e → (c.rs 5).toNat < cur + a →
        exec (.skip g f) s = .next (s.stopsOn e (c.setCursor f.c.toNat (c.rs 5).toNat) 1 0x12)) ∧
      (s.Runs g 0x02 f e → dLen d < a + n →
        exec (.ldv g f) s = .next (s.stopsOn e (foldRange n (fun k x => x.wv (f.d.toNat + k) 0) c) n 0x10)) ∧
      (s.Runs g 0x03 f e → dLen d < a + n → exec (.stv g f) s = .next (s.stopsOn e c n 0x10)) ∧
      (s.Runs g 0x04 f e → dKind d = 2 → a % 8 ≠ 0 ∨ 64 * dLen d < a + 8 →
        exec (.lds g f) s = .next (s.stopsOn e (c.ws (sReg f.d) 0) 1 0x10)) ∧
      (s.Runs g 0x72 f e → 64 * dLen d < 64 * fld f.imm 15 0 + 16 * (c.rs (sReg f.a)).toNat →
        ∃ n', exec (.ksel g f) s = .next (s.stopsOn e c n' 0x10))) ∧
    (s.Runs g 0x62 f e → fmtOk f.fa.toNat (groupRecs c f.d.toNat r) = false →
      ∃ n', exec (.sort g f) s = .next (s.stopsOn e c n' 0x11)) ∧
    (s.Runs g 0x63 f e → fmtOk f.fa.toNat (groupRecs c f.a.toNat r ++ groupRecs c f.b.toNat r) = false ∨
        sortedRecs (recBefore (bit f.imm.toNat 20)) (groupRecs c f.a.toNat r) = false ∨
        sortedRecs (recBefore (bit f.imm.toNat 20)) (groupRecs c f.b.toNat r) = false →
      exec (.merge g f) s = .next (s.stopsOn e c (2 * r + 2) 0x11)) ∧
    (s.Runs g 0x65 f e → fmtOk f.fa.toNat (groupRecs c f.a.toNat 4) = false →
      exec (.unrec g f) s = .next (s.stopsOn e c 2 0x11))

/-- INIT runs once before any other handler of its context, SLICE once for each slice in the order of presentation, FINAL
once the chunk is complete and no slice of the context is left (R96, R98, R102), each with the register file of Table
TSI-2. -/
def Obligations.HandlersAreDispatched : Prop :=
  ∀ (s : State) (g slot inst chunk t : Nat) (x : Ctx) (p : Plan) (q : ProgCfg), g < Config.cores →
    let id : CtxId := ⟨slot, inst, chunk⟩
    (∀ pc, s.readyCtx g id = some (x, p, q) → q.init = some pc → x.initDone = false →
      ∃ u, exec (.initHandler g slot inst chunk) s = .next u ∧ s.Dispatched g x p q .init pc none u) ∧
    (let s1 := s.tick t
      ∀ sl rest, takeFirst (fun y : Slice => !s1.instDead g y.ctx) (s1.core g).ring = some (sl, rest) →
        s1.sliceReady g sl = true → s1.readyCtx g sl.ctx = some (x, p, q) →
        ∃ u, exec (.sliceHandler g false t) s = .next u ∧ s1.Dispatched g x p q .slice q.slice (some sl) u ∧
          (u.core g).ring = rest) ∧
    (let s1 := s.tick t
      ∀ r : Rec, s1.readyCtx g id = some (x, p, q) → (s1.chunk (clusterOf g) slot chunk).recOf inst = some r →
        x.initDone = true → x.finalStarted = false → r.st = .complete →
        ((s1.core g).ring.all fun y => decide (y.ctx ≠ id)) = true →
        ∃ u, exec (.finalHandler g slot inst chunk false t) s = .next u ∧ s1.Dispatched g x p q .final q.final none u ∧
          ((u.core g).ctx id).map (·.finalStarted) = some true)

/-- A handler that has run for more cycles than its watchdog limit stops with TIMEOUT, which its context records; one
within its limit is left alone. The cycles of a wait count unless it is for room, and so do those that the next
instruction waits for its registers. Of the faults of a context the first status stays and later ones are counted up to
65,535; no other context of the core and no other core changes (R40, R103, R114, R137, R177, R184). -/
def Obligations.WatchdogAndRecordedFaults : Prop :=
  ∀ (s : State) (g waited : Nat) (r : Run) (x : Ctx), g < Config.cores →
    (s.core g).run = some r → (s.core g).ctx r.ctx = some x →
    (∀ (p : Plan) (q : ProgCfg), s.ctxProg g x = some (p, q) →
      let n := r.spent q waited
      (r.wait = .room → n = r.cycles) ∧ (r.wait ≠ .room → r.wait ≠ .none → n = r.cycles + waited) ∧
      (r.wait = .none → r.pc < q.ninst → ∀ w, q.code[r.pc]? = some w → n = r.issueAt (fld w 63 56) (wordFields w)) ∧
      (n ≤ q.limit → exec (.watchdogTimeout g waited) s = .next s) ∧
      (s.roe.pstate = .p0 → q.limit < n →
        ∃ u, exec (.watchdogTimeout g waited) s = .next u ∧ (u.core g).run = none ∧
          u = ((s.setRun g (some { r with cycles := n })).faultAt g r.ctx 0x20).overRun g)) ∧
    (s.roe.pstate ≠ .p0 → exec (.watchdogTimeout g waited) s = .next s) ∧
    (∀ st, let u := s.recordFault g r.ctx st
      ((u.core g).ctx r.ctx).map (fun y => (y.status, y.later)) =
        some (if x.status = 0 then (st, x.later) else (x.status, min 65535 (x.later + 1))) ∧
      (∀ k, k ≠ r.ctx → (u.core g).ctx k = (s.core g).ctx k) ∧ (∀ h, h ≠ g → u.core h = s.core h) ∧
      (u.core g).run = (s.core g).run)

/-- The packets steered to a cluster, taken one at a time in their order: CONTRIB_RX takes what is neither a member's
CSTAT nor a packet of PARENT, CSTAT_MEMBER_RX a member's CSTAT, RESULT_RELAY a packet of PARENT. While the part leaves P0
each is refused with POWER_STATE; a packet whose slot the plan does not have is answered with INDEX_FAULT; one that fails
a test of R197 is refused with that test's status; one that passes has the command's own effect (R197, R219, R220, R566).
-/
def Obligations.CollectivePacketsAreDecided : Prop :=
  ∀ (s : State) (cl t : Nat) (x : Steered) (s2 : State), cl < Config.clusters →
    let s1 := s.tick t
    let kind := hKind x.pkt.hdr
    let i := hInst x.pkt.hdr
    let decided := fun (cmd : Instr) (own : CEnv → State → State) =>
      (s2.collOpen = false → exec cmd s = .next (s2.powerRefuse cl x.pkt.hdr)) ∧
      (s2.collOpen = true → s2.pktEnv cl x.pkt.hdr = none → exec cmd s = .next
        ((s2.count .unknownColl x.link 0).sendAnswer cl 2 (hPart x.pkt.hdr) (answerPkt s2 x.pkt.hdr 0x10))) ∧
      (∀ e st why, s2.collOpen = true → s2.pktEnv cl x.pkt.hdr = some e → tests13 (s2.timed e) e x.vc x.pkt = some (st, why) →
        exec cmd s = .next ((if why = .check ∧ x.bad = false then (s2.timed e).checkInt else s2.timed e).refuse e x.pkt.hdr st why)) ∧
      (∀ e, s2.collOpen = true → s2.pktEnv cl x.pkt.hdr = some e → tests13 (s2.timed e) e x.vc x.pkt = none →
        exec cmd s = .next (own e (s2.timed e)))
    (s1.takeSteered cl (fun y => decide (hKind y.pkt.hdr = 3) || (isCollKind (hKind y.pkt.hdr) &&
        decide (s1.steeredRole cl y ≠ .child ∧ s1.steeredRole cl y ≠ .relay))) = some (x, s2) →
      (kind = 3 → exec (.contribRx cl t) s = .next s2) ∧
      (kind ≠ 3 → decided (.contribRx cl t) fun e u => u.contribTests e x.pkt)) ∧
    (s1.takeSteered cl (fun y => decide (hKind y.pkt.hdr = 2 ∨ hKind y.pkt.hdr = 4) &&
        decide (s1.steeredRole cl y = .relay)) = some (x, s2) →
      decided (.resultRelay cl t) fun e u => u.relay e x.pkt) ∧
    (s1.takeSteered cl (fun y => decide (hKind y.pkt.hdr = 4) && decide (s1.steeredRole cl y = .child)) = some (x, s2) →
      decided (.cstatMemberRx cl t) fun e u =>
        let c := u.ch e
        let d := (i + 65536 - (u.curInst e.cfg e.slot c).getD i) % 65536
        if 0x8000 ≤ d ∨ c.ended.contains i = true then u.count .late e.slot e.cl
        else if d = 0 then u.fail e i (hEtag x.pkt.hdr) 0x25
          (some (missingMask (hContrib x.pkt.hdr :: (match c.recOf i with
            | none => List.range e.cfg.g | some r => r.lacking e.cfg.g))))
        else u)

/-- The ends of a chunk instance: CHUNK_TIMEOUT fails the current instance with TIMEOUT once its timer has run for the
slot's timeout (R205); CSTAT_SEND ends a failed instance after its last running handler (R207); CHUNK_OUTPUT_FLUSH hands
the results of a complete instance to the crossbar once every context has retired and every slice is handled (R168);
CHUNK_END ends it complete once they have left (R203); a sparse instance writes its fault records then (R259);
Q_PARTIAL_TIMEOUT fails a fused instance that a peer's partial did not reach in time (R236). -/
def Obligations.ChunkInstancesEnd : Prop :=
  ∀ (s : State) (cl slot inst h t : Nat) (e : CEnv) (r : Rec), cl < Config.clusters →
    let s1 := s.tick t
    let id : CtxId := ⟨slot, inst, h⟩
    (s1.chunkEnv cl slot h = some e → (∀ t0 i, (s1.ch e).timer = some t0 → s1.curInst e.cfg e.slot (s1.ch e) = some i →
        t0 + e.cfg.timeout ≤ s1.now → (s1.ch e).recOf i = some r → r.st ≠ .complete → r.failed = none →
        exec (.chunkTimeout cl slot h t) s = .next (s1.fail e i r.etag 0x20 none)) ∧
      (∀ t0, (s1.ch e).timer = some t0 → s1.now < t0 + e.cfg.timeout → exec (.chunkTimeout cl slot h t) s = .next s1)) ∧
    (s1.current cl slot inst h = some (e, r) →
      (∀ st, r.failed = some st → s1.running e inst = false →
        exec (.cstatSend cl slot inst h t) s = .next (s1.fail e inst r.etag st none)) ∧
      (r.failed = none ∨ s1.running e inst = true → exec (.cstatSend cl slot inst h t) s = .next s1) ∧
      (r.st = .complete → r.failed = none → r.flushed = false → e.cfg.fused = false → e.plainBarrier = false →
        s1.allRetired e inst = true → s1.decoded id = true → s1.drained e inst = true →
        exec (.chunkOutputFlush cl slot inst h t) s = .next (s1.flush e r)) ∧
      (r.st = .complete → r.failed = none → r.flushed = true → s1.allRetired e inst = true → s1.packetWaits e inst = false →
        exec (.chunkEnd cl slot inst h t) s = .next
          (((if e.cfg.isSparse then s1.flagWrite e r else s1).endOk e r).settled e)) ∧
      (r.st = .complete → r.failed = none → r.flushed = false → e.cfg.fused = true →
        (∃ x ∈ e.peers, (s1.ch e).parts.find (inst, x.2) = none) → r.doneT + e.cfg.timeout ≤ s1.now →
        exec (.qPartialTimeout cl slot inst h t) s = .next (s1.fail e inst r.etag 0x20 (some 0))))

/-- The bridge-set messages of a fused set: a partial of Q is kept by instance and chunk, and the result leaves once all
are held; a side abort fails the current instance, or one that is complete and waits behind it, with ABORTED and is kept
for a later one (R234, R235). -/
def Obligations.FusedSetMessages : Prop :=
  ∀ (s : State) (cl t : Nat) (m : SideMsg) (s2 : State) (e : CEnv) (i : Nat), cl < Config.clusters →
    let c := s2.ch e
    let d := (m.inst + 65536 - i) % 65536
    s2.sideEnv cl m = some e → s2.curInst e.cfg e.slot c = some i →
    (∀ p, (s.tick t).takeSide cl (fun x => x.part.isSome) = some (m, s2) → m.part = some p →
      (0x8000 ≤ d → exec (.qPartialRx cl t) s = .next s2) ∧
      (d < 0x8000 → m.inst ≠ i →
        exec (.qPartialRx cl t) s = .next (s2.setCh e { c with parts := c.parts.put (m.inst, m.chunk) p })) ∧
      (d < 0x8000 → m.inst = i → s2.curInst e.cfg e.slot { c with parts := c.parts.put (m.inst, m.chunk) p } = some i →
        exec (.qPartialRx cl t) s =
          .next (((s2.setCh e { c with parts := c.parts.put (m.inst, m.chunk) p }).fusedSend e m.inst).settled e))) ∧
    ((s.tick t).takeSide cl (fun x => x.part.isNone) = some (m, s2) →
      (0x8000 ≤ d ∨ c.ended.contains m.inst = true → exec (.sideAbortRx cl t) s = .next s2) ∧
      (d < 0x8000 → c.ended.contains m.inst = false → d = 0 ∨ (∃ r, c.recOf m.inst = some r ∧ r.st = .waiting) →
        exec (.sideAbortRx cl t) s = .next
          (s2.fail e m.inst (match c.recOf m.inst with | none => s2.activeTag | some r => r.etag) 0x25 none)) ∧
      (0 < d → d < 0x8000 → c.ended.contains m.inst = false → c.recOf m.inst = none → c.kept.contains m.inst = false →
        exec (.sideAbortRx cl t) s = .next (s2.setCh e { c with kept := c.kept ++ [m.inst] })))

/-- TBARRIER_RELEASE puts every held result whose release FT has come into the packet buffer, in order, and keeps the rest
(R246); DIRECT_ACCUMULATE adds a slice into its context's lanes without a handler (R230); SPARSE_RUN_DECODE adds the
entries of the first queued run to the record and removes it (R269). -/
def Obligations.HoldsAndDirectAccumulation : Prop :=
  ∀ (s : State),
    (∀ l t, l < Config.links →
      let s1 := s.tick t
      let k := s1.link l
      let due := fun x : Nat × Packet => decide (s1.ftSet = false ∨ x.1 ≤ s1.ftNow)
      ∃ u, exec (.tbarrierRelease l t) s = .next u ∧ (u.link l).hold = k.hold.filter (fun x => !due x) ∧
        (s1.ftSet = true → u.sw.buf.map (fun b => (b.pkt, b.vc, b.acct)) = s1.sw.buf.map (fun b => (b.pkt, b.vc, b.acct)) ++
          (k.hold.filter due).map fun x => (x.2, 1, Acct.cluster (9 * dieOfLink l)))) ∧
    (∀ g sl rest ctx e r, g < Config.cores → (s.core g).ring = sl :: rest → (s.core g).run = none →
      (s.core g).ctx sl.ctx = some ctx → s.cenv (clusterOf g) sl.ctx.slot sl.ctx.chunk ctx.etag = some e →
      e.cfg.direct = true → ctx.initDone = true → ctx.status = 0 → (s.ch e).recOf sl.ctx.inst = some r → r.failed = none →
      let c := Core.parkAll { s.core g with ring := rest }
      let ctx' := (c.ctx sl.ctx).getD ctx
      let fs := sliceAddends e.cfg sl.data
      let s2 := (s.parkOut g).setCore g (c.putCtx { ctx' with xs := addLanes ctx'.xs fs.1 })
      exec (.directAccumulate g) s = .next ((if fs.2 then s2 else s2.faultAt g sl.ctx 0x12).settled e)) ∧
    (∀ g q rest, g < Config.cores → s.coll.runs.at g [] = q :: rest →
      let s2 : State := { s with coll := { s.coll with runs := s.coll.runs.put g rest } }
      let c := s.chunk (clusterOf g) q.ctx.slot q.ctx.chunk
      (c.recOf q.ctx.inst = none → exec (.sparseRunDecode g) s = .next s2) ∧
      (∀ r e, c.recOf q.ctx.inst = some r → s.cenv (clusterOf g) q.ctx.slot q.ctx.chunk r.etag = some e →
        exec (.sparseRunDecode g) s = .next (s2.setCh e (c.putRec { r with
          sparse := q.ents.foldl (fun sp x => sp.entry e.cfg q.contrib q.tile x) r.sparse }))))

/-- One pass of admission for the first request steered to a cluster, whatever its row: message timers first; while the
part leaves P0 the request is refused with POWER_STATE; one that fails a test of Table MEM-8 is refused with that test's
status, which a live message records; one that passes has its row's own effect after the errors that its reads find, and
only a READ passes at a dense-view window (R273, R278, R292, R304, R306, R323). -/
def Obligations.MemoryRequestsAreDecided : Prop :=
  ∀ (s : State) (cl t : Nat) (ups : List (Nat × Nat)) (q : MReq) (s2 : State), cl < Config.clusters →
    let u := s2.msgTimers cl
    let h := q.hdr
    let decided := fun (cmd : Instr) (mop : Nat → Bool) (own : Target → State → State) =>
      (s.tick t).takeReq cl mop = some (q, s2) →
        (u.memOpen = false → exec cmd s = .next (u.refuseMem cl h 0x72)) ∧
        (∀ st, u.memOpen = true → memTests u q = .inl st → exec cmd s = .next
          (((if hCheck h ≠ checkOf q.pay ∧ q.bad = false then u.checkInt else u).noteMsg q st).refuseMem cl h st)) ∧
        (∀ a, u.memOpen = true → memTests u q = .inr a → exec cmd s = .next (own a (u.readErrors q a ups)))
    let region := fun (f : Nat → BitVec 256 → State → State) (a : Target) (v : State) =>
      match a with | .region e r => f e r v | .window _ _ => v
    (∀ i w, memTests u q = .inr (.window i w) → hMop h = 0) ∧
    decided (.read cl ⟨t, ups⟩) (fun m => decide (m = 0 ∨ 5 < m)) (fun a v => match a with
      | .region _ r => if reType r = 1 then v.xaccRead q r else v.plainRead q
      | .window i w => v.viewRead q i w) ∧
    decided (.write cl ⟨t, ups⟩) (fun m => decide (m = 1)) (region fun e r v =>
      let v := v.count .writes cl 0
      if reType r = 1 then (v.xaccWrite cl r (elem0 r h) q.pay).respond cl h 0 []
      else
        let x := v.dramPut cl q.addr q.pay
        x.1.settleWrite cl e r (v.changed q.addr (hMlen h)) (mrsp x.1 h (if x.2 then 0 else 0x30) (hPkt h) false none [])) ∧
    decided (.writeSignal cl ⟨t, ups⟩) (fun m => decide (m = 2)) (region fun e r v =>
      let x := (v.count .writes cl 0).dramPut cl q.addr q.data
      x.1.absorbMsg q e r x.2 (v.changed q.addr (hMlen h))) ∧
    decided (.atomic cl ⟨t, ups⟩) (fun m => decide (m = 3)) (region fun e r v =>
      let v := v.count .atomics cl 0
      let n := hMlen h
      let old := leAt (v.dramGet q.addr n) 0 n
      if v.badGran (q.addr / 64) then (v.eccUncorr cl 1).respond cl h 0x30 []
      else
        let w := (v.dramPut cl q.addr (toLE n (atomicOp (hAop h) n old (leAt q.pay 0 8) (leAt q.pay 8 8)))).1
        w.settleWrite cl e r [q.addr / 64] (mrsp w h 0 (hPkt h) false none (toLE 8 old))) ∧
    decided (.accum cl ⟨t, ups⟩) (fun m => decide (m = 4)) (region fun _ r v =>
      let x := (v.count .accums cl 0).accumulate cl r (elem0 r h) (accumAddends (hFmt h) q.data)
      x.1.respond cl h (if x.2 then 0 else 0x30) []) ∧
    decided (.accumSignal cl ⟨t, ups⟩) (fun m => decide (m = 5)) (region fun e r v =>
      let x := (v.count .accums cl 0).accumulate cl r (elem0 r h) (accumAddends (hFmt h) q.data)
      x.1.absorbMsg q e r x.2 [])

/-- What an absorbed change does to the DRAM, when no granule it touches fails its check: a WRITE outside an XACC region
leaves its data at its address, an ATOMIC its new value (Table MEM-6), an ACCUM of FP32 values each lane with its value
added exactly; every byte outside those is unchanged, and so are the data SRAMs, the fuses and the queue (R289, R307,
R310). -/
def Obligations.MemoryChangesTheNamedBytesOnly : Prop :=
  ∀ (s : State) (cl t : Nat) (ups : List (Nat × Nat)) (q : MReq) (s2 : State) (e : Nat) (r : BitVec 256), cl < Config.clusters →
    Memory.wf s.mem.dram = true →
    let u := s2.msgTimers cl
    let v0 := u.readErrors q (.region e r) ups
    let n := hMlen q.hdr
    let m := s.mem.dram
    let others := fun v : State => v.pending = s.pending ∧ v.fuse = s.fuse ∧ v.coll.sram = s.coll.sram
    let outside := fun (v : State) (a k : Nat) => ∀ b, b < a ∨ a + k ≤ b → memGet v.mem.dram b = memGet m b
    u.memOpen = true → memTests u q = .inr (.region e r) →
    ((s.tick t).takeReq cl (fun x => decide (x = 1)) = some (q, s2) → reType r ≠ 1 → v0.badIn q.addr n = [] →
      ∃ v, exec (.write cl ⟨t, ups⟩) s = .next v ∧ memRead v.mem.dram q.addr n = q.pay ∧ outside v q.addr n ∧ others v) ∧
    ((s.tick t).takeReq cl (fun x => decide (x = 3)) = some (q, s2) → v0.badGran (q.addr / 64) = false →
      let old := leAt (memRead m q.addr n) 0 n
      let x := leAt q.pay 0 n
      let new := match hAop q.hdr with
        | 0 => (old + x) % 2 ^ (8 * n)
        | 1 => if old = x then leAt q.pay 8 n else old
        | 2 => x
        | 3 => if sext (8 * n) old < sext (8 * n) x then x else old
        | 4 => if sext (8 * n) x < sext (8 * n) old then x else old
        | 5 => max old x
        | _ => min old x
      ∃ v, exec (.atomic cl ⟨t, ups⟩) s = .next v ∧ memRead v.mem.dram q.addr n = toLE n new ∧ outside v q.addr n ∧ others v) ∧
    ((s.tick t).takeReq cl (fun x => decide (x = 4)) = some (q, s2) → hFmt q.hdr = 0 →
      let g0 := rePbase r + elem0 r q.hdr
      (∀ k, k < n / 4 → v0.badGran (g0 + k) = false) →
      ∃ v, exec (.accum cl ⟨t, ups⟩) s = .next v ∧
        (∀ k, k < n / 4 → memRead v.mem.dram (64 * (g0 + k)) 64 =
          laneBytes ((laneOf (memRead m (64 * (g0 + k)) 64)).add wXS (elemVal 0 (leAt q.pay (4 * k) 4)))) ∧
        outside v (64 * g0) (64 * (n / 4)) ∧ others v)

/-- A message's signal is applied once, after every packet of it has been absorbed: until then, and for ever when one of
its packets failed, only the packet's data is written; when the count is complete before the deadline the signal word
takes SOP with SVAL and the message has ended; when the word's granule fails its check the message ends failed with
CHECK_FAIL (R303, R304). Shown for a WRITE_SIGNAL or ACCUM_SIGNAL absorbed in a region without a buddy. -/
def Obligations.SignalsFollowTheirData : Prop :=
  ∀ (s : State) (cl t : Nat) (ups : List (Nat × Nat)) (q : MReq) (s2 : State) (e : Nat) (r : BitVec 256) (cmd : Instr)
    (x : State × Bool), cl < Config.clusters → Memory.wf s.mem.dram = true → rePrimary r = false →
    let u := s2.msgTimers cl
    let v0 := u.readErrors q (.region e r) ups
    let h := q.hdr
    u.memOpen = true → memTests u q = .inr (.region e r) →
    ((cmd = .writeSignal cl ⟨t, ups⟩ ∧ (s.tick t).takeReq cl (fun m => decide (m = 2)) = some (q, s2) ∧
        x = (v0.count .writes cl 0).dramPut cl q.addr q.data) ∨
     (cmd = .accumSignal cl ⟨t, ups⟩ ∧ (s.tick t).takeReq cl (fun m => decide (m = 5)) = some (q, s2) ∧
        x = (v0.count .accums cl 0).accumulate cl r (elem0 r h) (accumAddends (hFmt h) q.data))) →
    let v := x.1
    let m := (v.msgOf cl (hSrc h) (hTag h)).getD
      { cl := cl, src := hSrc h, tag := hTag h, lead := q.pay.take 16, since := v.now, sigto := reSigto r, entry := e, hdr := h }
    let m' := { m with got := m.got ++ [hPkt h], count := if hLast h then some (hCount h) else m.count }
    let a := leadAddr m.lead
    (x.2 = false → exec cmd s = .next ((v.putMsg { m with fail := some (m.fail.getD 0x30) }).sendRsp cl
      (mrsp v h 0x30 (hPkt h) false none []))) ∧
    (x.2 = true → m'.full = false ∨ m.fail ≠ none → exec cmd s = .next ((v.putMsg m').sendRsp cl
      (mrsp v h 0 (hPkt h) false none []))) ∧
    (x.2 = true → m'.full = true → m.fail = none → m.mirrors = 0 → v.now < m.since + m.sigto → (v.mem.mirrors.any fun w => w.grans.contains (a / 64)) = false →
      (v.badGran (a / 64) = true → ∃ w, exec cmd s = .next w ∧ w.mem.dram = v.mem.dram ∧
        ((w.msgOf cl (hSrc h) (hTag h)).bind (·.ended)) = some v.now) ∧
      (v.badGran (a / 64) = false → ∃ w, exec cmd s = .next w ∧ ((w.msgOf cl (hSrc h) (hTag h)).bind (·.ended)) = some v.now ∧
        memRead w.mem.dram a 8 = toLE 8 (if leadOp m.lead = 1 then leadVal m.lead
          else leAt (memRead v.mem.dram a 8) 0 8 + leadVal m.lead) ∧
        ∀ b, b < a ∨ a + 8 ≤ b → memGet w.mem.dram b = memGet v.mem.dram b))

/-- The end of a message that was not applied and the hold of its entry; the answers to mirror writes: OK within MIRTO
lets the response go, anything else, or none within MIRTO, puts the region into SOLO and answers MIRROR_FAIL (R304, R305,
R315, R316). -/
def Obligations.MessageTimersAndMirrorAnswers : Prop :=
  ∀ (s : State) (cl src tag t : Nat), cl < Config.clusters →
    let s1 := s.tick t
    (∀ m, s1.msgOf cl src tag = some m →
      (m.ended = none → m.since + m.sigto ≤ s1.now → exec (.messageTimeout cl src tag t) s = .next
        (let u := match m.held with | none => s1 | some p => s1.sendRsp m.cl p
         let v := u.putMsg { m with ended := some s1.now, held := none }
         (v.sendRsp m.cl (mrsp v m.hdr (m.fail.getD 0x65) 0 true none [])).count .msgFailed m.cl 0)) ∧
      (m.ended ≠ none ∨ s1.now < m.since + m.sigto → exec (.messageTimeout cl src tag t) s = .next s1) ∧
      (∀ f, m.ended = some f → f + m.sigto ≤ s1.now → ∃ v, exec (.messageEntryFree cl src tag t) s = .next v ∧
        v.msgOf cl src tag = none ∧ v.keep = s.keep ∧
        ∀ cl' src' tag', (cl', src', tag') ≠ (cl, src, tag) → v.msgOf cl' src' tag' = s1.msgOf cl' src' tag') ∧
      (∀ f, m.ended = some f → s1.now < f + m.sigto → exec (.messageEntryFree cl src tag t) s = .next s1)) ∧
    (∀ x s2 w, s1.takeMem cl (fun y => decide (hKind y.pkt.hdr = 6) && (s1.mirrorOf cl (hTag y.pkt.hdr)).isSome) = some (x, s2) →
      s2.mirrorOf cl (hTag x.pkt.hdr) = some w →
      let u := s2.msgTimers cl
      let due := w.sentAt + reMirto (u.regionEnt w.entry)
      (answerOf x.pkt = 0 → u.now < due → exec (.mirrorResponse cl t) s = .next (u.mirrorOk w)) ∧
      (answerOf x.pkt ≠ 0 ∨ due ≤ u.now → exec (.mirrorResponse cl t) s = .next (u.mirrorFail w))) ∧
    (∀ w, s1.mirrorOf cl tag = some w →
      (w.sentAt + reMirto (s1.regionEnt w.entry) ≤ s1.now → exec (.mirrorTimeout cl tag t) s = .next (s1.mirrorFail w) ∧
        ((s1.mirrorFail w).reg w.entry).solo = true ∧
        ((∀ m ∈ s1.mem.msgs, m.held = none) → (s1.mirrorFail w).mirrorOf cl tag = none)) ∧
      (s1.now < w.sentAt + reMirto (s1.regionEnt w.entry) → exec (.mirrorTimeout cl tag t) s = .next s1))

/-- The steps of the snapshot commands and the patrol scrub: a take ends with the region SEALED and its digest, or
CHECK_FAIL; a restore writes what it reads and fails with FETCH_FAIL at a read that fails; an export goes on with each
write answered OK and ends with a free one of the defined codes at one refused; either waits before it resends what was
answered BUSY; a granule that the scrub cannot read fails from then on (R10, R202, R280, R318, R319, R321; log entry 23
for the refused export). -/
def Obligations.SnapshotStepsAndScrub : Prop :=
  ∀ (s : State) (e t : Nat),
    let s1 := s.tick t
    (∀ o, s1.snapOn e = some o → o.req.op = 0x0600 → s1.ftSet = true → o.arg ≤ s1.ftNow → s1.mpServes = true →
      s1.answersDue e (s1.regionEnt e) = false →
      let r := s1.regionEnt e
      let u := s1.setReg e { s1.reg e with sealed := true, sealAt := none }
      (s1.regionBad r 0 = false → exec (.snapshotTakeDone e t) s = .next (u.endSnap o 0 (s1.regionDigest r))) ∧
      (s1.regionBad r 0 = true → exec (.snapshotTakeDone e t) s = .next ((u.eccUncorr (servingCluster (reBase r)) 1).endSnap o 0x30 0))) ∧
    (∀ x s2 o w, s1.takeMp (fun y => decide (hKind y.pkt.hdr = 6) && (s1.snapTag 0x0601 (hTag y.pkt.hdr)).isSome) = some (x, s2) →
      s2.mpServes = true → hCheck x.pkt.hdr = checkOf x.pkt.payload → s2.snapTag 0x0601 (hTag x.pkt.hdr) = some o →
      (o.reads.find? fun y => decide (y.tag = hTag x.pkt.hdr)) = some w →
      let r := s2.regionEnt o.entry
      (hStatus x.pkt.hdr = 0x24 → exec (.snapshotRestoreReadResp t) s =
        .next (s2.setSnap { o with reads := busyRead o.reads w.tag s2.now })) ∧
      (hStatus x.pkt.hdr = 0 → x.pkt.payload.length = w.len → exec (.snapshotRestoreReadResp t) s = .next
        ((s2.dramPut (servingCluster (reBase r)) (64 * reBase r + w.off) x.pkt.payload).1.restorePump
          { o with reads := dropRead o.reads w.tag, done := o.done + w.len / 64 })) ∧
      (hStatus x.pkt.hdr ≠ 0x24 → hStatus x.pkt.hdr ≠ 0 ∨ x.pkt.payload.length ≠ w.len → exec (.snapshotRestoreReadResp t) s = .next
        ((s2.setReg o.entry { s2.reg o.entry with sealed := true, phase := .snapBad }).endSnap o 0x74 0))) ∧
    (∀ x s2 o w, s1.takeMp (fun y => decide (hKind y.pkt.hdr = 6) && (s1.snapTag 0x0602 (hTag y.pkt.hdr)).isSome) = some (x, s2) →
      s2.mpServes = true → hCheck x.pkt.hdr = checkOf x.pkt.payload → s2.snapTag 0x0602 (hTag x.pkt.hdr) = some o →
      (o.reads.find? fun y => decide (y.tag = hTag x.pkt.hdr)) = some w →
      (hStatus x.pkt.hdr = 0x24 → exec (.exportWriteResponse t) s =
        .next (s2.setSnap { o with reads := busyRead o.reads w.tag s2.now })) ∧
      (hStatus x.pkt.hdr = 0 → exec (.exportWriteResponse t) s = .next
        (s2.exportPump { o with reads := dropRead o.reads w.tag })) ∧
      (hStatus x.pkt.hdr ≠ 0x24 → hStatus x.pkt.hdr ≠ 0 → ∃ st ∈ definedCodes, exec (.exportWriteResponse t) s =
        .next (({ s2 with free := s2.free + 1 } : State).endSnap o st 0))) ∧
    (∀ g upset, g < 4 * Config.dieGranules →
      (s.badGran g = true → exec (.patrolScrub g upset) s = .next (s.eccUncorr (servingCluster g) 1)) ∧
      (s.badGran g = false → upset = 0 → exec (.patrolScrub g upset) s = .next s) ∧
      (s.badGran g = false → upset = 1 → exec (.patrolScrub g upset) s = .next (s.count .eccCorr (servingCluster g) 0)) ∧
      (s.badGran g = false → 2 ≤ upset → ∃ v, exec (.patrolScrub g upset) s = .next v ∧ v.badGran g = true ∧ v.keep = s.keep))

/-- The answers to a cluster's own requests: a FETCH that succeeds stores its data in the input region of its stream and
its entry records the status, a WRITE's context records its status, and either is resent after 10 ms, at most four times,
and then counts as answered with TIMEOUT (R174, R182, R618). -/
def Obligations.CoreRequestsAreAnswered : Prop :=
  ∀ (s : State) (cl tag t : Nat), cl < Config.clusters →
    let s1 := s.tick t
    (∀ x s2 g r q, s1.takeMem cl (fun y => decide (hKind y.pkt.hdr = 6) && (s1.mirrorOf cl (hTag y.pkt.hdr)).isNone &&
        (s1.wrOf cl (hTag y.pkt.hdr)).isNone) = some (x, s2) → s2.fetchOf cl (hTag x.pkt.hdr) = some (g, r, q) →
      (answerOf x.pkt = 0 → x.pkt.payload.length = 64 * q.n → exec (.fetchResponse cl t) s = .next (s2.landFetch g r q 0 x.pkt.payload)) ∧
      (answerOf x.pkt = 0 → x.pkt.payload.length ≠ 64 * q.n →
        exec (.fetchResponse cl t) s = .next (s2.landFetch g r q 0x30 x.pkt.payload)) ∧
      (answerOf x.pkt ≠ 0 → exec (.fetchResponse cl t) s = .next (s2.landFetch g r q (answerOf x.pkt) x.pkt.payload))) ∧
    (∀ x s2 g c q, s1.takeMem cl (fun y => decide (hKind y.pkt.hdr = 6) && (s1.wrOf cl (hTag y.pkt.hdr)).isSome) = some (x, s2) →
      s2.wrOf cl (hTag x.pkt.hdr) = some (g, c, q) → exec (.memwrResponse cl t) s = .next (s2.landWrite g c q (answerOf x.pkt))) ∧
    (∀ g r q, s1.fetchOf cl tag = some (g, r, q) →
      (s1.now < q.sentAt + 10000000 → exec (.requestResend cl tag t) s = .next s1) ∧
      (q.sentAt + 10000000 ≤ s1.now → 4 ≤ q.resends → exec (.requestResend cl tag t) s = .next (s1.landFetch g r q 0x20 [])) ∧
      (q.sentAt + 10000000 ≤ s1.now → q.resends < 4 →
        let again := fun x : CoreReq => ({ x with sentAt := s1.now, resends := x.resends + 1 } : CoreReq)
        let fs := modWhere (fun x : CoreReq => decide (x.tag = tag) && x.status.isNone) again r.fetches
        exec (.requestResend cl tag t) s = .next
          ((s1.setRun g (some { r with fetches := fs })).fromCluster cl 3 (s1.slotPart r.ctx.slot) q.pkt))) ∧
    (∀ g x q, s1.fetchOf cl tag = none → s1.wrOf cl tag = some (g, x, q) →
      (q.sentAt + 10000000 ≤ s1.now → 4 ≤ q.resends → exec (.requestResend cl tag t) s = .next (s1.landWrite g x q 0x20)))

/-- The training of a link, state by state: detect leads to EQUALISE; EQUALISE and FEC_LOCK go on with the lane set of
R352 or, with no such set or with more than 64 ns of skew, DOWN with TRAIN_FAIL; the time limits of FEC_LOCK, DISCOVER and
INIT lead DOWN with TRAIN_FAIL; a DOWN link starts again after 1 s, and HELLO is repeated every 10 µs in DISCOVER and
RETRAIN, with a TSYNC while the loop is unmeasured (R327, R349, R352, R359). -/
def Obligations.LinksTrainStateByState : Prop :=
  ∀ (s : State) (l good t : Nat), l < Config.links →
    let s1 := s.tick t
    let k := s1.link l
    let full := s1.fullLanes l
    let judged := fun (cmd : Instr) (g : Nat) (next : LState) =>
      (chooseSet full 8 (g &&& full) = none → exec cmd s = .next (s1.linkDown l 0x51)) ∧
      (∀ set, chooseSet full 8 (g &&& full) = some set → ∃ v, exec cmd s = .next v ∧ (v.link l).st = next ∧ (v.link l).lanes = set ∧
        (v.link l).good = g &&& full ∧ (v.link l).since = s1.now ∧ ∀ j, j ≠ l → v.link j = s1.link j)
    let same := fun cmd : Instr => exec cmd s = .next s1
    (k.st = .signal → ∃ v, exec (.signalDetect l t) s = .next v ∧ (v.link l).st = .equalise ∧ ∀ j, j ≠ l → v.link j = s1.link j) ∧
    (k.st = .equalise → judged (.equaliseDone l good t) good .fecLock) ∧
    (k.st = .equalise → k.since + 20000000 ≤ s1.now → judged (.equaliseTimeout l good t) good .fecLock) ∧
    (k.st = .fecLock → ∀ skew, (64 < skew → exec (.fecLockDone l ⟨good, skew⟩ t) s = .next (s1.linkDown l 0x51)) ∧
      (skew ≤ 64 → judged (.fecLockDone l ⟨good, skew⟩ t) (good &&& k.good) .discover)) ∧
    (∀ x ∈ [(LState.fecLock, 1000000, Instr.fecLockTimeout l t), (.discover, 1000000, .discoverTimeout l t),
        (.init, 100000, .initTimeout l t)], k.st = x.1 →
      (k.since + x.2.1 ≤ s1.now → exec x.2.2 s = .next (s1.linkDown l 0x51)) ∧ (s1.now < k.since + x.2.1 → same x.2.2)) ∧
    (k.st = .down → k.since + 1000000000 ≤ s1.now → s1.roe.c6 = false → exec (.linkRestart l t) s = .next (s1.startLink l) ∧
      (s1.roe.laser.contains (engineOf l) = false → ((s1.startLink l).link l).st = .signal ∧ ((s1.startLink l).link l).good = 0)) ∧
    (k.st = .discover ∨ k.st = .retrain → k.helloAt + 10000 ≤ s1.now →
      (k.looped = true ∨ k.st = .retrain → exec (.helloRepeat l t) s = .next
        (s1.setLink l { k with uctl := k.uctl ++ [s1.helloFlit l], helloAt := s1.now })) ∧
      (k.looped = false → k.st = .discover → ∃ v, exec (.helloRepeat l t) s = .next v ∧
        (v.link l).uctl = k.uctl ++ [s1.helloFlit l, 0x20] ∧ (v.link l).helloAt = s1.now ∧ (v.link l).tsAt = s1.now ∧
        ∀ j, j ≠ l → v.link j = s1.link j)) ∧
    (k.st ≠ .discover → k.st ≠ .retrain → same (.helloRepeat l t)) ∧
    (k.st ≠ .signal → same (.signalDetect l t)) ∧ (k.st ≠ .equalise → same (.equaliseDone l good t)) ∧
    (k.st ≠ .fecLock → ∀ skew, same (.fecLockDone l ⟨good, skew⟩ t)) ∧ (k.st ≠ .down → same (.linkRestart l t))

/-- A link in STOPPING aborts the packets still in progress after 10 µs, and enters DISABLED once nothing is in progress
and every block is acknowledged or T_REPLAY has passed since its last new block; a link that goes DOWN forgets its replay
buffer and its credits (R358, R359). -/
def Obligations.LinksStopAndGoDown : Prop :=
  ∀ (s : State) (l t : Nat), l < Config.links →
    let s1 := s.tick t
    let k := s1.link l
    (k.st = .stopping →
      (k.since + 10000 ≤ s1.now → exec (.stoppingAbortTimeout l t) s = .next ((List.range 8).foldl (fun u v => u.abortChan l v) s1)) ∧
      (s1.now < k.since + 10000 → exec (.stoppingAbortTimeout l t) s = .next s1) ∧
      (s1.linkIdle l = true → k.held = [] ∨ (k.held.foldl (fun n h => max n h.at_) k.since) + max 2000 (k.loop + 1000) ≤ s1.now →
        exec (.stoppingDone l t) s = .next (s1.linkOff l)) ∧
      (s1.linkIdle l = false → exec (.stoppingDone l t) s = .next s1)) ∧
    (k.st ≠ .stopping → exec (.stoppingDone l t) s = .next s1) ∧
    (∀ cause, ((s1.linkDown l cause).link l).st = .down ∧ ((s1.linkDown l cause).link l).cause = cause ∧
      ((s1.linkDown l cause).link l).held = [] ∧ ((s1.linkDown l cause).link l).cred = []) ∧
    (k.fn.queued = none → k.restart = false → ((s1.linkOff l).link l).st = .disabled ∧ ((s1.linkOff l).link l).held = [])

/-- A receiver accepts a good block in sequence and answers any other by asking for replay once: a bad one uses nothing of
its trailer, a sequenced one behind is a counted duplicate, and in WAIT every block but the expected one is discarded; the
codewords the FEC decoders report are counted first, also in RETRAIN, which takes no block (R332, R334, R337, R348, R364).
-/
def Obligations.ReceiverReplayStates : Prop :=
  ∀ (s : State) (l t : Nat) (b : Block) (fec : FecReport), l < Config.links →
    let s1 := s.tick t
    let k := s1.link l
    let takes := fun st : LState => st = .discover ∨ st = .init ∨ st = .up ∨ st = .stopping
    let bad : Prop := fec.bad = true ∨ blockGood b = false
    let u := s1.fecNote l fec
    let n := u.count .badBlocks l 0
    let kn := n.link l
    let a := ((u.ackRx l (fld b.trailer 59 46) (bit b.trailer.toNat 94)).creditRx l (fld b.trailer 62 60) (fld b.trailer 66 63)
      (fld b.trailer 76 67)).creditRx l (fld b.trailer 79 77) (fld b.trailer 83 80) (fld b.trailer 93 84)
    let ka := a.link l
    let q := fld b.trailer 45 32
    let ahead := (q + 16384 - ka.rxExp) % 16384
    (takes k.st →
      (bad → takes kn.st → kn.rxWait = true → exec (.blockRx l b fec t) s = .next n) ∧
      (bad → takes kn.st → kn.rxWait = false → exec (.blockRx l b fec t) s = .next
        (n.setLink l { kn with nak := true, rxWait := true, nakAt := n.now })) ∧
      (fec.bad = false → blockGood b = true → takes (u.link l).st →
        (q = ka.rxExp → blockSeqd b = true → exec (.blockRx l b fec t) s = .next
          (((a.setLink l { ka with rxExp := (q + 1) % 16384, rxWait := false }).count .blocksRx l 0).passFlits l t b)) ∧
        (q = ka.rxExp → blockSeqd b = false → exec (.blockRx l b fec t) s = .next (a.passFlits l t b)) ∧
        (q ≠ ka.rxExp → blockSeqd b = true → 8192 ≤ ahead → exec (.blockRx l b fec t) s = .next (a.count .dupBlocks l 0)) ∧
        (q ≠ ka.rxExp → blockSeqd b = false ∨ ahead < 8192 →
          (ka.rxWait = true → exec (.blockRx l b fec t) s = .next a) ∧
          (ka.rxWait = false → exec (.blockRx l b fec t) s = .next
            (a.setLink l { ka with nak := true, rxWait := true, nakAt := a.now }))))) ∧
    (k.st = .retrain →
      (bad → (n.link l).st = .retrain → exec (.blockRx l b fec t) s = .next n) ∧
      (fec.bad = false → blockGood b = true → (u.link l).st = .retrain → exec (.blockRx l b fec t) s = .next u)) ∧
    (¬ takes k.st → k.st ≠ .retrain → exec (.blockRx l b fec t) s = .next s1)

/-- The sender's side of replay: T_REPLAY without progress resends from the oldest held block, the ninth replay goes to
RETRAIN (a link in STOPPING replays again), a block unacknowledged for 2 ms takes the link DOWN, a retrained link whose
partner is the same resends and is UP again, another partner, no lane set or more than 64 ns of skew takes it DOWN; a
resent block goes before any new one, a full buffer sends empty blocks only, and a header parity error ends the front
packet of its channel before the block is made (R345, R347, R348, R350, R359, R392, R486). -/
def Obligations.SenderReplayStates : Prop :=
  ∀ (s : State) (l t : Nat), l < Config.links →
    let s1 := s.tick t
    let k := s1.link l
    let tReplay := max 2000 (k.loop + 1000)
    let traffic := k.st = .up ∨ k.st = .stopping
    let count := if k.replay = 0 ∨ k.replayAt < k.ackAt then 1 else k.replay + 1
    (traffic → k.held ≠ [] → k.progressAt + tReplay ≤ s1.now →
      (count < 9 ∨ k.st = .stopping → exec (.replayTimeout l t) s = .next
        ((s1.setLink l { k with resend := k.held, replay := count, replayAt := s1.now }).count .replays l 0)) ∧
      (9 ≤ count → k.st = .up → exec (.replayTimeout l t) s = .next (s1.enterRetrain l 0x55 true))) ∧
    (k.held = [] ∨ s1.now < k.progressAt + tReplay → exec (.replayTimeout l t) s = .next s1) ∧
    (k.live = true → k.rxWait = true → k.nakAt + tReplay ≤ s1.now → exec (.nakRepeat l t) s = .next
      (s1.setLink l { k with nak := true, rxWait := true, nakAt := s1.now })) ∧
    (∀ h rest, k.st = .up ∨ k.st = .retrain → k.held = h :: rest →
      (h.at_ + 2000000 ≤ s1.now → exec (.replayAgeTimeout l t) s = .next (s1.linkDown l 0x55)) ∧
      (s1.now < h.at_ + 2000000 → exec (.replayAgeTimeout l t) s = .next s1)) ∧
    (k.st = .retrain → ∀ good skew ack,
      let g := good &&& k.good
      let lanes := if k.lanes &&& g = k.lanes then some k.lanes else chooseSet (s1.fullLanes l) (popcount 8 k.lanes) g
      let same := fun h old : BitVec 512 => fld h 183 120 = fld old 183 120 ∧ fld h 63 32 = fld old 63 32
      (64 < skew → ∀ hello, exec (.retrainDone l ⟨good, skew, hello⟩ ack t) s = .next (s1.linkDown l 0x51)) ∧
      (skew ≤ 64 →
        (∀ set h old, lanes = some set → k.hello = some old → same h old → k.readySent = true → k.ready.isSome = true →
          let u := (s1.setLink l { k with good := g, lanes := set, unit := 0, hello := some h }).ackRx l (ack % 16384) false
          let ku := u.link l
          exec (.retrainDone l ⟨good, skew, some h⟩ ack t) s = .next
            ((((u.setLink l { ku with resend := ku.held, replay := if ku.held = [] then 0 else 1, replayAt := u.now }).toState l .up
              (if ku.lanes = u.fullLanes l then 0 else 0x57))).linkEvent l)) ∧
        (∀ h old, k.hello = some old → ¬ same h old →
          exec (.retrainDone l ⟨good, skew, some h⟩ ack t) s = .next (s1.linkDown l 0x50)) ∧
        (lanes = none → ∀ hello, exec (.retrainDone l ⟨good, skew, hello⟩ ack t) s = .next (s1.linkDown l 0x50)) ∧
        exec (.retrainDone l ⟨good, skew, none⟩ ack t) s = .next (s1.linkDown l 0x50))) ∧
    (k.st ≠ .retrain → ∀ good skew hello ack, exec (.retrainDone l ⟨good, skew, hello⟩ ack t) s = .next s1) ∧
    (traffic → ∀ h rest, k.resend = h :: rest → exec (.blockTx l none t) s = .next (drainWait (s1.sendOld l h rest))) ∧
    (traffic → k.resend = [] → k.uctl = [] → s1.replayCap l ≤ k.held.length →
      exec (.blockTx l none t) s = .next (drainWait (s1.sendBlock l [] 0 false none))) ∧
    (traffic → ∀ v, v < 8 → exec (.blockTx l (some v) t) s = .next (drainWait ((s1.headerParity l v).blockTx l))) ∧
    (∀ parity, k.live = false → exec (.blockTx l parity t) s = .next s1)

/-- Degrade: a lane fails by 1 µs without signal, lost lock, or more than 2 symbol errors in 10,000; it leaves the good
set and asks the partner for a narrower one, or takes the link DOWN when no set of R352 is left; the request is repeated
every 1 µs and gives way to RETRAIN after 100 µs (R349, R351, R352, R353). -/
def Obligations.FailedLanesDegradeALink : Prop :=
  ∀ (s : State) (l t : Nat), l < Config.links →
    let s1 := s.tick t
    let k := s1.link l
    let ask := fun (u : State) (first : Nat) => u.setLink l { u.link l with
      degrade := some (first, u.now), uctl := (u.link l).uctl ++ [degradeWord (u.link l).good false 0 0] }
    let fails := fun why : LaneWhy => match why with
      | .signal ns => 1000 ≤ ns
      | .lock => True
      | .errors errs symbols => symbols < 5000 * errs
    (∀ lane why, k.live = true → bit k.good lane = true → fails why →
      let good := k.good - (k.good &&& 2 ^ lane)
      let u := s1.setLink l { k with good := good }
      (bit k.lanes lane = false ∨ k.st = .stopping ∨ k.st = .retrain → exec (.laneFail l ⟨lane, why⟩ t) s = .next u) ∧
      (bit k.lanes lane = true → k.st ≠ .stopping → k.st ≠ .retrain →
        (chooseSet (s1.fullLanes l) (popcount 8 k.lanes) good = none → exec (.laneFail l ⟨lane, why⟩ t) s = .next (u.linkDown l 0x50)) ∧
        (∀ set, chooseSet (s1.fullLanes l) (popcount 8 k.lanes) good = some set →
          exec (.laneFail l ⟨lane, why⟩ t) s = .next (ask u (match k.degrade with | none => s1.now | some x => x.1))))) ∧
    (∀ lane why, bit k.good lane = false ∨ ¬ fails why → exec (.laneFail l ⟨lane, why⟩ t) s = .next s1) ∧
    (∀ x, k.degrade = some x →
      (x.2 + 1000 ≤ s1.now → s1.now < x.1 + 100000 → exec (.degradeRepeat l t) s = .next (ask s1 x.1)) ∧
      (s1.now < x.2 + 1000 → exec (.degradeRepeat l t) s = .next s1) ∧
      (x.1 + 100000 ≤ s1.now → exec (.degradeTimeout l t) s = .next (s1.enterRetrain l 0x57 true)) ∧
      (s1.now < x.1 + 100000 → exec (.degradeTimeout l t) s = .next s1))

/-- What a link sends and watches on its own: TSYNC every 16 µs while UP, the DIGEST word at each millisecond on every UP
link and over the Trail, DIGEST_MISSING after two silent heartbeats, and NBR_MISSING when an expected neighbour is not at
INIT 1 s after PORT_ENABLE (R401, R452, R472, R473). -/
def Obligations.LinkHeartbeats : Prop :=
  ∀ (s : State) (l t : Nat),
    let s1 := s.tick t
    let k := s1.link l
    (l < Config.links →
      (k.st = .up → k.tsAt + 16000 ≤ s1.now → exec (.tsyncSend l t) s = .next
        (s1.setLink l { k with uctl := k.uctl ++ [0x20], tsAt := s1.now }).trailTsyncTick) ∧
      (k.st ≠ .up ∨ s1.now < k.tsAt + 16000 → exec (.tsyncSend l t) s = .next s1.trailTsyncTick) ∧
      (k.st = .up → k.disc = .used → max k.since (k.digAt.getD 0) + 2000000 ≤ s1.now → exec (.digestMissing l t) s = .next
        (((s1.setLink l { k with digAt := some s1.now, digCmp := 4, digLasting := false }).count .digestMissing l 0).event 0x42 0 l
          (s1.linkParts l))) ∧
      (k.st ≠ .up ∨ k.disc ≠ .used → exec (.digestMissing l t) s = .next s1) ∧
      (∀ a r, k.awaited = some a → s1.newest = some r → a + 1000000000 ≤ s1.now → fld (r.nbr l) 39 32 ≠ 0xFF →
        exec (.neighbourMissingTimeout l t) s = .next ((s1.setLink l { k with awaited := none }).setDisc l .missing)) ∧
      (k.awaited = none → exec (.neighbourMissingTimeout l t) s = .next s1)) ∧
    (s1.ftNow / 1000000 = s1.mp.digAt / 1000000 → exec (.digestHeartbeat t) s = .next s1) ∧
    (s1.ftNow / 1000000 ≠ s1.mp.digAt / 1000000 → ∃ v, exec (.digestHeartbeat t) s = .next v ∧ v.mp.digAt = s1.ftNow ∧
      v.keep = s.keep ∧ v.links = (((s1.links.filter fun p => decide (p.2.st = .up)).map (·.1)).foldl (fun u j =>
        u.setLink j { u.link j with uctl := (u.link j).uctl ++ [BitVec.ofNat 512 s1.digestWord.toNat] }) s1).links)

/-- A packet entering the switch: a whole one that waits is looked up; the head of one still being received goes on by
cut-through when the lookup gives ports alone, and is gathered for a unit of the part, or for the hold of a TBARRIER
result bound for an endpoint link, otherwise; one whose header shows a parity error is dropped and counted (R22, R246,
R382, R413, R486). -/
def Obligations.IngressLooksPacketsUp : Prop :=
  ∀ (s : State) (l v t : Nat), l < Config.links → v < 8 →
    let s1 := s.tick t
    let k := s1.link l
    let first := takeFirst (fun x : Nat × Packet => decide (x.1 = v)) k.rxq
    (∀ x rest, first = some (x, rest) → exec (.packetIngress l v false t) s = .next
      ((s1.setLink l { k with rxq := rest }).ingressWhole l v x.2 true)) ∧
    (∀ p, first = none → k.rx.find v = some p → p.mode = .waits → p.flits ≠ [] →
      let bs := p.flits.flatMap fun f => toLE 64 f.toNat
      let h := BitVec.ofNat 256 (ofLE (bs.take 32))
      let mode := fun (u : State) (m : RxMode) => u.setLink l { u.link l with rx := (u.link l).rx.put v { p with mode := m } }
      let free := fun u : State => u.freeCredits l v (u.poolOn l v h) p.flits.length
      let a := arrive s1 (.link l) v p.total p.flits.length { hdr := h, payload := (bs.drop 32).take (hLen h) } false
      let hits := s1.ingressHits l v h
      let through := hits.all (fun x => x.isPort || x.isDrop) && !s1.holdsWhole l v h hits
      (through = true →
        (∀ id, a.2 = some id → exec (.packetIngress l v false t) s = .next (mode a.1 (.through id))) ∧
        (a.2 = none → exec (.packetIngress l v false t) s = .next (mode (free a.1) .drop))) ∧
      (through = false →
        exec (.packetIngress l v false t) s = .next (mode (free s1) .gather))) ∧
    (∀ x rest, first = some (x, rest) → exec (.packetIngress l v true t) s = .next
      ((s1.setLink l { k with rxq := rest }).parityDrop l v (flitsOf x.2.payload.length) x.2.hdr)) ∧
    (∀ p, first = none → k.rx.find v = some p → p.mode = .waits → p.flits ≠ [] → exec (.packetIngress l v true t) s = .next
      ((s1.setLink l { k with rx := k.rx.put v { p with mode := .drop } }).parityDrop l v p.flits.length
        (BitVec.ofNat 256 (p.flits.headD 0).toNat))) ∧
    (∀ parity, first = none → k.rx.find v = none → exec (.packetIngress l v parity t) s = .next s1)

/-- One selection on a channel: a link in STOPPING keeps what is in progress, one that is not UP or RETRAIN, or whose
neighbour is not the planned one, gives its packets up, a VC that the partner's READY left out is dropped, and otherwise
the channel takes its next packet; the hold limit cuts an owner with nothing to move, with LINK_DOWN when its tail has yet
to come over a link that retrains and else HOLD_CUT (the cause is the model's choice, log entry 34), a request beyond
STARVEUS is counted and reported once, and a packet whose head is still inside 7 ms after it was accepted is dropped
(R344, R392, R401, R418, R424, R425, R435). -/
def Obligations.ChannelsSelectAndLimit : Prop :=
  ∀ (s : State) (l v t : Nat), l < Config.links → v < 8 →
    let s1 := s.tick t
    let k := s1.link l
    let c := s1.chan l v
    let carries := k.st = .up ∨ k.st = .retrain
    (k.st = .stopping → exec (.outputArbitration l v t) s = .next (drainWait (s1.flushLink l true))) ∧
    (k.st ≠ .stopping → ¬carries ∨ k.disc ≠ .used → exec (.outputArbitration l v t) s = .next (drainWait (s1.flushLink l false))) ∧
    (carries → k.disc = .used → bit (k.ready.getD 0) v = false →
      exec (.outputArbitration l v t) s = .next (drainWait (s1.dropVc l v))) ∧
    (carries → k.disc = .used → bit (k.ready.getD 0) v = true →
      exec (.outputArbitration l v t) s = .next (drainWait (fillPre l v 300 (s1.arbitrate l v)))) ∧
    (∀ o cycles, c.owner = some o →
      let cause := match s1.bufOf o.1 with
        | none => 0x54
        | some b => match b.acct with
          | .link i _ => if b.got < b.flits ∧ (s1.link i).st = .retrain then 0x50 else 0x54
          | _ => 0x54
      let u := (s1.endCopy o.1 o.2 (some cause)).count .holdCuts l 0
      (s1.holdUs l * 1100 ≤ cycles → c.pre.length < preCap v → s1.leftToMove o ≠ 0 →
        exec (.holdCut l v cycles t) s = .next (drainWait
          ((((u.event 0x30 0 (l + v <<< 16) (u.linkParts l)).health hHoldCut 1)).arbitrate l v))) ∧
      (cycles < s1.holdUs l * 1100 → exec (.holdCut l v cycles t) s = .next s1)) ∧
    (∀ cycles, c.owner = none → exec (.holdCut l v cycles t) s = .next s1) ∧
    (∀ id b i cp, s1.bufOf id = some b →
      (b.copies.findIdx? fun x => decide (x.link = l ∧ x.vc = v) && !x.started) = some i → b.copies[i]? = some cp →
      ((s1.requests l v).any fun r => decide (r.id = id)) = true →
      let u := (s1.setBufPkt b (b.modCopy i fun x => { x with starved := true })).count .starveEvents l v
      (∀ a, cp.since = some a → a + s1.starveNs l < s1.now → cp.starved = false →
        ((u.chan l v).starve = true → exec (.starve l v id t) s = .next u) ∧
        ((u.chan l v).starve = false → exec (.starve l v id t) s = .next
          ((u.setChan l v { u.chan l v with starve := true }).event 0x31 0 (l + v <<< 16)
            ((u.setChan l v { u.chan l v with starve := true }).linkParts l)))) ∧
      ((∀ a, cp.since = some a → s1.now ≤ a + s1.starveNs l) ∨ cp.starved = true → exec (.starve l v id t) s = .next s1)) ∧
    (∀ id b cp, s1.bufOf id = some b → b.copies = [cp] → cp.moved = 0 → (∀ x ∈ s1.sw.chans, ∀ f ∈ x.2.pre, f.id ≠ id) →
      (b.at_ + 7000000 ≤ s1.now → exec (.packetAgeTimeout id t) s = .next
        (drainWait ((s1.endCopy id 0 none).count .aged b.acct.idx 0))) ∧
      (s1.now < b.at_ + 7000000 → exec (.packetAgeTimeout id t) s = .next (drainWait s1)))

/-- The switch's clocked work: a superseded routing set goes when its time is over; shapers refill once in each 256 ns,
never above their burst; a committed gate list takes over at its TAKEOVER; a die copies every up-link depth; a congestion
map is taken at each interval while telemetry runs and sent on VC7 (R386, R389, R430, R431, R434, R439). -/
def Obligations.SwitchClockedWork : Prop :=
  ∀ (s : State) (t : Nat),
    let s1 := s.tick t
    (exec (.routeSetDiscard t) s = .next { s1 with plans := { s1.plans with
      routes := s1.plans.routes.filter fun h => match h.until_ with | none => true | some u => decide (s1.now < u) } }) ∧
    (s1.ftNow / 256 = s1.sw.refillAt / 256 → exec (.shaperRefill t) s = .next s1) ∧
    (s1.ftNow / 256 ≠ s1.sw.refillAt / 256 → ∃ v, exec (.shaperRefill t) s = .next v ∧ v.sw.refillAt = s1.ftNow ∧ v.keep = s.keep ∧
      v.links = s1.links ∧ v.sw.buf = s1.sw.buf) ∧
    (∀ l v n e, shEn e = true →
      let old := s1.shaper l v
      let x := ((s1.refill l v n e).chan l v).tokens
      (shEn old = true → x = some (min (shBurst e : Int) ((s1.chan l v).tokens.getD (shBurst old) + n * shRate e))) ∧
      (shEn old = false → x = some (shBurst e : Int))) ∧
    (∀ l g, l < Config.links → s1.sw.gateNext.find l = some g → s1.ftSet = true →
      (fld g.1 63 0 ≤ s1.ftNow → ∃ v, exec (.gateTakeover l t) s = .next v ∧ v.sw.gateNext = s1.sw.gateNext.drop l ∧
        v.keep = s.keep ∧ ((gateRun (fld g.1 63 0) g).ents ≠ [] → v.sw.gates.find l = some (gateRun (fld g.1 63 0) g))) ∧
      (s1.ftNow < fld g.1 63 0 → exec (.gateTakeover l t) s = .next s1)) ∧
    (∀ d r, d < 4 → s.newest = some r → ∃ v, exec (.quRefresh d) s = .next v ∧ v.keep = s.keep ∧ v.links = s.links ∧
      ∀ u vc, u < 32 → vc < 8 → v.sw.q.at (d, u, vc) 0 = s.voq (r.upLink u) vc) ∧
    (let u := drainWait s1
     let tel := u.mp.telem
     let step := tel.interval * 1000
     let ft := u.ftNow / step * step
     (tel.fn.st = .stopping → u.sw.wait.any isCmap = false → exec (.cmapTake t) s = .next u.telemOff) ∧
     (tel.fn.st ≠ .stopping → tel.dest = none → exec (.cmapTake t) s = .next u) ∧
     (∀ dst, tel.dest = some dst → tel.fn.st = .on → tel.fn.start = none → u.mp.running = true → step ≤ u.ftNow →
       (∀ a, tel.at_ = some a → u.ftNow / step ≠ a / step) → u.sw.wait.any isCmap = false →
       exec (.cmapTake t) s = .next
         ((({ u with mp := { u.mp with telem := { tel with seq := (tel.seq + 1) % 2 ^ 32, at_ := some u.ftNow } } }).fromMp 7 tel.part
           (mkPkt (mkHdr [⟨31, 0, dst⟩, ⟨99, 96, 8⟩]) (u.cmap ft))).count .cmapSent 0 0)))

/-- Fabric time falls into HOLDOVER after 100 µs without a usable TSYNC and into UNSET after 1 s there; an open digest
entry closes as PARTIAL after twice its slot's timeout; a C4 or C5 error is reported and fences every partition in its
reach; the health debt loses one 128th every 60 s (R454, R468, R489, R513). -/
def Obligations.TimeErrorAndHealthTimers : Prop :=
  ∀ (s : State) (t : Nat),
    let s1 := s.tick t
    let debt := s1.mp.debt
    (s1.time.st = .acquire ∨ s1.time.st = .locked →
      (s1.time.usable + 100000 ≤ s1.now → ∃ v, exec (.holdoverEntry t) s = .next v ∧ v.time.st = .holdover ∧
        v.time.holdAt = s1.now ∧ v.time.remove = 0 ∧ v.time.freq = s1.time.freq ∧ v.keep = s.keep) ∧
      (s1.now < s1.time.usable + 100000 → exec (.holdoverEntry t) s = .next s1)) ∧
    (s1.time.st = .holdover →
      (s1.time.holdAt + 1000000000 ≤ s1.now → ∃ v, exec (.holdoverExpiry t) s = .next v ∧ v.time.st = .unset ∧
        v.time.depth = 0xFF ∧ v.keep = s.keep) ∧
      (s1.now < s1.time.holdAt + 1000000000 → exec (.holdoverExpiry t) s = .next s1)) ∧
    (∀ slot inst o c, (s1.coll.open_.find? fun x : OpenDigest => decide (x.slot = slot ∧ x.inst = inst)) = some o →
      ((s1.planOfSlot slot).bind fun p => p.slot slot) = some c →
      (o.since + 2 * c.timeout ≤ s1.now → exec (.digestEntryTimeout slot inst t) s = .next (s1.closeDigest o true)) ∧
      (s1.now < o.since + 2 * c.timeout → exec (.digestEntryTimeout slot inst t) s = .next s1)) ∧
    (∀ u, unitOk u = true → ∃ v, exec (.unitError u t) s = .next v ∧ (∀ p ∈ s1.reach u, (v.part p).fenced = true) ∧ v.keep = s.keep) ∧
    (s1.mp.running = true → s1.ftNow / 60000000000 ≠ s1.mp.decayed → exec (.healthDecay t) s = .next
      { s1 with mp := { s1.mp with debt := debt - (debt + 127) / 128, decayed := s1.ftNow / 60000000000 } }) ∧
    (s1.ftNow / 60000000000 = s1.mp.decayed → exec (.healthDecay t) s = .next s1)

/-- What Fawn mode does by the clock: shadowing begins and the start completes at the activation FT; the mode ends with
TIMEOUT when no image is whole within 1 s or a read or the query stays unanswered after four resends; the notice is
repeated every 100 ms; without PIN the next target follows after DWELL; an entry without its pair is a SKIP after CMPTO;
and a stop ends when the final notice applies and nothing waits to be compared (R494, R495, R500, R515, R559, Table
RES-5). -/
def Obligations.ShadowModeByTheClock : Prop :=
  ∀ (s : State) (t : Nat),
    let s1 := s.tick t
    let f := s1.fawn
    let on := f.fn.st = .starting ∨ f.fn.st = .on
    s1.mpServes = true →
    (∀ a p, on → f.plan = some p → f.live = false → s1.ftSet = true → f.act = some a →
      let u := { s1 with fawn := { f with live := true, since := s1.now, fn := { f.fn with st := .on, start := none } } }
      (a ≤ s1.ftNow → (∀ r, f.fn.start = some r → exec (.shadowActivation t) s = .next (u.complete r 0 0)) ∧
        (f.fn.start = none → exec (.shadowActivation t) s = .next u)) ∧
      (s1.ftNow < a → exec (.shadowActivation t) s = .next s1)) ∧
    (s1.fetchingShadow = true →
      (f.since + 1000000000 ≤ s1.now → exec (.shadowImageTimeout t) s = .next (s1.fawnOff 0x20)) ∧
      (s1.now < f.since + 1000000000 → exec (.shadowImageTimeout t) s = .next s1) ∧
      (∀ off r, (f.reads.find? fun x : BulkRead => decide (x.off = off)) = some r →
        (s1.now < r.sentAt + 10000000 → exec (.planReadResend off t) s = .next s1) ∧
        (r.sentAt + 10000000 ≤ s1.now → 4 ≤ r.resends → exec (.planReadResend off t) s = .next (s1.fawnOff 0x20)) ∧
        (r.sentAt + 10000000 ≤ s1.now → r.resends < 4 →
          let again := fun x : BulkRead => ({ x with sentAt := s1.now, resends := x.resends + 1 } : BulkRead)
          let rs := modWhere (fun x : BulkRead => decide (x.off = off)) again f.reads
          exec (.planReadResend off t) s = .next (({ s1 with fawn := { f with reads := rs } }).planReadSend r.off r.len)))) ∧
    (∀ p q x, f.fn.st = .on → f.noticeAt + 100000000 ≤ s1.now → f.target = some p → f.notice = some (x, q) →
      (p = q ∨ f.live = false ∨ s1.promoting = true → exec (.shadowNotice t) s = .next s1.sendNotice) ∧
      (p ≠ q → f.live = true → s1.promoting = false → exec (.shadowNotice t) s = .next (s1.announce (s1.ftNow + 1000000) p))) ∧
    (∀ p, f.target = some p → f.fn.st = .on → f.live = true → s1.promoting = false →
      (f.pin = false → f.since + s1.shDwell ≤ s1.now →
        exec (.shadowRotate t) s = .next (s1.beginTarget (nextPlane s1.shPlanes p))) ∧
      (f.pin = true ∨ s1.now < f.since + s1.shDwell → exec (.shadowRotate t) s = .next s1)) ∧
    (∀ cid inst pe, let late := fun x : CmpEntry => decide (entryKey x.ent = (cid, inst, pe) ∧ x.at_ + s1.cmpto ≤ s1.now)
      f.cmp.any late = true → exec (.shadowCompareTimeout cid inst pe t) s = .next
        (({ s1 with fawn := { f with cmp := f.cmp.filter fun x => !late x } }).countN .shadowSkip 0 0 (f.cmp.filter late).length)) ∧
    (∀ n at_ a p, f.query = some (n, at_) → f.act = some a → f.target = some p → on →
      (f.fusedAll.all fun k => decide (f.fused.length < k)) = true → a + 10000000 ≤ s1.ftNow → at_ + 10000000 ≤ s1.now →
      (n < 4 → exec (.fusedQueryResend t) s = .next
        (({ s1 with fawn := { f with query := some (n + 1, s1.now) } }).sendImage p 0x30 0 0 0 8 (toLE 8 a))) ∧
      (4 ≤ n → exec (.fusedQueryResend t) s = .next (s1.fawnOff 0x20))) ∧
    (f.fn.st = .stopping →
      ((f.finalAt.all fun x => decide (x ≤ s1.ftNow)) = true → f.cmp = [] → exec (.shadowStopped t) s = .next (s1.fawnOff 0x25)) ∧
      (f.cmp ≠ [] → exec (.shadowStopped t) s = .next s1))

/-- A staged plan becomes the active one in three steps: it is complete when every unit holds it, the arm point 500 µs
before the commit FT checks that it is staged, and at the commit FT the MP installs it; a read answered BUSY waits 1 µs,
and twice as long after each further BUSY up to 64 µs, before it is sent again; one that fails or stays unanswered after
four resends ends the stage with FETCH_FAIL; the overlap ends at its FT (R32, R296, R519, R520, R521, R547). DENIED for a
promotion plan that PLAN_COMMIT armed is the model's choice (log entry 25). -/
def Obligations.PlansAreStagedArmedAndCommitted : Prop :=
  ∀ (s : State) (t : Nat),
    let s1 := s.tick t
    let pl := s1.plans
    (∀ a, pl.arm = some a → a.passed = false → s1.mpServes = true → s1.ftSet = true →
      (a.c ≤ s1.ftNow + 500000 →
        (∀ p, pl.staged = some p → p.pepoch = a.pepoch → pl.stage = none → a.promote = false → s1.promotionStaged = true →
          exec (.armPoint t) s = .next (s1.disarm a 0x43)) ∧
        (∀ p, pl.staged = some p → p.pepoch = a.pepoch → pl.stage = none → a.promote = true ∨ s1.promotionStaged = false →
          (s1.routeBusy p a.c = false →
            exec (.armPoint t) s = .next { s1 with plans := { pl with arm := some { a with passed := true } } }) ∧
          (s1.routeBusy p a.c = true → exec (.armPoint t) s = .next (s1.disarm a 0x24))) ∧
        (pl.staged = none → exec (.armPoint t) s = .next (s1.disarm a 0x41)) ∧
        (∀ p, pl.staged = some p → p.pepoch ≠ a.pepoch ∨ pl.stage ≠ none → exec (.armPoint t) s = .next (s1.disarm a 0x41))) ∧
      (s1.ftNow + 500000 < a.c → exec (.armPoint t) s = .next s1)) ∧
    (∀ a p, pl.arm = some a → a.passed = true → pl.staged = some p → s1.ftSet = true → a.promote = false →
      (s1.mpServes = false → exec (.commit t) s = .next s1) ∧
      (a.c ≤ s1.ftNow → s1.mpServes = true → ∃ v, exec (.commit t) s = .next v ∧ v = (s1.install p a.c (some a.o) false).complete a.req 0 0 ∧
        v.plans.active = some p ∧ v.plans.staged = none ∧ v.plans.arm = none ∧
        v.plans.prev = some (pl.active, s1.now - (s1.ftNow - a.c) + a.o)) ∧
      (s1.ftNow < a.c → exec (.commit t) s = .next s1)) ∧
    (∀ p fin, pl.prev = some (p, fin) →
      (fin ≤ s1.now → exec (.overlapEnd t) s = .next
        ({ s1 with plans := { pl with prev := none, old := p.toList ++ pl.old } }).pruneOld) ∧
      (s1.now < fin → exec (.overlapEnd t) s = .next s1)) ∧
    (∀ g, pl.stage = some g →
      (∀ p, g.plan = some p → s1.mpServes = true → exec (.stageComplete t) s = .next
        (({ s1 with plans := { pl with staged := some p, stage := none } }).complete g.req 0 0)) ∧
      (g.plan = none → exec (.stageComplete t) s = .next s1) ∧
      (∀ tag r, (g.reads.find? fun x => decide (x.tag = tag)) = some r → s1.mpServes = true → r.held = false →
        r.sentAt + 10000000 ≤ s1.now →
        (r.resends < 4 → exec (.stageReadResend tag t) s = .next
          ((s1.setStage (some { g with reads := againRead g.reads tag s1.now true })).mpRead 0 g.src r)) ∧
        (4 ≤ r.resends → exec (.stageReadResend tag t) s = .next ((s1.setStage none).complete g.req 0x74 0))) ∧
      (∀ tag r, (g.reads.find? fun x => decide (x.tag = tag)) = some r → s1.mpServes = true → r.held = true →
        let waited := fun x : BulkRead => x.held && decide (x.sentAt + x.wait ≤ s1.now)
        let again := fun x : BulkRead => ({ x with sentAt := s1.now, held := false } : BulkRead)
        exec (.stageReadResend tag t) s = .next ((g.reads.filter waited).foldl (fun u x => u.mpRead 0 g.src x)
          (s1.setStage (some { g with reads := modWhere waited again g.reads })))) ∧
      (∀ x s2 r, s1.takeMp (fun y => decide (hKind y.pkt.hdr = 6) && (g.reads.map fun r : BulkRead => r.tag).contains (hTag y.pkt.hdr)) =
          some (x, s2) → s2.mpServes = true → hCheck x.pkt.hdr = checkOf x.pkt.payload → s2.plans.stage = some g →
        (g.reads.find? fun y => decide (y.tag = hTag x.pkt.hdr)) = some r →
        (hStatus x.pkt.hdr = 0x24 →
          let wait := if r.wait = 0 then 1000 else min 64000 (2 * r.wait)
          ∃ rs, exec (.stageReadResponse t) s = .next (s2.setStage (some { g with reads := rs })) ∧
            (rs.find? fun y => decide (y.tag = r.tag)) = some { r with sentAt := s2.now, held := true, wait := wait }) ∧
        (hStatus x.pkt.hdr = 0 → x.pkt.payload.length = r.len → exec (.stageReadResponse t) s = .next
          (s2.setStage (some { g with reads := dropRead g.reads r.tag, got := g.got ++ [(r.off, x.pkt.payload)] })).stagePump) ∧
        (hStatus x.pkt.hdr ≠ 0x24 → hStatus x.pkt.hdr ≠ 0 ∨ x.pkt.payload.length ≠ r.len →
          exec (.stageReadResponse t) s = .next ((s2.setStage none).complete g.req 0x74 0))))

/-- A takeover commits the promotion plan at its FT and begins the restore of the mirrored regions; each READ that is
answered OK lands in its region, which serves once the last granule has landed; one without an answer is sent again after
10 ms; a READ that fails, 100 ms without one, or a buddy in bypass, makes the regions LOST and fences their partitions
(R507, R508, R511, R558). -/
def Obligations.TakeoverRestoresMirroredRegions : Prop :=
  ∀ (s : State) (t : Nat),
    let s1 := s.tick t
    (∀ a p, s1.plans.arm = some a → a.passed = true → s1.plans.staged = some p → s1.ftSet = true → a.promote = true →
      (s1.mpServes = false → exec (.takeover t) s = .next s1) ∧
      (a.c ≤ s1.ftNow → s1.mpServes = true → exec (.takeover t) s = .next ((s1.install p a.c (some a.o) true).afterTakeover p a)) ∧
      (s1.ftNow < a.c → exec (.takeover t) s = .next s1)) ∧
    (∀ x s2 e w next landed, s1.takeMp (fun y => decide (hKind y.pkt.hdr = 6) && (s1.restoreRead (hTag y.pkt.hdr)).isSome) =
        some (x, s2) → hCheck x.pkt.hdr = checkOf x.pkt.payload → s2.restoreRead (hTag x.pkt.hdr) = some (e, w) →
      let r := s2.regionEnt e
      let u := (s2.dramPut (servingCluster (reBase r)) (64 * reBase r + w.off) x.pkt.payload).1
      let u' := { u with mem := { u.mem with restore := u.mem.restore.filter fun y : Nat × BulkRead => !decide (y.2.tag = w.tag) } }
      let n := landed + w.len / 64
      (hStatus x.pkt.hdr = 0 → x.pkt.payload.length = w.len → (u.reg e).phase = .restoring next landed →
        (reLen r ≤ n → exec (.restoreReadResponse t) s = .next ((u'.setReg e {}).promoteDone 0 0)) ∧
        (n < reLen r → exec (.restoreReadResponse t) s = .next
          ((u'.setReg e { u'.reg e with phase := .restoring next n }).restoreNext e))) ∧
      (hStatus x.pkt.hdr ≠ 0 ∨ x.pkt.payload.length ≠ w.len → exec (.restoreReadResponse t) s = .next s2.buddyFail)) ∧
    (∀ tag e w, s1.restoreRead tag = some (e, w) →
      let again := fun y : Nat × BulkRead => (y.1, { y.2 with sentAt := s1.now, resends := y.2.resends + 1 })
      let rs := modWhere (fun y : Nat × BulkRead => decide (y.2.tag = tag)) again s1.mem.restore
      let r := s1.regionEnt e
      (w.sentAt + 10000000 ≤ s1.now → exec (.restoreReadResend tag t) s = .next
        (({ s1 with mem := { s1.mem with restore := rs } }).mpRead (rePart r) (reBuddy r <<< 32 + reBbase r) w)) ∧
      (s1.now < w.sentAt + 10000000 → exec (.restoreReadResend tag t) s = .next s1)) ∧
    let gone := ∃ e d, (e, d) ∈ s1.mem.regs ∧ d.restores = true ∧
      (s1.member (cPlane (reBuddy (s1.regionEnt e)))).present = false
    let late := ∃ w ∈ s1.mem.restore, w.2.first + 100000000 ≤ s1.now
    (late ∨ gone → (s1.mem.regs.any fun x : Nat × RegDyn => x.2.restores) = true →
      ∃ v, exec (.buddyTimeout t) s = .next v ∧ v = s1.buddyFail ∧ v.mem.restore = [] ∧
        ∀ e, (∃ d, (e, d) ∈ s1.mem.regs ∧ d.restores = true) → (v.reg e).phase = .lost)

/-- The lifecycle of partitions and clusters ends its transitions: a start completes with OK and the function is ON; a
partition stops once its endpoint links are DISABLED and forgets its fence, a cluster once its cores hold no context, and
a start queued behind the stop follows (R104, R490, R515, R516, R517). -/
def Obligations.LifecycleTransitionsEnd : Prop :=
  ∀ (s : State) (i t : Nat),
    let s1 := s.tick t
    let x := s1.part i
    let f := s1.clusterFn i
    s1.mpServes = true →
    (i < 64 →
      (x.fn.st = .starting →
        let u := s1.setPart i { x with fn := { x.fn with st := .on, start := none } }
        (∀ r, x.fn.start = some r → exec (.partStarted i t) s = .next (u.complete r 0 0)) ∧
        (x.fn.start = none → exec (.partStarted i t) s = .next u)) ∧
      (x.fn.st ≠ .starting → exec (.partStarted i t) s = .next s1) ∧
      (x.fn.st = .stopping → s1.endpointsOff i = true → exec (.partStopped i t) s = .next (s1.partOff i) ∧
        (x.fn.queued = none → (s1.partOff i).part i = {})) ∧
      (x.fn.st ≠ .stopping ∨ s1.endpointsOff i = false → exec (.partStopped i t) s = .next s1)) ∧
    (i < Config.clusters →
      (f.st = .starting →
        let u := s1.setCluster i { st := .on }
        (∀ r, f.start = some r → exec (.clusterStarted i t) s = .next (u.complete r 0 0)) ∧
        (f.start = none → exec (.clusterStarted i t) s = .next u)) ∧
      (f.st ≠ .starting → exec (.clusterStarted i t) s = .next s1) ∧
      (f.st = .stopping → s1.clusterIdle i = true →
        let u := f.stops.foldl (fun v r => v.complete r 0 0) (s1.setCluster i { st := .off })
        (f.queued = none → exec (.clusterStopped i t) s = .next u) ∧
        (∀ r a, f.queued = some (r, a) → exec (.clusterStopped i t) s = .next
          (u.setCluster i { st := .starting, start := some r }))) ∧
      (f.st ≠ .stopping ∨ s1.clusterIdle i = false → exec (.clusterStopped i t) s = .next s1))

/-- An MBWR or MBRD for the MP is refused with DENIED, BUSY or LENGTH_FAULT, in this order, and writes nothing; an MBWR
that is not refused writes its payload, and triggers the request when it covers byte 0: the held response is sent again
when OPCODE and SEQ are those it holds, and else the request waits for its decision; an MBRD is answered with the bytes
(R527, R529, R530, R532). -/
def Obligations.MailboxPacketsAreAnswered : Prop :=
  ∀ (s : State) (t : Nat) (x : Steered) (s2 : State),
    let h := x.pkt.hdr
    let m := hMbx h
    let a := hAoff h
    let d := x.pkt.payload
    let b := s2.box m
    let right := bit (s2.rights m) (s2.srcClass x.link) = true ∧ (m = 0 ∨ b.part = some (hPart h))
    s2.mpServes = true → hCheck h = checkOf d →
    ((s.tick t).takeMp (fun y => decide (hKind y.pkt.hdr = 0xA)) = some (x, s2) →
      (¬right → exec (.mbwr t) s = .next (s2.mbdata h m a 0x43 [])) ∧
      (right → b.busy = true → exec (.mbwr t) s = .next (s2.mbdata h m a 0x24 [])) ∧
      (right → b.busy = false → d.length % 8 ≠ 0 ∨ 4096 < a + d.length → exec (.mbwr t) s = .next (s2.mbdata h m a 0x12 [])) ∧
      (right → b.busy = false → d.length % 8 = 0 → a + d.length ≤ 4096 →
        let b' := { b with req := memWrite b.req a d }
        let u := s2.setBox m b'
        (a ≠ 0 → exec (.mbwr t) s = .next u) ∧
        (a = 0 → d ≠ [] → memRead b'.req 0 4 = memRead b.rsp 0 4 → exec (.mbwr t) s = .next (u.sendHeld m (some h))) ∧
        (a = 0 → d ≠ [] → memRead b'.req 0 4 ≠ memRead b.rsp 0 4 → s2.mp.triggers = [] → knownOps.contains b'.reqOp = true →
          exec (.mbwr t) s = .next { (u.setBox m { b' with busy := true, from_ := some h }) with
            mp := { (u.setBox m { b' with busy := true, from_ := some h }).mp with triggers := [m] } }))) ∧
    ((s.tick t).takeMp (fun y => decide (hKind y.pkt.hdr = 0xB)) = some (x, s2) →
      (¬right → exec (.mbrd t) s = .next (s2.mbdata h m a 0x43 [])) ∧
      (right → b.busy = true → exec (.mbrd t) s = .next (s2.mbdata h m a 0x24 [])) ∧
      (right → b.busy = false → 4096 < a + hRlen h → exec (.mbrd t) s = .next (s2.mbdata h m a 0x12 [])) ∧
      (right → b.busy = false → a + hRlen h ≤ 4096 →
        exec (.mbrd t) s = .next (s2.mbdata h m a 0 (memRead b.rsp a (hRlen h)))))

/-- Each command of Table MGT-5, given by the request at the head of the trigger order, is refused with ARG_FAULT, DENIED,
NO_PLAN or POWER_STATE by its code's rule, and otherwise decided; its response carries the STATUS, DEFER and body, the
mailbox is IDLE and the request leaves the order. A command that is not at the head waits (R531, R533, R534, R536, R540).
-/
def Obligations.MailboxCommandsAreDecidedInOrder : Prop :=
  ∀ (s : State) (m t : Nat) (x : Instr × CmdRule × (Call → State → Verdict)), m < 8 → x ∈ mailboxRows m t →
    let s1 := s.tick t
    let b := s1.box m
    let k := x.2.1
    let c : Call := { req := { mbx := m, seq := b.reqSeq, op := k.op }, part := if m = 0 then none else b.part,
                      args := memRead b.req 8 b.reqAlen }
    let answer := fun v : Verdict => exec x.1 s = .next (settleHead 8 (v.st.respondMbx m v.status v.defer v.body))
    let refuse := fun status : Nat => answer { st := s1, status := status }
    let light := s1.roe.pstate = .p1 ∨ s1.roe.pstate = .s1
    (s1.mpServes = true → s1.mp.triggers.head? = some m → b.reqOp = k.op →
      (b.reqAlen ≠ k.alen → refuse 0x71) ∧
      (b.reqAlen = k.alen → m ≠ 0 → k.admin = true ∨ b.part = none → refuse 0x43) ∧
      (b.reqAlen = k.alen → m = 0 ∨ (k.admin = false ∧ b.part ≠ none) →
        (s1.plans.active = none → k.noPlan = false → refuse 0x75) ∧
        (s1.plans.active ≠ none ∨ k.noPlan = true →
          (k.p0 = true → light → refuse 0x72) ∧ (k.p0 = false ∨ ¬light → answer (x.2.2 c s1))))) ∧
    (s1.mpServes = false ∨ s1.mp.triggers.head? ≠ some m ∨ b.reqOp ≠ k.op → exec x.1 s = .next s1)

/-- What the commands for clusters, ports and partitions decide by the state of the function (Table RES-8): an enable
starts it from OFF, changes nothing while it starts or is on, and is queued while it stops; a disable changes nothing when
it is OFF and completes deferred otherwise (R516, R517, R525). -/
def Obligations.EnablesAndDisablesFollowTableRES8 : Prop :=
  ∀ (s : State) (c : Call),
    let cl := c.arg 0 0
    let f := s.clusterFn cl
    let l := c.arg 1 0
    let k := s.link l
    let p := c.arg 0 0
    let mb := c.arg 1 1
    let y := s.part p
    let v := clusterEnable c s
    let w := portEnable c s
    let z := partCreate c s
    (Config.clusters ≤ cl → v.status = 0x71 ∧ v.st = s) ∧
    (cl < Config.clusters →
      (f.st = .off → v.status = 0 ∧ v.defer = true ∧ v.st = s.setCluster cl { st := .starting, start := some c.req }) ∧
      (f.st = .starting ∨ f.st = .on → v.status = 0 ∧ v.defer = false ∧ v.st = s) ∧
      (f.st = .stopping → v.status = 0x42 ∧ (v.st.clusterFn cl).queued = some (c.req, [])) ∧
      (f.st = .off → (s.plans.active.any fun p : Plan => p.ownersUsed.contains cl) = false →
        (clusterDisable c s).status = 0 ∧ (clusterDisable c s).st = s) ∧
      (f.st ≠ .off → (s.plans.active.any fun p : Plan => p.ownersUsed.contains cl) = false →
        (clusterDisable c s).defer = true ∧ ((clusterDisable c s).st.clusterFn cl).st = .stopping ∧
        ((clusterDisable c s).st.clusterFn cl).stops = f.stops ++ [c.req] ∧ ((clusterDisable c s).st.clusterFn cl).queued = none)) ∧
    (s.namesLink l = false → w.status = 0x71 ∧ w.st = s) ∧
    (s.namesLink l = true → c.part = none →
      (k.st = .disabled → w.status = 0 ∧ w.defer = true ∧
        w.st = (s.setLink l { k with fn := { k.fn with start := some c.req }, awaited := some s.now }).startOff l) ∧
      (k.st = .stopping → w.status = 0x42 ∧ (w.st.link l).fn.queued = some (c.req, [])) ∧
      (k.st ≠ .disabled → k.st ≠ .stopping → w.status = 0 ∧ w.defer = false ∧ w.st = s) ∧
      (k.st = .disabled → (portDisable c s).status = 0 ∧ (portDisable c s).st = s) ∧
      (k.st ≠ .disabled → (portDisable c s).defer = true ∧ ((portDisable c s).st.link l).st = .stopping)) ∧
    (p < 64 → mb < 8 → s.partRefused p = true → z.status = 0x43 ∧ z.st = s) ∧
    (p < 64 → mb < 8 → s.partRefused p = false →
      (y.fn.st = .off → s.mbxTaken p mb = false → z.status = 0 ∧ z.defer = true ∧ z.st = s.partStart p mb c.req) ∧
      (y.fn.st = .off → s.mbxTaken p mb = true → z.status = 0x43 ∧ z.st = s) ∧
      (y.fn.st = .starting ∨ y.fn.st = .on → z.defer = false ∧ z.st = s) ∧
      (y.fn.st = .stopping → z.status = 0x42 ∧ (z.st.part p).fn.queued = some (c.req, [mb]))) ∧
    (p < 64 → y.fn.st = .off → (partDestroy c s).status = 0 ∧ ((partDestroy c s).st.part p).fenced = false)

/-- The throttle levels: at 100 °C the thermal level rises, at most once in 100 µs and to 10, and at 97 °C it falls, at
most once in 1 ms; the power level follows CAP in the same way, 1 ms up and 10 ms down; the clock is raised only when the
regulator has confirmed or 50 µs have passed; a stack is throttled from 95 °C to 92 °C; DRAM_THROTTLE_ON,
DRAM_THROTTLE_OFF and REFRESH_RATE_DOUBLED double its refresh rate from 85 °C and while it is throttled, and halve it
again below (R562, R563, R597, R610). -/
def Obligations.ThrottleLevelsFollowTheSensors : Prop :=
  ∀ (s : State) (t x : Nat),
    let s1 := s.tick t
    let s2 := s1.noteTemp x
    let power := s1.packagePower x
    let ready := fun (at_ : Option Nat) (ns : Nat) => s1.roeJudges = true ∧ s1.roe.c6 = false ∧ ∀ a, at_ = some a → a + ns ≤ s1.now
    let moved := fun (cmd : Instr) (old : State) (tl pl : Nat) => ∃ v, exec cmd s = .next v ∧ v.roe.tlevel = tl ∧ v.roe.plevel = pl ∧
      v.keep = s.keep ∧ v.roe.cap = s1.roe.cap ∧ (old.level = 0 → 0 < max tl pl → bit v.roe.event.toNat 0 = true) ∧
      (s1.roe.avs = .idle → v.roe.vcore = (if max tl pl = s1.roe.applied then s1.roe.vcore else s1.setPoint (max tl pl)) ∧
        v.roe.applied = if s1.roe.applied < max tl pl then max tl pl else s1.roe.applied)
    (ready s1.roe.tlevelAt 100000 → 400 ≤ x → s1.roe.tlevel < 10 →
      moved (.thermalLevelUp x t) s1 (s1.roe.tlevel + 1) s1.roe.plevel) ∧
    (x < 400 ∨ s1.roe.tlevel = 10 → exec (.thermalLevelUp x t) s = .next s2) ∧
    (ready s1.roe.tlevelAt 1000000 → x ≤ 388 → 0 < s1.roe.tlevel →
      moved (.thermalLevelDown x t) s1 (s1.roe.tlevel - 1) s1.roe.plevel) ∧
    (388 < x ∨ s1.roe.tlevel = 0 → exec (.thermalLevelDown x t) s = .next s2) ∧
    (ready s1.roe.plevelAt 1000000 → s1.roe.cap ≠ 0 → 1000 * s1.roe.cap < power → s1.roe.plevel < 10 →
      moved (.powerLevelUp x t) s1 s1.roe.tlevel (s1.roe.plevel + 1)) ∧
    (s1.roe.cap = 0 ∨ power ≤ 1000 * s1.roe.cap → exec (.powerLevelUp x t) s = .next s1) ∧
    (ready s1.roe.plevelAt 10000000 → s1.roe.cap = 0 ∨ power < 950 * s1.roe.cap → 0 < s1.roe.plevel →
      moved (.powerLevelDown x t) s1 s1.roe.tlevel (s1.roe.plevel - 1)) ∧
    (∀ l at_, s1.roe.avs = .raising l at_ →
      let done : State := { s1 with roe := { s1.roe with applied := l, avs := .idle } }
      exec (.avsConfirm t) s = .next done.followLevel ∧
      (at_ + 50000 ≤ s1.now → exec (.avsConfirmTimeout t) s = .next done.followLevel) ∧
      (s1.now < at_ + 50000 → exec (.avsConfirmTimeout t) s = .next s1)) ∧
    (∀ d, d < 4 → s1.roeJudges = true →
      (s1.roe.dramThr.contains d = false → 380 ≤ x → ∃ v, exec (.dramThrottleOn d x t) s = .next v ∧
        v.roe.dramThr.contains d = true ∧ v.roe.refresh2.contains d = true ∧ v.keep = s.keep) ∧
      (x < 380 → exec (.dramThrottleOn d x t) s = .next s1) ∧
      (s1.roe.dramThr.contains d = true → x ≤ 368 → ∃ v, exec (.dramThrottleOff d x t) s = .next v ∧
        v.roe.dramThr.contains d = false ∧ v.roe.refresh2.contains d = decide (340 ≤ x) ∧ v.keep = s.keep) ∧
      (368 < x → exec (.dramThrottleOff d x t) s = .next s1) ∧
      (340 ≤ x ∨ s1.roe.dramThr.contains d = true → exec (.refreshRateDoubled d x t) s = .next { s1 with roe := { s1.roe with
        refresh2 := d :: s1.roe.refresh2.filter fun y => !decide (y = d) } }) ∧
      (x < 340 → s1.roe.dramThr.contains d = false → exec (.refreshRateDoubled d x t) s = .next { s1 with roe := { s1.roe with
        refresh2 := s1.roe.refresh2.filter fun y => !decide (y = d) } }))

/-- What stops the part and what does not: two raw samples at 115 °C, a rail out of range for 10 µs or a lost reference
for 1 µs is a C6 stop with its bit of ROE_EVENT; a laser fault takes the links of its engine DOWN; the firmware's silence
of 1 s stops the MP alone, and so does MP_STOPS_EXECUTING, in every state and with no other effect; a lost die PLL is a C6
stop on die 0 and a C5 error elsewhere, and the fourth lock starts the boot ROM (R32, R330, R475, R562, R564, R605). -/
def Obligations.RoeStopsThePart : Prop :=
  ∀ (s : State) (t : Nat),
    let s1 := s.tick t
    let stopped := fun (cmd : Instr) (ev : Nat) => ∃ v, exec cmd s = .next v ∧ v.roe.c6 = true ∧ bit v.roe.event.toNat ev = true ∧
      v.keep = s.keep ∧ (s1.roe.c6 = false → v.mp.running = false)
    (s1.roeJudges = true →
      (∀ r0 r1, 460 ≤ r0 → 460 ≤ r1 → stopped (.thermalTrip r0 r1 t) 1) ∧
      (∀ r0 r1, r0 < 460 ∨ r1 < 460 → exec (.thermalTrip r0 r1 t) s = .next s1) ∧
      (∀ rail us, rail < 7 → (10 ≤ us → stopped (.railFault rail us t) 2) ∧ (us < 10 → exec (.railFault rail us t) s = .next s1)) ∧
      (∀ ns, (1000 ≤ ns → stopped (.refclkLoss ns t) 3) ∧ (ns < 1000 → exec (.refclkLoss ns t) s = .next s1)) ∧
      (∀ e n, e < Config.clusters → 3 ≤ n →
        (s1.roe.laser.contains e = false → ∃ v, exec (.laserFault e n t) s = .next v ∧ v.roe.laser.contains e = true ∧
          bit v.roe.event.toNat 7 = true ∧ v.keep = s.keep ∧ ∀ l, engineOf l = e → (s1.link l).st ≠ .disabled →
            (s1.link l).st ≠ .stopping → (v.link l).st = .down) ∧
        (∃ v, exec (.laserClear e n t) s = .next v ∧ v.roe.laser.contains e = false ∧ v.keep = s.keep ∧ v.links = s1.links)) ∧
      (s1.roe.mpLost = false → s1.boot.phase = .firmware → s1.roe.pstate ≠ .s3 →
        (s1.roe.beatAt + 1000000000 ≤ s1.now → ∃ v, exec (.mpstop t) s = .next v ∧ v.mp.running = false ∧ v.roe.mpLost = true ∧
          bit v.roe.event.toNat 4 = true ∧ v.keep = s.keep ∧ v.links = s1.links ∧ v.roe.c6 = s1.roe.c6) ∧
        (s1.now < s1.roe.beatAt + 1000000000 → exec (.mpstop t) s = .next s1)) ∧
      (∀ d, d < 4 → s1.roe.c6 = false →
        (s1.roe.diePll.contains d = false →
          let u : State := { s1 with roe := { s1.roe with diePll := d :: s1.roe.diePll } }
          (s1.roe.diePll.length = 3 → s1.boot.phase = .start → s1.boot.attempts = 0 →
            exec (.pllLock (.die d) t) s = .next u.romStart) ∧
          (s1.roe.diePll.length ≠ 3 ∨ s1.boot.phase ≠ .start ∨ s1.boot.attempts ≠ 0 → exec (.pllLock (.die d) t) s = .next u)) ∧
        (s1.roe.diePll.contains d = true →
          let u : State := { s1 with roe := { s1.roe with diePll := s1.roe.diePll.filter fun x => !decide (x = d) } }
          (d = 0 → exec (.pllLockLoss (.die d) t) s = .next u.c6Stop) ∧
          (d ≠ 0 → exec (.pllLockLoss (.die d) t) s = .next (u.unitError (.die d)))))) ∧
    (∀ l lane, l < Config.links → (s1.link l).live = true → bit (s1.link l).good lane = true →
      exec (.pllLock (.lane l lane) t) s = .next s1 ∧ exec (.pllLockLoss (.lane l lane) t) s = .next (s1.laneFailed l lane)) ∧
    (s1.mpServes = true → exec (.mpHeartbeat t) s = .next { s1 with roe := { s1.roe with beatAt := s1.now } }) ∧
    exec .mpStopsExecuting s = .next { s with mp := { s.mp with running := false } }

/-- Resets, power states and the Trail bypass: PORST_N low or a start of VDD_AON leaves every register at its reset value
but for the fuses, and nothing runs without VDD_AON; its release samples the straps and starts the edge ports; a
transition ends in its state with the command completed, S3 and OFF once every link is DISABLED and each state but P0 once
no core holds a context; a wake ends in WAKETO with FT UNSET and WOKE set; the part enters the ring after 10 µs of K28.5,
and FORCEBYP takes it out (R104, R444, R552, R554, R556, R567, R568, R592, R600, R601). -/
def Obligations.ResetsPowerStatesAndTheRing : Prop :=
  ∀ (s : State) (t : Nat),
    let s1 := s.tick t
    let same := fun v : State => v.plans = State.reset.plans ∧ v.mp = State.reset.mp ∧ v.boot = State.reset.boot ∧ v.sw = State.reset.sw ∧
      v.coll = State.reset.coll ∧ v.cores = State.reset.cores ∧ v.mem = State.reset.mem ∧ v.cnt = State.reset.cnt ∧
      v.fawn = State.reset.fawn ∧ v.trail = State.reset.trail ∧ v.i3c = State.reset.i3c ∧ v.links = [] ∧ v.fuse = s.fuse ∧
      v.time.st = .unset
    (s.roe.aon = true → ∃ v, exec .porstNAssert s = .next v ∧ same v ∧ v.roe.porst = true ∧ v.roe.bypN = some false) ∧
    (s.roe.aon = false → ∃ v, exec .vddAonUp s = .next v ∧ same v ∧ v.roe.porst = true ∧ v.roe.aon = true) ∧
    (∃ v, exec .vddAonDown s = .next v ∧ same v ∧ v.roe.aon = false ∧ v.roe.bypN = none) ∧
    (∀ st, s.roe.aon = true → s.roe.porst = true → ∃ v, exec (.porstNRelease st) s = .next v ∧ v.fuse = { s.fuse with straps := st } ∧
      v.roe.porst = false ∧ v.links = State.reset.links ∧ v.mem = s.mem ∧ v.coll = s.coll) ∧
    (s1.roe.c6 = false →
      (s1.roe.waking = true → exec (.powerTransitionDone t) s = .next s1.woken ∧ s1.woken.roe.pstate = s1.roe.waketo ∧
        s1.woken.time.st = .unset ∧ bit s1.woken.roe.event.toNat 5 = true) ∧
      (∀ dest r, s1.roe.waking = false → s1.roe.trans = some (dest, r) →
        let held := ∃ g k, (g, k) ∈ s1.cores ∧ (k.ctxs ≠ [] ∨ k.run ≠ none)
        (dest ≠ .s3 ∧ dest ≠ .off ∨ s1.allDisabled = true → dest = .p0 ∨ ¬held → ∃ v, exec (.powerTransitionDone t) s = .next v ∧ v.roe.pstate = dest ∧
          v.roe.trans = none ∧ v.keep = s.keep ∧ (dest = .off → v.mp.running = false ∧ v.roe.bypN = none)) ∧
        (dest = .s3 ∨ dest = .off → s1.allDisabled = false → exec (.powerTransitionDone t) s = .next s1) ∧
        (dest ≠ .p0 → held → exec (.powerTransitionDone t) s = .next s1))) ∧
    (∀ ep us, ep < 4 →
      (s1.roe.edgewake = true → 1000 ≤ us → s1.roe.pstate = .s3 → s1.roe.c6 = false →
        exec (.edgeWakeDetect ep us t) s = .next { s1 with roe := { s1.roe with waking := true } }) ∧
      (s1.roe.edgewake = false ∨ us < 1000 ∨ s1.roe.pstate ≠ .s3 → exec (.edgeWakeDetect ep us t) s = .next s1)) ∧
    (s1.roe.bypN = some false → s1.bypGood = true →
      (s1.roe.k28At + 10000 ≤ s1.now → exec (.trailInsert t) s = .next { s1 with roe := { s1.roe with bypN := some true } }) ∧
      (s1.now < s1.roe.k28At + 10000 → exec (.trailInsert t) s = .next s1)) ∧
    (s1.bypGood = false → exec (.trailInsert t) s = .next s1) ∧
    (s1.roe.aon = true → s1.roe.pstate ≠ .off → ∃ v, exec (.pllLockLoss .trail t) s = .next v ∧ v.roe.bypN = some false ∧
      v.roe.trailPll = false ∧ v.keep = s.keep) ∧
    (∀ v, s1.sideband = true →
      (∃ u, exec (.forcebypWrite v t) s = .next u ∧ u.roe.forcebyp = bit v.toNat 2 ∧ u.roe.edgewake = bit v.toNat 1 ∧ u.keep = s.keep ∧
        (bit v.toNat 2 = true → s1.roe.aon = true → s1.roe.pstate ≠ .off → u.roe.bypN = some false)) ∧
      (∃ u, exec (.roeWakeWrite v t) s = .next u ∧ u.keep = s.keep ∧ u.roe.waking =
        (s1.roe.waking || (bit v.toNat 0 && decide (s1.roe.pstate = .s3) && !s1.roe.c6))))

/-- The I3C sideband: the common command codes set and return what they name; a write of ROE_EVENT clears the bits written
as 1, a write of DIAG_SEL takes its fields, one to a read-only or reserved address changes no register, and one to the
request area of mailbox 0 reaches it when source class 0 has its right and the mailbox is IDLE; DIAG_DATA steps its
pointer (R529, R535, R569, R570, R571). -/
def Obligations.SidebandCommands : Prop :=
  ∀ (s : State) (a t : Nat) (v : BitVec 8) (w : BitVec 32) (data : List Byte), s.sideband = true →
    let i := s.i3c
    let set := fun (cmd : Instr) (j : I3c) => exec cmd s = .next { s with i3c := j }
    (i.dyn = none → set (.entdaa a) { i with dyn := some (a % 128) } ∧ set (.setdasa a) { i with dyn := some (a % 128) } ∧
      set (.setnewda a) i) ∧
    (i.dyn ≠ none → set (.entdaa a) i ∧ set (.setdasa a) i ∧ set (.setnewda a) { i with dyn := some (a % 128) }) ∧
    set .rstdaa { i with dyn := none } ∧
    set .getpid { i with rdata := (toLE 6 Config.i3cPid.toNat).reverse } ∧
    set .getbcr { i with rdata := toLE 1 Config.i3cBcr.toNat } ∧
    set .getdcr { i with rdata := toLE 1 Config.i3cDcr.toNat } ∧
    set .getstatus { i with rdata := (toLE 2 (Config.i3cStatus i.nstat).toNat).reverse, nstat := i.nstat + 1 } ∧
    set (.enec v) { i with ibiOn := i.ibiOn || bit v.toNat 0 } ∧
    set (.disec v) { i with ibiOn := i.ibiOn && !bit v.toNat 0 } ∧
    set (.rstact v) { i with rstact := v } ∧
    exec (.registerWrite 0x0008 w) s = .next { s with i3c := { i with addr := 0x0008 }, roe := { s.roe with event := s.roe.event &&& ~~~w } } ∧
    set (.registerWrite 0x0020 w) { i with addr := 0x0020, win := fld w 3 0, ptr := fld w 19 4 } ∧
    (a ≠ 0x0004 → a ≠ 0x0008 → a ≠ 0x0020 → a < 0x1000 ∨ 0x2000 ≤ a → set (.registerWrite a w) { i with addr := a }) ∧
    (∃ u, exec .diagDataRead s = .next u ∧ u.i3c.ptr = (i.ptr + 1) % 65536 ∧ u.i3c.win = i.win ∧ u.i3c.rdata.length = 4 ∧
      u.keep = s.keep ∧ u.roe = s.roe) ∧
    (0x1000 ≤ a → a < 0x2000 → a % 4 = 0 → data.length % 4 = 0 → (s.tick t).sideband = true →
      let u : State := { s.tick t with i3c := { (s.tick t).i3c with addr := a } }
      let open_ := u.mpServes = true ∧ bit (u.rights 0) 0 = true ∧ (u.box 0).busy = false
      (open_ → exec (.i3cMailboxWrite a data t) s = .next (u.writeReq 0 (a - 0x1000) (data.take (0x2000 - a)) none)) ∧
      (¬open_ → exec (.i3cMailboxWrite a data t) s = .next u))

/-- A Trail frame at a member in the ring: a frame with a bad CRC, length or TYPE is dropped and counted in TRAIL_BAD; a
frame of the member's own is dropped, and counted in TRAIL_NODEST unless it is a broadcast; HOPS 31 drops it into
TRAIL_LOOP; a frame for another plane is forwarded; a broadcast is forwarded and taken; a frame addressed to the member is
taken. A member that sleeps takes WAKE alone and counts the rest in TRAIL_SLEEP_DROP. What is taken has the effect of its
TYPE and SUB, here named for each (R551, R552, R557; R384, R457, R473, R494, R499, R553, R555, R559, R560, R580). -/
def Obligations.TrailFramesAreTakenOrForwarded : Prop :=
  ∀ (s : State) (f : Frame) (t : Nat),
    let s1 := s.tick t
    let u : State := { s1 with trail := { s1.trail with rxlock := true } }
    let type := fld f.hdr 3 0
    let src := fld f.hdr 8 4
    let bcast := bit f.hdr.toNat 14 = true
    let routed := s.Routed f t
    let sub := leAt f.payload 0 1
    let off := leAt f.payload 4 4
    let len := leAt f.payload 8 2
    let word : BitVec 128 := BitVec.ofNat 128 (leAt f.payload 0 16)
    let ofMp := fun (eff : State → State) (v : State) => if v.mpServes then eff v else v
    let image := fun (v : State) (sub st off len : Nat) (data : List Byte) =>
      v.trailSend 6 src (toLE 1 sub ++ toLE 1 st ++ toLE 2 0 ++ toLE 4 off ++ toLE 2 len ++ zeros 6 ++ data)
    let watched := fun v : State => { v with fawn := { v.fawn with watcher := some src } }
    (framesSize u.trail.fwd + Frame.size (nextHop f) ≤ Config.trailFwdBytes →
      (u.forward f).trail.fwd = u.trail.fwd ++ [mkFrame (setFld f.hdr 36 32 (fld f.hdr 36 32 + 1)) f.payload]) ∧
    (Config.trailFwdBytes < framesSize u.trail.fwd + Frame.size (nextHop f) → u.forward f = u.count .trailFwdDrop 0 0) ∧
    routed (.wakeFrame f t) (type = 7) (fun v => if bcast ∨ v.roe.pstate ≠ .s3 ∨ v.roe.c6 = true then v
      else { v with roe := { v.roe with waking := true } }) ∧
    routed (.trailPktFrame f t) (type = 1) (fun v =>
      let h : BitVec 256 := BitVec.ofNat 256 (leAt f.payload 0 32)
      let p : Packet := { hdr := h, payload := f.payload.drop 32 }
      let n := flitsOf p.payload.length
      if f.payload.length < 32 ∨ hLen h ≠ p.payload.length then v.count .malformed 580 0
      else if checkOf p.payload = hCheck h then (arrive v .trail (kindVc h) n n p false).1
      else (arrive ((v.count .checkIn 580 0).health hCheckIn 1) .trail (kindVc h) n n p true).1) ∧
    routed (.trailTsyncFrame f t) (type = 2 ∧ f.payload.length = 16) (fun v =>
      let plain := v.trailTsync src (some (fld word 11 8, v.now))
      match v.timeEnt with
      | none => plain
      | some e =>
        if teGm e = true ∧ teTrail e = true ∧ src = teTplane e then
          let v : State := { v with trail := { v.trail with tsRecv := some (fld word 11 8, v.now) } }
          match tsyncMatch word v.trail.tsSent with
          | none => v.count .tsyncUnused 580 0
          | some t1 => v.useOffset (v.tsyncTheta word t1 v.now (teAsym e 64)) (fld word 63 56) true
        else plain) ∧
    routed (.trailDigestFrame f t) (type = 3 ∧ f.payload.length = 16) (fun v =>
      let m := v.member src
      let c := v.digestCompare word
      let lasts := v.lasting c m.digCmp m.digLasting
      (v.setMember src { m with dig := word, digAt := some v.now, digCmp := c, digLasting := lasts }).digestResult 580
        (0xFFFF + src <<< 16 + fld word 63 32 <<< 24) c m.digLasting lasts []) ∧
    routed (.censusFrame f t) (type = 4 ∧ f.payload.length = 16) (fun v =>
      let v1 := v.setMember src { v.member src with census := word, at_ := v.now, present := true }
      if bit word.toNat 72 = true then (if v.isLead = true then v1.event evLeadConflict 0 src [] else v1).bootLead src else v1) ∧
    routed (.shadowEntry f t) (type = 5 ∧ sub = 1) (ofMp fun v =>
      let e : BitVec 256 := BitVec.ofNat 256 (leAt f.payload 8 32)
      let waits := v.fawn.cmp.any fun x : CmpEntry => !x.target && decide (x.plane = src ∧ entryKey x.ent = entryKey e)
      if f.payload.length = 40 ∧ ((v.fawn.fn.st = .on ∧ v.fawn.target = some src ∧ v.fawn.live = true) ∨ waits = true) then
        shadowPair v { target := true, ent := e, at_ := v.now, plane := src }
      else v) ∧
    routed (.shadowResult f t) (type = 5 ∧ sub = 2) (ofMp fun v =>
      let k := entryKey (BitVec.ofNat 256 (leAt f.payload 8 32))
      if f.payload.length = 72 ∧ leAt f.payload 1 1 = 1 then
        (v.health hMismatch 1).event evMismatch 0 (k.1 + k.2.1 <<< 24 + src <<< 40) (cidParts v.plans.active k.1)
      else v) ∧
    routed (.planRead f t) (type = 6 ∧ sub = 0x20) (ofMp fun v =>
      match v.plans.active with
      | none => image (watched v) 0x22 0x75 off len []
      | some a =>
        if a.image.length < off + len ∨ 4096 < len then image (watched v) 0x22 0x43 off len []
        else image (watched v) 0x21 (if imageDigest a.image = imLdig a.image then 0 else 0x30) off len ((a.image.drop off).take len)) ∧
    routed (.planData f t) (type = 6 ∧ sub = 0x21) (ofMp fun v => v.planData f) ∧
    routed (.planNone f t) (type = 6 ∧ sub = 0x22) (ofMp fun v =>
      if v.fetchingShadow = true ∧ v.fawn.target = some src then
        { v with fawn := { v.fawn with reads := v.fawn.reads.filter fun x : BulkRead => !decide (x.off = off ∧ x.len = len) } }
      else v) ∧
    routed (.fusedQuery f t) (type = 6 ∧ sub = 0x30) (ofMp fun v =>
      let a := leAt f.payload 16 8
      match v.fawn.recorded.find? fun x => decide (x.1 = a) with
      | some x => (watched v).sendFused src x.2
      | none =>
        if v.fawn.asked.contains (src, a) = true then watched v
        else if a ≤ v.ftNow then image (watched v) 0x31 0x43 0 0 []
        else { v with fawn := { v.fawn with watcher := some src, asked := v.fawn.asked ++ [(src, a)] } }) ∧
    routed (.fusedState f t) (type = 6 ∧ sub = 0x31) (ofMp fun v =>
      if v.fawn.target ≠ some src ∨ v.fawn.query = none ∨ (v.fawn.fn.st ≠ .starting ∧ v.fawn.fn.st ≠ .on) then v
      else if leAt f.payload 1 1 = 0x43 then v.fawnOff 0x43
      else
        let new := ((chunksOf 256 16 (f.payload.drop 16)).map fusedEntry).filter fun x =>
          !(v.fawn.fused.any fun y => decide (y.1 = x.1 ∧ y.2.1 = x.2.1))
        let v : State := { v with fawn := { v.fawn with fused := v.fawn.fused ++ new, fusedAll := some (leAt f.payload 2 2) } }
        new.foldl State.takeFused v) ∧
    routed (.bootRead f t) (type = 6 ∧ sub = 0x10) (fun v =>
      let n := min 4096 len
      if v.isLead = false then v
      else if v.mp.running = true then image v 0x11 (if 1 ≤ len ∧ len ≤ 4096 ∧ off + n ≤ v.boot.image.length then 0 else 0x30) off n
        (slice v.boot.image off n)
      else if v.boot.image = [] ∧ v.boot.phase ≠ .halted then image v 0x12 0 off n []
      else v) ∧
    routed (.bootData f t) (type = 6 ∧ sub = 0x11) (fun v =>
      if v.fetching true = true ∧ v.boot.lead = some src ∧ v.boot.none_ = false then
        match v.boot.reads.find? fun r : BulkRead => decide (r.off = off ∧ r.len = len) with
        | none => v
        | some r => v.bootAnswer r (leAt f.payload 1 1) (f.payload.drop 16)
      else v) ∧
    routed (.bootNone f t) (type = 6 ∧ sub = 0x12) (fun v =>
      if v.fetching true = true ∧ v.boot.lead = some src ∧ v.boot.none_ = false then
        { v with boot := { v.boot with none_ := true, since := v.now, got := [], next := 0, reads := [] } }
      else v)

/-- What the Trail and the boot ROM do by the clock: CENSUS every 10 µs in every state but OFF, a member without one for
100 µs is ABSENT (and a restore from it has lost its buddy), the recorded FUSED states go out at their A; the ROM's reads
are answered, sent again after 10 ms up to four times, and after BUSY 1 µs later and twice as long after each further BUSY
up to 64 µs, and end the fetch with the error of Table SEC-8; it waits 1 s for its port and for a lead, retries 100 ms
after BOOT_NONE and 1 s after a failed attempt; a restore read of a snapshot is sent again by the same rule (R296, R511,
R547, R553, R559, R579, R580, R582). -/
def Obligations.TrailAndBootByTheClock : Prop :=
  ∀ (s : State) (t n : Nat),
    let s1 := s.tick t
    let b := s1.boot
    let at_ := fun (cmd : Instr) (v : State) => exec cmd s = .next v
    (s1.roe.bypN = some true → s1.roe.pstate ≠ .off → s1.trail.censusAt + 10000 ≤ s1.now →
      at_ (.censusSend t) (({ s1 with trail := { s1.trail with censusAt := s1.now } }).trailCast 4 (toLE 16 s1.censusWord))) ∧
    (s1.roe.bypN ≠ some true ∨ s1.roe.pstate = .off ∨ s1.now < s1.trail.censusAt + 10000 → at_ (.censusSend t) s1) ∧
    (n < 32 →
      let m := s1.member n
      let u := s1.setMember n { m with present := false }
      let reads := ∃ x ∈ s1.mem.regs, x.2.restores = true ∧ cPlane (reBuddy (s1.regionEnt x.1)) = n
      (m.present = true → m.at_ + 100000 ≤ s1.now → (reads → at_ (.memberAbsent n t) u.buddyFail) ∧ (¬reads → at_ (.memberAbsent n t) u)) ∧
      (m.present = false ∨ s1.now < m.at_ + 100000 → at_ (.memberAbsent n t) s1)) ∧
    (s1.ftSet = true → s1.mpServes = true → at_ (.fusedStateRecord t)
      ((s1.fawn.asked.filter fun q => decide (q.2 ≤ s1.ftNow)).foldl State.recordFused s1)) ∧
    (s1.ftSet = false ∨ s1.mpServes = false → at_ (.fusedStateRecord t) s1) ∧
    (s1.fetching true = true → b.lead = none →
      (b.since + 1000000000 ≤ s1.now → at_ (.leadWaitTimeout t) (s1.bootFail 1)) ∧
      (s1.now < b.since + 1000000000 → at_ (.leadWaitTimeout t) s1)) ∧
    (s1.fetching false = true → b.next = 0 →
      (b.since + 1000000000 ≤ s1.now → at_ (.bootTrainTimeout t) (s1.fetchEnd 1)) ∧
      (s1.now < b.since + 1000000000 → at_ (.bootTrainTimeout t) s1)) ∧
    (s1.bootFail 1).boot.error = 1 ∧ (s1.bootFail 1).boot.attempts = min 255 (b.attempts + 1) ∧ (s1.bootFail 1).boot.retry = true ∧
    (s1.fuse.straps.bootSel.toNat = 2 → b.trail = false → s1.fetchEnd 1 = s1.bootFrom true) ∧
    (s1.fuse.straps.bootSel.toNat ≠ 2 ∨ b.trail = true → s1.fetchEnd 1 = s1.bootFail 1) ∧
    (s1.fetching true = true → b.none_ = true →
      (b.since + 100000000 ≤ s1.now → at_ (.bootNoneRetry t) ({ s1 with boot := { b with none_ := false, since := s1.now } }).bootIssue) ∧
      (s1.now < b.since + 100000000 → at_ (.bootNoneRetry t) s1)) ∧
    (b.retry = true → b.phase = .start → s1.roe.c6 = false →
      (b.since + 1000000000 ≤ s1.now → at_ (.bootRetry t) (s1.bootFrom (decide (s1.fuse.straps.bootSel.toNat = 1)))) ∧
      (s1.now < b.since + 1000000000 → at_ (.bootRetry t) s1)) ∧
    (s1.fetching false = true ∨ s1.fetching true = true → ∀ r, (b.reads.find? fun r : BulkRead => decide (r.off = n)) = some r →
      (r.held = true →
        let waited := fun x : BulkRead => x.held && decide (x.sentAt + x.wait ≤ s1.now)
        let again := fun x : BulkRead => ({ x with sentAt := s1.now, held := false } : BulkRead)
        at_ (.bootReadResend n t) ((b.reads.filter waited).foldl (fun u x => u.bootSend x)
          { s1 with boot := { b with reads := modWhere waited again b.reads } })) ∧
      (r.held = false →
      (s1.now < r.sentAt + 10000000 → at_ (.bootReadResend n t) s1) ∧
      (r.sentAt + 10000000 ≤ s1.now → r.resends < 4 → at_ (.bootReadResend n t)
        (({ s1 with boot := { b with reads := againRead b.reads r.tag s1.now true } }).bootSend r)) ∧
      (r.sentAt + 10000000 ≤ s1.now → 4 ≤ r.resends → at_ (.bootReadResend n t) (s1.fetchEnd 2)))) ∧
    (∀ x s2 r, s1.fetching false = true → s1.takeMp (fun y => decide (hKind y.pkt.hdr = 6) &&
          (b.reads.map fun r : BulkRead => r.tag).contains (hTag y.pkt.hdr)) = some (x, s2) →
        hCheck x.pkt.hdr = checkOf x.pkt.payload → (s2.boot.reads.find? fun y : BulkRead => decide (y.tag = hTag x.pkt.hdr)) = some r →
      (hStatus x.pkt.hdr = 0x24 →
        let wait := if r.wait = 0 then 1000 else min 64000 (2 * r.wait)
        ∃ rs, at_ (.bootFetchResponse t) { s2 with boot := { s2.boot with reads := rs } } ∧
          (rs.find? fun y => decide (y.tag = r.tag)) = some { r with sentAt := s2.now, held := true, wait := wait }) ∧
      (hStatus x.pkt.hdr ≠ 0x24 → hStatus x.pkt.hdr ≠ 0 ∨ x.pkt.payload.length ≠ r.len → at_ (.bootFetchResponse t) (s2.fetchEnd 2)) ∧
      (hStatus x.pkt.hdr = 0 → x.pkt.payload.length = r.len → at_ (.bootFetchResponse t)
        ({ s2 with boot := { s2.boot with reads := dropRead s2.boot.reads r.tag,
                                          got := s2.boot.got ++ [(r.off, x.pkt.payload)] } }).bootLanded)) ∧
    (∀ o w, s1.snapTag opRestore n = some o → (o.reads.find? fun r => decide (r.tag = n)) = some w → s1.mpServes = true → w.held = false →
      (s1.now < w.sentAt + 10000000 → at_ (.snapshotRestoreReadResend n t) s1) ∧
      (w.sentAt + 10000000 ≤ s1.now → w.resends < 4 → at_ (.snapshotRestoreReadResend n t)
        ((s1.setSnap { o with reads := againRead o.reads n s1.now true }).mpRead (rePart (s1.regionEnt o.entry)) o.arg w)) ∧
      (w.sentAt + 10000000 ≤ s1.now → 4 ≤ w.resends → at_ (.snapshotRestoreReadResend n t) (s1.failRestore o 0x74 0)))

/-- A step takes the command at the front of the queue and gives what that command does to the state with the queue's
rest; on an empty queue no command runs, the bulk READs and WRITEs whose wait after BUSY is over are sent again, and the
Trail serialiser sends the next frame that waits (the model's choice, log entry 9). -/
def Obligations.StepTakesTheFront : Prop :=
  ∀ (s : State) (c : Instr) (q : List Instr),
    (s.pending = c :: q → step s = exec c { s with pending := q }) ∧
    step { s with pending := c :: s.pending } = exec c s ∧
    (s.pending = [] → step s = .next s.stageDue.snapsDue.bootDue.trailEmit)

/-- Right after reset the queue is empty, FT is UNSET and counts from 0, no plan is active or staged and the part has the
boot coordinate of its PLANE_SEL strap, its four edge ports start and its full ports are DISABLED; BOOT_STATUS, ROE_EVENT,
ROE_CTRL and DIAG_SEL read as their tables' reset values, TRAIL_BYP_N is low, nothing has been counted and no health point
scored (R444, R548, R554, R556, R589; Tables MGT-17, SEC-8). -/
def Obligations.StateAfterReset : Prop :=
  let s := State.reset
  s.pending = [] ∧ s.time.st = .unset ∧ s.now = 0 ∧ s.ftSet = false ∧
  s.plans.active = none ∧ s.plans.staged = none ∧ s.plans.arm = none ∧
  s.selfCoord = mkCoord s.fuse.straps.planeSel.toNat 0 0 255 0 ∧ s.plane = s.fuse.straps.planeSel.toNat ∧
  (∀ l, 576 ≤ l → l < 580 → (s.link l).st = .signal) ∧
  (∀ l, l < 576 → (s.link l).st = .disabled) ∧
  s.boot.phase = .start ∧ s.boot.error = 0 ∧ s.boot.attempts = 0 ∧ s.boot.fwmeas = 0 ∧ s.boot.lowUsed = 0 ∧ s.mp.running = false ∧
  s.roe.event = 0 ∧ s.roe.edgewake = false ∧ s.roe.forcebyp = false ∧ s.roe.bypN = some false ∧ s.i3c.win = 0 ∧ s.i3c.ptr = 0 ∧
  (∀ p, s.part p = {}) ∧ (∀ m, (s.box m).busy = false) ∧ s.mp.health = [] ∧ s.cnt = [] ∧ s.fawn.fn.st = .off

/-- The state after reset meets the invariant: the data SRAMs and the DRAM are in canonical form, and SVN_FLOOR and
LMS_CTR have no more set bits than bits. -/
def Obligations.ResetMeetsTheInvariant : Prop := State.reset.Inv

/-- Every step keeps the invariant, from every state that meets it: whatever a command writes, the data SRAMs and the DRAM
stay in canonical form, and the two fuse thermometers stay within the bits that R572 gives them. -/
def Obligations.EveryStepKeepsTheInvariant : Prop := ∀ s t : State, s.Inv → step s = .next t → t.Inv

/-- A fuse bit changes only from 0 to 1: over any step nothing of the fuse bank but SVN_FLOOR, LMS_CTR and the sampled
straps differs, and neither thermometer loses a set bit (R572, R573, R592). Only the release of PORST_N samples the
straps. -/
def Obligations.FusesOnlyGrow : Prop :=
  ∀ s t : State, step s = .next t → s.fuse.Grows t.fuse ∧
    ((∀ st q, s.pending ≠ Instr.porstNRelease st :: q) → t.fuse.straps = s.fuse.straps)

/-- Every well-formed command completes, in every state, and leaves the queue as it stands; a command that does not
complete names a unit that Table ARC-1 does not give the part, and stops with that fault (R16). -/
def Obligations.EveryWellFormedCommandCompletes : Prop :=
  ∀ (c : Instr) (s : State),
    (c.wf = true → ∃ t, exec c s = .next t ∧ t.pending = s.pending) ∧
    (Completes (exec c s) ∨ exec c s = .fault .noSuchUnit) ∧
    (∀ t, exec c s = .next t → t.pending = s.pending)

/-- The exact carry: a lane with a flag set is an XC16 of its flags with POS 0 and W 0; a zero lane is an XC16 of zeros;
any other integer is an XC16 at its window position p when X / 2^(8p) lies in the 120-bit range, and an XC48 of its 376
bits when it does not; decoding gives the integer (0 when a flag is set) and the flags back, with the residue of the
decoded integer (R86; R85, R87, R88). -/
def Obligations.ExactCarryRoundTrip : Prop :=
  ∀ l : Lane,
    let b := xcEnc l
    let flags := b2n l.nan + 2 * b2n l.pinf + 4 * b2n l.ninf
    (flags ≠ 0 → b = toLE 16 flags) ∧
    (flags = 0 → l.x = 0 → b = toLE 16 0) ∧
    (∀ (p : Nat) (w : Int), flags = 0 → l.x ≠ 0 → l.x = w * (2 ^ (8 * p) : Nat) → p ≤ 30 → (p = 30 ∨ ¬ (256 : Int) ∣ w) →
      (-(2 ^ 119 : Nat) ≤ w → w < (2 ^ 119 : Nat) → b = toLE 16 (8 * p + 256 * (w % (2 ^ 120 : Nat)).toNat)) ∧
      (w < -(2 ^ 119 : Nat) ∨ (2 ^ 119 : Nat) ≤ w → b = toLE 48 (8 * 31 + 256 * (l.x % (2 ^ 376 : Nat)).toNat))) ∧
    (-(2 ^ 375 : Nat) ≤ l.x → l.x < (2 ^ 375 : Nat) →
      b.length = xcLen (leAt b 0 1) ∧
      (flags ≠ 0 → xcDec b = { l with x := 0, res := 0 }) ∧
      (flags = 0 → xcDec b = { l with res := resInt l.x }))

/-- An exact sum does not depend on the order of its operands, and its residue follows its integer: values or products
added to a lane in any order give the same lane, and a lane whose residue agreed with its integer agrees after any of them
(R54, R56, R57, R62, R88). -/
def Obligations.ExactSumsDoNotDependOnOrder : Prop :=
  ∀ (w : Nat) (l : Lane) (vs us : List Val), vs.Perm us →
    vs.foldl (Lane.add w) l = us.foldl (Lane.add w) l ∧
    vs.foldl Lane.addProd l = us.foldl Lane.addProd l ∧
    (l.resOk = true → (vs.foldl (Lane.add w) l).resOk = true ∧ (vs.foldl Lane.addProd l).resOk = true)

/-- The registers of Table TSI-1 read back what was last written to them and no other register changes; S0 reads as 0, M0
as all ones, and writes to them are discarded (R93). The fields of Table TSI-6 lie where the instruction word has them. -/
def Obligations.CoreRegistersAndWordFields : Prop :=
  ∀ (c : Core) (n k x : Nat) (v : Word) (op : Nat) (f : TsiFields) (w : Word),
    c.rs 0 = 0 ∧ c.ws 0 v = c ∧ c.rm 0 = 0xFFFFFFFF ∧ c.wm 0 x = c ∧
    (0 < n → n < 16 → (c.ws n v).rs n = v ∧ (k ≠ n → (c.ws n v).rs k = c.rs k) ∧ c.ws n v = { c with s := (c.ws n v).s }) ∧
    (0 < n → n < 8 → (c.wm n x).rm n = x % 2 ^ 32 ∧ (k ≠ n → (c.wm n x).rm k = c.rm k) ∧ c.wm n x = { c with m := (c.wm n x).m }) ∧
    (n < 32 → (c.wv n x).rv n = x % 2 ^ 512 ∧ (k ≠ n → (c.wv n x).rv k = c.rv k) ∧ c.wv n x = { c with v := (c.wv n x).v }) ∧
    (op < 256 → wordFields (encWord op f) = f ∧ fld (encWord op f) 63 56 = op ∧ fld (encWord op f) 55 51 = f.d.toNat ∧
      fld (encWord op f) 50 46 = f.a.toNat ∧ fld (encWord op f) 45 41 = f.b.toNat ∧ fld (encWord op f) 21 0 = f.imm.toNat) ∧
    encWord (fld w 63 56) (wordFields w) = w
end

