-- ==== Sys2Proof/Laws/State.lean ====
section
/-!
SUPPORT. The laws of the sparse tables and of the updates of the state: what each leaves in each field, so that no proof
unfolds a record update.
-/
namespace Sys2Proof

/-! ### Tables -/

/-- A table holds what was put at a key, and at every other key what it held. -/
theorem AMap.find_put {κ α : Type} [DecidableEq κ] (m : AMap κ α) (q r : κ) (a : α) :
    AMap.find (AMap.put m q a) r = if q = r then some a else AMap.find m r := by
  induction m with
  | nil => rfl
  | cons x m ih =>
    obtain ⟨k, b⟩ := x
    rw [AMap.put]
    by_cases hk : k = q
    · rw [if_pos hk]
      subst hk
      by_cases hr : k = r <;> simp [AMap.find, hr]
    · rw [if_neg hk, AMap.find, ih, AMap.find]
      by_cases hr : k = r
      · rw [if_pos hr, if_neg (fun h => hk (hr.trans h.symm)), if_pos hr]
      · rw [if_neg hr, if_neg hr]

/-- The value put at a key is read back. -/
@[simp] theorem AMap.at_put_same {κ α : Type} [DecidableEq κ] (m : AMap κ α) (q : κ) (a d : α) :
    (m.put q a).at q d = a := by
  rw [AMap.at, AMap.find_put, if_pos rfl]; rfl

/-- Another key reads as before. -/
theorem AMap.at_put_other {κ α : Type} [DecidableEq κ] (m : AMap κ α) {q r : κ} (h : q ≠ r) (a d : α) :
    (m.put q a).at r d = m.at r d := by
  rw [AMap.at, AMap.find_put, if_neg h]; rfl

/-- The second of two puts at one key stands. -/
@[simp] theorem AMap.put_put {κ α : Type} [DecidableEq κ] (m : AMap κ α) (q : κ) (a b : α) :
    (m.put q a).put q b = m.put q b := by
  induction m with
  | nil => simp [AMap.put]
  | cons x m ih =>
    obtain ⟨k, c⟩ := x
    rw [AMap.put]
    by_cases hk : k = q
    · simp [hk, AMap.put]
    · rw [if_neg hk, AMap.put, if_neg hk, ih, AMap.put, if_neg hk]

namespace Machine

/-! ### Reads after writes -/

/-- The core just written. -/
@[simp] theorem State.core_setCore (s : State) (g : Nat) (c : Core) : (s.setCore g c).core g = c := AMap.at_put_same _ _ _ _
/-- Another core. -/
theorem State.core_setCore_other (s : State) {g h : Nat} (n : g ≠ h) (c : Core) : (s.setCore g c).core h = s.core h :=
  AMap.at_put_other _ n _ _
/-- The later of two writes of a core stands. -/
@[simp] theorem State.setCore_setCore (s : State) (g : Nat) (c d : Core) : (s.setCore g c).setCore g d = s.setCore g d := by
  simp [State.setCore]
/-- The link just written. -/
@[simp] theorem State.link_setLink (s : State) (l : Nat) (k : Link) : (s.setLink l k).link l = k := AMap.at_put_same _ _ _ _
/-- Another link. -/
theorem State.link_setLink_other (s : State) {l m : Nat} (n : l ≠ m) (k : Link) : (s.setLink l k).link m = s.link m :=
  AMap.at_put_other _ n _ _
/-- The mailbox just written. -/
@[simp] theorem State.box_setBox (s : State) (m : Nat) (b : Mbox) : (s.setBox m b).box m = b := AMap.at_put_same _ _ _ _
/-- Another mailbox. -/
theorem State.box_setBox_other (s : State) {l m : Nat} (n : l ≠ m) (b : Mbox) : (s.setBox l b).box m = s.box m :=
  AMap.at_put_other _ n _ _
/-- The partition just written. -/
@[simp] theorem State.part_setPart (s : State) (p : Nat) (x : Part) : (s.setPart p x).part p = x := AMap.at_put_same _ _ _ _
/-- The region entry just written. -/
@[simp] theorem State.reg_setReg (s : State) (e : Nat) (r : RegDyn) : (s.setReg e r).reg e = r := AMap.at_put_same _ _ _ _
/-- The chunk just written. -/
@[simp] theorem State.chunk_setChunk (s : State) (cl k h : Nat) (c : ChunkSt) : (s.setChunk cl k h c).chunk cl k h = c :=
  AMap.at_put_same _ _ _ _
/-- The counter just raised. -/
theorem State.ctr_countN (s : State) (c : Ctr) (i j n : Nat) :
    (s.countN c i j n).ctr c i j = min Config.ctrMax (s.ctr c i j + n) := AMap.at_put_same _ _ _ _
/-- Another counter. -/
theorem State.ctr_countN_other (s : State) (c : Ctr) (i j n : Nat) {d : Ctr} {i' j' : Nat}
    (h : (⟨c, i, j⟩ : CKey) ≠ ⟨d, i', j'⟩) : (s.countN c i j n).ctr d i' j' = s.ctr d i' j' := AMap.at_put_other _ h _ _

/-! ### Fields under updates -/

@[simp] theorem State.tick_pending_eq (s : State) (t : Nat) : (s.tick t).pending = s.pending := rfl
@[simp] theorem State.tick_fuse_eq (s : State) (t : Nat) : (s.tick t).fuse = s.fuse := rfl
@[simp] theorem State.tick_boot_eq (s : State) (t : Nat) : (s.tick t).boot = s.boot := rfl
@[simp] theorem State.tick_roe_eq (s : State) (t : Nat) : (s.tick t).roe = s.roe := rfl
@[simp] theorem State.tick_i3c_eq (s : State) (t : Nat) : (s.tick t).i3c = s.i3c := rfl
@[simp] theorem State.tick_trail_eq (s : State) (t : Nat) : (s.tick t).trail = s.trail := rfl
@[simp] theorem State.tick_time_eq (s : State) (t : Nat) :
    (s.tick t).time = { s.time with ft := max s.time.ft t } := rfl
@[simp] theorem State.tick_plans_eq (s : State) (t : Nat) : (s.tick t).plans = s.plans := rfl
@[simp] theorem State.tick_mp_eq (s : State) (t : Nat) : (s.tick t).mp = s.mp := rfl
@[simp] theorem State.tick_fawn_eq (s : State) (t : Nat) : (s.tick t).fawn = s.fawn := rfl
@[simp] theorem State.tick_links_eq (s : State) (t : Nat) : (s.tick t).links = s.links := rfl
@[simp] theorem State.tick_sw_eq (s : State) (t : Nat) : (s.tick t).sw = s.sw := rfl
@[simp] theorem State.tick_coll_eq (s : State) (t : Nat) : (s.tick t).coll = s.coll := rfl
@[simp] theorem State.tick_cores_eq (s : State) (t : Nat) : (s.tick t).cores = s.cores := rfl
@[simp] theorem State.tick_mem_eq (s : State) (t : Nat) : (s.tick t).mem = s.mem := rfl
@[simp] theorem State.tick_cnt_eq (s : State) (t : Nat) : (s.tick t).cnt = s.cnt := rfl
@[simp] theorem State.tick_free_eq (s : State) (t : Nat) : (s.tick t).free = s.free := rfl
@[simp] theorem State.setCore_pending_eq (s : State) (g : Nat) (c : Core) : (s.setCore g c).pending = s.pending := rfl
@[simp] theorem State.setCore_fuse_eq (s : State) (g : Nat) (c : Core) : (s.setCore g c).fuse = s.fuse := rfl
@[simp] theorem State.setCore_boot_eq (s : State) (g : Nat) (c : Core) : (s.setCore g c).boot = s.boot := rfl
@[simp] theorem State.setCore_roe_eq (s : State) (g : Nat) (c : Core) : (s.setCore g c).roe = s.roe := rfl
@[simp] theorem State.setCore_i3c_eq (s : State) (g : Nat) (c : Core) : (s.setCore g c).i3c = s.i3c := rfl
@[simp] theorem State.setCore_trail_eq (s : State) (g : Nat) (c : Core) : (s.setCore g c).trail = s.trail := rfl
@[simp] theorem State.setCore_time_eq (s : State) (g : Nat) (c : Core) : (s.setCore g c).time = s.time := rfl
@[simp] theorem State.setCore_plans_eq (s : State) (g : Nat) (c : Core) : (s.setCore g c).plans = s.plans := rfl
@[simp] theorem State.setCore_mp_eq (s : State) (g : Nat) (c : Core) : (s.setCore g c).mp = s.mp := rfl
@[simp] theorem State.setCore_fawn_eq (s : State) (g : Nat) (c : Core) : (s.setCore g c).fawn = s.fawn := rfl
@[simp] theorem State.setCore_links_eq (s : State) (g : Nat) (c : Core) : (s.setCore g c).links = s.links := rfl
@[simp] theorem State.setCore_sw_eq (s : State) (g : Nat) (c : Core) : (s.setCore g c).sw = s.sw := rfl
@[simp] theorem State.setCore_coll_eq (s : State) (g : Nat) (c : Core) : (s.setCore g c).coll = s.coll := rfl
@[simp] theorem State.setCore_cores_eq (s : State) (g : Nat) (c : Core) : (s.setCore g c).cores = s.cores.put g c := rfl
@[simp] theorem State.setCore_mem_eq (s : State) (g : Nat) (c : Core) : (s.setCore g c).mem = s.mem := rfl
@[simp] theorem State.setCore_cnt_eq (s : State) (g : Nat) (c : Core) : (s.setCore g c).cnt = s.cnt := rfl
@[simp] theorem State.setCore_free_eq (s : State) (g : Nat) (c : Core) : (s.setCore g c).free = s.free := rfl
@[simp] theorem State.setLink_pending_eq (s : State) (l : Nat) (k : Link) : (s.setLink l k).pending = s.pending := rfl
@[simp] theorem State.setLink_fuse_eq (s : State) (l : Nat) (k : Link) : (s.setLink l k).fuse = s.fuse := rfl
@[simp] theorem State.setLink_boot_eq (s : State) (l : Nat) (k : Link) : (s.setLink l k).boot = s.boot := rfl
@[simp] theorem State.setLink_roe_eq (s : State) (l : Nat) (k : Link) : (s.setLink l k).roe = s.roe := rfl
@[simp] theorem State.setLink_i3c_eq (s : State) (l : Nat) (k : Link) : (s.setLink l k).i3c = s.i3c := rfl
@[simp] theorem State.setLink_trail_eq (s : State) (l : Nat) (k : Link) : (s.setLink l k).trail = s.trail := rfl
@[simp] theorem State.setLink_time_eq (s : State) (l : Nat) (k : Link) : (s.setLink l k).time = s.time := rfl
@[simp] theorem State.setLink_plans_eq (s : State) (l : Nat) (k : Link) : (s.setLink l k).plans = s.plans := rfl
@[simp] theorem State.setLink_mp_eq (s : State) (l : Nat) (k : Link) : (s.setLink l k).mp = s.mp := rfl
@[simp] theorem State.setLink_fawn_eq (s : State) (l : Nat) (k : Link) : (s.setLink l k).fawn = s.fawn := rfl
@[simp] theorem State.setLink_links_eq (s : State) (l : Nat) (k : Link) : (s.setLink l k).links = s.links.put l k := rfl
@[simp] theorem State.setLink_sw_eq (s : State) (l : Nat) (k : Link) : (s.setLink l k).sw = s.sw := rfl
@[simp] theorem State.setLink_coll_eq (s : State) (l : Nat) (k : Link) : (s.setLink l k).coll = s.coll := rfl
@[simp] theorem State.setLink_cores_eq (s : State) (l : Nat) (k : Link) : (s.setLink l k).cores = s.cores := rfl
@[simp] theorem State.setLink_mem_eq (s : State) (l : Nat) (k : Link) : (s.setLink l k).mem = s.mem := rfl
@[simp] theorem State.setLink_cnt_eq (s : State) (l : Nat) (k : Link) : (s.setLink l k).cnt = s.cnt := rfl
@[simp] theorem State.setLink_free_eq (s : State) (l : Nat) (k : Link) : (s.setLink l k).free = s.free := rfl
@[simp] theorem State.setBox_pending_eq (s : State) (m : Nat) (b : Mbox) : (s.setBox m b).pending = s.pending := rfl
@[simp] theorem State.setBox_fuse_eq (s : State) (m : Nat) (b : Mbox) : (s.setBox m b).fuse = s.fuse := rfl
@[simp] theorem State.setBox_boot_eq (s : State) (m : Nat) (b : Mbox) : (s.setBox m b).boot = s.boot := rfl
@[simp] theorem State.setBox_roe_eq (s : State) (m : Nat) (b : Mbox) : (s.setBox m b).roe = s.roe := rfl
@[simp] theorem State.setBox_i3c_eq (s : State) (m : Nat) (b : Mbox) : (s.setBox m b).i3c = s.i3c := rfl
@[simp] theorem State.setBox_trail_eq (s : State) (m : Nat) (b : Mbox) : (s.setBox m b).trail = s.trail := rfl
@[simp] theorem State.setBox_time_eq (s : State) (m : Nat) (b : Mbox) : (s.setBox m b).time = s.time := rfl
@[simp] theorem State.setBox_plans_eq (s : State) (m : Nat) (b : Mbox) : (s.setBox m b).plans = s.plans := rfl
@[simp] theorem State.setBox_mp_eq (s : State) (m : Nat) (b : Mbox) :
    (s.setBox m b).mp = { s.mp with boxes := s.mp.boxes.put m b } := rfl
@[simp] theorem State.setBox_fawn_eq (s : State) (m : Nat) (b : Mbox) : (s.setBox m b).fawn = s.fawn := rfl
@[simp] theorem State.setBox_links_eq (s : State) (m : Nat) (b : Mbox) : (s.setBox m b).links = s.links := rfl
@[simp] theorem State.setBox_sw_eq (s : State) (m : Nat) (b : Mbox) : (s.setBox m b).sw = s.sw := rfl
@[simp] theorem State.setBox_coll_eq (s : State) (m : Nat) (b : Mbox) : (s.setBox m b).coll = s.coll := rfl
@[simp] theorem State.setBox_cores_eq (s : State) (m : Nat) (b : Mbox) : (s.setBox m b).cores = s.cores := rfl
@[simp] theorem State.setBox_mem_eq (s : State) (m : Nat) (b : Mbox) : (s.setBox m b).mem = s.mem := rfl
@[simp] theorem State.setBox_cnt_eq (s : State) (m : Nat) (b : Mbox) : (s.setBox m b).cnt = s.cnt := rfl
@[simp] theorem State.setBox_free_eq (s : State) (m : Nat) (b : Mbox) : (s.setBox m b).free = s.free := rfl
@[simp] theorem State.setPart_pending_eq (s : State) (p : Nat) (x : Part) : (s.setPart p x).pending = s.pending := rfl
@[simp] theorem State.setPart_fuse_eq (s : State) (p : Nat) (x : Part) : (s.setPart p x).fuse = s.fuse := rfl
@[simp] theorem State.setPart_boot_eq (s : State) (p : Nat) (x : Part) : (s.setPart p x).boot = s.boot := rfl
@[simp] theorem State.setPart_roe_eq (s : State) (p : Nat) (x : Part) : (s.setPart p x).roe = s.roe := rfl
@[simp] theorem State.setPart_i3c_eq (s : State) (p : Nat) (x : Part) : (s.setPart p x).i3c = s.i3c := rfl
@[simp] theorem State.setPart_trail_eq (s : State) (p : Nat) (x : Part) : (s.setPart p x).trail = s.trail := rfl
@[simp] theorem State.setPart_time_eq (s : State) (p : Nat) (x : Part) : (s.setPart p x).time = s.time := rfl
@[simp] theorem State.setPart_plans_eq (s : State) (p : Nat) (x : Part) : (s.setPart p x).plans = s.plans := rfl
@[simp] theorem State.setPart_mp_eq (s : State) (p : Nat) (x : Part) :
    (s.setPart p x).mp = { s.mp with parts := s.mp.parts.put p x } := rfl
@[simp] theorem State.setPart_fawn_eq (s : State) (p : Nat) (x : Part) : (s.setPart p x).fawn = s.fawn := rfl
@[simp] theorem State.setPart_links_eq (s : State) (p : Nat) (x : Part) : (s.setPart p x).links = s.links := rfl
@[simp] theorem State.setPart_sw_eq (s : State) (p : Nat) (x : Part) : (s.setPart p x).sw = s.sw := rfl
@[simp] theorem State.setPart_coll_eq (s : State) (p : Nat) (x : Part) : (s.setPart p x).coll = s.coll := rfl
@[simp] theorem State.setPart_cores_eq (s : State) (p : Nat) (x : Part) : (s.setPart p x).cores = s.cores := rfl
@[simp] theorem State.setPart_mem_eq (s : State) (p : Nat) (x : Part) : (s.setPart p x).mem = s.mem := rfl
@[simp] theorem State.setPart_cnt_eq (s : State) (p : Nat) (x : Part) : (s.setPart p x).cnt = s.cnt := rfl
@[simp] theorem State.setPart_free_eq (s : State) (p : Nat) (x : Part) : (s.setPart p x).free = s.free := rfl
@[simp] theorem State.setReg_pending_eq (s : State) (e : Nat) (r : RegDyn) : (s.setReg e r).pending = s.pending := rfl
@[simp] theorem State.setReg_fuse_eq (s : State) (e : Nat) (r : RegDyn) : (s.setReg e r).fuse = s.fuse := rfl
@[simp] theorem State.setReg_boot_eq (s : State) (e : Nat) (r : RegDyn) : (s.setReg e r).boot = s.boot := rfl
@[simp] theorem State.setReg_roe_eq (s : State) (e : Nat) (r : RegDyn) : (s.setReg e r).roe = s.roe := rfl
@[simp] theorem State.setReg_i3c_eq (s : State) (e : Nat) (r : RegDyn) : (s.setReg e r).i3c = s.i3c := rfl
@[simp] theorem State.setReg_trail_eq (s : State) (e : Nat) (r : RegDyn) : (s.setReg e r).trail = s.trail := rfl
@[simp] theorem State.setReg_time_eq (s : State) (e : Nat) (r : RegDyn) : (s.setReg e r).time = s.time := rfl
@[simp] theorem State.setReg_plans_eq (s : State) (e : Nat) (r : RegDyn) : (s.setReg e r).plans = s.plans := rfl
@[simp] theorem State.setReg_mp_eq (s : State) (e : Nat) (r : RegDyn) : (s.setReg e r).mp = s.mp := rfl
@[simp] theorem State.setReg_fawn_eq (s : State) (e : Nat) (r : RegDyn) : (s.setReg e r).fawn = s.fawn := rfl
@[simp] theorem State.setReg_links_eq (s : State) (e : Nat) (r : RegDyn) : (s.setReg e r).links = s.links := rfl
@[simp] theorem State.setReg_sw_eq (s : State) (e : Nat) (r : RegDyn) : (s.setReg e r).sw = s.sw := rfl
@[simp] theorem State.setReg_coll_eq (s : State) (e : Nat) (r : RegDyn) : (s.setReg e r).coll = s.coll := rfl
@[simp] theorem State.setReg_cores_eq (s : State) (e : Nat) (r : RegDyn) : (s.setReg e r).cores = s.cores := rfl
@[simp] theorem State.setReg_mem_eq (s : State) (e : Nat) (r : RegDyn) :
    (s.setReg e r).mem = { s.mem with regs := s.mem.regs.put e r } := rfl
@[simp] theorem State.setReg_cnt_eq (s : State) (e : Nat) (r : RegDyn) : (s.setReg e r).cnt = s.cnt := rfl
@[simp] theorem State.setReg_free_eq (s : State) (e : Nat) (r : RegDyn) : (s.setReg e r).free = s.free := rfl
@[simp] theorem State.setChunk_pending_eq (s : State) (cl k h : Nat) (c : ChunkSt) :
    (s.setChunk cl k h c).pending = s.pending := rfl
@[simp] theorem State.setChunk_fuse_eq (s : State) (cl k h : Nat) (c : ChunkSt) :
    (s.setChunk cl k h c).fuse = s.fuse := rfl
@[simp] theorem State.setChunk_boot_eq (s : State) (cl k h : Nat) (c : ChunkSt) :
    (s.setChunk cl k h c).boot = s.boot := rfl
@[simp] theorem State.setChunk_roe_eq (s : State) (cl k h : Nat) (c : ChunkSt) :
    (s.setChunk cl k h c).roe = s.roe := rfl
@[simp] theorem State.setChunk_i3c_eq (s : State) (cl k h : Nat) (c : ChunkSt) :
    (s.setChunk cl k h c).i3c = s.i3c := rfl
@[simp] theorem State.setChunk_trail_eq (s : State) (cl k h : Nat) (c : ChunkSt) :
    (s.setChunk cl k h c).trail = s.trail := rfl
@[simp] theorem State.setChunk_time_eq (s : State) (cl k h : Nat) (c : ChunkSt) :
    (s.setChunk cl k h c).time = s.time := rfl
@[simp] theorem State.setChunk_plans_eq (s : State) (cl k h : Nat) (c : ChunkSt) :
    (s.setChunk cl k h c).plans = s.plans := rfl
@[simp] theorem State.setChunk_mp_eq (s : State) (cl k h : Nat) (c : ChunkSt) : (s.setChunk cl k h c).mp = s.mp := rfl
@[simp] theorem State.setChunk_fawn_eq (s : State) (cl k h : Nat) (c : ChunkSt) :
    (s.setChunk cl k h c).fawn = s.fawn := rfl
@[simp] theorem State.setChunk_links_eq (s : State) (cl k h : Nat) (c : ChunkSt) :
    (s.setChunk cl k h c).links = s.links := rfl
@[simp] theorem State.setChunk_sw_eq (s : State) (cl k h : Nat) (c : ChunkSt) : (s.setChunk cl k h c).sw = s.sw := rfl
@[simp] theorem State.setChunk_coll_eq (s : State) (cl k h : Nat) (c : ChunkSt) :
    (s.setChunk cl k h c).coll = { s.coll with chunks := s.coll.chunks.put (cl, k, h) c } := rfl
@[simp] theorem State.setChunk_cores_eq (s : State) (cl k h : Nat) (c : ChunkSt) :
    (s.setChunk cl k h c).cores = s.cores := rfl
@[simp] theorem State.setChunk_mem_eq (s : State) (cl k h : Nat) (c : ChunkSt) :
    (s.setChunk cl k h c).mem = s.mem := rfl
@[simp] theorem State.setChunk_cnt_eq (s : State) (cl k h : Nat) (c : ChunkSt) :
    (s.setChunk cl k h c).cnt = s.cnt := rfl
@[simp] theorem State.setChunk_free_eq (s : State) (cl k h : Nat) (c : ChunkSt) :
    (s.setChunk cl k h c).free = s.free := rfl
@[simp] theorem State.countN_pending_eq (s : State) (c : Ctr) (i j n : Nat) :
    (s.countN c i j n).pending = s.pending := rfl
@[simp] theorem State.countN_fuse_eq (s : State) (c : Ctr) (i j n : Nat) : (s.countN c i j n).fuse = s.fuse := rfl
@[simp] theorem State.countN_boot_eq (s : State) (c : Ctr) (i j n : Nat) : (s.countN c i j n).boot = s.boot := rfl
@[simp] theorem State.countN_roe_eq (s : State) (c : Ctr) (i j n : Nat) : (s.countN c i j n).roe = s.roe := rfl
@[simp] theorem State.countN_i3c_eq (s : State) (c : Ctr) (i j n : Nat) : (s.countN c i j n).i3c = s.i3c := rfl
@[simp] theorem State.countN_trail_eq (s : State) (c : Ctr) (i j n : Nat) : (s.countN c i j n).trail = s.trail := rfl
@[simp] theorem State.countN_time_eq (s : State) (c : Ctr) (i j n : Nat) : (s.countN c i j n).time = s.time := rfl
@[simp] theorem State.countN_plans_eq (s : State) (c : Ctr) (i j n : Nat) : (s.countN c i j n).plans = s.plans := rfl
@[simp] theorem State.countN_mp_eq (s : State) (c : Ctr) (i j n : Nat) : (s.countN c i j n).mp = s.mp := rfl
@[simp] theorem State.countN_fawn_eq (s : State) (c : Ctr) (i j n : Nat) : (s.countN c i j n).fawn = s.fawn := rfl
@[simp] theorem State.countN_links_eq (s : State) (c : Ctr) (i j n : Nat) : (s.countN c i j n).links = s.links := rfl
@[simp] theorem State.countN_sw_eq (s : State) (c : Ctr) (i j n : Nat) : (s.countN c i j n).sw = s.sw := rfl
@[simp] theorem State.countN_coll_eq (s : State) (c : Ctr) (i j n : Nat) : (s.countN c i j n).coll = s.coll := rfl
@[simp] theorem State.countN_cores_eq (s : State) (c : Ctr) (i j n : Nat) : (s.countN c i j n).cores = s.cores := rfl
@[simp] theorem State.countN_mem_eq (s : State) (c : Ctr) (i j n : Nat) : (s.countN c i j n).mem = s.mem := rfl
@[simp] theorem State.countN_cnt_eq (s : State) (c : Ctr) (i j n : Nat) :
    (s.countN c i j n).cnt = s.cnt.put ⟨c, i, j⟩ (min Config.ctrMax (s.ctr c i j + n)) := rfl
@[simp] theorem State.countN_free_eq (s : State) (c : Ctr) (i j n : Nat) : (s.countN c i j n).free = s.free := rfl

end Machine
end Sys2Proof
end

