-- ==== Sys2Proof/Laws/Elems.lean ====
section
/-!
SUPPORT. The laws of elements and registers: an element of what was packed is what was packed, a masked write changes the
governed elements only, and a register reads what was written to it.
-/
namespace Sys2Proof.Machine

/-! ### Elements (R47, R95) -/

/-- An element is below 2^w. -/
theorem elemAt_lt (x w k : Nat) (h : 0 < w) : elemAt x w k < 2 ^ w := by
  unfold elemAt bits
  rw [show w * k + w - 1 + 1 - w * k = w by omega]
  exact Nat.mod_lt _ (Nat.two_pow_pos w)

/-- An element as a quotient and remainder. -/
theorem elemAt_eq (x w k : Nat) (h : 0 < w) : elemAt x w k = x / 2 ^ (w * k) % 2 ^ w := by
  unfold elemAt bits
  rw [show w * k + w - 1 + 1 - w * k = w by omega, Nat.shiftRight_eq_div_pow]

/-- What is packed is as wide as its elements. -/
theorem packElems_lt (w : Nat) (es : List Nat) : packElems w es < 2 ^ (w * es.length) := by
  induction es with
  | nil => simp [packElems]
  | cons a es ih =>
    rw [packElems, List.length_cons, Nat.mul_succ, Nat.pow_add, Nat.mul_comm (2 ^ (w * es.length))]
    have h1 : a % 2 ^ w < 2 ^ w := Nat.mod_lt _ (Nat.two_pow_pos w)
    have h2 : 2 ^ w * packElems w es + 2 ^ w ≤ 2 ^ w * 2 ^ (w * es.length) := by
      rw [← Nat.mul_succ]; exact Nat.mul_le_mul_left _ ih
    omega

/-- Element `k` of what was packed, zero past the last. -/
theorem elemAt_packElems (w : Nat) (h : 0 < w) (es : List Nat) (k : Nat) :
    elemAt (packElems w es) w k = (es[k]?.getD 0) % 2 ^ w := by
  rw [elemAt_eq _ _ _ h]
  induction es generalizing k with
  | nil => simp [packElems]
  | cons a es ih =>
    have hp : 0 < 2 ^ w := Nat.two_pow_pos w
    cases k with
    | zero => simp [packElems, Nat.add_mul_mod_self_left]
    | succ k =>
      rw [packElems, Nat.mul_succ, Nat.add_comm (w * k), Nat.pow_add, ← Nat.div_div_eq_div_mul,
        Nat.add_mul_div_left _ _ hp, Nat.div_eq_of_lt (Nat.mod_lt a hp), Nat.zero_add, ih k]
      simp

/-- The elements of a register. -/
@[simp] theorem elemsAt_length (x w n : Nat) : (elemsAt x w n).length = n := by simp [elemsAt]

/-- Element `k` of the elements of a register. -/
theorem elemsAt_get (x w n k : Nat) (h : k < n) : (elemsAt x w n)[k]? = some (elemAt x w k) := by
  simp [elemsAt, h]

/-- Element `k` of a masked write: the new one where the mask governs it, the old one elsewhere. -/
theorem merged_get (m w : Nat) (old new : List Nat) (k a b : Nat) (ho : old[k]? = some a) (hn : new[k]? = some b) :
    (merged m w old new)[k]? = some (if governs m w k then b else a) := by
  simp [merged, List.getElem?_zipIdx, ho, hn, List.zip, List.getElem?_zipWith]

/-- A masked write has as many elements as both its lists. -/
theorem merged_length (m w : Nat) (old new : List Nat) : (merged m w old new).length = min old.length new.length := by
  simp [merged]

/-! ### Registers (R93) -/

/-- A V register reads what was written to it. -/
theorem Core.rv_wv (c : Core) {n : Nat} (h : n < 32) (x : Nat) : (c.wv n x).rv n = x % 2 ^ 512 := by
  unfold Core.rv Core.wv
  rw [if_pos h, AMap.at_put_same, BitVec.toNat_ofNat]

/-- Another V register reads as before. -/
theorem Core.rv_wv_other (c : Core) {n k : Nat} (h : n ≠ k) (x : Nat) : (c.wv n x).rv k = c.rv k := by
  unfold Core.rv Core.wv
  split
  · rw [AMap.at_put_other _ h]
  · rfl

/-- A scalar register reads what was written to it; S0 stays 0. -/
theorem Core.rs_ws (c : Core) {n : Nat} (h : n < 16) (x : Word) : (c.ws n x).rs n = if n = 0 then 0 else x := by
  unfold Core.rs Core.ws
  by_cases h0 : n = 0
  · simp [h0]
  · rw [if_neg h0, if_neg h0, if_neg (by omega)]; exact AMap.at_put_same _ _ _ _

/-- Another scalar register reads as before. -/
theorem Core.rs_ws_other (c : Core) {n k : Nat} (h : n ≠ k) (x : Word) : (c.ws n x).rs k = c.rs k := by
  unfold Core.rs Core.ws
  by_cases hn : n = 0 ∨ 16 ≤ n
  · rw [if_pos hn]
  · rw [if_neg hn, AMap.at_put_other _ h]

/-- A mask register reads what was written to it; M0 stays all ones. -/
theorem Core.rm_wm (c : Core) {n : Nat} (h : n < 8) (x : Nat) :
    (c.wm n x).rm n = if n = 0 then 2 ^ 32 - 1 else x % 2 ^ 32 := by
  unfold Core.rm Core.wm
  by_cases h0 : n = 0
  · simp [h0]
  · rw [if_neg h0, if_neg h0, if_neg (by omega)]
    rw [AMap.at_put_same, BitVec.toNat_ofNat]

/-- Another mask register reads as before. -/
theorem Core.rm_wm_other (c : Core) {n k : Nat} (h : n ≠ k) (x : Nat) : (c.wm n x).rm k = c.rm k := by
  unfold Core.rm Core.wm
  by_cases hn : n = 0 ∨ 8 ≤ n
  · rw [if_pos hn]
  · rw [if_neg hn, AMap.at_put_other _ h]

end Sys2Proof.Machine
end

