-- ==== Sys2Proof/Laws/Keep.lean ====
section
/-!
SUPPORT. What the shared operations and the commands leave alone: the queue, the fuse bank, the data SRAMs and the DRAM.
`State.keep` is these four pieces; a lemma `f_keep` says that `f` changes none of them. The few operations that change one
are in Laws/Kept.lean.
-/
set_option maxRecDepth 4000
set_option linter.unusedSimpArgs false
set_option linter.unusedVariables false

namespace Sys2Proof.Machine

theorem keep_mk (q : List Instr) (f : Fuse) (bo : Boot) (ro : Roe) (ic : I3c) (tr : Trail) (ti : TimeSt) (pl : Plans)
    (mp : Mp) (fa : Fawn) (li : AMap Nat Link) (sw : Switch) (co : Coll) (cs : AMap Nat Core) (me : MemSt)
    (cn : AMap CKey Nat) (fr : Nat) :
    (State.mk q f bo ro ic tr ti pl mp fa li sw co cs me cn fr).keep = (q, f, co.sram, me.dram) := rfl

theorem keep_fold (s : State) : (s.pending, s.fuse, s.coll.sram, s.mem.dram) = s.keep := rfl

theorem foldl_keep {α} (f : State → α → State) (h : ∀ s x, (f s x).keep = s.keep) (l : List α) (s : State) :
    (l.foldl f s).keep = s.keep := by
  induction l generalizing s with
  | nil => rfl
  | cons a l ih => simp only [List.foldl_cons, ih, h]

theorem foldl1_keep {α β} (f : State × β → α → State × β) (h : ∀ s x, (f s x).1.keep = s.1.keep) (l : List α)
    (s : State × β) : (l.foldl f s).1.keep = s.1.keep := by
  induction l generalizing s with
  | nil => rfl
  | cons a l ih => simp only [List.foldl_cons, ih, h]

theorem foldl2_keep {α β} (f : β × State → α → β × State) (h : ∀ s x, (f s x).2.keep = s.2.keep) (l : List α)
    (s : β × State) : (l.foldl f s).2.keep = s.2.keep := by
  induction l generalizing s with
  | nil => rfl
  | cons a l ih => simp only [List.foldl_cons, ih, h]

theorem ite_keep {c : Prop} [Decidable c] {a b : State} {x} (h1 : c → a.keep = x) (h2 : ¬c → b.keep = x) :
    (if c then a else b).keep = x := by
  split
  · exact h1 ‹_›
  · exact h2 ‹_›

theorem ite1_keep {β} {c : Prop} [Decidable c] {a b : State × β} {x} (h1 : c → a.1.keep = x) (h2 : ¬c → b.1.keep = x) :
    (if c then a else b).1.keep = x := by
  split
  · exact h1 ‹_›
  · exact h2 ‹_›

theorem ite2_keep {β} {c : Prop} [Decidable c] {a b : β × State} {x} (h1 : c → a.2.keep = x) (h2 : ¬c → b.2.keep = x) :
    (if c then a else b).2.keep = x := by
  split
  · exact h1 ‹_›
  · exact h2 ‹_›

theorem getD_keep {o : Option State} {b : State} {x} (h1 : ∀ y, o = some y → y.keep = x) (h2 : b.keep = x) :
    (o.getD b).keep = x := by
  cases o with
  | none => exact h2
  | some y => exact h1 y rfl

theorem when_keep {c : Bool} {a b : State} {x} (h1 : a.keep = x) (h2 : b.keep = x) : (when_ c a b).keep = x := by
  unfold when_; split
  · exact h2
  · exact h1

theorem State.countN_keep : ∀ (s : State) (c : Ctr) (i j n : Nat), (s.countN c i j n).keep = s.keep := by
  intros; unfold State.countN; (try dsimp only)
  repeat' (first
      | (with_reducible rfl) | (simp only [keep_mk, keep_fold])
      | (with_reducible refine ite_keep (fun _ => ?_) fun _ => ?_)
      | (with_reducible refine ite1_keep (fun _ => ?_) fun _ => ?_)
      | (with_reducible refine ite2_keep (fun _ => ?_) fun _ => ?_) | (with_reducible refine when_keep ?_ ?_)
      | (with_reducible refine (foldl_keep _ (fun _ _ => ?_) _ _).trans ?_)
      | (with_reducible refine (foldl1_keep _ (fun _ _ => ?_) _ _).trans ?_)
      | (with_reducible refine (foldl2_keep _ (fun _ _ => ?_) _ _).trans ?_)
      | (with_reducible refine getD_keep (fun _ _ => ?_) ?_) | split | (simp_all; done))

theorem State.count_keep : ∀ (s : State) (c : Ctr) (i j : Nat), (s.count c i j).keep = s.keep := by intros; rfl

theorem portCopies_keep :
    ∀ (s : State) (r : Option Route) (exempt : Bool) (hs : List (BitVec 256 × Hit)) (vc : Nat), (portCopies s r exempt hs vc).fst.keep = s.keep := by
  intros; unfold portCopies; (try dsimp only)
  repeat' (first
      | (with_reducible rfl) | (simp only [keep_mk, keep_fold])
      | (with_reducible refine ite_keep (fun _ => ?_) fun _ => ?_)
      | (with_reducible refine ite1_keep (fun _ => ?_) fun _ => ?_)
      | (with_reducible refine ite2_keep (fun _ => ?_) fun _ => ?_)
      | (with_reducible refine (foldl_keep _ (fun _ _ => ?_) _ _).trans ?_)
      | (with_reducible refine (foldl1_keep _ (fun _ _ => ?_) _ _).trans ?_)
      | (with_reducible refine (foldl2_keep _ (fun _ _ => ?_) _ _).trans ?_) | (simp only [↓State.count_keep]) | split
      | (simp_all; done))

theorem State.beginRequests_keep : ∀ (s : State) (l v : Nat), (s.beginRequests l v).keep = s.keep := by
  intros; unfold State.beginRequests; (try dsimp only)
  repeat' (first
      | (with_reducible rfl) | (simp only [keep_mk, keep_fold])
      | (with_reducible refine ite_keep (fun _ => ?_) fun _ => ?_)
      | (with_reducible refine (foldl_keep _ (fun _ _ => ?_) _ _).trans ?_) | split | (simp_all; done))

theorem State.setLink_keep : ∀ (s : State) (l : Nat) (k : Link), (s.setLink l k).keep = s.keep := by intros; rfl

theorem State.freeCredits_keep : ∀ (s : State) (l vc pool n : Nat), (s.freeCredits l vc pool n).keep = s.keep := by
  intros; unfold State.freeCredits; (try dsimp only)
  repeat' (first
      | (with_reducible rfl) | (simp only [keep_mk, keep_fold])
      | (with_reducible refine ite_keep (fun _ => ?_) fun _ => ?_) | (simp only [↓State.setLink_keep]) | split
      | (simp_all; done))

theorem release_keep : ∀ (s : State) (b : BufPkt) (n : Nat), (release s b n).keep = s.keep := by
  intros; unfold release; (try dsimp only)
  repeat' (first
      | (with_reducible rfl) | (simp only [keep_mk, keep_fold])
      | (with_reducible refine ite_keep (fun _ => ?_) fun _ => ?_)
      | (with_reducible refine ite1_keep (fun _ => ?_) fun _ => ?_)
      | (with_reducible refine ite2_keep (fun _ => ?_) fun _ => ?_) | (with_reducible refine when_keep ?_ ?_)
      | (with_reducible refine (foldl_keep _ (fun _ _ => ?_) _ _).trans ?_)
      | (with_reducible refine (foldl1_keep _ (fun _ _ => ?_) _ _).trans ?_)
      | (with_reducible refine (foldl2_keep _ (fun _ _ => ?_) _ _).trans ?_)
      | (with_reducible refine getD_keep (fun _ _ => ?_) ?_) | (simp only [↓State.freeCredits_keep]) | split
      | (simp_all; done))

theorem evict_keep : ∀ (s : State) (b : BufPkt), (evict s b).keep = s.keep := by
  intros; unfold evict; (try dsimp only)
  repeat' (first
      | (with_reducible rfl) | (simp only [keep_mk, keep_fold])
      | (with_reducible refine ite_keep (fun _ => ?_) fun _ => ?_)
      | (with_reducible refine ite1_keep (fun _ => ?_) fun _ => ?_)
      | (with_reducible refine ite2_keep (fun _ => ?_) fun _ => ?_) | (with_reducible refine when_keep ?_ ?_)
      | (with_reducible refine (foldl_keep _ (fun _ _ => ?_) _ _).trans ?_)
      | (with_reducible refine (foldl1_keep _ (fun _ _ => ?_) _ _).trans ?_)
      | (with_reducible refine (foldl2_keep _ (fun _ _ => ?_) _ _).trans ?_)
      | (with_reducible refine getD_keep (fun _ _ => ?_) ?_)
      | (simp only [↓State.beginRequests_keep, ↓State.count_keep, ↓release_keep]) | split | (simp_all; done))

theorem pushOut_keep : ∀ (d n a : Nat) (a_1 : State), (pushOut d n a a_1).keep = a_1.keep := by
  intros; fun_induction pushOut
  all_goals simp_all [↓evict_keep, keep_mk, keep_fold]

theorem makeRoom_keep :
    ∀ (s : State) (d vc : Nat) (a : Acct) (n : Nat) (y : State), makeRoom s d vc a n = some y → y.keep = s.keep := by
  intros; rename_i h; unfold makeRoom at h; (try dsimp only at h); (repeat' split at h)
  all_goals (first | contradiction | (injection h with h; subst h))
  all_goals (repeat' (first
      | (with_reducible rfl) | (simp only [keep_mk, keep_fold])
      | (with_reducible refine ite_keep (fun _ => ?_) fun _ => ?_) | (simp only [↓pushOut_keep]) | split
      | (simp_all; done)))

theorem State.noteCopies_keep :
    ∀ (s : State) (i : Nat) (h : BitVec 256) (hs : List (BitVec 256 × Hit)), (s.noteCopies i h hs).keep = s.keep := by
  intros; unfold State.noteCopies; (try dsimp only)
  repeat' (first
      | (with_reducible rfl) | (simp only [keep_mk, keep_fold])
      | (with_reducible refine ite_keep (fun _ => ?_) fun _ => ?_)
      | (with_reducible refine ite1_keep (fun _ => ?_) fun _ => ?_)
      | (with_reducible refine ite2_keep (fun _ => ?_) fun _ => ?_) | (simp only [↓State.countN_keep]) | split
      | (simp_all; done))

theorem State.trailPut_keep : ∀ (s : State) (f : Frame), (s.trailPut f).keep = s.keep := by
  intros; unfold State.trailPut; (try dsimp only)
  repeat' (first
      | (with_reducible rfl) | (simp only [keep_mk, keep_fold])
      | (with_reducible refine ite_keep (fun _ => ?_) fun _ => ?_) | split | (simp_all; done))

theorem State.trailSend_keep :
    ∀ (s : State) (type plane : Nat) (payload : List Byte), (s.trailSend type plane payload).keep = s.keep := by
  intros; unfold State.trailSend; simp only [↓State.trailPut_keep, keep_mk, keep_fold]

theorem State.wakeFirst_keep : ∀ (s : State) (plane : Nat), (s.wakeFirst plane).keep = s.keep := by
  intros; unfold State.wakeFirst; (try dsimp only)
  repeat' (first
      | (with_reducible rfl) | (simp only [keep_mk, keep_fold])
      | (with_reducible refine ite_keep (fun _ => ?_) fun _ => ?_) | (simp only [↓State.trailSend_keep]) | split
      | (simp_all; done))

theorem State.toTrail_keep : ∀ (s : State) (i plane : Nat) (p : Packet), (s.toTrail i plane p).keep = s.keep := by
  intros; unfold State.toTrail; (try dsimp only)
  repeat' (first
      | (with_reducible rfl) | (simp only [keep_mk, keep_fold])
      | (with_reducible refine ite_keep (fun _ => ?_) fun _ => ?_)
      | (simp only [↓State.wakeFirst_keep, ↓State.count_keep]) | split | (simp_all; done))

theorem deliverUnit_keep :
    ∀ (s : State) (src : From) (vc : Nat) (p : Packet) (bad : Bool) (hit : Hit), (deliverUnit s src vc p bad hit).keep = s.keep := by
  intros; unfold deliverUnit; (try dsimp only)
  repeat' (first
      | (with_reducible rfl) | (simp only [keep_mk, keep_fold]) | (simp only [↓State.toTrail_keep, ↓State.count_keep])
      | split | (simp_all; done))

theorem State.releaseLate_keep : ∀ (s : State) (h : BitVec 256), (s.releaseLate h).keep = s.keep := by
  intros; unfold State.releaseLate; (try dsimp only)
  repeat' (first
      | (with_reducible rfl) | (simp only [keep_mk, keep_fold]) | (with_reducible refine getD_keep (fun _ _ => ?_) ?_)
      | (simp only [↓State.count_keep]) | split | (simp_all; done))

theorem holdTbarrier_keep :
    ∀ (s : State) (cps : List Copy) (p : Packet), (holdTbarrier s cps p).fst.keep = s.keep := by
  intros; unfold holdTbarrier; (try dsimp only)
  repeat' (first
      | (with_reducible rfl) | (simp only [keep_mk, keep_fold])
      | (with_reducible refine ite_keep (fun _ => ?_) fun _ => ?_)
      | (with_reducible refine ite1_keep (fun _ => ?_) fun _ => ?_)
      | (with_reducible refine ite2_keep (fun _ => ?_) fun _ => ?_)
      | (with_reducible refine (foldl_keep _ (fun _ _ => ?_) _ _).trans ?_)
      | (with_reducible refine (foldl1_keep _ (fun _ _ => ?_) _ _).trans ?_)
      | (with_reducible refine (foldl2_keep _ (fun _ _ => ?_) _ _).trans ?_)
      | (simp only [↓State.releaseLate_keep, ↓State.setLink_keep]) | split | (simp_all; done))

theorem State.setChan_keep : ∀ (s : State) (l v : Nat) (c : Chan), (s.setChan l v c).keep = s.keep := by intros; rfl

theorem State.noteDepth_keep : ∀ (s : State) (l v : Nat), (s.noteDepth l v).keep = s.keep := by
  intros; unfold State.noteDepth; (try dsimp only)
  repeat' (first
      | (with_reducible rfl) | (simp only [keep_mk, keep_fold])
      | (with_reducible refine ite_keep (fun _ => ?_) fun _ => ?_) | (simp only [↓State.setChan_keep]) | split
      | (simp_all; done))

theorem State.putBuf_keep : ∀ (s : State) (b : BufPkt), (s.putBuf b).keep = s.keep := by
  intros; unfold State.putBuf; (try dsimp only)
  repeat' (first
      | (with_reducible rfl) | (simp only [keep_mk, keep_fold])
      | (with_reducible refine (foldl_keep _ (fun _ _ => ?_) _ _).trans ?_)
      | (simp only [↓State.beginRequests_keep, ↓State.noteDepth_keep]) | split | (simp_all; done))

theorem place_keep : ∀ (s : State) (o : OutPkt) (y : State), place s o = some y → y.keep = s.keep := by
  intro s o y h; unfold place at h; (try dsimp only at h); (repeat' split at h)
  all_goals (first
      | contradiction | (injection h with h; subst h)
      | (obtain ⟨z, hz, rfl⟩ := Option.map_eq_some_iff.mp h; clear h; rw [State.putBuf_keep, makeRoom_keep _ _ _ _ _ _ hz]; clear hz))
  all_goals (repeat' (first
      | (with_reducible rfl) | (simp only [keep_mk, keep_fold])
      | (with_reducible refine ite_keep (fun _ => ?_) fun _ => ?_)
      | (with_reducible refine (foldl_keep _ (fun _ _ => ?_) _ _).trans ?_)
      | (refine Eq.trans (makeRoom_keep _ _ _ _ _ _ ‹_›) ?_)
      | (simp only [↓portCopies_keep, ↓State.noteCopies_keep, ↓deliverUnit_keep, ↓holdTbarrier_keep, ↓State.putBuf_keep, ↓State.count_keep])
      | split | (simp_all; done)))

theorem originate_keep : ∀ (s : State) (o : OutPkt), (originate s o).keep = s.keep := by
  intros; unfold originate; (try dsimp only)
  repeat' (first
      | (with_reducible rfl) | (simp only [keep_mk, keep_fold])
      | (with_reducible refine ite_keep (fun _ => ?_) fun _ => ?_)
      | (with_reducible refine getD_keep (fun _ _ => ?_) ?_) | (refine Eq.trans (place_keep _ _ _ ‹_›) ?_) | split
      | (simp_all; done))

theorem State.fromCluster_keep :
    ∀ (s : State) (cl vc part : Nat) (p : Packet) (refusal : optParam Bool false), (s.fromCluster cl vc part p refusal).keep = s.keep := by
  intros; unfold State.fromCluster; simp only [↓originate_keep, keep_mk, keep_fold]

theorem State.setReg_keep : ∀ (s : State) (e : Nat) (r : RegDyn), (s.setReg e r).keep = s.keep := by intros; rfl

theorem State.sendRsp_keep :
    ∀ (s : State) (cl : Nat) (p : Packet) (refusal : optParam Bool false), (s.sendRsp cl p refusal).keep = s.keep := by
  intros; unfold State.sendRsp; simp only [↓State.fromCluster_keep, keep_mk, keep_fold]

theorem State.failGrp_keep : ∀ (s : State) (w : MirrorWr), (s.failGrp w).keep = s.keep := by
  intros; unfold State.failGrp; (try dsimp only)
  repeat' (first
      | (with_reducible rfl) | (simp only [keep_mk, keep_fold]) | (simp only [↓State.sendRsp_keep]) | split
      | (simp_all; done))

theorem State.failLater_keep : ∀ (s : State) (entry : Nat), (s.failLater entry).keep = s.keep := by
  intros; unfold State.failLater; (try dsimp only)
  repeat' (first
      | (with_reducible rfl) | (simp only [keep_mk, keep_fold])
      | (with_reducible refine (foldl_keep _ (fun _ _ => ?_) _ _).trans ?_) | (simp only [↓State.failGrp_keep])
      | split | (simp_all; done))

theorem State.goSolo_keep : ∀ (s : State) (entry : Nat), (s.goSolo entry).keep = s.keep := by
  intros; unfold State.goSolo; simp only [↓State.setReg_keep, ↓State.failLater_keep, keep_mk, keep_fold]

theorem State.putMsg_keep : ∀ (s : State) (m : Msg), (s.putMsg m).keep = s.keep := by intros; rfl

theorem State.failMsg_keep : ∀ (s : State) (m : Msg) (st : Nat), (s.failMsg m st).keep = s.keep := by
  intros; unfold State.failMsg; (try dsimp only)
  repeat' (first
      | (with_reducible rfl) | (simp only [keep_mk, keep_fold])
      | (simp only [↓State.sendRsp_keep, ↓State.putMsg_keep, ↓State.count_keep]) | split | (simp_all; done))

theorem State.health_keep : ∀ (s : State) (row n : Nat), (s.health row n).keep = s.keep := by
  intros; unfold State.health; (try dsimp only)
  repeat' (first
      | (with_reducible rfl) | (simp only [keep_mk, keep_fold])
      | (with_reducible refine ite_keep (fun _ => ?_) fun _ => ?_)
      | (with_reducible refine getD_keep (fun _ _ => ?_) ?_) | split | (simp_all; done))

theorem State.eccUncorr_keep : ∀ (s : State) (cl n : Nat), (s.eccUncorr cl n).keep = s.keep := by
  intros; unfold State.eccUncorr; (try dsimp only)
  repeat' (first
      | (with_reducible rfl) | (simp only [keep_mk, keep_fold])
      | (with_reducible refine ite_keep (fun _ => ?_) fun _ => ?_)
      | (simp only [↓State.countN_keep, ↓State.health_keep]) | split | (simp_all; done))

theorem State.newTag_keep : ∀ (s : State), s.newTag.snd.keep = s.keep := by
  intros; unfold State.newTag; (try dsimp only)
  repeat' (first
      | (with_reducible rfl) | (simp only [keep_mk, keep_fold])
      | (with_reducible refine ite_keep (fun _ => ?_) fun _ => ?_)
      | (with_reducible refine ite1_keep (fun _ => ?_) fun _ => ?_)
      | (with_reducible refine ite2_keep (fun _ => ?_) fun _ => ?_) | (with_reducible refine when_keep ?_ ?_)
      | (with_reducible refine (foldl_keep _ (fun _ _ => ?_) _ _).trans ?_)
      | (with_reducible refine (foldl1_keep _ (fun _ _ => ?_) _ _).trans ?_)
      | (with_reducible refine (foldl2_keep _ (fun _ _ => ?_) _ _).trans ?_)
      | (with_reducible refine getD_keep (fun _ _ => ?_) ?_) | split | (simp_all; done))

theorem State.sendMirror_keep :
    ∀ (s : State) (r : BitVec 256) (grans : List Nat) (w : MirrorWr), (s.sendMirror r grans w).keep = s.keep := by
  intros; unfold State.sendMirror; (try dsimp only)
  repeat' (first
      | (with_reducible rfl) | (simp only [keep_mk, keep_fold])
      | (with_reducible refine (foldl_keep _ (fun _ _ => ?_) _ _).trans ?_)
      | (simp only [↓State.newTag_keep, ↓State.fromCluster_keep]) | split | (simp_all; done))

theorem State.mirrorChange_keep :
    ∀ (s : State) (cl entry : Nat) (r : BitVec 256) (grans : List Nat) (resp : Packet) (last : Bool) (msg : Option (Nat × Nat)), (s.mirrorChange cl entry r grans resp last msg).keep = s.keep := by
  intros; unfold State.mirrorChange; (try dsimp only)
  repeat' (first
      | (with_reducible rfl) | (simp only [keep_mk, keep_fold])
      | (with_reducible refine ite_keep (fun _ => ?_) fun _ => ?_)
      | (with_reducible refine ite1_keep (fun _ => ?_) fun _ => ?_)
      | (with_reducible refine ite2_keep (fun _ => ?_) fun _ => ?_)
      | (simp only [↓State.newTag_keep, ↓State.sendMirror_keep]) | split | (simp_all; done))

theorem State.dropMirror_keep : ∀ (s : State) (tag : Nat), (s.dropMirror tag).keep = s.keep := by intros; rfl

theorem State.setBufPkt_keep : ∀ (s : State) (old new : BufPkt), (s.setBufPkt old new).keep = s.keep := by
  intros; unfold State.setBufPkt; (try dsimp only)
  repeat' (first
      | (with_reducible rfl) | (simp only [keep_mk, keep_fold])
      | (with_reducible refine ite_keep (fun _ => ?_) fun _ => ?_)
      | (with_reducible refine (foldl_keep _ (fun _ _ => ?_) _ _).trans ?_)
      | (simp only [↓State.beginRequests_keep, ↓release_keep]) | split | (simp_all; done))

theorem State.endCopy_keep :
    ∀ (s : State) (id k : Nat) (cause : Option Nat), (s.endCopy id k cause).keep = s.keep := by
  intros; unfold State.endCopy; (try dsimp only)
  repeat' (first
      | (with_reducible rfl) | (simp only [keep_mk, keep_fold])
      | (with_reducible refine ite_keep (fun _ => ?_) fun _ => ?_)
      | (simp only [↓State.setChan_keep, ↓State.setBufPkt_keep]) | split | (simp_all; done))

theorem refuseCmd_keep : ∀ (s : State) (status : Nat), (refuseCmd s status).st.keep = s.keep := by intros; rfl

theorem State.fromMp_keep : ∀ (s : State) (vc part : Nat) (p : Packet), (s.fromMp vc part p).keep = s.keep := by
  intros; unfold State.fromMp; simp only [↓originate_keep, keep_mk, keep_fold]

theorem State.sendNotice_keep : ∀ (s : State), s.sendNotice.keep = s.keep := by
  intros; unfold State.sendNotice; (try dsimp only)
  repeat' (first
      | (with_reducible rfl) | (simp only [keep_mk, keep_fold])
      | (with_reducible refine ite_keep (fun _ => ?_) fun _ => ?_)
      | (with_reducible refine ite1_keep (fun _ => ?_) fun _ => ?_)
      | (with_reducible refine ite2_keep (fun _ => ?_) fun _ => ?_) | (with_reducible refine when_keep ?_ ?_)
      | (with_reducible refine (foldl_keep _ (fun _ _ => ?_) _ _).trans ?_)
      | (with_reducible refine (foldl1_keep _ (fun _ _ => ?_) _ _).trans ?_)
      | (with_reducible refine (foldl2_keep _ (fun _ _ => ?_) _ _).trans ?_)
      | (with_reducible refine getD_keep (fun _ _ => ?_) ?_) | (simp only [↓State.fromMp_keep]) | split
      | (simp_all; done))

theorem State.setCore_keep : ∀ (s : State) (g : Nat) (c : Core), (s.setCore g c).keep = s.keep := by intros; rfl

theorem State.setRun_keep : ∀ (s : State) (g : Nat) (r : Option Run), (s.setRun g r).keep = s.keep := by intros; rfl

theorem State.modRun_keep : ∀ (s : State) (g : Nat) (f : Run → Run), (s.modRun g f).keep = s.keep := by
  intros; unfold State.modRun; (try dsimp only)
  repeat' (first
      | (with_reducible rfl) | (simp only [keep_mk, keep_fold]) | (simp only [↓State.setRun_keep]) | split
      | (simp_all; done))

theorem State.answerFetches_keep : ∀ (s : State) (g st : Nat), (s.answerFetches g st).keep = s.keep := by
  intros; unfold State.answerFetches; simp only [↓State.modRun_keep, keep_mk, keep_fold]

theorem State.setChunk_keep :
    ∀ (s : State) (cl slot h : Nat) (c : ChunkSt), (s.setChunk cl slot h c).keep = s.keep := by intros; rfl

theorem State.withdraw_keep :
    ∀ (s : State) (e : CEnv) (inst : Nat), (s.withdraw e inst).keep = s.keep := by intros; rfl

theorem State.recordFault_keep :
    ∀ (s : State) (g : Nat) (id : CtxId) (st : Nat), (s.recordFault g id st).keep = s.keep := by
  intros; unfold State.recordFault; (try dsimp only)
  repeat' (first
      | (with_reducible rfl) | (simp only [keep_mk, keep_fold])
      | (with_reducible refine ite_keep (fun _ => ?_) fun _ => ?_)
      | (simp only [↓State.setChunk_keep, ↓State.withdraw_keep, ↓State.setCore_keep]) | split | (simp_all; done))

theorem State.dropRun_keep : ∀ (s : State) (g : Nat), (s.dropRun g).keep = s.keep := by
  intros; unfold State.dropRun; (try dsimp only)
  repeat' (first
      | (with_reducible rfl) | (simp only [keep_mk, keep_fold])
      | (with_reducible refine ite_keep (fun _ => ?_) fun _ => ?_)
      | (with_reducible refine ite1_keep (fun _ => ?_) fun _ => ?_)
      | (with_reducible refine ite2_keep (fun _ => ?_) fun _ => ?_) | (with_reducible refine when_keep ?_ ?_)
      | (with_reducible refine (foldl_keep _ (fun _ _ => ?_) _ _).trans ?_)
      | (with_reducible refine (foldl1_keep _ (fun _ _ => ?_) _ _).trans ?_)
      | (with_reducible refine (foldl2_keep _ (fun _ _ => ?_) _ _).trans ?_)
      | (with_reducible refine getD_keep (fun _ _ => ?_) ?_) | (simp only [↓State.setCore_keep]) | split
      | (simp_all; done))

theorem State.cutWait_keep : ∀ (s : State) (g : Nat) (id : CtxId), (s.cutWait g id).keep = s.keep := by
  intros; unfold State.cutWait; (try dsimp only)
  repeat' (first
      | (with_reducible rfl) | (simp only [keep_mk, keep_fold])
      | (with_reducible refine ite_keep (fun _ => ?_) fun _ => ?_)
      | (simp only [↓State.answerFetches_keep, ↓State.recordFault_keep, ↓State.dropRun_keep]) | split
      | (simp_all; done))

theorem State.cutWrites_keep : ∀ (s : State) (g : Nat) (id : CtxId), (s.cutWrites g id).keep = s.keep := by
  intros; unfold State.cutWrites; (try dsimp only)
  repeat' (first
      | (with_reducible rfl) | (simp only [keep_mk, keep_fold])
      | (with_reducible refine ite_keep (fun _ => ?_) fun _ => ?_)
      | (simp only [↓State.recordFault_keep, ↓State.setCore_keep]) | split | (simp_all; done))

theorem State.faultAt_keep : ∀ (s : State) (g : Nat) (id : CtxId) (st : Nat), (s.faultAt g id st).keep = s.keep := by
  intros; unfold State.faultAt; (try dsimp only)
  repeat' (first
      | (with_reducible rfl) | (simp only [keep_mk, keep_fold])
      | (with_reducible refine ite_keep (fun _ => ?_) fun _ => ?_)
      | (with_reducible refine (foldl_keep _ (fun _ _ => ?_) _ _).trans ?_)
      | (simp only [↓State.cutWait_keep, ↓State.recordFault_keep, ↓State.cutWrites_keep]) | split | (simp_all; done))

theorem State.residueFail_keep :
    ∀ (s : State) (e : Env) (tiles : List Nat) (all : Bool), (s.residueFail e tiles all).keep = s.keep := by
  intros; unfold State.residueFail; (try dsimp only)
  repeat' (first
      | (with_reducible rfl) | (simp only [keep_mk, keep_fold])
      | (with_reducible refine ite_keep (fun _ => ?_) fun _ => ?_)
      | (simp only [↓State.faultAt_keep, ↓State.setChunk_keep, ↓State.health_keep]) | split | (simp_all; done))

theorem issueReads_keep :
    ∀ (send : BulkRead → State → State) (total next : Nat) (rs : List BulkRead) (s : State), (∀ (a : BulkRead) (a_1 : State), (send a a_1).keep = a_1.keep) → (issueReads send total next rs s).snd.snd.keep = s.keep := by
  intro send total next rs s hk; unfold issueReads
  have go : ∀ (n : Nat) (x : Nat × List BulkRead × State), (issueGo send total n x).2.2.keep = x.2.2.keep := by
    intro n; induction n with
    | zero => intro x; rfl
    | succ n ih =>
      intro x; obtain ⟨a, b, c⟩ := x; unfold issueGo; dsimp only; split
      · rw [ih]; dsimp only; rw [hk]; rfl
      · rfl
  exact go 16 _

theorem State.bootSend_keep : ∀ (s : State) (r : BulkRead), (s.bootSend r).keep = s.keep := by
  intros; unfold State.bootSend; (try dsimp only)
  repeat' (first
      | (with_reducible rfl) | (simp only [keep_mk, keep_fold])
      | (with_reducible refine ite_keep (fun _ => ?_) fun _ => ?_)
      | (simp only [↓State.trailSend_keep, ↓State.fromMp_keep]) | split | (simp_all; done))

theorem State.bootIssue_keep : ∀ (s : State), s.bootIssue.keep = s.keep := by
  intros; unfold State.bootIssue; (try dsimp only)
  repeat' (first
      | (with_reducible rfl) | (simp only [keep_mk, keep_fold])
      | (with_reducible refine ite_keep (fun _ => ?_) fun _ => ?_)
      | (with_reducible refine ite1_keep (fun _ => ?_) fun _ => ?_)
      | (with_reducible refine ite2_keep (fun _ => ?_) fun _ => ?_) | (with_reducible refine when_keep ?_ ?_)
      | (with_reducible refine (foldl_keep _ (fun _ _ => ?_) _ _).trans ?_)
      | (with_reducible refine (foldl1_keep _ (fun _ _ => ?_) _ _).trans ?_)
      | (with_reducible refine (foldl2_keep _ (fun _ _ => ?_) _ _).trans ?_)
      | (with_reducible refine getD_keep (fun _ _ => ?_) ?_)
      | (with_reducible refine (issueReads_keep _ _ _ _ _ (fun _ _ => ?_)).trans ?_)
      | (simp only [↓State.bootSend_keep]) | split | (simp_all; done))

theorem State.bootFrom_keep : ∀ (s : State) (trail : Bool), (s.bootFrom trail).keep = s.keep := by
  intros; unfold State.bootFrom; (try dsimp only)
  repeat' (first
      | (with_reducible rfl) | (simp only [keep_mk, keep_fold])
      | (with_reducible refine ite_keep (fun _ => ?_) fun _ => ?_) | (simp only [↓State.bootIssue_keep]) | split
      | (simp_all; done))

theorem State.bootFail_keep : ∀ (s : State) (error : Nat), (s.bootFail error).keep = s.keep := by intros; rfl

theorem State.fetchEnd_keep : ∀ (s : State) (error : Nat), (s.fetchEnd error).keep = s.keep := by
  intros; unfold State.fetchEnd; (try dsimp only)
  repeat' (first
      | (with_reducible rfl) | (simp only [keep_mk, keep_fold])
      | (with_reducible refine ite_keep (fun _ => ?_) fun _ => ?_)
      | (simp only [↓State.bootFrom_keep, ↓State.bootFail_keep]) | split | (simp_all; done))

theorem State.setSnap_keep : ∀ (s : State) (o : SnapOp), (s.setSnap o).keep = s.keep := by intros; rfl

theorem memRegionMap_keep : ∀ (c : Call) (s : State), (memRegionMap c s).st.keep = s.keep := by
  intros; unfold memRegionMap; (try dsimp only)
  repeat' (first
      | (with_reducible rfl) | (simp only [keep_mk, keep_fold])
      | (with_reducible refine ite_keep (fun _ => ?_) fun _ => ?_) | (simp only [↓refuseCmd_keep]) | split
      | (simp_all; done))

theorem State.setGate_keep :
    ∀ (s : State) (l base : Nat) (g : BitVec 128 × List (BitVec 64)), (s.setGate l base g).keep = s.keep := by intros; rfl

theorem State.installGate_keep :
    ∀ (s : State) (old : Option Plan) (p : Plan) (c l : Nat), (s.installGate old p c l).keep = s.keep := by
  intros; unfold State.installGate; (try dsimp only)
  repeat' (first
      | (with_reducible rfl) | (simp only [keep_mk, keep_fold])
      | (with_reducible refine ite_keep (fun _ => ?_) fun _ => ?_)
      | (simp only [↓State.setGate_keep, ↓State.count_keep]) | split | (simp_all; done))

theorem State.setBox_keep : ∀ (s : State) (m : Nat) (b : Mbox), (s.setBox m b).keep = s.keep := by intros; rfl

theorem State.eventTo_keep :
    ∀ (s : State) (m code status op seq detail : Nat), (s.eventTo m code status op seq detail).keep = s.keep := by
  intros; unfold State.eventTo; (try dsimp only)
  repeat' (first
      | (with_reducible rfl) | (simp only [keep_mk, keep_fold])
      | (with_reducible refine ite_keep (fun _ => ?_) fun _ => ?_)
      | (simp only [↓State.setBox_keep, ↓State.fromMp_keep, ↓State.count_keep]) | split | (simp_all; done))

theorem State.complete_keep :
    ∀ (s : State) (r : Req) (status detail : Nat), (s.complete r status detail).keep = s.keep := by
  intros; unfold State.complete; (try dsimp only)
  repeat' (first
      | (with_reducible rfl) | (simp only [keep_mk, keep_fold])
      | (with_reducible refine ite_keep (fun _ => ?_) fun _ => ?_)
      | (with_reducible refine (foldl_keep _ (fun _ _ => ?_) _ _).trans ?_) | (simp only [↓State.eventTo_keep])
      | split | (simp_all; done))

theorem State.missCommit_keep : ∀ (s : State), s.missCommit.keep = s.keep := by
  intros; unfold State.missCommit; (try dsimp only)
  repeat' (first
      | (with_reducible rfl) | (simp only [keep_mk, keep_fold])
      | (with_reducible refine ite_keep (fun _ => ?_) fun _ => ?_)
      | (with_reducible refine ite1_keep (fun _ => ?_) fun _ => ?_)
      | (with_reducible refine ite2_keep (fun _ => ?_) fun _ => ?_) | (with_reducible refine when_keep ?_ ?_)
      | (with_reducible refine (foldl_keep _ (fun _ _ => ?_) _ _).trans ?_)
      | (with_reducible refine (foldl1_keep _ (fun _ _ => ?_) _ _).trans ?_)
      | (with_reducible refine (foldl2_keep _ (fun _ _ => ?_) _ _).trans ?_)
      | (with_reducible refine getD_keep (fun _ _ => ?_) ?_) | (simp only [↓State.complete_keep]) | split
      | (simp_all; done))

theorem State.collSend_keep : ∀ (s : State) (e : CEnv) (p : Packet), (s.collSend e p).keep = s.keep := by
  intros; unfold State.collSend; (try dsimp only)
  repeat' (first
      | (with_reducible rfl) | (simp only [keep_mk, keep_fold])
      | (with_reducible refine ite_keep (fun _ => ?_) fun _ => ?_) | (simp only [↓State.fromCluster_keep]) | split
      | (simp_all; done))

theorem State.cstat_keep :
    ∀ (s : State) (e : CEnv) (inst etag cause missing : Nat), (s.cstat e inst etag cause missing).keep = s.keep := by
  intros; unfold State.cstat; (try dsimp only)
  repeat' (first
      | (with_reducible rfl) | (simp only [keep_mk, keep_fold])
      | (with_reducible refine ite_keep (fun _ => ?_) fun _ => ?_)
      | (with_reducible refine (foldl_keep _ (fun _ _ => ?_) _ _).trans ?_) | (simp only [↓State.collSend_keep])
      | split | (simp_all; done))

theorem State.checkInt_keep : ∀ (s : State), s.checkInt.keep = s.keep := by
  intros; unfold State.checkInt; (try dsimp only)
  repeat' (first
      | (with_reducible rfl) | (simp only [keep_mk, keep_fold])
      | (with_reducible refine ite_keep (fun _ => ?_) fun _ => ?_)
      | (with_reducible refine ite1_keep (fun _ => ?_) fun _ => ?_)
      | (with_reducible refine ite2_keep (fun _ => ?_) fun _ => ?_) | (with_reducible refine when_keep ?_ ?_)
      | (with_reducible refine (foldl_keep _ (fun _ _ => ?_) _ _).trans ?_)
      | (with_reducible refine (foldl1_keep _ (fun _ _ => ?_) _ _).trans ?_)
      | (with_reducible refine (foldl2_keep _ (fun _ _ => ?_) _ _).trans ?_)
      | (with_reducible refine getD_keep (fun _ _ => ?_) ?_) | (simp only [↓State.health_keep, ↓State.count_keep])
      | split | (simp_all; done))

theorem State.trailTsync_keep :
    ∀ (s : State) (plane : Nat) (recv : Option (Nat × Nat)), (s.trailTsync plane recv).keep = s.keep := by
  intros; unfold State.trailTsync; simp only [↓State.trailSend_keep, keep_mk, keep_fold]

theorem State.trailTsyncTick_keep : ∀ (s : State), s.trailTsyncTick.keep = s.keep := by
  intros; unfold State.trailTsyncTick; (try dsimp only)
  repeat' (first
      | (with_reducible rfl) | (simp only [keep_mk, keep_fold])
      | (with_reducible refine ite_keep (fun _ => ?_) fun _ => ?_) | (simp only [↓State.trailTsync_keep]) | split
      | (simp_all; done))

theorem State.clearKeys_keep : ∀ (s : State) (ks : List CKey), (s.clearKeys ks).keep = s.keep := by
  intros; unfold State.clearKeys; (try dsimp only)
  repeat' (first
      | (with_reducible rfl) | (simp only [keep_mk, keep_fold])
      | (with_reducible refine (foldl_keep _ (fun _ _ => ?_) _ _).trans ?_) | split | (simp_all; done))

theorem State.group1_keep : ∀ (s : State) (l : Nat) (clear : Bool), (s.group1 l clear).snd.keep = s.keep := by
  intros; unfold State.group1; (try dsimp only)
  repeat' (first
      | (with_reducible rfl) | (simp only [keep_mk, keep_fold])
      | (with_reducible refine ite_keep (fun _ => ?_) fun _ => ?_)
      | (with_reducible refine ite1_keep (fun _ => ?_) fun _ => ?_)
      | (with_reducible refine ite2_keep (fun _ => ?_) fun _ => ?_)
      | (with_reducible refine (foldl_keep _ (fun _ _ => ?_) _ _).trans ?_)
      | (with_reducible refine (foldl1_keep _ (fun _ _ => ?_) _ _).trans ?_)
      | (with_reducible refine (foldl2_keep _ (fun _ _ => ?_) _ _).trans ?_)
      | (simp only [↓State.setChan_keep, ↓State.clearKeys_keep]) | split | (simp_all; done))

theorem State.group3_keep : ∀ (s : State) (n : Nat), (s.group3 n).snd.keep = s.keep := by intros; rfl

theorem State.group2_keep : ∀ (s : State) (cl : Nat) (clear : Bool), (s.group2 cl clear).snd.keep = s.keep := by
  intros; unfold State.group2; (try dsimp only)
  repeat' (first
      | (with_reducible rfl) | (simp only [keep_mk, keep_fold])
      | (with_reducible refine ite_keep (fun _ => ?_) fun _ => ?_)
      | (with_reducible refine ite1_keep (fun _ => ?_) fun _ => ?_)
      | (with_reducible refine ite2_keep (fun _ => ?_) fun _ => ?_) | (simp only [↓State.clearKeys_keep]) | split
      | (simp_all; done))

theorem State.group5_keep : ∀ (s : State) (m : Nat), (s.group5 m).snd.keep = s.keep := by intros; rfl

theorem State.group0_keep : ∀ (s : State) (slot : Nat) (clear : Bool), (s.group0 slot clear).snd.keep = s.keep := by
  intros; unfold State.group0; (try dsimp only)
  repeat' (first
      | (with_reducible rfl) | (simp only [keep_mk, keep_fold])
      | (with_reducible refine ite_keep (fun _ => ?_) fun _ => ?_)
      | (with_reducible refine ite1_keep (fun _ => ?_) fun _ => ?_)
      | (with_reducible refine ite2_keep (fun _ => ?_) fun _ => ?_)
      | (with_reducible refine (foldl_keep _ (fun _ _ => ?_) _ _).trans ?_)
      | (with_reducible refine (foldl1_keep _ (fun _ _ => ?_) _ _).trans ?_)
      | (with_reducible refine (foldl2_keep _ (fun _ _ => ?_) _ _).trans ?_) | (simp only [↓State.clearKeys_keep])
      | split | (simp_all; done))

theorem State.group4_keep : ∀ (s : State) (clear : Bool), (s.group4 clear).snd.keep = s.keep := by
  intros; unfold State.group4; (try dsimp only)
  repeat' (first
      | (with_reducible rfl) | (simp only [keep_mk, keep_fold])
      | (with_reducible refine ite_keep (fun _ => ?_) fun _ => ?_)
      | (with_reducible refine ite1_keep (fun _ => ?_) fun _ => ?_)
      | (with_reducible refine ite2_keep (fun _ => ?_) fun _ => ?_) | (simp only [↓State.clearKeys_keep]) | split
      | (simp_all; done))

theorem counterRead_keep : ∀ (c : Call) (s : State), (counterRead c s).st.keep = s.keep := by
  intros; unfold counterRead; (try dsimp only)
  repeat' (first
      | (with_reducible rfl) | (simp only [keep_mk, keep_fold])
      | (with_reducible refine ite_keep (fun _ => ?_) fun _ => ?_)
      | (simp only [↓State.group1_keep, ↓State.group3_keep, ↓State.group2_keep, ↓State.group5_keep, ↓State.group0_keep, ↓refuseCmd_keep, ↓State.group4_keep])
      | split | (simp_all; done))

theorem State.answerI3c_keep : ∀ (s : State) (bs : List Byte), (s.answerI3c bs).keep = s.keep := by intros; rfl

theorem State.mbdata_keep :
    ∀ (s : State) (h : BitVec 256) (m aoff status : Nat) (pay : List Byte), (s.mbdata h m aoff status pay).keep = s.keep := by
  intros; unfold State.mbdata; simp only [↓State.fromMp_keep, keep_mk, keep_fold]

theorem State.roeEvent_keep : ∀ (s : State) (i : Nat), (s.roeEvent i).keep = s.keep := by
  intros; unfold State.roeEvent; (try dsimp only)
  repeat' (first
      | (with_reducible rfl) | (simp only [keep_mk, keep_fold])
      | (with_reducible refine ite_keep (fun _ => ?_) fun _ => ?_)
      | (with_reducible refine ite1_keep (fun _ => ?_) fun _ => ?_)
      | (with_reducible refine ite2_keep (fun _ => ?_) fun _ => ?_) | (with_reducible refine when_keep ?_ ?_)
      | (with_reducible refine (foldl_keep _ (fun _ _ => ?_) _ _).trans ?_)
      | (with_reducible refine (foldl1_keep _ (fun _ _ => ?_) _ _).trans ?_)
      | (with_reducible refine (foldl2_keep _ (fun _ _ => ?_) _ _).trans ?_)
      | (with_reducible refine getD_keep (fun _ _ => ?_) ?_) | split | (simp_all; done))

theorem State.sendHeld_keep :
    ∀ (s : State) (m : Nat) (src : Option (BitVec 256)), (s.sendHeld m src).keep = s.keep := by
  intros; unfold State.sendHeld; (try dsimp only)
  repeat' (first
      | (with_reducible rfl) | (simp only [keep_mk, keep_fold])
      | (simp only [↓State.mbdata_keep, ↓State.roeEvent_keep]) | split | (simp_all; done))

theorem State.sendBlock_keep :
    ∀ (s : State) (l : Nat) (fs : List (BitVec 512)) (tag : Nat) (seqd : Bool) (old : Option Nat), (s.sendBlock l fs tag seqd old).keep = s.keep := by
  intros; unfold State.sendBlock; (try dsimp only)
  repeat' (first
      | (with_reducible rfl) | (simp only [keep_mk, keep_fold])
      | (with_reducible refine ite_keep (fun _ => ?_) fun _ => ?_)
      | (with_reducible refine getD_keep (fun _ _ => ?_) ?_) | (simp only [↓State.setLink_keep, ↓State.count_keep])
      | split | (simp_all; done))

theorem State.sendOld_keep :
    ∀ (s : State) (l : Nat) (h : HeldBlock) (rest : List HeldBlock), (s.sendOld l h rest).keep = s.keep := by
  intros; unfold State.sendOld; simp only [↓State.sendBlock_keep, ↓State.setLink_keep, keep_mk, keep_fold]

theorem State.queueTsync_keep : ∀ (s : State) (l : Nat), (s.queueTsync l).keep = s.keep := by intros; rfl

theorem State.clearRecords_keep :
    ∀ (s : State) (pick : Nat → Bool), (s.clearRecords pick).keep = s.keep := by intros; rfl

theorem State.installChunks_keep :
    ∀ (s : State) (p : Plan) (anew : List Nat), (s.installChunks p anew).keep = s.keep := by intros; rfl

theorem State.pruneOld_keep : ∀ (s : State), s.pruneOld.keep = s.keep := by
  intros; unfold State.pruneOld; (try dsimp only)
  repeat' (first
      | (with_reducible rfl) | (simp only [keep_mk, keep_fold])
      | (with_reducible refine ite_keep (fun _ => ?_) fun _ => ?_)
      | (with_reducible refine ite1_keep (fun _ => ?_) fun _ => ?_)
      | (with_reducible refine ite2_keep (fun _ => ?_) fun _ => ?_) | (with_reducible refine when_keep ?_ ?_)
      | (with_reducible refine (foldl_keep _ (fun _ _ => ?_) _ _).trans ?_)
      | (with_reducible refine (foldl1_keep _ (fun _ _ => ?_) _ _).trans ?_)
      | (with_reducible refine (foldl2_keep _ (fun _ _ => ?_) _ _).trans ?_)
      | (with_reducible refine getD_keep (fun _ _ => ?_) ?_) | split | (simp_all; done))

theorem State.event_keep :
    ∀ (s : State) (code status detail : Nat) (parts : List Nat), (s.event code status detail parts).keep = s.keep := by
  intros; unfold State.event; (try dsimp only)
  repeat' (first
      | (with_reducible rfl) | (simp only [keep_mk, keep_fold])
      | (with_reducible refine ite_keep (fun _ => ?_) fun _ => ?_)
      | (with_reducible refine (foldl_keep _ (fun _ _ => ?_) _ _).trans ?_) | (simp only [↓State.eventTo_keep])
      | split | (simp_all; done))

theorem State.enterTime_keep : ∀ (s : State) (st : TState), (s.enterTime st).keep = s.keep := by
  intros; unfold State.enterTime; (try dsimp only)
  repeat' (first
      | (with_reducible rfl) | (simp only [keep_mk, keep_fold]) | (simp only [↓State.count_keep, ↓State.event_keep])
      | split | (simp_all; done))

theorem State.installTime_keep :
    ∀ (s : State) (old : Option Plan) (p : Plan), (s.installTime old p).keep = s.keep := by
  intros; unfold State.installTime; (try dsimp only)
  repeat' (first
      | (with_reducible rfl) | (simp only [keep_mk, keep_fold])
      | (with_reducible refine ite_keep (fun _ => ?_) fun _ => ?_) | (simp only [↓State.enterTime_keep]) | split
      | (simp_all; done))

theorem State.partDegraded_keep : ∀ (s : State) (r : Route) (f : List Nat), (s.partDegraded r f).keep = s.keep := by
  intros; unfold State.partDegraded; (try dsimp only)
  repeat' (first
      | (with_reducible rfl) | (simp only [keep_mk, keep_fold])
      | (with_reducible refine ite_keep (fun _ => ?_) fun _ => ?_)
      | (with_reducible refine (foldl_keep _ (fun _ _ => ?_) _ _).trans ?_)
      | (simp only [↓State.health_keep, ↓State.event_keep]) | split | (simp_all; done))

theorem State.reevalF_keep : ∀ (s : State), s.reevalF.keep = s.keep := by
  intros; unfold State.reevalF; (try dsimp only)
  repeat' (first
      | (with_reducible rfl) | (simp only [keep_mk, keep_fold])
      | (with_reducible refine ite_keep (fun _ => ?_) fun _ => ?_)
      | (with_reducible refine ite1_keep (fun _ => ?_) fun _ => ?_)
      | (with_reducible refine ite2_keep (fun _ => ?_) fun _ => ?_) | (with_reducible refine when_keep ?_ ?_)
      | (with_reducible refine (foldl_keep _ (fun _ _ => ?_) _ _).trans ?_)
      | (with_reducible refine (foldl1_keep _ (fun _ _ => ?_) _ _).trans ?_)
      | (with_reducible refine (foldl2_keep _ (fun _ _ => ?_) _ _).trans ?_)
      | (with_reducible refine getD_keep (fun _ _ => ?_) ?_) | (simp only [↓State.partDegraded_keep]) | split
      | (simp_all; done))

theorem State.installRoute_keep : ∀ (s : State) (r : Route) (at_ : Nat), (s.installRoute r at_).keep = s.keep := by
  intros; unfold State.installRoute; (try dsimp only)
  repeat' (first
      | (with_reducible rfl) | (simp only [keep_mk, keep_fold])
      | (with_reducible refine ite_keep (fun _ => ?_) fun _ => ?_) | (simp only [↓State.reevalF_keep]) | split
      | (simp_all; done))

theorem State.awaitStart_keep : ∀ (s : State) (l : Nat), (s.awaitStart l).keep = s.keep := by
  intros; unfold State.awaitStart; (try dsimp only)
  repeat' (first
      | (with_reducible rfl) | (simp only [keep_mk, keep_fold])
      | (with_reducible refine ite_keep (fun _ => ?_) fun _ => ?_) | (simp only [↓State.setLink_keep]) | split
      | (simp_all; done))

theorem State.resyncNext_keep : ∀ (s : State) (entry : Nat), (s.resyncNext entry).keep = s.keep := by
  intros; unfold State.resyncNext; (try dsimp only)
  repeat' (first
      | (with_reducible rfl) | (simp only [keep_mk, keep_fold])
      | (with_reducible refine ite_keep (fun _ => ?_) fun _ => ?_)
      | (simp only [↓State.setReg_keep, ↓State.goSolo_keep, ↓State.eccUncorr_keep, ↓State.sendMirror_keep]) | split
      | (simp_all; done))

theorem State.drawFree_keep : ∀ (s : State) (w : Nat), (s.drawFree w).snd.keep = s.keep := by intros; rfl

theorem State.portArg_keep :
    ∀ (s : State) (c : Call) (f : Nat → Verdict), (∀ l, (f l).st.keep = s.keep) → (s.portArg c f).st.keep = s.keep := by
  intro s c f hk; unfold State.portArg; dsimp only; split
  · rfl
  · split
    · rfl
    · exact hk _

theorem State.setCh_keep : ∀ (s : State) (e : CEnv) (c : ChunkSt), (s.setCh e c).keep = s.keep := by
  intros; unfold State.setCh; (try dsimp only)
  repeat' (first
      | (with_reducible rfl) | (simp only [keep_mk, keep_fold])
      | (with_reducible refine ite_keep (fun _ => ?_) fun _ => ?_)
      | (with_reducible refine ite1_keep (fun _ => ?_) fun _ => ?_)
      | (with_reducible refine ite2_keep (fun _ => ?_) fun _ => ?_) | (with_reducible refine when_keep ?_ ?_)
      | (with_reducible refine (foldl_keep _ (fun _ _ => ?_) _ _).trans ?_)
      | (with_reducible refine (foldl1_keep _ (fun _ _ => ?_) _ _).trans ?_)
      | (with_reducible refine (foldl2_keep _ (fun _ _ => ?_) _ _).trans ?_)
      | (with_reducible refine getD_keep (fun _ _ => ?_) ?_) | (simp only [↓State.setChunk_keep]) | split
      | (simp_all; done))

theorem State.putRunRec_keep : ∀ (s : State) (e : Env) (r : Rec), (s.putRunRec e r).keep = s.keep := by intros; rfl

theorem State.segment_keep : ∀ (s : State) (e : Env) (f : AppSeg → AppSeg), (s.segment e f).keep = s.keep := by
  intros; unfold State.segment; (try dsimp only)
  repeat' (first
      | (with_reducible rfl) | (simp only [keep_mk, keep_fold]) | (with_reducible refine getD_keep (fun _ _ => ?_) ?_)
      | (simp only [↓State.putRunRec_keep]) | split | (simp_all; done))

theorem State.retire_keep : ∀ (s : State) (g : Nat) (id : CtxId), (s.retire g id).keep = s.keep := by
  intros; unfold State.retire; (try dsimp only)
  repeat' (first
      | (with_reducible rfl) | (simp only [keep_mk, keep_fold])
      | (with_reducible refine ite_keep (fun _ => ?_) fun _ => ?_) | (simp only [↓State.faultAt_keep]) | split
      | (simp_all; done))

theorem State.overRun_keep : ∀ (s : State) (g : Nat), (s.overRun g).keep = s.keep := by
  intros; unfold State.overRun; (try dsimp only)
  repeat' (first
      | (with_reducible rfl) | (simp only [keep_mk, keep_fold])
      | (with_reducible refine ite_keep (fun _ => ?_) fun _ => ?_)
      | (with_reducible refine ite1_keep (fun _ => ?_) fun _ => ?_)
      | (with_reducible refine ite2_keep (fun _ => ?_) fun _ => ?_) | (with_reducible refine when_keep ?_ ?_)
      | (with_reducible refine (foldl_keep _ (fun _ _ => ?_) _ _).trans ?_)
      | (with_reducible refine (foldl1_keep _ (fun _ _ => ?_) _ _).trans ?_)
      | (with_reducible refine (foldl2_keep _ (fun _ _ => ?_) _ _).trans ?_)
      | (with_reducible refine getD_keep (fun _ _ => ?_) ?_) | (simp only [↓State.retire_keep, ↓State.dropRun_keep])
      | split | (simp_all; done))

theorem State.endRun_keep : ∀ (s : State) (g : Nat), (s.endRun g).keep = s.keep := by
  intros; unfold State.endRun; (try dsimp only)
  repeat' (first
      | (with_reducible rfl) | (simp only [keep_mk, keep_fold])
      | (with_reducible refine ite_keep (fun _ => ?_) fun _ => ?_)
      | (with_reducible refine ite1_keep (fun _ => ?_) fun _ => ?_)
      | (with_reducible refine ite2_keep (fun _ => ?_) fun _ => ?_) | (with_reducible refine when_keep ?_ ?_)
      | (with_reducible refine (foldl_keep _ (fun _ _ => ?_) _ _).trans ?_)
      | (with_reducible refine (foldl1_keep _ (fun _ _ => ?_) _ _).trans ?_)
      | (with_reducible refine (foldl2_keep _ (fun _ _ => ?_) _ _).trans ?_)
      | (with_reducible refine getD_keep (fun _ _ => ?_) ?_)
      | (simp only [↓State.answerFetches_keep, ↓State.overRun_keep, ↓State.faultAt_keep, ↓State.setRun_keep]) | split
      | (simp_all; done))

theorem State.fallOff_keep : ∀ (s : State) (e : Env), (s.fallOff e).keep = s.keep := by
  intros; unfold State.fallOff; (try dsimp only)
  repeat' (first
      | (with_reducible rfl) | (simp only [keep_mk, keep_fold])
      | (with_reducible refine ite_keep (fun _ => ?_) fun _ => ?_)
      | (simp only [↓State.modRun_keep, ↓State.endRun_keep]) | split | (simp_all; done))

theorem State.flow_keep : ∀ (s : State) (e : Env) (fl : Flow) (n : Nat), (s.flow e fl n).keep = s.keep := by
  intros; unfold State.flow; (try dsimp only)
  repeat' (first
      | (with_reducible rfl) | (simp only [keep_mk, keep_fold])
      | (with_reducible refine ite_keep (fun _ => ?_) fun _ => ?_)
      | (simp only [↓State.overRun_keep, ↓State.faultAt_keep, ↓State.modRun_keep, ↓State.endRun_keep, ↓State.fallOff_keep])
      | split | (simp_all; done))

theorem State.emitaEff_keep : ∀ (s : State) (e : Env), (s.emitaEff e).keep = s.keep := by
  intros; unfold State.emitaEff; (try dsimp only)
  repeat' (first
      | (with_reducible rfl) | (simp only [keep_mk, keep_fold])
      | (with_reducible refine ite_keep (fun _ => ?_) fun _ => ?_)
      | (with_reducible refine ite1_keep (fun _ => ?_) fun _ => ?_)
      | (with_reducible refine ite2_keep (fun _ => ?_) fun _ => ?_) | (with_reducible refine when_keep ?_ ?_)
      | (with_reducible refine (foldl_keep _ (fun _ _ => ?_) _ _).trans ?_)
      | (with_reducible refine (foldl1_keep _ (fun _ _ => ?_) _ _).trans ?_)
      | (with_reducible refine (foldl2_keep _ (fun _ _ => ?_) _ _).trans ?_)
      | (with_reducible refine getD_keep (fun _ _ => ?_) ?_) | (simp only [↓State.segment_keep, ↓State.flow_keep])
      | split | (simp_all; done))

theorem State.dropVc_keep : ∀ (s : State) (l v : Nat), (s.dropVc l v).keep = s.keep := by
  intros; unfold State.dropVc; (try dsimp only)
  repeat' (first
      | (with_reducible rfl) | (simp only [keep_mk, keep_fold])
      | (with_reducible refine (foldl_keep _ (fun _ _ => ?_) _ _).trans ?_)
      | (simp only [↓State.endCopy_keep, ↓State.count_keep]) | split | (simp_all; done))

theorem shadowCompare_keep :
    ∀ (s : State) (plane : Nat) (t r : BitVec 256), (shadowCompare s plane t r).keep = s.keep := by
  intros; unfold shadowCompare; (try dsimp only)
  repeat' (first
      | (with_reducible rfl) | (simp only [keep_mk, keep_fold])
      | (with_reducible refine ite_keep (fun _ => ?_) fun _ => ?_)
      | (simp only [↓State.trailSend_keep, ↓State.health_keep, ↓State.count_keep, ↓State.event_keep]) | split
      | (simp_all; done))

theorem shadowPair_keep : ∀ (s : State) (x : CmpEntry), (shadowPair s x).keep = s.keep := by
  intros; unfold shadowPair; (try dsimp only)
  repeat' (first
      | (with_reducible rfl) | (simp only [keep_mk, keep_fold])
      | (with_reducible refine ite_keep (fun _ => ?_) fun _ => ?_)
      | (with_reducible refine ite1_keep (fun _ => ?_) fun _ => ?_)
      | (with_reducible refine ite2_keep (fun _ => ?_) fun _ => ?_) | (with_reducible refine when_keep ?_ ?_)
      | (with_reducible refine (foldl_keep _ (fun _ _ => ?_) _ _).trans ?_)
      | (with_reducible refine (foldl1_keep _ (fun _ _ => ?_) _ _).trans ?_)
      | (with_reducible refine (foldl2_keep _ (fun _ _ => ?_) _ _).trans ?_)
      | (with_reducible refine getD_keep (fun _ _ => ?_) ?_) | (simp only [↓shadowCompare_keep]) | split
      | (simp_all; done))

theorem State.dropHead_keep : ∀ (s : State) (l v id : Nat), (s.dropHead l v id).keep = s.keep := by intros; rfl

theorem State.takeInst_keep : ∀ (s : State) (e : CEnv) (inst : Nat), (s.takeInst e inst).keep = s.keep := by
  intros; unfold State.takeInst; (try dsimp only)
  repeat' (first
      | (with_reducible rfl) | (simp only [keep_mk, keep_fold])
      | (with_reducible refine ite_keep (fun _ => ?_) fun _ => ?_)
      | (with_reducible refine getD_keep (fun _ _ => ?_) ?_) | (simp only [↓State.setCh_keep]) | split
      | (simp_all; done))

theorem State.doneWrite_keep :
    ∀ (s : State) (e : CEnv) (inst etag st flags : Nat), (s.doneWrite e inst etag st flags).keep = s.keep := by
  intros; unfold State.doneWrite; (try dsimp only)
  repeat' (first
      | (with_reducible rfl) | (simp only [keep_mk, keep_fold])
      | (with_reducible refine ite_keep (fun _ => ?_) fun _ => ?_)
      | (simp only [↓State.newTag_keep, ↓State.fromCluster_keep]) | split | (simp_all; done))

theorem State.ringPut_keep : ∀ (s : State) (slot : Nat) (e : BitVec 256), (s.ringPut slot e).keep = s.keep := by
  intros; unfold State.ringPut; (try dsimp only)
  repeat' (first
      | (with_reducible rfl) | (simp only [keep_mk, keep_fold])
      | (with_reducible refine ite_keep (fun _ => ?_) fun _ => ?_)
      | (simp only [↓State.trailSend_keep, ↓shadowPair_keep]) | split | (simp_all; done))

theorem State.closeDigest_keep :
    ∀ (s : State) (o : OpenDigest) (isPartial : Bool), (s.closeDigest o isPartial).keep = s.keep := by
  intros; unfold State.closeDigest; simp only [↓State.ringPut_keep, keep_mk, keep_fold]

theorem State.digestAdd_keep :
    ∀ (s : State) (e : CEnv) (inst : Nat) (sum : Word) (failed : Option Nat) (flags : Nat), (s.digestAdd e inst sum failed flags).keep = s.keep := by
  intros; unfold State.digestAdd; (try dsimp only)
  repeat' (first
      | (with_reducible rfl) | (simp only [keep_mk, keep_fold])
      | (with_reducible refine ite_keep (fun _ => ?_) fun _ => ?_)
      | (with_reducible refine getD_keep (fun _ _ => ?_) ?_)
      | (simp only [↓State.closeDigest_keep, ↓State.count_keep]) | split | (simp_all; done))

theorem State.dropWork_keep : ∀ (s : State) (e : CEnv) (inst : Nat), (s.dropWork e inst).keep = s.keep := by
  intros; unfold State.dropWork; (try dsimp only)
  repeat' (first
      | (with_reducible rfl) | (simp only [keep_mk, keep_fold])
      | (with_reducible refine ite_keep (fun _ => ?_) fun _ => ?_)
      | (with_reducible refine (foldl_keep _ (fun _ _ => ?_) _ _).trans ?_) | (simp only [↓State.setCore_keep])
      | split | (simp_all; done))

theorem State.toPeers_keep :
    ∀ (s : State) (e : CEnv) (inst : Nat) (p : Option Lane), (s.toPeers e inst p).keep = s.keep := by
  intros; unfold State.toPeers; (try dsimp only)
  repeat' (first
      | (with_reducible rfl) | (simp only [keep_mk, keep_fold])
      | (with_reducible refine (foldl_keep _ (fun _ _ => ?_) _ _).trans ?_) | split | (simp_all; done))

theorem State.endFail_keep :
    ∀ (s : State) (e : CEnv) (inst etag cause : Nat) (missing : Option Nat), (s.endFail e inst etag cause missing).keep = s.keep := by
  intros; unfold State.endFail; (try dsimp only)
  repeat' (first
      | (with_reducible rfl) | (simp only [keep_mk, keep_fold])
      | (with_reducible refine ite_keep (fun _ => ?_) fun _ => ?_)
      | (with_reducible refine getD_keep (fun _ _ => ?_) ?_)
      | (simp only [↓State.doneWrite_keep, ↓State.digestAdd_keep, ↓State.dropWork_keep, ↓State.cstat_keep, ↓State.withdraw_keep, ↓State.toPeers_keep, ↓State.count_keep, ↓State.setCh_keep])
      | split | (simp_all; done))

theorem sendPos_keep :
    ∀ (s : State) (e : CEnv) (r : Rec) (d : Nat) (sel : OutAsm → Nat → Nat → Bool), (sendPos s e r d sel).fst.keep = s.keep := by
  intros; unfold sendPos; (try dsimp only)
  repeat' (first
      | (with_reducible rfl) | (simp only [keep_mk, keep_fold])
      | (with_reducible refine ite_keep (fun _ => ?_) fun _ => ?_)
      | (with_reducible refine ite1_keep (fun _ => ?_) fun _ => ?_)
      | (with_reducible refine ite2_keep (fun _ => ?_) fun _ => ?_)
      | (with_reducible refine (foldl_keep _ (fun _ _ => ?_) _ _).trans ?_)
      | (with_reducible refine (foldl1_keep _ (fun _ _ => ?_) _ _).trans ?_)
      | (with_reducible refine (foldl2_keep _ (fun _ _ => ?_) _ _).trans ?_) | (simp only [↓State.collSend_keep])
      | split | (simp_all; done))

theorem State.pumpOutputs_keep : ∀ (s : State) (e : CEnv) (inst : Nat), (s.pumpOutputs e inst).keep = s.keep := by
  intros; unfold State.pumpOutputs; (try dsimp only)
  repeat' (first
      | (with_reducible rfl) | (simp only [keep_mk, keep_fold])
      | (with_reducible refine ite_keep (fun _ => ?_) fun _ => ?_)
      | (with_reducible refine ite1_keep (fun _ => ?_) fun _ => ?_)
      | (with_reducible refine ite2_keep (fun _ => ?_) fun _ => ?_) | (with_reducible refine when_keep ?_ ?_)
      | (with_reducible refine (foldl_keep _ (fun _ _ => ?_) _ _).trans ?_)
      | (with_reducible refine (foldl1_keep _ (fun _ _ => ?_) _ _).trans ?_)
      | (with_reducible refine (foldl2_keep _ (fun _ _ => ?_) _ _).trans ?_)
      | (with_reducible refine getD_keep (fun _ _ => ?_) ?_) | (simp only [↓sendPos_keep, ↓State.setCh_keep]) | split
      | (simp_all; done))

theorem State.barrier_keep : ∀ (s : State) (e : CEnv) (r : Rec), (s.barrier e r).keep = s.keep := by
  intros; unfold State.barrier; simp only [↓State.collSend_keep, ↓State.setCh_keep, keep_mk, keep_fold]

theorem State.failMsgs_keep : ∀ (s : State) (part st : Nat), (s.failMsgs part st).keep = s.keep := by
  intros; unfold State.failMsgs; (try dsimp only)
  repeat' (first
      | (with_reducible rfl) | (simp only [keep_mk, keep_fold])
      | (with_reducible refine ite_keep (fun _ => ?_) fun _ => ?_)
      | (with_reducible refine (foldl_keep _ (fun _ _ => ?_) _ _).trans ?_) | (simp only [↓State.failMsg_keep])
      | split | (simp_all; done))

theorem State.toState_keep :
    ∀ (s : State) (l : Nat) (st : LState) (cause : Nat), (s.toState l st cause).keep = s.keep := by intros; rfl

theorem State.setWfq_keep : ∀ (s : State) (l : Nat) (w : Wfq), (s.setWfq l w).keep = s.keep := by intros; rfl

theorem State.rehome_keep : ∀ (s : State) (b : BufPkt) (k : Nat) (cp : Copy), (s.rehome b k cp).keep = s.keep := by
  intros; unfold State.rehome; (try dsimp only)
  repeat' (first
      | (with_reducible rfl) | (simp only [keep_mk, keep_fold])
      | (simp only [↓State.endCopy_keep, ↓State.setBufPkt_keep, ↓State.count_keep]) | split | (simp_all; done))

theorem State.flushLink_keep : ∀ (s : State) (l : Nat) (keep : Bool), (s.flushLink l keep).keep = s.keep := by
  intros; unfold State.flushLink; (try dsimp only)
  repeat' (first
      | (with_reducible rfl) | (simp only [keep_mk, keep_fold])
      | (with_reducible refine ite_keep (fun _ => ?_) fun _ => ?_)
      | (with_reducible refine (foldl_keep _ (fun _ _ => ?_) _ _).trans ?_)
      | (simp only [↓State.setWfq_keep, ↓State.endCopy_keep, ↓State.setChan_keep, ↓State.rehome_keep, ↓State.setBufPkt_keep, ↓State.count_keep])
      | split | (simp_all; done))

theorem State.linkStop_keep : ∀ (s : State) (l : Nat), (s.linkStop l).keep = s.keep := by
  intros; unfold State.linkStop; (try dsimp only)
  repeat' (first
      | (with_reducible rfl) | (simp only [keep_mk, keep_fold])
      | (with_reducible refine ite_keep (fun _ => ?_) fun _ => ?_)
      | (with_reducible refine ite1_keep (fun _ => ?_) fun _ => ?_)
      | (with_reducible refine ite2_keep (fun _ => ?_) fun _ => ?_) | (with_reducible refine when_keep ?_ ?_)
      | (with_reducible refine (foldl_keep _ (fun _ _ => ?_) _ _).trans ?_)
      | (with_reducible refine (foldl1_keep _ (fun _ _ => ?_) _ _).trans ?_)
      | (with_reducible refine (foldl2_keep _ (fun _ _ => ?_) _ _).trans ?_)
      | (with_reducible refine getD_keep (fun _ _ => ?_) ?_)
      | (simp only [↓State.toState_keep, ↓State.complete_keep, ↓State.flushLink_keep, ↓State.setLink_keep]) | split
      | (simp_all; done))

theorem State.stopLinks_keep : ∀ (s : State), s.stopLinks.keep = s.keep := by
  intros; unfold State.stopLinks; (try dsimp only)
  repeat' (first
      | (with_reducible rfl) | (simp only [keep_mk, keep_fold])
      | (with_reducible refine ite_keep (fun _ => ?_) fun _ => ?_)
      | (with_reducible refine ite1_keep (fun _ => ?_) fun _ => ?_)
      | (with_reducible refine ite2_keep (fun _ => ?_) fun _ => ?_) | (with_reducible refine when_keep ?_ ?_)
      | (with_reducible refine (foldl_keep _ (fun _ _ => ?_) _ _).trans ?_)
      | (with_reducible refine (foldl1_keep _ (fun _ _ => ?_) _ _).trans ?_)
      | (with_reducible refine (foldl2_keep _ (fun _ _ => ?_) _ _).trans ?_)
      | (with_reducible refine getD_keep (fun _ _ => ?_) ?_)
      | (simp only [↓State.complete_keep, ↓State.linkStop_keep, ↓State.setLink_keep]) | split | (simp_all; done))

theorem State.foldFlagsAt_keep :
    ∀ (s : State) (e : Env) (fl : List (Nat × Nat)), (s.foldFlagsAt e fl).keep = s.keep := by
  intros; unfold State.foldFlagsAt; (try dsimp only)
  repeat' (first
      | (with_reducible rfl) | (simp only [keep_mk, keep_fold])
      | (with_reducible refine ite_keep (fun _ => ?_) fun _ => ?_)
      | (with_reducible refine ite1_keep (fun _ => ?_) fun _ => ?_)
      | (with_reducible refine ite2_keep (fun _ => ?_) fun _ => ?_) | (simp only [↓State.setChunk_keep]) | split
      | (simp_all; done))

theorem State.disarm_keep : ∀ (s : State) (a : Arm) (status : Nat), (s.disarm a status).keep = s.keep := by
  intros; unfold State.disarm; simp only [↓State.complete_keep, keep_mk, keep_fold]

theorem planAbort_keep : ∀ (c : Call) (s : State), (planAbort c s).st.keep = s.keep := by
  intros; unfold planAbort; (try dsimp only)
  repeat' (first
      | (with_reducible rfl) | (simp only [keep_mk, keep_fold])
      | (with_reducible refine ite_keep (fun _ => ?_) fun _ => ?_)
      | (with_reducible refine ite1_keep (fun _ => ?_) fun _ => ?_)
      | (with_reducible refine ite2_keep (fun _ => ?_) fun _ => ?_) | (with_reducible refine when_keep ?_ ?_)
      | (with_reducible refine (foldl_keep _ (fun _ _ => ?_) _ _).trans ?_)
      | (with_reducible refine (foldl1_keep _ (fun _ _ => ?_) _ _).trans ?_)
      | (with_reducible refine (foldl2_keep _ (fun _ _ => ?_) _ _).trans ?_)
      | (with_reducible refine getD_keep (fun _ _ => ?_) ?_) | (simp only [↓State.disarm_keep, ↓refuseCmd_keep])
      | split | (simp_all; done))

theorem State.bypass_keep : ∀ (s old : State), (s.bypass old).keep = s.keep := by
  intros; unfold State.bypass; (try dsimp only)
  repeat' (first
      | (with_reducible rfl) | (simp only [keep_mk, keep_fold])
      | (with_reducible refine ite_keep (fun _ => ?_) fun _ => ?_)
      | (with_reducible refine ite1_keep (fun _ => ?_) fun _ => ?_)
      | (with_reducible refine ite2_keep (fun _ => ?_) fun _ => ?_) | (with_reducible refine when_keep ?_ ?_)
      | (with_reducible refine (foldl_keep _ (fun _ _ => ?_) _ _).trans ?_)
      | (with_reducible refine (foldl1_keep _ (fun _ _ => ?_) _ _).trans ?_)
      | (with_reducible refine (foldl2_keep _ (fun _ _ => ?_) _ _).trans ?_)
      | (with_reducible refine getD_keep (fun _ _ => ?_) ?_) | split | (simp_all; done))

theorem drainWait_keep : ∀ (s : State), (drainWait s).keep = s.keep := by
  intros; unfold drainWait; (try dsimp only)
  repeat' (first
      | (with_reducible rfl) | (simp only [keep_mk, keep_fold])
      | (with_reducible refine ite_keep (fun _ => ?_) fun _ => ?_)
      | (with_reducible refine ite1_keep (fun _ => ?_) fun _ => ?_)
      | (with_reducible refine ite2_keep (fun _ => ?_) fun _ => ?_) | (with_reducible refine when_keep ?_ ?_)
      | (with_reducible refine (foldl_keep _ (fun _ _ => ?_) _ _).trans ?_)
      | (with_reducible refine (foldl1_keep _ (fun _ _ => ?_) _ _).trans ?_)
      | (with_reducible refine (foldl2_keep _ (fun _ _ => ?_) _ _).trans ?_)
      | (with_reducible refine getD_keep (fun _ _ => ?_) ?_) | (simp only [↓originate_keep]) | split
      | (simp_all; done))

theorem State.setMember_keep : ∀ (s : State) (p : Nat) (m : Member), (s.setMember p m).keep = s.keep := by intros; rfl

theorem State.askReplay_keep : ∀ (s : State) (l : Nat), (s.askReplay l).keep = s.keep := by intros; rfl

theorem bootRefusal_keep : ∀ (s : State) (p : Packet), (bootRefusal s p).keep = s.keep := by
  intros; unfold bootRefusal; (try dsimp only)
  repeat' (first
      | (with_reducible rfl) | (simp only [keep_mk, keep_fold])
      | (with_reducible refine ite_keep (fun _ => ?_) fun _ => ?_)
      | (with_reducible refine ite1_keep (fun _ => ?_) fun _ => ?_)
      | (with_reducible refine ite2_keep (fun _ => ?_) fun _ => ?_) | (with_reducible refine when_keep ?_ ?_)
      | (with_reducible refine (foldl_keep _ (fun _ _ => ?_) _ _).trans ?_)
      | (with_reducible refine (foldl1_keep _ (fun _ _ => ?_) _ _).trans ?_)
      | (with_reducible refine (foldl2_keep _ (fun _ _ => ?_) _ _).trans ?_)
      | (with_reducible refine getD_keep (fun _ _ => ?_) ?_) | (simp only [↓State.fromMp_keep]) | split
      | (simp_all; done))

theorem State.reached_keep : ∀ (s : State) (dest : PState) (r : Req), (s.reached dest r).keep = s.keep := by
  intros; unfold State.reached; (try dsimp only)
  repeat' (first
      | (with_reducible rfl) | (simp only [keep_mk, keep_fold])
      | (with_reducible refine ite_keep (fun _ => ?_) fun _ => ?_)
      | (simp only [↓State.bypass_keep, ↓State.complete_keep]) | split | (simp_all; done))

theorem State.refuseMem_keep :
    ∀ (s : State) (cl : Nat) (h : BitVec 256) (st : Nat), (s.refuseMem cl h st).keep = s.keep := by
  intros; unfold State.refuseMem; (try dsimp only)
  repeat' (first
      | (with_reducible rfl) | (simp only [keep_mk, keep_fold])
      | (with_reducible refine ite_keep (fun _ => ?_) fun _ => ?_)
      | (simp only [↓State.sendRsp_keep, ↓State.count_keep]) | split | (simp_all; done))

theorem State.setPart_keep : ∀ (s : State) (p : Nat) (x : Part), (s.setPart p x).keep = s.keep := by intros; rfl

theorem State.stopEndpoints_keep : ∀ (s : State) (part : Nat), (s.stopEndpoints part).keep = s.keep := by
  intros; unfold State.stopEndpoints; (try dsimp only)
  repeat' (first
      | (with_reducible rfl) | (simp only [keep_mk, keep_fold])
      | (with_reducible refine ite_keep (fun _ => ?_) fun _ => ?_)
      | (with_reducible refine (foldl_keep _ (fun _ _ => ?_) _ _).trans ?_) | (simp only [↓State.linkStop_keep])
      | split | (simp_all; done))

theorem Fn.enqueue_keep :
    ∀ (f : Fn) (r : Req) (args : List Nat) (s : State), (f.enqueue r args s).snd.keep = s.keep := by
  intros; unfold Fn.enqueue; (try dsimp only)
  repeat' (first
      | (with_reducible rfl) | (simp only [keep_mk, keep_fold])
      | (with_reducible refine ite_keep (fun _ => ?_) fun _ => ?_)
      | (with_reducible refine ite1_keep (fun _ => ?_) fun _ => ?_)
      | (with_reducible refine ite2_keep (fun _ => ?_) fun _ => ?_) | (simp only [↓State.count_keep]) | split
      | (simp_all; done))

theorem State.takeMem_keep :
    ∀ (s : State) (cl : Nat) (p : Steered → Bool) (y : Steered × State), s.takeMem cl p = some y → y.snd.keep = s.keep := by
  intro s c p y h; unfold State.takeMem at h
  obtain ⟨r, _, rfl⟩ := Option.map_eq_some_iff.mp h
  rfl

theorem State.loadFt_keep : ∀ (s : State) (d : Int), (s.loadFt d).keep = s.keep := by intros; rfl

theorem State.servo_keep : ∀ (s : State) (theta : Int), (s.servo theta).keep = s.keep := by intros; rfl

theorem State.useOffset_keep :
    ∀ (s : State) (theta : Int) (depth : Nat) (gm : Bool), (s.useOffset theta depth gm).keep = s.keep := by
  intros; unfold State.useOffset; (try dsimp only)
  repeat' (first
      | (with_reducible rfl) | (simp only [keep_mk, keep_fold])
      | (with_reducible refine ite_keep (fun _ => ?_) fun _ => ?_)
      | (simp only [↓State.loadFt_keep, ↓State.enterTime_keep, ↓State.missCommit_keep, ↓State.servo_keep]) | split
      | (simp_all; done))

theorem State.respondMbx_keep :
    ∀ (s : State) (m status : Nat) (defer : Bool) (body : List Byte), (s.respondMbx m status defer body).keep = s.keep := by
  intros; unfold State.respondMbx; simp only [↓State.sendHeld_keep, ↓State.setBox_keep, keep_mk, keep_fold]

theorem settleHead_keep : ∀ (a : Nat) (a_1 : State), (settleHead a a_1).keep = a_1.keep := by
  intros; fun_induction settleHead
  all_goals simp_all [↓State.respondMbx_keep, keep_mk, keep_fold]

theorem State.trigger_keep :
    ∀ (s : State) (m : Nat) (src : Option (BitVec 256)), (s.trigger m src).keep = s.keep := by
  intros; unfold State.trigger; (try dsimp only)
  repeat' (first
      | (with_reducible rfl) | (simp only [keep_mk, keep_fold])
      | (with_reducible refine ite_keep (fun _ => ?_) fun _ => ?_)
      | (simp only [↓State.sendHeld_keep, ↓State.setBox_keep, ↓settleHead_keep]) | split | (simp_all; done))

theorem State.writeReq_keep :
    ∀ (s : State) (m off : Nat) (data : List Byte) (src : Option (BitVec 256)), (s.writeReq m off data src).keep = s.keep := by
  intros; unfold State.writeReq; (try dsimp only)
  repeat' (first
      | (with_reducible rfl) | (simp only [keep_mk, keep_fold])
      | (with_reducible refine ite_keep (fun _ => ?_) fun _ => ?_)
      | (simp only [↓State.trigger_keep, ↓State.setBox_keep]) | split | (simp_all; done))

theorem State.i3cMailbox_keep : ∀ (s : State) (a : Nat) (data : List Byte), (s.i3cMailbox a data).keep = s.keep := by
  intros; unfold State.i3cMailbox; (try dsimp only)
  repeat' (first
      | (with_reducible rfl) | (simp only [keep_mk, keep_fold])
      | (with_reducible refine ite_keep (fun _ => ?_) fun _ => ?_) | (simp only [↓State.writeReq_keep]) | split
      | (simp_all; done))

theorem Fn.disable_keep : ∀ (f : Fn) (r : Req) (s : State), (f.disable r s).snd.keep = s.keep := by
  intros; unfold Fn.disable; (try dsimp only)
  repeat' (first
      | (with_reducible rfl) | (simp only [keep_mk, keep_fold]) | (simp only [↓State.complete_keep]) | split
      | (simp_all; done))

theorem State.adopt_keep : ∀ (s : State) (l : Nat), (s.adopt l).keep = s.keep := by intros; rfl

theorem State.sample_keep :
    ∀ (s : State) (l vc outcome : Nat) (p : Packet), (s.sample l vc outcome p).keep = s.keep := by
  intros; unfold State.sample; (try dsimp only)
  repeat' (first
      | (with_reducible rfl) | (simp only [keep_mk, keep_fold])
      | (with_reducible refine ite_keep (fun _ => ?_) fun _ => ?_) | (simp only [↓State.count_keep]) | split
      | (simp_all; done))

theorem State.sampleTick_keep :
    ∀ (s : State) (l vc : Nat) (counts : Bool) (hs : List Hit) (p : Packet), (s.sampleTick l vc counts hs p).keep = s.keep := by
  intros; unfold State.sampleTick; (try dsimp only)
  repeat' (first
      | (with_reducible rfl) | (simp only [keep_mk, keep_fold])
      | (with_reducible refine ite_keep (fun _ => ?_) fun _ => ?_)
      | (simp only [↓State.sample_keep, ↓State.setLink_keep]) | split | (simp_all; done))

theorem enter_keep :
    ∀ (s : State) (src : From) (vin vc total got : Nat) (p : Packet) (bad : Bool) (r : Option Route) (hs : List (BitVec 256 × Hit)), (enter s src vin vc total got p bad r hs).fst.keep = s.keep := by
  intros; unfold enter; (try dsimp only)
  repeat' (first
      | (with_reducible rfl) | (simp only [keep_mk, keep_fold])
      | (with_reducible refine ite_keep (fun _ => ?_) fun _ => ?_)
      | (with_reducible refine ite1_keep (fun _ => ?_) fun _ => ?_)
      | (with_reducible refine ite2_keep (fun _ => ?_) fun _ => ?_)
      | (with_reducible refine (foldl_keep _ (fun _ _ => ?_) _ _).trans ?_)
      | (with_reducible refine (foldl1_keep _ (fun _ _ => ?_) _ _).trans ?_)
      | (with_reducible refine (foldl2_keep _ (fun _ _ => ?_) _ _).trans ?_)
      | (simp only [↓portCopies_keep, ↓pushOut_keep, ↓State.noteCopies_keep, ↓deliverUnit_keep, ↓holdTbarrier_keep, ↓State.putBuf_keep, ↓State.count_keep])
      | split | (simp_all; done))

theorem State.sampled_keep :
    ∀ (s : State) (src : From) (vc : Nat) (counts : Bool) (hs : List Hit) (p : Packet), (s.sampled src vc counts hs p).keep = s.keep := by
  intros; unfold State.sampled; (try dsimp only)
  repeat' (first
      | (with_reducible rfl) | (simp only [keep_mk, keep_fold]) | (simp only [↓State.sampleTick_keep]) | split
      | (simp_all; done))

theorem fawnArrive_keep :
    ∀ (s : State) (l tp : Nat) (r : Route) (vc : Nat) (p : Packet) (bad : Bool), (fawnArrive s l tp r vc p bad).keep = s.keep := by
  intros; unfold fawnArrive; (try dsimp only)
  repeat' (first
      | (with_reducible rfl) | (simp only [keep_mk, keep_fold]) | (simp only [↓deliverUnit_keep, ↓State.count_keep])
      | split | (simp_all; done))

theorem State.sendAnswer_keep :
    ∀ (s : State) (cl vc part : Nat) (p : Packet), (s.sendAnswer cl vc part p).keep = s.keep := by
  intros; unfold State.sendAnswer; (try dsimp only)
  repeat' (first
      | (with_reducible rfl) | (simp only [keep_mk, keep_fold])
      | (with_reducible refine ite_keep (fun _ => ?_) fun _ => ?_)
      | (simp only [↓State.fromCluster_keep, ↓State.count_keep]) | split | (simp_all; done))

theorem answerUnknown_keep :
    ∀ (s : State) (src : From) (hs : List (BitVec 256 × Hit)), (answerUnknown s src hs).keep = s.keep := by
  intros; unfold answerUnknown; (try dsimp only)
  repeat' (first
      | (with_reducible rfl) | (simp only [keep_mk, keep_fold])
      | (with_reducible refine ite_keep (fun _ => ?_) fun _ => ?_)
      | (with_reducible refine ite1_keep (fun _ => ?_) fun _ => ?_)
      | (with_reducible refine ite2_keep (fun _ => ?_) fun _ => ?_)
      | (with_reducible refine (foldl_keep _ (fun _ _ => ?_) _ _).trans ?_)
      | (with_reducible refine (foldl1_keep _ (fun _ _ => ?_) _ _).trans ?_)
      | (with_reducible refine (foldl2_keep _ (fun _ _ => ?_) _ _).trans ?_) | (simp only [↓State.sendAnswer_keep])
      | split | (simp_all; done))

theorem arrive_keep :
    ∀ (s : State) (src : From) (vc total got : Nat) (p : Packet) (bad : Bool), (arrive s src vc total got p bad).fst.keep = s.keep := by
  intros; unfold arrive; (try dsimp only)
  repeat' (first
      | (with_reducible rfl) | (simp only [keep_mk, keep_fold])
      | (with_reducible refine ite_keep (fun _ => ?_) fun _ => ?_)
      | (with_reducible refine ite1_keep (fun _ => ?_) fun _ => ?_)
      | (with_reducible refine ite2_keep (fun _ => ?_) fun _ => ?_)
      | (simp only [↓enter_keep, ↓bootRefusal_keep, ↓State.sampled_keep, ↓fawnArrive_keep, ↓answerUnknown_keep, ↓State.count_keep])
      | split | (simp_all; done))

theorem State.ingressWhole_keep :
    ∀ (s : State) (l v : Nat) (p : Packet) (free : Bool), (s.ingressWhole l v p free).keep = s.keep := by
  intros; unfold State.ingressWhole; (try dsimp only)
  repeat' (first
      | (with_reducible rfl) | (simp only [keep_mk, keep_fold])
      | (with_reducible refine ite_keep (fun _ => ?_) fun _ => ?_)
      | (simp only [↓arrive_keep, ↓State.freeCredits_keep]) | split | (simp_all; done))

theorem State.msgTimers_keep : ∀ (s : State) (cl : Nat), (s.msgTimers cl).keep = s.keep := by
  intros; unfold State.msgTimers; (try dsimp only)
  repeat' (first
      | (with_reducible rfl) | (simp only [keep_mk, keep_fold])
      | (with_reducible refine (foldl_keep _ (fun _ _ => ?_) _ _).trans ?_) | (simp only [↓State.failMsg_keep])
      | split | (simp_all; done))

theorem State.digestResult_keep :
    ∀ (s : State) (i det cmp : Nat) (was lasting : Bool) (parts : List Nat), (s.digestResult i det cmp was lasting parts).keep = s.keep := by
  intros; unfold State.digestResult; (try dsimp only)
  repeat' (first
      | (with_reducible rfl) | (simp only [keep_mk, keep_fold])
      | (with_reducible refine ite_keep (fun _ => ?_) fun _ => ?_)
      | (simp only [↓State.health_keep, ↓State.count_keep, ↓State.event_keep]) | split | (simp_all; done))

theorem State.digestRx_keep : ∀ (s : State) (l : Nat) (w : BitVec 128), (s.digestRx l w).keep = s.keep := by
  intros; unfold State.digestRx; simp only [↓State.setLink_keep, ↓State.digestResult_keep, keep_mk, keep_fold]

theorem State.telemOff_keep : ∀ (s : State), s.telemOff.keep = s.keep := by
  intros; unfold State.telemOff; (try dsimp only)
  repeat' (first
      | (with_reducible rfl) | (simp only [keep_mk, keep_fold])
      | (with_reducible refine ite_keep (fun _ => ?_) fun _ => ?_)
      | (with_reducible refine ite1_keep (fun _ => ?_) fun _ => ?_)
      | (with_reducible refine ite2_keep (fun _ => ?_) fun _ => ?_) | (with_reducible refine when_keep ?_ ?_)
      | (with_reducible refine (foldl_keep _ (fun _ _ => ?_) _ _).trans ?_)
      | (with_reducible refine (foldl1_keep _ (fun _ _ => ?_) _ _).trans ?_)
      | (with_reducible refine (foldl2_keep _ (fun _ _ => ?_) _ _).trans ?_)
      | (with_reducible refine getD_keep (fun _ _ => ?_) ?_) | (simp only [↓State.complete_keep]) | split
      | (simp_all; done))

theorem State.abortChan_keep : ∀ (s : State) (l v : Nat), (s.abortChan l v).keep = s.keep := by
  intros; unfold State.abortChan; (try dsimp only)
  repeat' (first
      | (with_reducible rfl) | (simp only [keep_mk, keep_fold])
      | (with_reducible refine ite_keep (fun _ => ?_) fun _ => ?_)
      | (simp only [↓State.endCopy_keep, ↓State.setChan_keep]) | split | (simp_all; done))

theorem State.command_keep :
    ∀ (s : State) (m : Nat) (k : CmdRule) (f : Call → State → Verdict), (∀ c s, (f c s).st.keep = s.keep) → (s.command m k f).keep = s.keep := by
  intro s m k f hk; unfold State.command; dsimp only; split
  · rw [settleHead_keep, State.respondMbx_keep]
    repeat' (first | rfl | (rw [hk]) | split)
  · rfl

theorem State.settleWrite_keep :
    ∀ (s : State) (cl entry : Nat) (r : BitVec 256) (grans : List Nat) (p : Packet), (s.settleWrite cl entry r grans p).keep = s.keep := by
  intros; unfold State.settleWrite; (try dsimp only)
  repeat' (first
      | (with_reducible rfl) | (simp only [keep_mk, keep_fold])
      | (with_reducible refine ite_keep (fun _ => ?_) fun _ => ?_)
      | (with_reducible refine ite1_keep (fun _ => ?_) fun _ => ?_)
      | (with_reducible refine ite2_keep (fun _ => ?_) fun _ => ?_) | (with_reducible refine when_keep ?_ ?_)
      | (with_reducible refine (foldl_keep _ (fun _ _ => ?_) _ _).trans ?_)
      | (with_reducible refine (foldl1_keep _ (fun _ _ => ?_) _ _).trans ?_)
      | (with_reducible refine (foldl2_keep _ (fun _ _ => ?_) _ _).trans ?_)
      | (with_reducible refine getD_keep (fun _ _ => ?_) ?_)
      | (simp only [↓State.sendRsp_keep, ↓State.mirrorChange_keep]) | split | (simp_all; done))

theorem State.setDisc_keep : ∀ (s : State) (l : Nat) (d : Disc), (s.setDisc l d).keep = s.keep := by
  intros; unfold State.setDisc; (try dsimp only)
  repeat' (first
      | (with_reducible rfl) | (simp only [keep_mk, keep_fold])
      | (with_reducible refine ite_keep (fun _ => ?_) fun _ => ?_)
      | (simp only [↓State.reevalF_keep, ↓State.setLink_keep, ↓State.health_keep, ↓State.event_keep]) | split
      | (simp_all; done))

theorem State.ingressAll_keep : ∀ (s : State) (l : Nat), (s.ingressAll l).keep = s.keep := by
  intros; unfold State.ingressAll; (try dsimp only)
  repeat' (first
      | (with_reducible rfl) | (simp only [keep_mk, keep_fold])
      | (with_reducible refine (foldl_keep _ (fun _ _ => ?_) _ _).trans ?_)
      | (simp only [↓arrive_keep, ↓State.freeCredits_keep, ↓State.setLink_keep]) | split | (simp_all; done))

theorem State.endPacket_keep : ∀ (s : State) (id cause : Nat), (s.endPacket id cause).keep = s.keep := by
  intros; unfold State.endPacket; (try dsimp only)
  repeat' (first
      | (with_reducible rfl) | (simp only [keep_mk, keep_fold])
      | (with_reducible refine (foldl_keep _ (fun _ _ => ?_) _ _).trans ?_) | (simp only [↓State.endCopy_keep])
      | split | (simp_all; done))

theorem State.cutIngress_keep : ∀ (s : State) (l cause : Nat), (s.cutIngress l cause).keep = s.keep := by
  intros; unfold State.cutIngress; (try dsimp only)
  repeat' (first
      | (with_reducible rfl) | (simp only [keep_mk, keep_fold])
      | (with_reducible refine (foldl_keep _ (fun _ _ => ?_) _ _).trans ?_)
      | (simp only [↓State.endPacket_keep, ↓State.setLink_keep]) | split | (simp_all; done))

theorem State.staleCells_keep : ∀ (s : State) (l : Nat), (s.staleCells l).keep = s.keep := by intros; rfl

theorem State.completeEnable_keep : ∀ (s : State) (l status : Nat), (s.completeEnable l status).keep = s.keep := by
  intros; unfold State.completeEnable; (try dsimp only)
  repeat' (first
      | (with_reducible rfl) | (simp only [keep_mk, keep_fold])
      | (simp only [↓State.complete_keep, ↓State.setLink_keep]) | split | (simp_all; done))

theorem State.linkEvent_keep : ∀ (s : State) (l : Nat), (s.linkEvent l).keep = s.keep := by
  intros; unfold State.linkEvent; (try dsimp only)
  repeat' (first
      | (with_reducible rfl) | (simp only [keep_mk, keep_fold])
      | (with_reducible refine ite_keep (fun _ => ?_) fun _ => ?_)
      | (with_reducible refine ite1_keep (fun _ => ?_) fun _ => ?_)
      | (with_reducible refine ite2_keep (fun _ => ?_) fun _ => ?_) | (with_reducible refine when_keep ?_ ?_)
      | (with_reducible refine (foldl_keep _ (fun _ _ => ?_) _ _).trans ?_)
      | (with_reducible refine (foldl1_keep _ (fun _ _ => ?_) _ _).trans ?_)
      | (with_reducible refine (foldl2_keep _ (fun _ _ => ?_) _ _).trans ?_)
      | (with_reducible refine getD_keep (fun _ _ => ?_) ?_) | (simp only [↓State.event_keep]) | split
      | (simp_all; done))

theorem State.linkDown_keep : ∀ (s : State) (l cause : Nat), (s.linkDown l cause).keep = s.keep := by
  intros; unfold State.linkDown; (try dsimp only)
  repeat' (first
      | (with_reducible rfl) | (simp only [keep_mk, keep_fold])
      | (with_reducible refine ite_keep (fun _ => ?_) fun _ => ?_)
      | (simp only [↓State.toState_keep, ↓State.setDisc_keep, ↓State.ingressAll_keep, ↓State.countN_keep, ↓State.cutIngress_keep, ↓State.staleCells_keep, ↓State.completeEnable_keep, ↓State.flushLink_keep, ↓State.setLink_keep, ↓State.health_keep, ↓State.linkEvent_keep])
      | split | (simp_all; done))

theorem State.askDegrade_keep : ∀ (s : State) (l first : Nat), (s.askDegrade l first).keep = s.keep := by intros; rfl

theorem State.laneFailed_keep : ∀ (s : State) (l lane : Nat), (s.laneFailed l lane).keep = s.keep := by
  intros; unfold State.laneFailed; (try dsimp only)
  repeat' (first
      | (with_reducible rfl) | (simp only [keep_mk, keep_fold])
      | (with_reducible refine ite_keep (fun _ => ?_) fun _ => ?_)
      | (simp only [↓State.linkDown_keep, ↓State.askDegrade_keep, ↓State.setLink_keep]) | split | (simp_all; done))

theorem State.uncorrOn_keep : ∀ (s : State) (l lane n : Nat), (s.uncorrOn l lane n).keep = s.keep := by
  intros; unfold State.uncorrOn; (try dsimp only)
  repeat' (first
      | (with_reducible rfl) | (simp only [keep_mk, keep_fold])
      | (with_reducible refine ite_keep (fun _ => ?_) fun _ => ?_)
      | (simp only [↓State.laneFailed_keep, ↓State.setLink_keep]) | split | (simp_all; done))

theorem State.fecNote_keep : ∀ (s : State) (l : Nat) (f : FecReport), (s.fecNote l f).keep = s.keep := by
  intros; unfold State.fecNote; (try dsimp only)
  repeat' (first
      | (with_reducible rfl) | (simp only [keep_mk, keep_fold])
      | (with_reducible refine (foldl_keep _ (fun _ _ => ?_) _ _).trans ?_)
      | (simp only [↓State.countN_keep, ↓State.health_keep, ↓State.uncorrOn_keep]) | split | (simp_all; done))

theorem State.creditRx_keep : ∀ (s : State) (l v q c : Nat), (s.creditRx l v q c).keep = s.keep := by
  intros; unfold State.creditRx; (try dsimp only)
  repeat' (first
      | (with_reducible rfl) | (simp only [keep_mk, keep_fold]) | (simp only [↓State.setLink_keep]) | split
      | (simp_all; done))

theorem State.sendHello_keep : ∀ (s : State) (l : Nat), (s.sendHello l).keep = s.keep := by intros; rfl

theorem State.enterRetrain_keep :
    ∀ (s : State) (l cause : Nat) (tell : Bool), (s.enterRetrain l cause tell).keep = s.keep := by
  intros; unfold State.enterRetrain; (try dsimp only)
  repeat' (first
      | (with_reducible rfl) | (simp only [keep_mk, keep_fold])
      | (with_reducible refine ite_keep (fun _ => ?_) fun _ => ?_)
      | (simp only [↓State.sendHello_keep, ↓State.linkDown_keep, ↓State.toState_keep, ↓State.setLink_keep, ↓State.health_keep, ↓State.count_keep, ↓State.linkEvent_keep])
      | split | (simp_all; done))

theorem State.useSet_keep : ∀ (s : State) (l set : Nat), (s.useSet l set).keep = s.keep := by
  intros; unfold State.useSet; (try dsimp only)
  repeat' (first
      | (with_reducible rfl) | (simp only [keep_mk, keep_fold])
      | (with_reducible refine ite_keep (fun _ => ?_) fun _ => ?_)
      | (simp only [↓State.setLink_keep, ↓State.health_keep, ↓State.count_keep, ↓State.linkEvent_keep]) | split
      | (simp_all; done))

theorem State.degradeRx_keep : ∀ (s : State) (l : Nat) (w : BitVec 128), (s.degradeRx l w).keep = s.keep := by
  intros; unfold State.degradeRx; (try dsimp only)
  repeat' (first
      | (with_reducible rfl) | (simp only [keep_mk, keep_fold])
      | (with_reducible refine ite_keep (fun _ => ?_) fun _ => ?_)
      | (simp only [↓State.linkDown_keep, ↓State.useSet_keep, ↓State.setLink_keep]) | split | (simp_all; done))

theorem State.abortRx_keep : ∀ (s : State) (l v cause : Nat), (s.abortRx l v cause).keep = s.keep := by
  intros; unfold State.abortRx; (try dsimp only)
  repeat' (first
      | (with_reducible rfl) | (simp only [keep_mk, keep_fold])
      | (simp only [↓State.endPacket_keep, ↓State.freeCredits_keep, ↓State.setLink_keep, ↓State.count_keep]) | split
      | (simp_all; done))

theorem State.compareNbr_keep : ∀ (s : State) (l : Nat) (h : BitVec 512), (s.compareNbr l h).keep = s.keep := by
  intros; unfold State.compareNbr; (try dsimp only)
  repeat' (first
      | (with_reducible rfl) | (simp only [keep_mk, keep_fold]) | (simp only [↓State.setDisc_keep]) | split
      | (simp_all; done))

theorem State.enterInit_keep : ∀ (s : State) (l : Nat) (h : BitVec 512), (s.enterInit l h).keep = s.keep := by
  intros; unfold State.enterInit; simp only [↓State.toState_keep, ↓State.compareNbr_keep, ↓State.setLink_keep, keep_mk, keep_fold]

theorem State.checkHello_keep : ∀ (s : State) (l : Nat) (h : BitVec 512), (s.checkHello l h).keep = s.keep := by
  intros; unfold State.checkHello; (try dsimp only)
  repeat' (first
      | (with_reducible rfl) | (simp only [keep_mk, keep_fold])
      | (with_reducible refine ite_keep (fun _ => ?_) fun _ => ?_)
      | (simp only [↓State.linkDown_keep, ↓State.enterInit_keep]) | split | (simp_all; done))

theorem State.measureLoop_keep : ∀ (s : State) (l t : Nat) (w : BitVec 128), (s.measureLoop l t w).keep = s.keep := by
  intros; unfold State.measureLoop; (try dsimp only)
  repeat' (first
      | (with_reducible rfl) | (simp only [keep_mk, keep_fold])
      | (with_reducible refine ite_keep (fun _ => ?_) fun _ => ?_)
      | (simp only [↓State.setLink_keep, ↓State.checkHello_keep, ↓State.queueTsync_keep]) | split | (simp_all; done))

theorem State.bootUp_keep : ∀ (s : State) (l : Nat), (s.bootUp l).keep = s.keep := by
  intros; unfold State.bootUp; (try dsimp only)
  repeat' (first
      | (with_reducible rfl) | (simp only [keep_mk, keep_fold])
      | (with_reducible refine ite_keep (fun _ => ?_) fun _ => ?_)
      | (with_reducible refine ite1_keep (fun _ => ?_) fun _ => ?_)
      | (with_reducible refine ite2_keep (fun _ => ?_) fun _ => ?_) | (with_reducible refine when_keep ?_ ?_)
      | (with_reducible refine (foldl_keep _ (fun _ _ => ?_) _ _).trans ?_)
      | (with_reducible refine (foldl1_keep _ (fun _ _ => ?_) _ _).trans ?_)
      | (with_reducible refine (foldl2_keep _ (fun _ _ => ?_) _ _).trans ?_)
      | (with_reducible refine getD_keep (fun _ _ => ?_) ?_) | (simp only [↓State.bootIssue_keep]) | split
      | (simp_all; done))

theorem State.upCheck_keep : ∀ (s : State) (l : Nat), (s.upCheck l).keep = s.keep := by
  intros; unfold State.upCheck; (try dsimp only)
  repeat' (first
      | (with_reducible rfl) | (simp only [keep_mk, keep_fold])
      | (with_reducible refine ite_keep (fun _ => ?_) fun _ => ?_)
      | (with_reducible refine ite1_keep (fun _ => ?_) fun _ => ?_)
      | (with_reducible refine ite2_keep (fun _ => ?_) fun _ => ?_) | (with_reducible refine when_keep ?_ ?_)
      | (with_reducible refine (foldl_keep _ (fun _ _ => ?_) _ _).trans ?_)
      | (with_reducible refine (foldl1_keep _ (fun _ _ => ?_) _ _).trans ?_)
      | (with_reducible refine (foldl2_keep _ (fun _ _ => ?_) _ _).trans ?_)
      | (with_reducible refine getD_keep (fun _ _ => ?_) ?_)
      | (simp only [↓State.toState_keep, ↓State.completeEnable_keep, ↓State.bootUp_keep, ↓State.linkEvent_keep])
      | split | (simp_all; done))

theorem State.tsyncRx_keep : ∀ (s : State) (l : Nat) (w : BitVec 128) (t : Nat), (s.tsyncRx l w t).keep = s.keep := by
  intros; unfold State.tsyncRx; (try dsimp only)
  repeat' (first
      | (with_reducible rfl) | (simp only [keep_mk, keep_fold])
      | (with_reducible refine ite_keep (fun _ => ?_) fun _ => ?_)
      | (simp only [↓State.setLink_keep, ↓State.count_keep, ↓State.useOffset_keep]) | split | (simp_all; done))

theorem State.ctlRx_keep : ∀ (s : State) (l t : Nat) (w : BitVec 128), (s.ctlRx l t w).keep = s.keep := by
  intros; unfold State.ctlRx; (try dsimp only)
  repeat' (first
      | (with_reducible rfl) | (simp only [keep_mk, keep_fold])
      | (with_reducible refine ite_keep (fun _ => ?_) fun _ => ?_)
      | (simp only [↓State.enterRetrain_keep, ↓State.digestRx_keep, ↓State.degradeRx_keep, ↓State.abortRx_keep, ↓State.measureLoop_keep, ↓State.setLink_keep, ↓State.count_keep, ↓State.upCheck_keep, ↓State.tsyncRx_keep])
      | split | (simp_all; done))

theorem State.ctlFlit_keep : ∀ (s : State) (l t : Nat) (d : BitVec 512), (s.ctlFlit l t d).keep = s.keep := by
  intros; unfold State.ctlFlit; (try dsimp only)
  repeat' (first
      | (with_reducible rfl) | (simp only [keep_mk, keep_fold])
      | (with_reducible refine ite_keep (fun _ => ?_) fun _ => ?_)
      | (with_reducible refine (foldl_keep _ (fun _ _ => ?_) _ _).trans ?_)
      | (simp only [↓State.ctlRx_keep, ↓State.setLink_keep, ↓State.count_keep, ↓State.checkHello_keep]) | split
      | (simp_all; done))

theorem State.crossRoom_keep :
    ∀ (s : State) (old new : BufPkt) (d : Nat) (y : State), s.crossRoom old new d = some y → y.keep = s.keep := by
  intros; rename_i h; unfold State.crossRoom at h; (try dsimp only at h); (repeat' split at h)
  all_goals (first | contradiction | (injection h with h; subst h))
  all_goals (repeat' (first
      | (with_reducible rfl) | (simp only [keep_mk, keep_fold])
      | (with_reducible refine ite_keep (fun _ => ?_) fun _ => ?_) | (simp only [↓pushOut_keep]) | split
      | (simp_all; done)))

theorem State.moveFlit_keep : ∀ (s : State) (l v : Nat) (y : State), s.moveFlit l v = some y → y.keep = s.keep := by
  intros; rename_i h; unfold State.moveFlit at h; (try dsimp only at h); (repeat' split at h)
  all_goals (first | contradiction | (injection h with h; subst h))
  all_goals (repeat' (first
      | (with_reducible rfl) | (simp only [keep_mk, keep_fold])
      | (with_reducible refine ite_keep (fun _ => ?_) fun _ => ?_)
      | (refine Eq.trans (State.crossRoom_keep _ _ _ _ _ ‹_›) ?_)
      | (simp only [↓State.checkInt_keep, ↓State.setChan_keep, ↓State.setBufPkt_keep, ↓State.count_keep]) | split
      | (simp_all; done)))

theorem fillPre_keep : ∀ (l v a : Nat) (a_1 : State), (fillPre l v a a_1).keep = a_1.keep := by
  intro l v n; induction n with
  | zero => intro s; rfl
  | succ n ih =>
    intro s; unfold fillPre; split
    · rfl
    · rw [ih, State.moveFlit_keep _ _ _ _ ‹_›]

theorem State.addFlit_keep :
    ∀ (s : State) (id : Nat) (d : BitVec 512) (last bad : Bool), (s.addFlit id d last bad).keep = s.keep := by
  intros; unfold State.addFlit; (try dsimp only)
  repeat' (first
      | (with_reducible rfl) | (simp only [keep_mk, keep_fold])
      | (with_reducible refine ite_keep (fun _ => ?_) fun _ => ?_)
      | (with_reducible refine (foldl_keep _ (fun _ _ => ?_) _ _).trans ?_)
      | (simp only [↓pushOut_keep, ↓fillPre_keep, ↓State.setBufPkt_keep, ↓State.noteDepth_keep]) | split
      | (simp_all; done))

theorem State.throughFlit_keep :
    ∀ (s : State) (l v id : Nat) (h : BitVec 256) (d : BitVec 512) (last bad : Bool), (s.throughFlit l v id h d last bad).keep = s.keep := by
  intros; unfold State.throughFlit; (try dsimp only)
  repeat' (first
      | (with_reducible rfl) | (simp only [keep_mk, keep_fold])
      | (with_reducible refine ite_keep (fun _ => ?_) fun _ => ?_)
      | (simp only [↓State.addFlit_keep, ↓State.freeCredits_keep]) | split | (simp_all; done))

theorem State.tailRx_keep :
    ∀ (s : State) (l v : Nat) (p : RxPkt) (d : BitVec 512), (s.tailRx l v p d).keep = s.keep := by
  intros; unfold State.tailRx; (try dsimp only)
  repeat' (first
      | (with_reducible rfl) | (simp only [keep_mk, keep_fold])
      | (with_reducible refine ite_keep (fun _ => ?_) fun _ => ?_)
      | (simp only [↓State.throughFlit_keep, ↓State.ingressWhole_keep, ↓State.freeCredits_keep, ↓State.setLink_keep, ↓State.health_keep, ↓State.count_keep])
      | split | (simp_all; done))

theorem State.flitRx_keep : ∀ (s : State) (l v : Nat) (d : BitVec 512), (s.flitRx l v d).keep = s.keep := by
  intros; unfold State.flitRx; (try dsimp only)
  repeat' (first
      | (with_reducible rfl) | (simp only [keep_mk, keep_fold])
      | (with_reducible refine ite_keep (fun _ => ?_) fun _ => ?_)
      | (with_reducible refine getD_keep (fun _ _ => ?_) ?_)
      | (simp only [↓State.throughFlit_keep, ↓State.freeCredits_keep, ↓State.tailRx_keep, ↓State.setLink_keep, ↓State.count_keep])
      | split | (simp_all; done))

theorem State.passFlits_keep : ∀ (s : State) (l t : Nat) (b : Block), (s.passFlits l t b).keep = s.keep := by
  intros; unfold State.passFlits; (try dsimp only)
  repeat' (first
      | (with_reducible rfl) | (simp only [keep_mk, keep_fold])
      | (with_reducible refine ite_keep (fun _ => ?_) fun _ => ?_)
      | (with_reducible refine (foldl_keep _ (fun _ _ => ?_) _ _).trans ?_)
      | (simp only [↓State.ctlFlit_keep, ↓State.flitRx_keep]) | split | (simp_all; done))

theorem State.startReplay_keep : ∀ (s : State) (l count : Nat), (s.startReplay l count).keep = s.keep := by
  intros; unfold State.startReplay; (try dsimp only)
  repeat' (first
      | (with_reducible rfl) | (simp only [keep_mk, keep_fold])
      | (with_reducible refine ite_keep (fun _ => ?_) fun _ => ?_)
      | (simp only [↓State.enterRetrain_keep, ↓State.setLink_keep, ↓State.count_keep]) | split | (simp_all; done))

theorem State.ackRx_keep : ∀ (s : State) (l a : Nat) (nak : Bool), (s.ackRx l a nak).keep = s.keep := by
  intros; unfold State.ackRx; (try dsimp only)
  repeat' (first
      | (with_reducible rfl) | (simp only [keep_mk, keep_fold])
      | (with_reducible refine ite_keep (fun _ => ?_) fun _ => ?_)
      | (simp only [↓State.startReplay_keep, ↓State.setLink_keep]) | split | (simp_all; done))

theorem State.goodBlock_keep : ∀ (s : State) (l t : Nat) (b : Block), (s.goodBlock l t b).keep = s.keep := by
  intros; unfold State.goodBlock; (try dsimp only)
  repeat' (first
      | (with_reducible rfl) | (simp only [keep_mk, keep_fold])
      | (with_reducible refine ite_keep (fun _ => ?_) fun _ => ?_)
      | (simp only [↓State.creditRx_keep, ↓State.passFlits_keep, ↓State.askReplay_keep, ↓State.setLink_keep, ↓State.count_keep, ↓State.ackRx_keep])
      | split | (simp_all; done))

theorem State.blockRx_keep :
    ∀ (s : State) (l t : Nat) (b : Block) (fec : FecReport), (s.blockRx l t b fec).keep = s.keep := by
  intros; unfold State.blockRx; (try dsimp only)
  repeat' (first
      | (with_reducible rfl) | (simp only [keep_mk, keep_fold])
      | (with_reducible refine ite_keep (fun _ => ?_) fun _ => ?_)
      | (simp only [↓State.fecNote_keep, ↓State.askReplay_keep, ↓State.count_keep, ↓State.goodBlock_keep]) | split
      | (simp_all; done))

theorem State.freeRsp_keep : ∀ (s : State) (w : MirrorWr), (s.freeRsp w).keep = s.keep := by
  intros; unfold State.freeRsp; (try dsimp only)
  repeat' (first
      | (with_reducible rfl) | (simp only [keep_mk, keep_fold]) | (simp only [↓State.sendRsp_keep]) | split
      | (simp_all; done))

theorem State.confirm_keep : ∀ (s : State) (w : MirrorWr), (s.confirm w).keep = s.keep := by
  intros; unfold State.confirm; (try dsimp only)
  repeat' (first
      | (with_reducible rfl) | (simp only [keep_mk, keep_fold])
      | (with_reducible refine ite_keep (fun _ => ?_) fun _ => ?_)
      | (simp only [↓State.freeRsp_keep, ↓State.putMsg_keep]) | split | (simp_all; done))

theorem noChange_keep : ∀ (s : State), (noChange s).st.keep = s.keep := by
  intros; unfold noChange; (try dsimp only)
  repeat' (first
      | (with_reducible rfl) | (simp only [keep_mk, keep_fold])
      | (with_reducible refine ite_keep (fun _ => ?_) fun _ => ?_)
      | (with_reducible refine ite1_keep (fun _ => ?_) fun _ => ?_)
      | (with_reducible refine ite2_keep (fun _ => ?_) fun _ => ?_) | (with_reducible refine when_keep ?_ ?_)
      | (with_reducible refine (foldl_keep _ (fun _ _ => ?_) _ _).trans ?_)
      | (with_reducible refine (foldl1_keep _ (fun _ _ => ?_) _ _).trans ?_)
      | (with_reducible refine (foldl2_keep _ (fun _ _ => ?_) _ _).trans ?_)
      | (with_reducible refine getD_keep (fun _ _ => ?_) ?_) | split | (simp_all; done))

theorem deferred_keep : ∀ (s : State), (deferred s).st.keep = s.keep := by
  intros; unfold deferred; (try dsimp only)
  repeat' (first
      | (with_reducible rfl) | (simp only [keep_mk, keep_fold])
      | (with_reducible refine ite_keep (fun _ => ?_) fun _ => ?_)
      | (with_reducible refine ite1_keep (fun _ => ?_) fun _ => ?_)
      | (with_reducible refine ite2_keep (fun _ => ?_) fun _ => ?_) | (with_reducible refine when_keep ?_ ?_)
      | (with_reducible refine (foldl_keep _ (fun _ _ => ?_) _ _).trans ?_)
      | (with_reducible refine (foldl1_keep _ (fun _ _ => ?_) _ _).trans ?_)
      | (with_reducible refine (foldl2_keep _ (fun _ _ => ?_) _ _).trans ?_)
      | (with_reducible refine getD_keep (fun _ _ => ?_) ?_) | split | (simp_all; done))

theorem queuedV_keep : ∀ (s : State), (queuedV s).st.keep = s.keep := by
  intros; unfold queuedV; (try dsimp only)
  repeat' (first
      | (with_reducible rfl) | (simp only [keep_mk, keep_fold])
      | (with_reducible refine ite_keep (fun _ => ?_) fun _ => ?_)
      | (with_reducible refine ite1_keep (fun _ => ?_) fun _ => ?_)
      | (with_reducible refine ite2_keep (fun _ => ?_) fun _ => ?_) | (with_reducible refine when_keep ?_ ?_)
      | (with_reducible refine (foldl_keep _ (fun _ _ => ?_) _ _).trans ?_)
      | (with_reducible refine (foldl1_keep _ (fun _ _ => ?_) _ _).trans ?_)
      | (with_reducible refine (foldl2_keep _ (fun _ _ => ?_) _ _).trans ?_)
      | (with_reducible refine getD_keep (fun _ _ => ?_) ?_) | split | (simp_all; done))

theorem telemOn_keep : ∀ (c : Call) (dst us part : Nat) (s : State), (telemOn c dst us part s).st.keep = s.keep := by
  intros; unfold telemOn; (try dsimp only)
  repeat' (first
      | (with_reducible rfl) | (simp only [keep_mk, keep_fold])
      | (simp only [↓Fn.enqueue_keep, ↓noChange_keep, ↓deferred_keep, ↓queuedV_keep]) | split | (simp_all; done))

theorem digestRead_keep : ∀ (c : Call) (s : State), (digestRead c s).st.keep = s.keep := by
  intros; unfold digestRead; (try dsimp only)
  repeat' (first
      | (with_reducible rfl) | (simp only [keep_mk, keep_fold])
      | (with_reducible refine ite_keep (fun _ => ?_) fun _ => ?_)
      | (with_reducible refine ite1_keep (fun _ => ?_) fun _ => ?_)
      | (with_reducible refine ite2_keep (fun _ => ?_) fun _ => ?_) | (with_reducible refine when_keep ?_ ?_)
      | (with_reducible refine (foldl_keep _ (fun _ _ => ?_) _ _).trans ?_)
      | (with_reducible refine (foldl1_keep _ (fun _ _ => ?_) _ _).trans ?_)
      | (with_reducible refine (foldl2_keep _ (fun _ _ => ?_) _ _).trans ?_)
      | (with_reducible refine getD_keep (fun _ _ => ?_) ?_) | (simp only [↓refuseCmd_keep]) | split
      | (simp_all; done))

theorem State.enterSignal_keep : ∀ (s : State) (l : Nat), (s.enterSignal l).keep = s.keep := by intros; rfl

theorem State.startLink_keep : ∀ (s : State) (l : Nat), (s.startLink l).keep = s.keep := by
  intros; unfold State.startLink; (try dsimp only)
  repeat' (first
      | (with_reducible rfl) | (simp only [keep_mk, keep_fold])
      | (with_reducible refine ite_keep (fun _ => ?_) fun _ => ?_)
      | (simp only [↓State.linkDown_keep, ↓State.enterSignal_keep]) | split | (simp_all; done))

theorem State.startOff_keep : ∀ (s : State) (l : Nat), (s.startOff l).keep = s.keep := by
  intros; unfold State.startOff; (try dsimp only)
  repeat' (first
      | (with_reducible rfl) | (simp only [keep_mk, keep_fold])
      | (with_reducible refine ite_keep (fun _ => ?_) fun _ => ?_)
      | (simp only [↓State.startLink_keep, ↓State.completeEnable_keep, ↓State.setLink_keep, ↓State.adopt_keep])
      | split | (simp_all; done))

theorem State.woken_keep : ∀ (s : State), s.woken.keep = s.keep := by
  intros; unfold State.woken; (try dsimp only)
  repeat' (first
      | (with_reducible rfl) | (simp only [keep_mk, keep_fold])
      | (with_reducible refine ite_keep (fun _ => ?_) fun _ => ?_)
      | (with_reducible refine ite1_keep (fun _ => ?_) fun _ => ?_)
      | (with_reducible refine ite2_keep (fun _ => ?_) fun _ => ?_) | (with_reducible refine when_keep ?_ ?_)
      | (with_reducible refine (foldl_keep _ (fun _ _ => ?_) _ _).trans ?_)
      | (with_reducible refine (foldl1_keep _ (fun _ _ => ?_) _ _).trans ?_)
      | (with_reducible refine (foldl2_keep _ (fun _ _ => ?_) _ _).trans ?_)
      | (with_reducible refine getD_keep (fun _ _ => ?_) ?_)
      | (simp only [↓State.startOff_keep, ↓State.enterTime_keep, ↓State.setLink_keep, ↓State.roeEvent_keep]) | split
      | (simp_all; done))

theorem State.parityDrop_keep :
    ∀ (s : State) (l v n : Nat) (h : BitVec 256), (s.parityDrop l v n h).keep = s.keep := by
  intros; unfold State.parityDrop; simp only [↓State.freeCredits_keep, ↓State.health_keep, ↓State.count_keep, keep_mk, keep_fold]

theorem State.setStage_keep : ∀ (s : State) (g : Option StageOp), (s.setStage g).keep = s.keep := by intros; rfl

theorem State.endStage_keep : ∀ (s : State) (status detail : Nat), (s.endStage status detail).keep = s.keep := by
  intros; unfold State.endStage; (try dsimp only)
  repeat' (first
      | (with_reducible rfl) | (simp only [keep_mk, keep_fold])
      | (simp only [↓State.complete_keep, ↓State.setStage_keep]) | split | (simp_all; done))

theorem State.mpRead_keep : ∀ (s : State) (part src : Nat) (r : BulkRead), (s.mpRead part src r).keep = s.keep := by
  intros; unfold State.mpRead; simp only [↓State.fromMp_keep, keep_mk, keep_fold]

theorem State.stagePump_keep : ∀ (s : State), s.stagePump.keep = s.keep := by
  intros; unfold State.stagePump; (try dsimp only)
  repeat' (first
      | (with_reducible rfl) | (simp only [keep_mk, keep_fold])
      | (with_reducible refine ite_keep (fun _ => ?_) fun _ => ?_)
      | (with_reducible refine ite1_keep (fun _ => ?_) fun _ => ?_)
      | (with_reducible refine ite2_keep (fun _ => ?_) fun _ => ?_) | (with_reducible refine when_keep ?_ ?_)
      | (with_reducible refine (foldl_keep _ (fun _ _ => ?_) _ _).trans ?_)
      | (with_reducible refine (foldl1_keep _ (fun _ _ => ?_) _ _).trans ?_)
      | (with_reducible refine (foldl2_keep _ (fun _ _ => ?_) _ _).trans ?_)
      | (with_reducible refine getD_keep (fun _ _ => ?_) ?_)
      | (with_reducible refine (issueReads_keep _ _ _ _ _ (fun _ _ => ?_)).trans ?_)
      | (simp only [↓State.endStage_keep, ↓State.setStage_keep, ↓State.mpRead_keep]) | split | (simp_all; done))

theorem planStage_keep : ∀ (c : Call) (s : State), (planStage c s).st.keep = s.keep := by
  intros; unfold planStage; (try dsimp only)
  repeat' (first
      | (with_reducible rfl) | (simp only [keep_mk, keep_fold])
      | (with_reducible refine ite_keep (fun _ => ?_) fun _ => ?_)
      | (with_reducible refine ite1_keep (fun _ => ?_) fun _ => ?_)
      | (with_reducible refine ite2_keep (fun _ => ?_) fun _ => ?_) | (with_reducible refine when_keep ?_ ?_)
      | (with_reducible refine (foldl_keep _ (fun _ _ => ?_) _ _).trans ?_)
      | (with_reducible refine (foldl1_keep _ (fun _ _ => ?_) _ _).trans ?_)
      | (with_reducible refine (foldl2_keep _ (fun _ _ => ?_) _ _).trans ?_)
      | (with_reducible refine getD_keep (fun _ _ => ?_) ?_)
      | (simp only [↓State.stagePump_keep, ↓State.endStage_keep, ↓refuseCmd_keep]) | split | (simp_all; done))

theorem State.respond_keep :
    ∀ (s : State) (cl : Nat) (h : BitVec 256) (st : Nat) (pay : List Byte), (s.respond cl h st pay).keep = s.keep := by
  intros; unfold State.respond; simp only [↓State.sendRsp_keep, keep_mk, keep_fold]

theorem State.refreshRate_keep :
    ∀ (s : State) (stack temp : Nat), (s.refreshRate stack temp).keep = s.keep := by intros; rfl

theorem State.mpPacket_keep :
    ∀ (s : State) (x : Steered) (f : State → State), (∀ (a : State), (f a).keep = a.keep) → (s.mpPacket x f).keep = s.keep := by
  intros; rename_i hk; unfold State.mpPacket; (try dsimp only)
  repeat' (first
      | (with_reducible rfl) | (simp only [keep_mk, keep_fold])
      | (with_reducible refine ite_keep (fun _ => ?_) fun _ => ?_) | (simp only [hk])
      | (simp only [↓State.checkInt_keep, ↓State.count_keep]) | split | (simp_all; done))

theorem portEnable_keep : ∀ (c : Call) (s : State), (portEnable c s).st.keep = s.keep := by
  intros; unfold portEnable; (try dsimp only)
  repeat' (first
      | (with_reducible rfl) | (simp only [keep_mk, keep_fold])
      | (with_reducible refine ite_keep (fun _ => ?_) fun _ => ?_)
      | (with_reducible refine ite1_keep (fun _ => ?_) fun _ => ?_)
      | (with_reducible refine ite2_keep (fun _ => ?_) fun _ => ?_) | (with_reducible refine when_keep ?_ ?_)
      | (with_reducible refine (foldl_keep _ (fun _ _ => ?_) _ _).trans ?_)
      | (with_reducible refine (foldl1_keep _ (fun _ _ => ?_) _ _).trans ?_)
      | (with_reducible refine (foldl2_keep _ (fun _ _ => ?_) _ _).trans ?_)
      | (with_reducible refine getD_keep (fun _ _ => ?_) ?_)
      | (with_reducible refine (State.portArg_keep _ _ _ (fun _ => ?_)).trans ?_)
      | (simp only [↓State.startOff_keep, ↓Fn.enqueue_keep, ↓State.setLink_keep, ↓noChange_keep, ↓deferred_keep, ↓queuedV_keep])
      | split | (simp_all; done))

theorem State.sendUctl_keep : ∀ (s : State) (l : Nat), (s.sendUctl l).keep = s.keep := by
  intros; unfold State.sendUctl; (try dsimp only)
  repeat' (first
      | (with_reducible rfl) | (simp only [keep_mk, keep_fold])
      | (with_reducible refine ite_keep (fun _ => ?_) fun _ => ?_)
      | (with_reducible refine ite1_keep (fun _ => ?_) fun _ => ?_)
      | (with_reducible refine ite2_keep (fun _ => ?_) fun _ => ?_) | (with_reducible refine when_keep ?_ ?_)
      | (with_reducible refine (foldl_keep _ (fun _ _ => ?_) _ _).trans ?_)
      | (with_reducible refine (foldl1_keep _ (fun _ _ => ?_) _ _).trans ?_)
      | (with_reducible refine (foldl2_keep _ (fun _ _ => ?_) _ _).trans ?_)
      | (with_reducible refine getD_keep (fun _ _ => ?_) ?_)
      | (simp only [↓State.sendBlock_keep, ↓State.setLink_keep, ↓State.count_keep, ↓State.upCheck_keep]) | split
      | (simp_all; done))

theorem State.popFlit_keep : ∀ (s : State) (l v : Nat), (s.popFlit l v).snd.keep = s.keep := by
  intros; unfold State.popFlit; (try dsimp only)
  repeat' (first
      | (with_reducible rfl) | (simp only [keep_mk, keep_fold])
      | (with_reducible refine ite_keep (fun _ => ?_) fun _ => ?_)
      | (with_reducible refine ite1_keep (fun _ => ?_) fun _ => ?_)
      | (with_reducible refine ite2_keep (fun _ => ?_) fun _ => ?_)
      | (simp only [↓State.setWfq_keep, ↓State.setChan_keep, ↓fillPre_keep, ↓State.setLink_keep, ↓State.count_keep])
      | split | (simp_all; done))

theorem State.tagHeads_keep : ∀ (s : State) (l : Nat), (s.tagHeads l).keep = s.keep := by
  intros; unfold State.tagHeads; (try dsimp only)
  repeat' (first
      | (with_reducible rfl) | (simp only [keep_mk, keep_fold])
      | (with_reducible refine ite_keep (fun _ => ?_) fun _ => ?_)
      | (with_reducible refine (foldl_keep _ (fun _ _ => ?_) _ _).trans ?_)
      | (with_reducible refine getD_keep (fun _ _ => ?_) ?_) | (simp only [↓State.setWfq_keep]) | split
      | (simp_all; done))

theorem State.pickSlot_keep :
    ∀ (s : State) (l : Nat) (y : Nat × BitVec 512 × State), s.pickSlot l = some y → y.snd.snd.keep = s.keep := by
  intro s l y h
  have e1 : (s.tagHeads l).keep = s.keep := State.tagHeads_keep s l
  unfold State.pickSlot at h
  generalize s.tagHeads l = s1 at h e1
  extract_lets _ take at h
  have tk : ∀ v s', take v s' = some y → y.2.2.keep = s'.keep := by
    intro v s' h
    have e := State.popFlit_keep s' l v
    dsimp only [take] at h
    generalize s'.popFlit l v = q at h e
    obtain ⟨o, s2⟩ := q
    cases o with
    | none => cases h
    | some d => rw [← Option.some.inj h]; exact e
  clear_value take
  split at h
  · exact (tk _ _ h).trans e1
  · split at h
    · exact (tk _ _ h).trans e1
    · split at h
      · cases h
      · exact (tk _ _ h).trans ((State.setWfq_keep _ _ _).trans e1)

theorem State.drainAborts_keep : ∀ (s : State) (l : Nat), (s.drainAborts l).keep = s.keep := by
  intros; unfold State.drainAborts; (try dsimp only)
  repeat' (first
      | (with_reducible rfl) | (simp only [keep_mk, keep_fold])
      | (with_reducible refine ite_keep (fun _ => ?_) fun _ => ?_)
      | (with_reducible refine (foldl_keep _ (fun _ _ => ?_) _ _).trans ?_)
      | (simp only [↓State.setWfq_keep, ↓State.setChan_keep, ↓fillPre_keep, ↓State.setLink_keep, ↓State.count_keep])
      | split | (simp_all; done))

theorem State.nextSlot_keep :
    ∀ (s : State) (l : Nat) (y : (Nat × BitVec 512) × State), s.nextSlot l = some y → y.snd.keep = s.keep := by
  intro s l y h
  have e1 : (s.drainAborts l).keep = s.keep := State.drainAborts_keep s l
  unfold State.nextSlot at h
  generalize s.drainAborts l = s1 at h e1
  dsimp only at h
  split at h
  · split at h
    · cases h
    · rename_i heq; rw [← Option.some.inj h]; exact (State.pickSlot_keep _ _ _ heq).trans e1
  · rw [← Option.some.inj h]; exact (State.setLink_keep _ _ _).trans e1

theorem fillOne_keep : ∀ (l : Nat) (x : State × List (Nat × BitVec 512) × Bool), (fillOne l x).1.keep = x.1.keep := by
  intro l x; unfold fillOne
  have e1 := State.nextSlot_keep x.1 l
  have e2 := State.drainAborts_keep x.1 l
  generalize x.1.nextSlot l = q at e1
  generalize x.1.drainAborts l = d at e2
  by_cases h : x.2.2 = true
  · rw [if_pos h]
  · rw [if_neg h]
    cases q with
    | none => exact e2
    | some y => exact e1 y rfl

theorem fillSlots_keep : ∀ (l n : Nat) (s : State), (fillSlots l n s).fst.keep = s.keep := by
  intro l n s; exact foldl1_keep _ (fun x _ => fillOne_keep l x) _ _

theorem State.blockTx_keep : ∀ (s : State) (l : Nat), (s.blockTx l).keep = s.keep := by
  intros; unfold State.blockTx; (try dsimp only)
  repeat' (first
      | (with_reducible rfl) | (simp only [keep_mk, keep_fold])
      | (with_reducible refine ite_keep (fun _ => ?_) fun _ => ?_)
      | (with_reducible refine (foldl_keep _ (fun _ _ => ?_) _ _).trans ?_)
      | (simp only [↓State.sendOld_keep, ↓State.sendBlock_keep, ↓State.sendUctl_keep, ↓fillSlots_keep]) | split
      | (simp_all; done))

theorem State.throttled_keep : ∀ (s : State) (cause : Nat), (s.throttled cause).keep = s.keep := by
  intros; unfold State.throttled; simp only [↓State.event_keep, keep_mk, keep_fold]

theorem State.ageChan_keep : ∀ (s : State) (id : Nat) (x : (Nat × Nat) × Chan), (s.ageChan id x).keep = s.keep := by
  intros; unfold State.ageChan; (try dsimp only)
  repeat' (first
      | (with_reducible rfl) | (simp only [keep_mk, keep_fold])
      | (with_reducible refine ite_keep (fun _ => ?_) fun _ => ?_)
      | (with_reducible refine ite1_keep (fun _ => ?_) fun _ => ?_)
      | (with_reducible refine ite2_keep (fun _ => ?_) fun _ => ?_)
      | (simp only [↓State.endCopy_keep, ↓State.dropHead_keep, ↓State.count_keep]) | split | (simp_all; done))

theorem State.wakeUp_keep : ∀ (s : State), s.wakeUp.keep = s.keep := by
  intros; unfold State.wakeUp; (try dsimp only)
  repeat' (first
      | (with_reducible rfl) | (simp only [keep_mk, keep_fold])
      | (with_reducible refine ite_keep (fun _ => ?_) fun _ => ?_)
      | (with_reducible refine ite1_keep (fun _ => ?_) fun _ => ?_)
      | (with_reducible refine ite2_keep (fun _ => ?_) fun _ => ?_) | (with_reducible refine when_keep ?_ ?_)
      | (with_reducible refine (foldl_keep _ (fun _ _ => ?_) _ _).trans ?_)
      | (with_reducible refine (foldl1_keep _ (fun _ _ => ?_) _ _).trans ?_)
      | (with_reducible refine (foldl2_keep _ (fun _ _ => ?_) _ _).trans ?_)
      | (with_reducible refine getD_keep (fun _ _ => ?_) ?_) | split | (simp_all; done))

theorem State.endSnap_keep :
    ∀ (s : State) (o : SnapOp) (status detail : Nat), (s.endSnap o status detail).keep = s.keep := by
  intros; unfold State.endSnap; simp only [↓State.complete_keep, keep_mk, keep_fold]

theorem State.failRestore_keep :
    ∀ (s : State) (o : SnapOp) (status detail : Nat), (s.failRestore o status detail).keep = s.keep := by
  intros; unfold State.failRestore; simp only [↓State.setReg_keep, ↓State.endSnap_keep, keep_mk, keep_fold]

theorem State.restorePump_keep : ∀ (s : State) (o : SnapOp), (s.restorePump o).keep = s.keep := by
  intros; unfold State.restorePump; (try dsimp only)
  repeat' (first
      | (with_reducible rfl) | (simp only [keep_mk, keep_fold])
      | (with_reducible refine ite_keep (fun _ => ?_) fun _ => ?_)
      | (with_reducible refine (issueReads_keep _ _ _ _ _ (fun _ _ => ?_)).trans ?_)
      | (simp only [↓State.setReg_keep, ↓State.setSnap_keep, ↓State.mpRead_keep, ↓State.endSnap_keep, ↓State.failRestore_keep])
      | split | (simp_all; done))

theorem State.fillLink_keep : ∀ (s : State) (l : Nat), (s.fillLink l).keep = s.keep := by
  intros; unfold State.fillLink; (try dsimp only)
  repeat' (first
      | (with_reducible rfl) | (simp only [keep_mk, keep_fold])
      | (with_reducible refine (foldl_keep _ (fun _ _ => ?_) _ _).trans ?_) | (simp only [↓fillPre_keep]) | split
      | (simp_all; done))

theorem State.deal_keep :
    ∀ (s : State) (e : CEnv) (id : CtxId) (j t : Nat) (es : List SEntry), (s.deal e id j t es).keep = s.keep := by
  intros; unfold State.deal; (try dsimp only)
  repeat' (first
      | (with_reducible rfl) | (simp only [keep_mk, keep_fold])
      | (with_reducible refine ite_keep (fun _ => ?_) fun _ => ?_)
      | (with_reducible refine (foldl_keep _ (fun _ _ => ?_) _ _).trans ?_) | split | (simp_all; done))

theorem State.sparseAbsorb_keep :
    ∀ (s : State) (e : CEnv) (inst j pkt : Nat) (p : List Byte), (s.sparseAbsorb e inst j pkt p).fst.keep = s.keep := by
  intros; unfold State.sparseAbsorb; (try dsimp only)
  repeat' (first
      | (with_reducible rfl) | (simp only [keep_mk, keep_fold])
      | (with_reducible refine ite_keep (fun _ => ?_) fun _ => ?_)
      | (with_reducible refine ite1_keep (fun _ => ?_) fun _ => ?_)
      | (with_reducible refine ite2_keep (fun _ => ?_) fun _ => ?_)
      | (with_reducible refine (foldl_keep _ (fun _ _ => ?_) _ _).trans ?_)
      | (with_reducible refine (foldl1_keep _ (fun _ _ => ?_) _ _).trans ?_)
      | (with_reducible refine (foldl2_keep _ (fun _ _ => ?_) _ _).trans ?_)
      | (simp only [↓State.deal_keep, ↓State.setCh_keep]) | split | (simp_all; done))

theorem State.mbrd_keep : ∀ (s : State) (x : Steered), (s.mbrd x).keep = s.keep := by
  intros; unfold State.mbrd; (try dsimp only)
  repeat' (first
      | (with_reducible rfl) | (simp only [keep_mk, keep_fold])
      | (with_reducible refine ite_keep (fun _ => ?_) fun _ => ?_)
      | (with_reducible refine ite1_keep (fun _ => ?_) fun _ => ?_)
      | (with_reducible refine ite2_keep (fun _ => ?_) fun _ => ?_) | (with_reducible refine when_keep ?_ ?_)
      | (with_reducible refine (foldl_keep _ (fun _ _ => ?_) _ _).trans ?_)
      | (with_reducible refine (foldl1_keep _ (fun _ _ => ?_) _ _).trans ?_)
      | (with_reducible refine (foldl2_keep _ (fun _ _ => ?_) _ _).trans ?_)
      | (with_reducible refine getD_keep (fun _ _ => ?_) ?_) | (simp only [↓State.mbdata_keep]) | split
      | (simp_all; done))

theorem State.fillTsync_keep : ∀ (s : State) (f : Frame), (s.fillTsync f).snd.keep = s.keep := by
  intros; unfold State.fillTsync; (try dsimp only)
  repeat' (first
      | (with_reducible rfl) | (simp only [keep_mk, keep_fold])
      | (with_reducible refine ite_keep (fun _ => ?_) fun _ => ?_)
      | (with_reducible refine ite1_keep (fun _ => ?_) fun _ => ?_)
      | (with_reducible refine ite2_keep (fun _ => ?_) fun _ => ?_) | split | (simp_all; done))

theorem State.trailEmit_keep : ∀ (s : State), s.trailEmit.keep = s.keep := by
  intros; unfold State.trailEmit; (try dsimp only)
  repeat' (first
      | (with_reducible rfl) | (simp only [keep_mk, keep_fold])
      | (with_reducible refine ite_keep (fun _ => ?_) fun _ => ?_)
      | (with_reducible refine ite1_keep (fun _ => ?_) fun _ => ?_)
      | (with_reducible refine ite2_keep (fun _ => ?_) fun _ => ?_) | (with_reducible refine when_keep ?_ ?_)
      | (with_reducible refine (foldl_keep _ (fun _ _ => ?_) _ _).trans ?_)
      | (with_reducible refine (foldl1_keep _ (fun _ _ => ?_) _ _).trans ?_)
      | (with_reducible refine (foldl2_keep _ (fun _ _ => ?_) _ _).trans ?_)
      | (with_reducible refine getD_keep (fun _ _ => ?_) ?_) | (simp only [↓State.fillTsync_keep]) | split
      | (simp_all; done))

theorem State.createRec_keep :
    ∀ (s : State) (e : CEnv) (inst etag : Nat), (s.createRec e inst etag).keep = s.keep := by
  intros; unfold State.createRec; (try dsimp only)
  repeat' (first
      | (with_reducible rfl) | (simp only [keep_mk, keep_fold])
      | (with_reducible refine (foldl_keep _ (fun _ _ => ?_) _ _).trans ?_)
      | (simp only [↓State.setCore_keep, ↓State.setCh_keep]) | split | (simp_all; done))

theorem State.dropShadow_keep : ∀ (s : State), s.dropShadow.keep = s.keep := by intros; rfl

theorem State.sendImage_keep :
    ∀ (s : State) (plane sub status total off len : Nat) (data : List Byte), (s.sendImage plane sub status total off len data).keep = s.keep := by
  intros; unfold State.sendImage; simp only [↓State.trailSend_keep, keep_mk, keep_fold]

theorem State.planReadSend_keep : ∀ (s : State) (off len : Nat), (s.planReadSend off len).keep = s.keep := by
  intros; unfold State.planReadSend; (try dsimp only)
  repeat' (first
      | (with_reducible rfl) | (simp only [keep_mk, keep_fold]) | (simp only [↓State.sendImage_keep]) | split
      | (simp_all; done))

theorem State.beginTarget_keep : ∀ (s : State) (p : Nat), (s.beginTarget p).keep = s.keep := by
  intros; unfold State.beginTarget; simp only [↓State.dropShadow_keep, ↓State.planReadSend_keep, keep_mk, keep_fold]

theorem State.granError_keep : ∀ (s : State) (cl g n : Nat), (s.granError cl g n).keep = s.keep := by
  intros; unfold State.granError; (try dsimp only)
  repeat' (first
      | (with_reducible rfl) | (simp only [keep_mk, keep_fold])
      | (with_reducible refine ite_keep (fun _ => ?_) fun _ => ?_) | (simp only [↓State.count_keep]) | split
      | (simp_all; done))

theorem State.readErrors_keep :
    ∀ (s : State) (q : MReq) (t : Target) (ups : List (Nat × Nat)), (s.readErrors q t ups).keep = s.keep := by
  intros; unfold State.readErrors; (try dsimp only)
  repeat' (first
      | (with_reducible rfl) | (simp only [keep_mk, keep_fold])
      | (with_reducible refine (foldl_keep _ (fun _ _ => ?_) _ _).trans ?_)
      | (with_reducible refine (foldl1_keep _ (fun _ _ => ?_) _ _).trans ?_)
      | (with_reducible refine (foldl2_keep _ (fun _ _ => ?_) _ _).trans ?_) | (simp only [↓State.granError_keep])
      | split | (simp_all; done))

theorem State.noteMsg_keep : ∀ (s : State) (q : MReq) (st : Nat), (s.noteMsg q st).keep = s.keep := by
  intros; unfold State.noteMsg; (try dsimp only)
  repeat' (first
      | (with_reducible rfl) | (simp only [keep_mk, keep_fold])
      | (with_reducible refine ite_keep (fun _ => ?_) fun _ => ?_) | (simp only [↓State.putMsg_keep]) | split
      | (simp_all; done))

theorem State.decideMem_keep :
    ∀ (s : State) (q : MReq) (ups : List (Nat × Nat)) (f : Target → State → State), (∀ (a : Target) (a_1 : State), (f a a_1).keep = a_1.keep) → (s.decideMem q ups f).keep = s.keep := by
  intros; rename_i hk; unfold State.decideMem; (try dsimp only)
  repeat' (first
      | (with_reducible rfl) | (simp only [keep_mk, keep_fold])
      | (with_reducible refine ite_keep (fun _ => ?_) fun _ => ?_)
      | (with_reducible refine ite1_keep (fun _ => ?_) fun _ => ?_)
      | (with_reducible refine ite2_keep (fun _ => ?_) fun _ => ?_) | (simp only [hk])
      | (simp only [↓State.checkInt_keep, ↓State.refuseMem_keep, ↓State.readErrors_keep, ↓State.msgTimers_keep, ↓State.noteMsg_keep])
      | split | (simp_all; done))

theorem State.setCluster_keep : ∀ (s : State) (cl : Nat) (f : Fn), (s.setCluster cl f).keep = s.keep := by intros; rfl

theorem clusterDisable_keep : ∀ (c : Call) (s : State), (clusterDisable c s).st.keep = s.keep := by
  intros; unfold clusterDisable; (try dsimp only)
  repeat' (first
      | (with_reducible rfl) | (simp only [keep_mk, keep_fold])
      | (with_reducible refine ite_keep (fun _ => ?_) fun _ => ?_)
      | (simp only [↓State.setCluster_keep, ↓Fn.disable_keep, ↓noChange_keep, ↓deferred_keep, ↓refuseCmd_keep])
      | split | (simp_all; done))

theorem State.shadowBegin_keep :
    ∀ (s : State) (a : Nat) (pin : Bool) (r : Req), (s.shadowBegin a pin r).keep = s.keep := by
  intros; unfold State.shadowBegin; (try dsimp only)
  repeat' (first
      | (with_reducible rfl) | (simp only [keep_mk, keep_fold])
      | (simp only [↓State.beginTarget_keep, ↓State.complete_keep]) | split | (simp_all; done))

theorem Fn.doneOff_keep : ∀ (f : Fn) (s : State), (f.doneOff s).keep = s.keep := by
  intros; unfold Fn.doneOff; (try dsimp only)
  repeat' (first
      | (with_reducible rfl) | (simp only [keep_mk, keep_fold])
      | (with_reducible refine ite_keep (fun _ => ?_) fun _ => ?_)
      | (with_reducible refine ite1_keep (fun _ => ?_) fun _ => ?_)
      | (with_reducible refine ite2_keep (fun _ => ?_) fun _ => ?_) | (with_reducible refine when_keep ?_ ?_)
      | (with_reducible refine (foldl_keep _ (fun _ _ => ?_) _ _).trans ?_)
      | (with_reducible refine (foldl1_keep _ (fun _ _ => ?_) _ _).trans ?_)
      | (with_reducible refine (foldl2_keep _ (fun _ _ => ?_) _ _).trans ?_)
      | (with_reducible refine getD_keep (fun _ _ => ?_) ?_) | (simp only [↓State.complete_keep]) | split
      | (simp_all; done))

theorem State.fawnOff_keep : ∀ (s : State) (status : Nat), (s.fawnOff status).keep = s.keep := by
  intros; unfold State.fawnOff; (try dsimp only)
  repeat' (first
      | (with_reducible rfl) | (simp only [keep_mk, keep_fold])
      | (with_reducible refine ite_keep (fun _ => ?_) fun _ => ?_)
      | (simp only [↓State.dropShadow_keep, ↓State.complete_keep, ↓State.shadowBegin_keep, ↓Fn.doneOff_keep]) | split
      | (simp_all; done))

theorem State.fawnEnd_keep : ∀ (s : State), s.fawnEnd.keep = s.keep := by
  intros; unfold State.fawnEnd; (try dsimp only)
  repeat' (first
      | (with_reducible rfl) | (simp only [keep_mk, keep_fold])
      | (with_reducible refine ite_keep (fun _ => ?_) fun _ => ?_)
      | (with_reducible refine ite1_keep (fun _ => ?_) fun _ => ?_)
      | (with_reducible refine ite2_keep (fun _ => ?_) fun _ => ?_) | (with_reducible refine when_keep ?_ ?_)
      | (with_reducible refine (foldl_keep _ (fun _ _ => ?_) _ _).trans ?_)
      | (with_reducible refine (foldl1_keep _ (fun _ _ => ?_) _ _).trans ?_)
      | (with_reducible refine (foldl2_keep _ (fun _ _ => ?_) _ _).trans ?_)
      | (with_reducible refine getD_keep (fun _ _ => ?_) ?_) | (simp only [↓State.fawnOff_keep]) | split
      | (simp_all; done))

theorem State.judgeLanes_keep :
    ∀ (s : State) (l good : Nat) (next : LState), (s.judgeLanes l good next).keep = s.keep := by
  intros; unfold State.judgeLanes; (try dsimp only)
  repeat' (first
      | (with_reducible rfl) | (simp only [keep_mk, keep_fold])
      | (simp only [↓State.linkDown_keep, ↓State.toState_keep, ↓State.setLink_keep]) | split | (simp_all; done))

theorem State.bootHalt_keep : ∀ (s : State) (error : Nat), (s.bootHalt error).keep = s.keep := by intros; rfl

theorem State.posWrite_keep :
    ∀ (s : State) (e : Env) (d off : Nat) (bs : List Byte) (n : Nat), (s.posWrite e d off bs n).keep = s.keep := by
  intros; unfold State.posWrite; (try dsimp only)
  repeat' (first
      | (with_reducible rfl) | (simp only [keep_mk, keep_fold])
      | (with_reducible refine ite_keep (fun _ => ?_) fun _ => ?_)
      | (simp only [↓State.flow_keep, ↓State.pumpOutputs_keep, ↓State.putRunRec_keep]) | split | (simp_all; done))

theorem State.emscEff_keep : ∀ (s : State) (e : Env), (s.emscEff e).keep = s.keep := by
  intros; unfold State.emscEff; (try dsimp only)
  repeat' (first
      | (with_reducible rfl) | (simp only [keep_mk, keep_fold])
      | (with_reducible refine ite_keep (fun _ => ?_) fun _ => ?_)
      | (with_reducible refine ite1_keep (fun _ => ?_) fun _ => ?_)
      | (with_reducible refine ite2_keep (fun _ => ?_) fun _ => ?_) | (with_reducible refine when_keep ?_ ?_)
      | (with_reducible refine (foldl_keep _ (fun _ _ => ?_) _ _).trans ?_)
      | (with_reducible refine (foldl1_keep _ (fun _ _ => ?_) _ _).trans ?_)
      | (with_reducible refine (foldl2_keep _ (fun _ _ => ?_) _ _).trans ?_)
      | (with_reducible refine getD_keep (fun _ _ => ?_) ?_) | (simp only [↓State.flow_keep, ↓State.posWrite_keep])
      | split | (simp_all; done))

theorem State.freeCode_keep : ∀ (s : State), s.freeCode.snd.keep = s.keep := by intros; rfl

theorem State.forward_keep : ∀ (s : State) (f : Frame), (s.forward f).keep = s.keep := by
  intros; unfold State.forward; (try dsimp only)
  repeat' (first
      | (with_reducible rfl) | (simp only [keep_mk, keep_fold])
      | (with_reducible refine ite_keep (fun _ => ?_) fun _ => ?_)
      | (with_reducible refine ite1_keep (fun _ => ?_) fun _ => ?_)
      | (with_reducible refine ite2_keep (fun _ => ?_) fun _ => ?_) | (with_reducible refine when_keep ?_ ?_)
      | (with_reducible refine (foldl_keep _ (fun _ _ => ?_) _ _).trans ?_)
      | (with_reducible refine (foldl1_keep _ (fun _ _ => ?_) _ _).trans ?_)
      | (with_reducible refine (foldl2_keep _ (fun _ _ => ?_) _ _).trans ?_)
      | (with_reducible refine getD_keep (fun _ _ => ?_) ?_) | (simp only [↓State.count_keep]) | split
      | (simp_all; done))

theorem State.trailCast_keep :
    ∀ (s : State) (type : Nat) (payload : List Byte), (s.trailCast type payload).keep = s.keep := by
  intros; unfold State.trailCast; simp only [↓State.trailPut_keep, keep_mk, keep_fold]

theorem State.linkRecycle_keep : ∀ (s : State) (l : Nat), (s.linkRecycle l).keep = s.keep := by
  intros; unfold State.linkRecycle; (try dsimp only)
  repeat' (first
      | (with_reducible rfl) | (simp only [keep_mk, keep_fold])
      | (with_reducible refine ite_keep (fun _ => ?_) fun _ => ?_)
      | (simp only [↓State.linkStop_keep, ↓State.setLink_keep]) | split | (simp_all; done))

theorem State.snapArg_keep :
    ∀ (s : State) (c : Call) (q : BitVec 256 → Option Nat) (f : BitVec 256 → SnapOp → State), (∀ r o, (f r o).keep = s.keep) → (s.snapArg c q f).st.keep = s.keep := by
  intro s c q f hk; unfold State.snapArg; dsimp only
  repeat' (first | rfl | exact hk _ _ | split)

theorem snapshotRestore_keep : ∀ (c : Call) (s : State), (snapshotRestore c s).st.keep = s.keep := by
  intros; unfold snapshotRestore; (try dsimp only)
  repeat' (first
      | (with_reducible rfl) | (simp only [keep_mk, keep_fold])
      | (with_reducible refine ite_keep (fun _ => ?_) fun _ => ?_)
      | (with_reducible refine ite1_keep (fun _ => ?_) fun _ => ?_)
      | (with_reducible refine ite2_keep (fun _ => ?_) fun _ => ?_) | (with_reducible refine when_keep ?_ ?_)
      | (with_reducible refine (foldl_keep _ (fun _ _ => ?_) _ _).trans ?_)
      | (with_reducible refine (foldl1_keep _ (fun _ _ => ?_) _ _).trans ?_)
      | (with_reducible refine (foldl2_keep _ (fun _ _ => ?_) _ _).trans ?_)
      | (with_reducible refine getD_keep (fun _ _ => ?_) ?_)
      | (with_reducible refine (State.snapArg_keep _ _ _ _ (fun _ _ => ?_)).trans ?_)
      | (simp only [↓State.setReg_keep, ↓State.restorePump_keep]) | split | (simp_all; done))

theorem healthRead_keep : ∀ (x : Call) (s : State), (healthRead x s).st.keep = s.keep := by intros; rfl

theorem State.armPoint_keep : ∀ (s : State), s.armPoint.keep = s.keep := by
  intros; unfold State.armPoint; (try dsimp only)
  repeat' (first
      | (with_reducible rfl) | (simp only [keep_mk, keep_fold])
      | (with_reducible refine ite_keep (fun _ => ?_) fun _ => ?_)
      | (with_reducible refine ite1_keep (fun _ => ?_) fun _ => ?_)
      | (with_reducible refine ite2_keep (fun _ => ?_) fun _ => ?_) | (with_reducible refine when_keep ?_ ?_)
      | (with_reducible refine (foldl_keep _ (fun _ _ => ?_) _ _).trans ?_)
      | (with_reducible refine (foldl1_keep _ (fun _ _ => ?_) _ _).trans ?_)
      | (with_reducible refine (foldl2_keep _ (fun _ _ => ?_) _ _).trans ?_)
      | (with_reducible refine getD_keep (fun _ _ => ?_) ?_) | (simp only [↓State.disarm_keep]) | split
      | (simp_all; done))

theorem State.takeSide_keep :
    ∀ (s : State) (cl : Nat) (p : SideMsg → Bool) (y : SideMsg × State), s.takeSide cl p = some y → y.snd.keep = s.keep := by
  intro s c p y h; unfold State.takeSide at h
  obtain ⟨r, _, rfl⟩ := Option.map_eq_some_iff.mp h
  rfl

theorem State.c6Stop_keep : ∀ (s : State), s.c6Stop.keep = s.keep := by
  intros; unfold State.c6Stop; (try dsimp only)
  repeat' (first
      | (with_reducible rfl) | (simp only [keep_mk, keep_fold])
      | (with_reducible refine ite_keep (fun _ => ?_) fun _ => ?_)
      | (with_reducible refine ite1_keep (fun _ => ?_) fun _ => ?_)
      | (with_reducible refine ite2_keep (fun _ => ?_) fun _ => ?_) | (with_reducible refine when_keep ?_ ?_)
      | (with_reducible refine (foldl_keep _ (fun _ _ => ?_) _ _).trans ?_)
      | (with_reducible refine (foldl1_keep _ (fun _ _ => ?_) _ _).trans ?_)
      | (with_reducible refine (foldl2_keep _ (fun _ _ => ?_) _ _).trans ?_)
      | (with_reducible refine getD_keep (fun _ _ => ?_) ?_) | (simp only [↓State.bypass_keep, ↓State.linkDown_keep])
      | split | (simp_all; done))

theorem State.relayRec_keep : ∀ (s : State) (e : CEnv) (h : BitVec 256), (s.relayRec e h).keep = s.keep := by
  intros; unfold State.relayRec; (try dsimp only)
  repeat' (first
      | (with_reducible rfl) | (simp only [keep_mk, keep_fold])
      | (with_reducible refine ite_keep (fun _ => ?_) fun _ => ?_)
      | (with_reducible refine getD_keep (fun _ _ => ?_) ?_) | (simp only [↓State.doneWrite_keep]) | split
      | (simp_all; done))

theorem State.viewRead_keep :
    ∀ (s : State) (q : MReq) (idx : Nat) (w : BitVec 256), (s.viewRead q idx w).keep = s.keep := by
  intros; unfold State.viewRead; (try dsimp only)
  repeat' (first
      | (with_reducible rfl) | (simp only [keep_mk, keep_fold])
      | (with_reducible refine ite_keep (fun _ => ?_) fun _ => ?_)
      | (with_reducible refine (foldl_keep _ (fun _ _ => ?_) _ _).trans ?_)
      | (simp only [↓State.eccUncorr_keep, ↓State.respond_keep, ↓State.count_keep]) | split | (simp_all; done))

theorem State.endOk_keep : ∀ (s : State) (e : CEnv) (r : Rec), (s.endOk e r).keep = s.keep := by
  intros; unfold State.endOk; simp only [↓State.doneWrite_keep, ↓State.digestAdd_keep, ↓State.dropWork_keep, ↓State.count_keep, ↓State.setCh_keep, keep_mk, keep_fold]

theorem State.relay_keep : ∀ (s : State) (e : CEnv) (p : Packet), (s.relay e p).keep = s.keep := by
  intros; unfold State.relay; (try dsimp only)
  repeat' (first
      | (with_reducible rfl) | (simp only [keep_mk, keep_fold])
      | (with_reducible refine ite_keep (fun _ => ?_) fun _ => ?_)
      | (simp only [↓State.relayRec_keep, ↓State.fromCluster_keep, ↓State.count_keep]) | split | (simp_all; done))

theorem State.writeRoeCtrl_keep : ∀ (s : State) (v : BitVec 32), (s.writeRoeCtrl v).keep = s.keep := by
  intros; unfold State.writeRoeCtrl; (try dsimp only)
  repeat' (first
      | (with_reducible rfl) | (simp only [keep_mk, keep_fold])
      | (with_reducible refine ite_keep (fun _ => ?_) fun _ => ?_)
      | (simp only [↓State.bypass_keep, ↓State.wakeUp_keep]) | split | (simp_all; done))

theorem State.diagWord_keep : ∀ (s : State) (w p : Nat), (s.diagWord w p).snd.keep = s.keep := by
  intros; unfold State.diagWord; (try dsimp only)
  repeat' (first
      | (with_reducible rfl) | (simp only [keep_mk, keep_fold])
      | (with_reducible refine ite_keep (fun _ => ?_) fun _ => ?_)
      | (with_reducible refine ite1_keep (fun _ => ?_) fun _ => ?_)
      | (with_reducible refine ite2_keep (fun _ => ?_) fun _ => ?_) | (simp only [↓State.drawFree_keep]) | split
      | (simp_all; done))

theorem State.gmLoad_keep : ∀ (s : State) (ft : Nat), (s.gmLoad ft).keep = s.keep := by
  intros; unfold State.gmLoad; (try dsimp only)
  repeat' (first
      | (with_reducible rfl) | (simp only [keep_mk, keep_fold])
      | (with_reducible refine ite_keep (fun _ => ?_) fun _ => ?_)
      | (with_reducible refine ite1_keep (fun _ => ?_) fun _ => ?_)
      | (with_reducible refine ite2_keep (fun _ => ?_) fun _ => ?_) | (with_reducible refine when_keep ?_ ?_)
      | (with_reducible refine (foldl_keep _ (fun _ _ => ?_) _ _).trans ?_)
      | (with_reducible refine (foldl1_keep _ (fun _ _ => ?_) _ _).trans ?_)
      | (with_reducible refine (foldl2_keep _ (fun _ _ => ?_) _ _).trans ?_)
      | (with_reducible refine getD_keep (fun _ _ => ?_) ?_)
      | (simp only [↓State.loadFt_keep, ↓State.enterTime_keep, ↓State.missCommit_keep]) | split | (simp_all; done))

theorem timeSet_keep : ∀ (c : Call) (s : State), (timeSet c s).st.keep = s.keep := by
  intros; unfold timeSet; (try dsimp only)
  repeat' (first
      | (with_reducible rfl) | (simp only [keep_mk, keep_fold])
      | (with_reducible refine ite_keep (fun _ => ?_) fun _ => ?_)
      | (with_reducible refine ite1_keep (fun _ => ?_) fun _ => ?_)
      | (with_reducible refine ite2_keep (fun _ => ?_) fun _ => ?_) | (with_reducible refine when_keep ?_ ?_)
      | (with_reducible refine (foldl_keep _ (fun _ _ => ?_) _ _).trans ?_)
      | (with_reducible refine (foldl1_keep _ (fun _ _ => ?_) _ _).trans ?_)
      | (with_reducible refine (foldl2_keep _ (fun _ _ => ?_) _ _).trans ?_)
      | (with_reducible refine getD_keep (fun _ _ => ?_) ?_)
      | (simp only [↓State.enterTime_keep, ↓noChange_keep, ↓refuseCmd_keep, ↓State.gmLoad_keep]) | split
      | (simp_all; done))

theorem sendApp_keep : ∀ (s : State) (e : CEnv) (r : Rec) (d : Nat), (sendApp s e r d).keep = s.keep := by
  intros; unfold sendApp; (try dsimp only)
  repeat' (first
      | (with_reducible rfl) | (simp only [keep_mk, keep_fold])
      | (with_reducible refine (foldl_keep _ (fun _ _ => ?_) _ _).trans ?_) | (simp only [↓State.collSend_keep])
      | split | (simp_all; done))

theorem State.exportSend_keep :
    ∀ (s : State) (r : BitVec 256) (dst : Nat) (w : BulkRead), (s.exportSend r dst w).keep = s.keep := by
  intros; unfold State.exportSend; simp only [↓State.fromMp_keep, keep_mk, keep_fold]

theorem State.announce_keep : ∀ (s : State) (start plane : Nat), (s.announce start plane).keep = s.keep := by
  intros; unfold State.announce; simp only [↓State.sendNotice_keep, keep_mk, keep_fold]

theorem shadowStop_keep : ∀ (c : Call) (s : State), (shadowStop c s).st.keep = s.keep := by
  intros; unfold shadowStop; (try dsimp only)
  repeat' (first
      | (with_reducible rfl) | (simp only [keep_mk, keep_fold])
      | (with_reducible refine ite_keep (fun _ => ?_) fun _ => ?_)
      | (with_reducible refine ite1_keep (fun _ => ?_) fun _ => ?_)
      | (with_reducible refine ite2_keep (fun _ => ?_) fun _ => ?_) | (with_reducible refine when_keep ?_ ?_)
      | (with_reducible refine (foldl_keep _ (fun _ _ => ?_) _ _).trans ?_)
      | (with_reducible refine (foldl1_keep _ (fun _ _ => ?_) _ _).trans ?_)
      | (with_reducible refine (foldl2_keep _ (fun _ _ => ?_) _ _).trans ?_)
      | (with_reducible refine getD_keep (fun _ _ => ?_) ?_)
      | (simp only [↓State.announce_keep, ↓Fn.disable_keep, ↓noChange_keep, ↓deferred_keep]) | split
      | (simp_all; done))

theorem State.followLevel_keep : ∀ (s : State), s.followLevel.keep = s.keep := by
  intros; unfold State.followLevel; (try dsimp only)
  repeat' (first
      | (with_reducible rfl) | (simp only [keep_mk, keep_fold])
      | (with_reducible refine ite_keep (fun _ => ?_) fun _ => ?_)
      | (with_reducible refine ite1_keep (fun _ => ?_) fun _ => ?_)
      | (with_reducible refine ite2_keep (fun _ => ?_) fun _ => ?_) | (with_reducible refine when_keep ?_ ?_)
      | (with_reducible refine (foldl_keep _ (fun _ _ => ?_) _ _).trans ?_)
      | (with_reducible refine (foldl1_keep _ (fun _ _ => ?_) _ _).trans ?_)
      | (with_reducible refine (foldl2_keep _ (fun _ _ => ?_) _ _).trans ?_)
      | (with_reducible refine getD_keep (fun _ _ => ?_) ?_) | split | (simp_all; done))

theorem State.shadowInstall_keep : ∀ (s : State) (len : Nat), (s.shadowInstall len).keep = s.keep := by
  intros; unfold State.shadowInstall; (try dsimp only)
  repeat' (first
      | (with_reducible rfl) | (simp only [keep_mk, keep_fold])
      | (with_reducible refine ite_keep (fun _ => ?_) fun _ => ?_)
      | (with_reducible refine getD_keep (fun _ _ => ?_) ?_)
      | (simp only [↓State.sendImage_keep, ↓State.announce_keep, ↓State.fawnOff_keep]) | split | (simp_all; done))

theorem State.shadowPump_keep : ∀ (s : State), s.shadowPump.keep = s.keep := by
  intros; unfold State.shadowPump; (try dsimp only)
  repeat' (first
      | (with_reducible rfl) | (simp only [keep_mk, keep_fold])
      | (with_reducible refine ite_keep (fun _ => ?_) fun _ => ?_)
      | (with_reducible refine (foldl_keep _ (fun _ _ => ?_) _ _).trans ?_)
      | (with_reducible refine (issueReads_keep _ _ _ _ _ (fun _ _ => ?_)).trans ?_)
      | (simp only [↓State.planReadSend_keep, ↓State.shadowInstall_keep]) | split | (simp_all; done))

theorem State.romStart_keep : ∀ (s : State), s.romStart.keep = s.keep := by
  intros; unfold State.romStart; (try dsimp only)
  repeat' (first
      | (with_reducible rfl) | (simp only [keep_mk, keep_fold])
      | (with_reducible refine ite_keep (fun _ => ?_) fun _ => ?_)
      | (with_reducible refine ite1_keep (fun _ => ?_) fun _ => ?_)
      | (with_reducible refine ite2_keep (fun _ => ?_) fun _ => ?_) | (with_reducible refine when_keep ?_ ?_)
      | (with_reducible refine (foldl_keep _ (fun _ _ => ?_) _ _).trans ?_)
      | (with_reducible refine (foldl1_keep _ (fun _ _ => ?_) _ _).trans ?_)
      | (with_reducible refine (foldl2_keep _ (fun _ _ => ?_) _ _).trans ?_)
      | (with_reducible refine getD_keep (fun _ _ => ?_) ?_)
      | (simp only [↓State.bootFrom_keep, ↓State.bootHalt_keep]) | split | (simp_all; done))

theorem State.wroteAt_keep : ∀ (s : State) (a : Nat), (s.wroteAt a).keep = s.keep := by intros; rfl

theorem State.wake_keep : ∀ (s : State) (l v : Nat), (s.wake l v).keep = s.keep := by
  intros; unfold State.wake; (try dsimp only)
  repeat' (first
      | (with_reducible rfl) | (simp only [keep_mk, keep_fold])
      | (with_reducible refine ite_keep (fun _ => ?_) fun _ => ?_)
      | (with_reducible refine ite1_keep (fun _ => ?_) fun _ => ?_)
      | (with_reducible refine ite2_keep (fun _ => ?_) fun _ => ?_) | (with_reducible refine when_keep ?_ ?_)
      | (with_reducible refine (foldl_keep _ (fun _ _ => ?_) _ _).trans ?_)
      | (with_reducible refine (foldl1_keep _ (fun _ _ => ?_) _ _).trans ?_)
      | (with_reducible refine (foldl2_keep _ (fun _ _ => ?_) _ _).trans ?_)
      | (with_reducible refine getD_keep (fun _ _ => ?_) ?_) | (simp only [↓State.setWfq_keep]) | split
      | (simp_all; done))

theorem State.arbitrate_keep : ∀ (s : State) (l v : Nat), (s.arbitrate l v).keep = s.keep := by
  intros; unfold State.arbitrate; (try dsimp only)
  repeat' (first
      | (with_reducible rfl) | (simp only [keep_mk, keep_fold])
      | (with_reducible refine ite_keep (fun _ => ?_) fun _ => ?_)
      | (simp only [↓State.setChan_keep, ↓State.wake_keep, ↓fillPre_keep, ↓State.setBufPkt_keep]) | split
      | (simp_all; done))

theorem State.landWrite_keep :
    ∀ (s : State) (g : Nat) (x : Ctx) (q : CoreReq) (st : Nat), (s.landWrite g x q st).keep = s.keep := by
  intros; unfold State.landWrite; simp only [↓State.retire_keep, ↓State.setCore_keep, keep_mk, keep_fold]

theorem telemStop_keep : ∀ (c : Call) (s : State), (telemStop c s).st.keep = s.keep := by
  intros; unfold telemStop; (try dsimp only)
  repeat' (first
      | (with_reducible rfl) | (simp only [keep_mk, keep_fold])
      | (with_reducible refine ite_keep (fun _ => ?_) fun _ => ?_)
      | (with_reducible refine ite1_keep (fun _ => ?_) fun _ => ?_)
      | (with_reducible refine ite2_keep (fun _ => ?_) fun _ => ?_) | (with_reducible refine when_keep ?_ ?_)
      | (with_reducible refine (foldl_keep _ (fun _ _ => ?_) _ _).trans ?_)
      | (with_reducible refine (foldl1_keep _ (fun _ _ => ?_) _ _).trans ?_)
      | (with_reducible refine (foldl2_keep _ (fun _ _ => ?_) _ _).trans ?_)
      | (with_reducible refine getD_keep (fun _ _ => ?_) ?_)
      | (simp only [↓State.telemOff_keep, ↓Fn.disable_keep, ↓noChange_keep, ↓deferred_keep]) | split
      | (simp_all; done))

theorem State.setEventDest_keep :
    ∀ (s : State) (m : Nat) (d : Option (Nat × Nat)), (s.setEventDest m d).keep = s.keep := by
  intros; unfold State.setEventDest; (try dsimp only)
  repeat' (first
      | (with_reducible rfl) | (simp only [keep_mk, keep_fold])
      | (with_reducible refine (foldl_keep _ (fun _ _ => ?_) _ _).trans ?_)
      | (with_reducible refine (foldl1_keep _ (fun _ _ => ?_) _ _).trans ?_)
      | (with_reducible refine (foldl2_keep _ (fun _ _ => ?_) _ _).trans ?_)
      | (simp only [↓State.setBox_keep, ↓State.fromMp_keep]) | split | (simp_all; done))

theorem telemConfig_keep : ∀ (c : Call) (s : State), (telemConfig c s).st.keep = s.keep := by
  intros; unfold telemConfig; (try dsimp only)
  repeat' (first
      | (with_reducible rfl) | (simp only [keep_mk, keep_fold])
      | (with_reducible refine ite_keep (fun _ => ?_) fun _ => ?_)
      | (simp only [↓telemStop_keep, ↓telemOn_keep, ↓State.setEventDest_keep, ↓refuseCmd_keep]) | split
      | (simp_all; done))

theorem State.confirmLater_keep : ∀ (s : State) (entry : Nat), (s.confirmLater entry).keep = s.keep := by
  intros; unfold State.confirmLater; (try dsimp only)
  repeat' (first
      | (with_reducible rfl) | (simp only [keep_mk, keep_fold])
      | (with_reducible refine (foldl_keep _ (fun _ _ => ?_) _ _).trans ?_) | (simp only [↓State.confirm_keep])
      | split | (simp_all; done))

theorem State.memwr_keep :
    ∀ (s : State) (e : Env) (d b : Nat) (bs : List Byte), (s.memwr e d b bs).keep = s.keep := by
  intros; unfold State.memwr; (try dsimp only)
  repeat' (first
      | (with_reducible rfl) | (simp only [keep_mk, keep_fold])
      | (with_reducible refine ite_keep (fun _ => ?_) fun _ => ?_)
      | (simp only [↓State.newTag_keep, ↓State.fromCluster_keep, ↓State.setCore_keep, ↓State.putRunRec_keep]) | split
      | (simp_all; done))

theorem State.waitfEff_keep : ∀ (s : State) (e : Env), (s.waitfEff e).keep = s.keep := by
  intros; unfold State.waitfEff; (try dsimp only)
  repeat' (first
      | (with_reducible rfl) | (simp only [keep_mk, keep_fold])
      | (with_reducible refine ite_keep (fun _ => ?_) fun _ => ?_)
      | (with_reducible refine ite1_keep (fun _ => ?_) fun _ => ?_)
      | (with_reducible refine ite2_keep (fun _ => ?_) fun _ => ?_) | (with_reducible refine when_keep ?_ ?_)
      | (with_reducible refine (foldl_keep _ (fun _ _ => ?_) _ _).trans ?_)
      | (with_reducible refine (foldl1_keep _ (fun _ _ => ?_) _ _).trans ?_)
      | (with_reducible refine (foldl2_keep _ (fun _ _ => ?_) _ _).trans ?_)
      | (with_reducible refine getD_keep (fun _ _ => ?_) ?_)
      | (simp only [↓State.answerFetches_keep, ↓State.flow_keep]) | split | (simp_all; done))

theorem State.resumeWait_keep : ∀ (s : State) (g : Nat), (s.resumeWait g).keep = s.keep := by
  intros; unfold State.resumeWait; (try dsimp only)
  repeat' (first
      | (with_reducible rfl) | (simp only [keep_mk, keep_fold])
      | (with_reducible refine ite_keep (fun _ => ?_) fun _ => ?_)
      | (simp only [↓State.waitfEff_keep, ↓State.endRun_keep, ↓State.setRun_keep]) | split | (simp_all; done))

theorem attest_keep : ∀ (c : Call) (s : State), (attest c s).st.keep = s.keep := by
  intros; unfold attest; (try dsimp only)
  repeat' (first
      | (with_reducible rfl) | (simp only [keep_mk, keep_fold])
      | (with_reducible refine ite_keep (fun _ => ?_) fun _ => ?_)
      | (with_reducible refine ite1_keep (fun _ => ?_) fun _ => ?_)
      | (with_reducible refine ite2_keep (fun _ => ?_) fun _ => ?_) | (with_reducible refine when_keep ?_ ?_)
      | (with_reducible refine (foldl_keep _ (fun _ _ => ?_) _ _).trans ?_)
      | (with_reducible refine (foldl1_keep _ (fun _ _ => ?_) _ _).trans ?_)
      | (with_reducible refine (foldl2_keep _ (fun _ _ => ?_) _ _).trans ?_)
      | (with_reducible refine getD_keep (fun _ _ => ?_) ?_) | (simp only [↓State.setBox_keep, ↓refuseCmd_keep])
      | split | (simp_all; done))

theorem sampleSet_keep : ∀ (c : Call) (s : State), (sampleSet c s).st.keep = s.keep := by
  intros; unfold sampleSet; (try dsimp only)
  repeat' (first
      | (with_reducible rfl) | (simp only [keep_mk, keep_fold])
      | (with_reducible refine ite_keep (fun _ => ?_) fun _ => ?_)
      | (with_reducible refine ite1_keep (fun _ => ?_) fun _ => ?_)
      | (with_reducible refine ite2_keep (fun _ => ?_) fun _ => ?_) | (with_reducible refine when_keep ?_ ?_)
      | (with_reducible refine (foldl_keep _ (fun _ _ => ?_) _ _).trans ?_)
      | (with_reducible refine (foldl1_keep _ (fun _ _ => ?_) _ _).trans ?_)
      | (with_reducible refine (foldl2_keep _ (fun _ _ => ?_) _ _).trans ?_)
      | (with_reducible refine getD_keep (fun _ _ => ?_) ?_)
      | (with_reducible refine (State.portArg_keep _ _ _ (fun _ => ?_)).trans ?_)
      | (simp only [↓State.setLink_keep, ↓noChange_keep, ↓refuseCmd_keep]) | split | (simp_all; done))

theorem clusterEnable_keep : ∀ (c : Call) (s : State), (clusterEnable c s).st.keep = s.keep := by
  intros; unfold clusterEnable; (try dsimp only)
  repeat' (first
      | (with_reducible rfl) | (simp only [keep_mk, keep_fold])
      | (with_reducible refine ite_keep (fun _ => ?_) fun _ => ?_)
      | (simp only [↓State.setCluster_keep, ↓Fn.enqueue_keep, ↓noChange_keep, ↓deferred_keep, ↓refuseCmd_keep, ↓queuedV_keep])
      | split | (simp_all; done))

theorem State.takeFrame_keep :
    ∀ (s : State) (f : Frame) (take : State → State), (∀ (a : State), (take a).keep = a.keep) → (s.takeFrame f take).keep = s.keep := by
  intros; rename_i hk; unfold State.takeFrame; (try dsimp only)
  repeat' (first
      | (with_reducible rfl) | (simp only [keep_mk, keep_fold])
      | (with_reducible refine ite_keep (fun _ => ?_) fun _ => ?_) | (simp only [hk])
      | (simp only [↓State.count_keep]) | split | (simp_all; done))

theorem State.trailRx_keep :
    ∀ (s : State) (f : Frame) (mine : Bool) (take : State → State), (∀ (a : State), (take a).keep = a.keep) → (s.trailRx f mine take).keep = s.keep := by
  intros; rename_i hk; unfold State.trailRx; (try dsimp only)
  repeat' (first
      | (with_reducible rfl) | (simp only [keep_mk, keep_fold])
      | (with_reducible refine ite_keep (fun _ => ?_) fun _ => ?_)
      | (with_reducible refine (State.takeFrame_keep _ _ _ (fun _ => ?_)).trans ?_) | (simp only [hk])
      | (simp only [↓State.forward_keep, ↓State.count_keep]) | split | (simp_all; done))

theorem State.powerRefuse_keep : ∀ (s : State) (cl : Nat) (h : BitVec 256), (s.powerRefuse cl h).keep = s.keep := by
  intros; unfold State.powerRefuse; (try dsimp only)
  repeat' (first
      | (with_reducible rfl) | (simp only [keep_mk, keep_fold])
      | (with_reducible refine ite_keep (fun _ => ?_) fun _ => ?_) | (simp only [↓State.sendAnswer_keep]) | split
      | (simp_all; done))

theorem State.exportPump_keep : ∀ (s : State) (o : SnapOp), (s.exportPump o).keep = s.keep := by
  intros; unfold State.exportPump; (try dsimp only)
  repeat' (first
      | (with_reducible rfl) | (simp only [keep_mk, keep_fold])
      | (with_reducible refine ite_keep (fun _ => ?_) fun _ => ?_)
      | (with_reducible refine (issueReads_keep _ _ _ _ _ (fun _ _ => ?_)).trans ?_)
      | (simp only [↓State.eccUncorr_keep, ↓State.exportSend_keep, ↓State.setSnap_keep, ↓State.endSnap_keep]) | split
      | (simp_all; done))

theorem snapshotExport_keep : ∀ (c : Call) (s : State), (snapshotExport c s).st.keep = s.keep := by
  intros; unfold snapshotExport; (try dsimp only)
  repeat' (first
      | (with_reducible rfl) | (simp only [keep_mk, keep_fold])
      | (with_reducible refine ite_keep (fun _ => ?_) fun _ => ?_)
      | (with_reducible refine (State.snapArg_keep _ _ _ _ (fun _ _ => ?_)).trans ?_)
      | (simp only [↓State.exportPump_keep]) | split | (simp_all; done))

theorem State.restoreNext_keep : ∀ (s : State) (e : Nat), (s.restoreNext e).keep = s.keep := by
  intros; unfold State.restoreNext; (try dsimp only)
  repeat' (first
      | (with_reducible rfl) | (simp only [keep_mk, keep_fold])
      | (with_reducible refine (issueReads_keep _ _ _ _ _ (fun _ _ => ?_)).trans ?_)
      | (simp only [↓State.setReg_keep, ↓State.mpRead_keep]) | split | (simp_all; done))

theorem State.present_keep :
    ∀ (s : State) (e : CEnv) (inst j : Nat) (sl : List (Nat × List Byte)), (s.present e inst j sl).keep = s.keep := by
  intros; unfold State.present; (try dsimp only)
  repeat' (first
      | (with_reducible rfl) | (simp only [keep_mk, keep_fold])
      | (with_reducible refine (foldl_keep _ (fun _ _ => ?_) _ _).trans ?_)
      | (with_reducible refine (foldl1_keep _ (fun _ _ => ?_) _ _).trans ?_)
      | (with_reducible refine (foldl2_keep _ (fun _ _ => ?_) _ _).trans ?_) | (simp only [↓State.setCore_keep])
      | split | (simp_all; done))

theorem State.refuse_keep :
    ∀ (s : State) (e : CEnv) (h : BitVec 256) (st : Nat) (c : Ctr), (s.refuse e h st c).keep = s.keep := by
  intros; unfold State.refuse; (try dsimp only)
  repeat' (first
      | (with_reducible rfl) | (simp only [keep_mk, keep_fold])
      | (with_reducible refine ite_keep (fun _ => ?_) fun _ => ?_)
      | (simp only [↓State.sendAnswer_keep, ↓State.count_keep]) | split | (simp_all; done))

theorem State.takeFused_keep : ∀ (s : State) (x : Nat × Nat × Nat × Nat), (s.takeFused x).keep = s.keep := by
  intros; unfold State.takeFused; (try dsimp only)
  repeat' (first
      | (with_reducible rfl) | (simp only [keep_mk, keep_fold])
      | (with_reducible refine ite_keep (fun _ => ?_) fun _ => ?_)
      | (with_reducible refine ite1_keep (fun _ => ?_) fun _ => ?_)
      | (with_reducible refine ite2_keep (fun _ => ?_) fun _ => ?_) | (simp only [↓State.setChunk_keep]) | split
      | (simp_all; done))

theorem State.fusedState_keep : ∀ (s : State) (f : Frame), (s.fusedState f).keep = s.keep := by
  intros; unfold State.fusedState; (try dsimp only)
  repeat' (first
      | (with_reducible rfl) | (simp only [keep_mk, keep_fold])
      | (with_reducible refine ite_keep (fun _ => ?_) fun _ => ?_)
      | (with_reducible refine (foldl_keep _ (fun _ _ => ?_) _ _).trans ?_)
      | (simp only [↓State.fawnOff_keep, ↓State.takeFused_keep]) | split | (simp_all; done))

theorem State.emitOp_keep :
    ∀ (s : State) (g op : Nat) (f : TsiFields) (eff : State → Env → State), (∀ (a : State) (a_1 : Env), (eff a a_1).keep = a.keep) → (s.emitOp g op f eff).keep = s.keep := by
  intros; rename_i hk; unfold State.emitOp; (try dsimp only)
  repeat' (first
      | (with_reducible rfl) | (simp only [keep_mk, keep_fold])
      | (with_reducible refine ite_keep (fun _ => ?_) fun _ => ?_) | (simp only [hk]) | (simp only [↓State.flow_keep])
      | split | (simp_all; done))

theorem State.fetchEff_keep : ∀ (s : State) (e : Env), (s.fetchEff e).keep = s.keep := by
  intros; unfold State.fetchEff; (try dsimp only)
  repeat' (first
      | (with_reducible rfl) | (simp only [keep_mk, keep_fold])
      | (with_reducible refine ite_keep (fun _ => ?_) fun _ => ?_)
      | (with_reducible refine (foldl_keep _ (fun _ _ => ?_) _ _).trans ?_)
      | (with_reducible refine getD_keep (fun _ _ => ?_) ?_)
      | (simp only [↓State.flow_keep, ↓State.newTag_keep, ↓State.modRun_keep, ↓State.fromCluster_keep]) | split
      | (simp_all; done))

theorem State.emitEff_keep : ∀ (s : State) (e : Env), (s.emitEff e).keep = s.keep := by
  intros; unfold State.emitEff; (try dsimp only)
  repeat' (first
      | (with_reducible rfl) | (simp only [keep_mk, keep_fold])
      | (with_reducible refine ite_keep (fun _ => ?_) fun _ => ?_)
      | (with_reducible refine ite1_keep (fun _ => ?_) fun _ => ?_)
      | (with_reducible refine ite2_keep (fun _ => ?_) fun _ => ?_) | (with_reducible refine when_keep ?_ ?_)
      | (with_reducible refine (foldl_keep _ (fun _ _ => ?_) _ _).trans ?_)
      | (with_reducible refine (foldl1_keep _ (fun _ _ => ?_) _ _).trans ?_)
      | (with_reducible refine (foldl2_keep _ (fun _ _ => ?_) _ _).trans ?_)
      | (with_reducible refine getD_keep (fun _ _ => ?_) ?_)
      | (simp only [↓State.flow_keep, ↓State.memwr_keep, ↓State.posWrite_keep]) | split | (simp_all; done))

theorem State.planRead_keep : ∀ (s : State) (f : Frame), (s.planRead f).keep = s.keep := by
  intros; unfold State.planRead; (try dsimp only)
  repeat' (first
      | (with_reducible rfl) | (simp only [keep_mk, keep_fold])
      | (with_reducible refine ite_keep (fun _ => ?_) fun _ => ?_) | (simp only [↓State.sendImage_keep]) | split
      | (simp_all; done))

theorem State.snapDue_keep : ∀ (s : State) (o : SnapOp), (s.snapDue o).keep = s.keep := by
  intros; unfold State.snapDue; (try dsimp only)
  repeat' (first
      | (with_reducible rfl) | (simp only [keep_mk, keep_fold])
      | (with_reducible refine ite_keep (fun _ => ?_) fun _ => ?_)
      | (with_reducible refine (foldl_keep _ (fun _ _ => ?_) _ _).trans ?_)
      | (simp only [↓State.eccUncorr_keep, ↓State.exportSend_keep, ↓State.setSnap_keep, ↓State.mpRead_keep, ↓State.endSnap_keep])
      | split | (simp_all; done))

theorem State.snapsDue_keep : ∀ (s : State), s.snapsDue.keep = s.keep := by
  intros; unfold State.snapsDue; (try dsimp only)
  repeat' (first
      | (with_reducible rfl) | (simp only [keep_mk, keep_fold])
      | (with_reducible refine (foldl_keep _ (fun _ _ => ?_) _ _).trans ?_) | (simp only [↓State.snapDue_keep])
      | split | (simp_all; done))

theorem State.headerParity_keep : ∀ (s : State) (l v : Nat), (s.headerParity l v).keep = s.keep := by
  intros; unfold State.headerParity; (try dsimp only)
  repeat' (first
      | (with_reducible rfl) | (simp only [keep_mk, keep_fold])
      | (with_reducible refine ite_keep (fun _ => ?_) fun _ => ?_)
      | (simp only [↓State.endCopy_keep, ↓State.setChan_keep, ↓fillPre_keep, ↓State.health_keep, ↓State.count_keep])
      | split | (simp_all; done))

theorem State.ingressHead_keep : ∀ (s : State) (l v : Nat) (p : RxPkt), (s.ingressHead l v p).keep = s.keep := by
  intros; unfold State.ingressHead; (try dsimp only)
  repeat' (first
      | (with_reducible rfl) | (simp only [keep_mk, keep_fold])
      | (with_reducible refine ite_keep (fun _ => ?_) fun _ => ?_)
      | (simp only [↓arrive_keep, ↓State.freeCredits_keep, ↓State.setLink_keep]) | split | (simp_all; done))

theorem shadowStart_keep : ∀ (c : Call) (s : State), (shadowStart c s).st.keep = s.keep := by
  intros; unfold shadowStart; (try dsimp only)
  repeat' (first
      | (with_reducible rfl) | (simp only [keep_mk, keep_fold])
      | (with_reducible refine ite_keep (fun _ => ?_) fun _ => ?_)
      | (with_reducible refine ite1_keep (fun _ => ?_) fun _ => ?_)
      | (with_reducible refine ite2_keep (fun _ => ?_) fun _ => ?_) | (with_reducible refine when_keep ?_ ?_)
      | (with_reducible refine (foldl_keep _ (fun _ _ => ?_) _ _).trans ?_)
      | (with_reducible refine (foldl1_keep _ (fun _ _ => ?_) _ _).trans ?_)
      | (with_reducible refine (foldl2_keep _ (fun _ _ => ?_) _ _).trans ?_)
      | (with_reducible refine getD_keep (fun _ _ => ?_) ?_)
      | (simp only [↓State.beginTarget_keep, ↓Fn.enqueue_keep, ↓State.shadowBegin_keep, ↓noChange_keep, ↓deferred_keep, ↓refuseCmd_keep, ↓queuedV_keep])
      | split | (simp_all; done))

theorem fwInfo_keep : ∀ (x : Call) (s : State), (fwInfo x s).st.keep = s.keep := by
  intros; unfold fwInfo; (try dsimp only)
  repeat' (first
      | (with_reducible rfl) | (simp only [keep_mk, keep_fold])
      | (with_reducible refine ite_keep (fun _ => ?_) fun _ => ?_)
      | (with_reducible refine ite1_keep (fun _ => ?_) fun _ => ?_)
      | (with_reducible refine ite2_keep (fun _ => ?_) fun _ => ?_) | (with_reducible refine when_keep ?_ ?_)
      | (with_reducible refine (foldl_keep _ (fun _ _ => ?_) _ _).trans ?_)
      | (with_reducible refine (foldl1_keep _ (fun _ _ => ?_) _ _).trans ?_)
      | (with_reducible refine (foldl2_keep _ (fun _ _ => ?_) _ _).trans ?_)
      | (with_reducible refine getD_keep (fun _ _ => ?_) ?_) | split | (simp_all; done))

theorem State.ageBuf_keep : ∀ (s : State) (id idx : Nat), (s.ageBuf id idx).keep = s.keep := by
  intros; unfold State.ageBuf; (try dsimp only)
  repeat' (first
      | (with_reducible rfl) | (simp only [keep_mk, keep_fold])
      | (with_reducible refine ite_keep (fun _ => ?_) fun _ => ?_)
      | (with_reducible refine (foldl_keep _ (fun _ _ => ?_) _ _).trans ?_)
      | (simp only [↓State.endCopy_keep, ↓State.count_keep]) | split | (simp_all; done))

theorem State.avsDone_keep : ∀ (s : State) (level : Nat), (s.avsDone level).keep = s.keep := by
  intros; unfold State.avsDone; simp only [↓State.followLevel_keep, keep_mk, keep_fold]

theorem portDisable_keep : ∀ (c : Call) (s : State), (portDisable c s).st.keep = s.keep := by
  intros; unfold portDisable; (try dsimp only)
  repeat' (first
      | (with_reducible rfl) | (simp only [keep_mk, keep_fold])
      | (with_reducible refine ite_keep (fun _ => ?_) fun _ => ?_)
      | (with_reducible refine ite1_keep (fun _ => ?_) fun _ => ?_)
      | (with_reducible refine ite2_keep (fun _ => ?_) fun _ => ?_) | (with_reducible refine when_keep ?_ ?_)
      | (with_reducible refine (foldl_keep _ (fun _ _ => ?_) _ _).trans ?_)
      | (with_reducible refine (foldl1_keep _ (fun _ _ => ?_) _ _).trans ?_)
      | (with_reducible refine (foldl2_keep _ (fun _ _ => ?_) _ _).trans ?_)
      | (with_reducible refine getD_keep (fun _ _ => ?_) ?_)
      | (with_reducible refine (State.portArg_keep _ _ _ (fun _ => ?_)).trans ?_)
      | (simp only [↓State.complete_keep, ↓State.linkStop_keep, ↓State.setLink_keep, ↓noChange_keep, ↓deferred_keep])
      | split | (simp_all; done))

theorem State.ctlOp_keep :
    ∀ (s : State) (g op : Nat) (f : TsiFields) (eff : State → Env → State), (∀ (a : State) (a_1 : Env), (eff a a_1).keep = a.keep) → (s.ctlOp g op f eff).keep = s.keep := by
  intros; rename_i hk; unfold State.ctlOp; (try dsimp only)
  repeat' (first
      | (with_reducible rfl) | (simp only [keep_mk, keep_fold]) | (simp only [hk]) | split | (simp_all; done))

theorem State.sendFused_keep :
    ∀ (s : State) (plane : Nat) (es : List (Nat × Nat × Nat × Nat)), (s.sendFused plane es).keep = s.keep := by
  intros; unfold State.sendFused; (try dsimp only)
  repeat' (first
      | (with_reducible rfl) | (simp only [keep_mk, keep_fold])
      | (with_reducible refine ite_keep (fun _ => ?_) fun _ => ?_)
      | (with_reducible refine ite1_keep (fun _ => ?_) fun _ => ?_)
      | (with_reducible refine ite2_keep (fun _ => ?_) fun _ => ?_)
      | (with_reducible refine (foldl_keep _ (fun _ _ => ?_) _ _).trans ?_)
      | (with_reducible refine (foldl1_keep _ (fun _ _ => ?_) _ _).trans ?_)
      | (with_reducible refine (foldl2_keep _ (fun _ _ => ?_) _ _).trans ?_) | (simp only [↓State.sendImage_keep])
      | split | (simp_all; done))

theorem State.partStart_keep : ∀ (s : State) (p m : Nat) (r : Req), (s.partStart p m r).keep = s.keep := by
  intros; unfold State.partStart; (try dsimp only)
  repeat' (first
      | (with_reducible rfl) | (simp only [keep_mk, keep_fold])
      | (with_reducible refine ite_keep (fun _ => ?_) fun _ => ?_)
      | (simp only [↓State.setPart_keep, ↓State.setBox_keep]) | split | (simp_all; done))

theorem State.partOff_keep : ∀ (s : State) (p : Nat), (s.partOff p).keep = s.keep := by
  intros; unfold State.partOff; (try dsimp only)
  repeat' (first
      | (with_reducible rfl) | (simp only [keep_mk, keep_fold])
      | (with_reducible refine ite_keep (fun _ => ?_) fun _ => ?_)
      | (with_reducible refine ite1_keep (fun _ => ?_) fun _ => ?_)
      | (with_reducible refine ite2_keep (fun _ => ?_) fun _ => ?_) | (with_reducible refine when_keep ?_ ?_)
      | (with_reducible refine (foldl_keep _ (fun _ _ => ?_) _ _).trans ?_)
      | (with_reducible refine (foldl1_keep _ (fun _ _ => ?_) _ _).trans ?_)
      | (with_reducible refine (foldl2_keep _ (fun _ _ => ?_) _ _).trans ?_)
      | (with_reducible refine getD_keep (fun _ _ => ?_) ?_)
      | (simp only [↓State.setPart_keep, ↓State.complete_keep, ↓State.setBox_keep, ↓State.partStart_keep, ↓Fn.doneOff_keep])
      | split | (simp_all; done))

theorem State.takeMp_keep :
    ∀ (s : State) (p : Steered → Bool) (y : Steered × State), s.takeMp p = some y → y.snd.keep = s.keep := by
  intro s p y h; unfold State.takeMp at h
  obtain ⟨r, _, rfl⟩ := Option.map_eq_some_iff.mp h
  rfl

theorem State.noteTemp_keep : ∀ (s : State) (temp : Nat), (s.noteTemp temp).keep = s.keep := by
  intros; unfold State.noteTemp; (try dsimp only)
  repeat' (first
      | (with_reducible rfl) | (simp only [keep_mk, keep_fold])
      | (with_reducible refine ite_keep (fun _ => ?_) fun _ => ?_) | split | (simp_all; done))

theorem snapshotTake_keep : ∀ (c : Call) (s : State), (snapshotTake c s).st.keep = s.keep := by
  intros; unfold snapshotTake; (try dsimp only)
  repeat' (first
      | (with_reducible rfl) | (simp only [keep_mk, keep_fold])
      | (with_reducible refine ite_keep (fun _ => ?_) fun _ => ?_)
      | (with_reducible refine (State.snapArg_keep _ _ _ _ (fun _ _ => ?_)).trans ?_)
      | (simp only [↓State.setReg_keep, ↓State.setSnap_keep]) | split | (simp_all; done))

theorem State.fusedQuery_keep : ∀ (s : State) (f : Frame), (s.fusedQuery f).keep = s.keep := by
  intros; unfold State.fusedQuery; (try dsimp only)
  repeat' (first
      | (with_reducible rfl) | (simp only [keep_mk, keep_fold])
      | (with_reducible refine ite_keep (fun _ => ?_) fun _ => ?_)
      | (simp only [↓State.sendImage_keep, ↓State.sendFused_keep]) | split | (simp_all; done))

theorem reservePromote_keep : ∀ (c : Call) (s : State), (reservePromote c s).st.keep = s.keep := by
  intros; unfold reservePromote; (try dsimp only)
  repeat' (first
      | (with_reducible rfl) | (simp only [keep_mk, keep_fold])
      | (with_reducible refine ite_keep (fun _ => ?_) fun _ => ?_)
      | (simp only [↓State.announce_keep, ↓deferred_keep, ↓refuseCmd_keep]) | split | (simp_all; done))

theorem State.promoteDone_keep :
    ∀ (s : State) (status detail : Nat), (s.promoteDone status detail).keep = s.keep := by
  intros; unfold State.promoteDone; (try dsimp only)
  repeat' (first
      | (with_reducible rfl) | (simp only [keep_mk, keep_fold])
      | (with_reducible refine ite_keep (fun _ => ?_) fun _ => ?_) | (simp only [↓State.complete_keep]) | split
      | (simp_all; done))

theorem State.bootLead_keep : ∀ (s : State) (plane : Nat), (s.bootLead plane).keep = s.keep := by
  intros; unfold State.bootLead; (try dsimp only)
  repeat' (first
      | (with_reducible rfl) | (simp only [keep_mk, keep_fold])
      | (with_reducible refine ite_keep (fun _ => ?_) fun _ => ?_) | (simp only [↓State.bootIssue_keep]) | split
      | (simp_all; done))

theorem State.bootDue_keep : ∀ (s : State), s.bootDue.keep = s.keep := by
  intros; unfold State.bootDue; (try dsimp only)
  repeat' (first
      | (with_reducible rfl) | (simp only [keep_mk, keep_fold])
      | (with_reducible refine ite_keep (fun _ => ?_) fun _ => ?_)
      | (with_reducible refine (foldl_keep _ (fun _ _ => ?_) _ _).trans ?_) | (simp only [↓State.bootSend_keep])
      | split | (simp_all; done))

theorem State.xcencEff_keep : ∀ (s : State) (e : Env), (s.xcencEff e).keep = s.keep := by
  intros; unfold State.xcencEff; (try dsimp only)
  repeat' (first
      | (with_reducible rfl) | (simp only [keep_mk, keep_fold])
      | (with_reducible refine ite_keep (fun _ => ?_) fun _ => ?_)
      | (with_reducible refine ite1_keep (fun _ => ?_) fun _ => ?_)
      | (with_reducible refine ite2_keep (fun _ => ?_) fun _ => ?_) | (with_reducible refine when_keep ?_ ?_)
      | (with_reducible refine (foldl_keep _ (fun _ _ => ?_) _ _).trans ?_)
      | (with_reducible refine (foldl1_keep _ (fun _ _ => ?_) _ _).trans ?_)
      | (with_reducible refine (foldl2_keep _ (fun _ _ => ?_) _ _).trans ?_)
      | (with_reducible refine getD_keep (fun _ _ => ?_) ?_)
      | (simp only [↓State.segment_keep, ↓State.flow_keep, ↓State.setCore_keep, ↓State.memwr_keep, ↓State.residueFail_keep])
      | split | (simp_all; done))

theorem State.afterTakeover_keep : ∀ (s : State) (p : Plan) (a : Arm), (s.afterTakeover p a).keep = s.keep := by
  intros; unfold State.afterTakeover; (try dsimp only)
  repeat' (first
      | (with_reducible rfl) | (simp only [keep_mk, keep_fold])
      | (with_reducible refine (foldl_keep _ (fun _ _ => ?_) _ _).trans ?_)
      | (simp only [↓State.linkRecycle_keep, ↓State.restoreNext_keep, ↓State.fawnEnd_keep, ↓State.promoteDone_keep])
      | split | (simp_all; done))

theorem State.logFault_keep : ∀ (s : State), s.logFault.keep = s.keep := by
  intros; unfold State.logFault; (try dsimp only)
  repeat' (first
      | (with_reducible rfl) | (simp only [keep_mk, keep_fold])
      | (with_reducible refine ite_keep (fun _ => ?_) fun _ => ?_)
      | (with_reducible refine ite1_keep (fun _ => ?_) fun _ => ?_)
      | (with_reducible refine ite2_keep (fun _ => ?_) fun _ => ?_) | (with_reducible refine when_keep ?_ ?_)
      | (with_reducible refine (foldl_keep _ (fun _ _ => ?_) _ _).trans ?_)
      | (with_reducible refine (foldl1_keep _ (fun _ _ => ?_) _ _).trans ?_)
      | (with_reducible refine (foldl2_keep _ (fun _ _ => ?_) _ _).trans ?_)
      | (with_reducible refine getD_keep (fun _ _ => ?_) ?_) | (simp only [↓State.drawFree_keep]) | split
      | (simp_all; done))

theorem State.levelMoved_keep : ∀ (s old : State) (cause : Nat), (s.levelMoved old cause).keep = s.keep := by
  intros; unfold State.levelMoved; (try dsimp only)
  repeat' (first
      | (with_reducible rfl) | (simp only [keep_mk, keep_fold])
      | (with_reducible refine ite_keep (fun _ => ?_) fun _ => ?_)
      | (simp only [↓State.followLevel_keep, ↓State.throttled_keep, ↓State.roeEvent_keep, ↓State.health_keep]) | split
      | (simp_all; done))

theorem State.tick_keep : ∀ (s : State) (t : Nat), (s.tick t).keep = s.keep := by
  intros; unfold State.tick; (try dsimp only)
  repeat' (first
      | (with_reducible rfl) | (simp only [keep_mk, keep_fold])
      | (with_reducible refine ite_keep (fun _ => ?_) fun _ => ?_)
      | (with_reducible refine ite1_keep (fun _ => ?_) fun _ => ?_)
      | (with_reducible refine ite2_keep (fun _ => ?_) fun _ => ?_) | (with_reducible refine when_keep ?_ ?_)
      | (with_reducible refine (foldl_keep _ (fun _ _ => ?_) _ _).trans ?_)
      | (with_reducible refine (foldl1_keep _ (fun _ _ => ?_) _ _).trans ?_)
      | (with_reducible refine (foldl2_keep _ (fun _ _ => ?_) _ _).trans ?_)
      | (with_reducible refine getD_keep (fun _ _ => ?_) ?_) | split | (simp_all; done))

theorem State.shadowEntry_keep : ∀ (s : State) (f : Frame), (s.shadowEntry f).keep = s.keep := by
  intros; unfold State.shadowEntry; (try dsimp only)
  repeat' (first
      | (with_reducible rfl) | (simp only [keep_mk, keep_fold])
      | (with_reducible refine ite_keep (fun _ => ?_) fun _ => ?_) | (simp only [↓shadowPair_keep]) | split
      | (simp_all; done))

theorem State.mbwr_keep : ∀ (s : State) (x : Steered), (s.mbwr x).keep = s.keep := by
  intros; unfold State.mbwr; (try dsimp only)
  repeat' (first
      | (with_reducible rfl) | (simp only [keep_mk, keep_fold])
      | (with_reducible refine ite_keep (fun _ => ?_) fun _ => ?_)
      | (with_reducible refine ite1_keep (fun _ => ?_) fun _ => ?_)
      | (with_reducible refine ite2_keep (fun _ => ?_) fun _ => ?_) | (with_reducible refine when_keep ?_ ?_)
      | (with_reducible refine (foldl_keep _ (fun _ _ => ?_) _ _).trans ?_)
      | (with_reducible refine (foldl1_keep _ (fun _ _ => ?_) _ _).trans ?_)
      | (with_reducible refine (foldl2_keep _ (fun _ _ => ?_) _ _).trans ?_)
      | (with_reducible refine getD_keep (fun _ _ => ?_) ?_) | (simp only [↓State.mbdata_keep, ↓State.writeReq_keep])
      | split | (simp_all; done))

theorem State.refill_keep : ∀ (s : State) (l v n : Nat) (e : BitVec 64), (s.refill l v n e).keep = s.keep := by
  intros; unfold State.refill; (try dsimp only)
  repeat' (first
      | (with_reducible rfl) | (simp only [keep_mk, keep_fold])
      | (with_reducible refine ite_keep (fun _ => ?_) fun _ => ?_)
      | (with_reducible refine getD_keep (fun _ _ => ?_) ?_) | (simp only [↓State.setChan_keep]) | split
      | (simp_all; done))

theorem State.trailMp_keep :
    ∀ (s : State) (f : Frame) (type : Nat) (sub : Option Nat) (take : State → State), (∀ (a : State), (take a).keep = a.keep) → (s.trailMp f type sub take).keep = s.keep := by
  intros; rename_i hk; unfold State.trailMp; (try dsimp only)
  repeat' (first
      | (with_reducible rfl) | (simp only [keep_mk, keep_fold])
      | (with_reducible refine ite_keep (fun _ => ?_) fun _ => ?_)
      | (with_reducible refine (State.trailRx_keep _ _ _ _ (fun _ => ?_)).trans ?_) | (simp only [hk]) | split
      | (simp_all; done))

theorem State.stageDue_keep : ∀ (s : State), s.stageDue.keep = s.keep := by
  intros; unfold State.stageDue; (try dsimp only)
  repeat' (first
      | (with_reducible rfl) | (simp only [keep_mk, keep_fold])
      | (with_reducible refine ite_keep (fun _ => ?_) fun _ => ?_)
      | (with_reducible refine (foldl_keep _ (fun _ _ => ?_) _ _).trans ?_)
      | (simp only [↓State.setStage_keep, ↓State.mpRead_keep]) | split | (simp_all; done))

theorem State.pcntEff_keep : ∀ (s : State) (e : Env), (s.pcntEff e).keep = s.keep := by
  intros; unfold State.pcntEff; (try dsimp only)
  repeat' (first
      | (with_reducible rfl) | (simp only [keep_mk, keep_fold])
      | (with_reducible refine ite_keep (fun _ => ?_) fun _ => ?_)
      | (with_reducible refine ite1_keep (fun _ => ?_) fun _ => ?_)
      | (with_reducible refine ite2_keep (fun _ => ?_) fun _ => ?_) | (with_reducible refine when_keep ?_ ?_)
      | (with_reducible refine (foldl_keep _ (fun _ _ => ?_) _ _).trans ?_)
      | (with_reducible refine (foldl1_keep _ (fun _ _ => ?_) _ _).trans ?_)
      | (with_reducible refine (foldl2_keep _ (fun _ _ => ?_) _ _).trans ?_)
      | (with_reducible refine getD_keep (fun _ _ => ?_) ?_) | (simp only [↓State.flow_keep]) | split
      | (simp_all; done))

theorem State.linkOff_keep : ∀ (s : State) (l : Nat), (s.linkOff l).keep = s.keep := by
  intros; unfold State.linkOff; (try dsimp only)
  repeat' (first
      | (with_reducible rfl) | (simp only [keep_mk, keep_fold])
      | (with_reducible refine ite_keep (fun _ => ?_) fun _ => ?_)
      | (with_reducible refine (foldl_keep _ (fun _ _ => ?_) _ _).trans ?_)
      | (simp only [↓State.setDisc_keep, ↓State.startOff_keep, ↓State.complete_keep, ↓State.ingressAll_keep, ↓State.cutIngress_keep, ↓State.staleCells_keep, ↓State.flushLink_keep, ↓State.setLink_keep, ↓State.linkEvent_keep])
      | split | (simp_all; done))

theorem State.plainRead_keep : ∀ (s : State) (q : MReq), (s.plainRead q).keep = s.keep := by
  intros; unfold State.plainRead; (try dsimp only)
  repeat' (first
      | (with_reducible rfl) | (simp only [keep_mk, keep_fold])
      | (with_reducible refine ite_keep (fun _ => ?_) fun _ => ?_)
      | (simp only [↓State.eccUncorr_keep, ↓State.respond_keep, ↓State.count_keep]) | split | (simp_all; done))

theorem State.takeSteered_keep :
    ∀ (s : State) (cl : Nat) (p : Steered → Bool) (y : Steered × State), s.takeSteered cl p = some y → y.snd.keep = s.keep := by
  intro s c p y h; unfold State.takeSteered at h
  obtain ⟨r, _, rfl⟩ := Option.map_eq_some_iff.mp h
  rfl

theorem partCreate_keep : ∀ (c : Call) (s : State), (partCreate c s).st.keep = s.keep := by
  intros; unfold partCreate; (try dsimp only)
  repeat' (first
      | (with_reducible rfl) | (simp only [keep_mk, keep_fold])
      | (with_reducible refine ite_keep (fun _ => ?_) fun _ => ?_)
      | (with_reducible refine ite1_keep (fun _ => ?_) fun _ => ?_)
      | (with_reducible refine ite2_keep (fun _ => ?_) fun _ => ?_) | (with_reducible refine when_keep ?_ ?_)
      | (with_reducible refine (foldl_keep _ (fun _ _ => ?_) _ _).trans ?_)
      | (with_reducible refine (foldl1_keep _ (fun _ _ => ?_) _ _).trans ?_)
      | (with_reducible refine (foldl2_keep _ (fun _ _ => ?_) _ _).trans ?_)
      | (with_reducible refine getD_keep (fun _ _ => ?_) ?_)
      | (simp only [↓State.setPart_keep, ↓Fn.enqueue_keep, ↓State.partStart_keep, ↓noChange_keep, ↓deferred_keep, ↓refuseCmd_keep, ↓queuedV_keep])
      | split | (simp_all; done))

theorem State.idle_keep : ∀ (s : State), s.idle.keep = s.keep := by
  intros; unfold State.idle; (try dsimp only)
  repeat' (first
      | (with_reducible rfl) | (simp only [keep_mk, keep_fold])
      | (with_reducible refine ite_keep (fun _ => ?_) fun _ => ?_)
      | (with_reducible refine ite1_keep (fun _ => ?_) fun _ => ?_)
      | (with_reducible refine ite2_keep (fun _ => ?_) fun _ => ?_) | (with_reducible refine when_keep ?_ ?_)
      | (with_reducible refine (foldl_keep _ (fun _ _ => ?_) _ _).trans ?_)
      | (with_reducible refine (foldl1_keep _ (fun _ _ => ?_) _ _).trans ?_)
      | (with_reducible refine (foldl2_keep _ (fun _ _ => ?_) _ _).trans ?_)
      | (with_reducible refine getD_keep (fun _ _ => ?_) ?_)
      | (simp only [↓State.trailEmit_keep, ↓State.stageDue_keep, ↓State.snapsDue_keep, ↓State.bootDue_keep]) | split
      | (simp_all; done))

theorem State.planData_keep : ∀ (s : State) (f : Frame), (s.planData f).keep = s.keep := by
  intros; unfold State.planData; (try dsimp only)
  repeat' (first
      | (with_reducible rfl) | (simp only [keep_mk, keep_fold])
      | (with_reducible refine ite_keep (fun _ => ?_) fun _ => ?_) | (simp only [↓State.shadowPump_keep]) | split
      | (simp_all; done))

theorem State.takeReq_keep :
    ∀ (s : State) (cl : Nat) (mop : Nat → Bool) (y : MReq × State), s.takeReq cl mop = some y → y.snd.keep = s.keep := by
  intro s c p y h; unfold State.takeReq at h
  obtain ⟨r, hr, rfl⟩ := Option.map_eq_some_iff.mp h
  exact State.takeMem_keep _ _ _ _ hr

theorem State.recordFused_keep : ∀ (s : State) (q : Nat × Nat), (s.recordFused q).keep = s.keep := by
  intros; unfold State.recordFused; simp only [↓State.sendFused_keep, keep_mk, keep_fold]

theorem next_keep {a t : State} {x} (h1 : a.keep = x) (h : (Host.Outcome.next a : Out State) = .next t) : t.keep = x :=
  (Host.Outcome.next.inj h) ▸ h1

theorem onUnit_keep {c : Bool} {a t : State} {x} (h1 : a.keep = x) (h : onUnit c a = .next t) : t.keep = x := by
  unfold onUnit at h; split at h
  · exact (Host.Outcome.next.inj h) ▸ h1
  · cases h

theorem onSideband_keep {f : State → State} {s t : State} (h1 : ∀ s, (f s).keep = s.keep) (h : onSideband s f = .next t) :
    t.keep = s.keep := by
  unfold onSideband at h; rw [← Host.Outcome.next.inj h]; split
  · exact h1 s
  · rfl

theorem onLink_keep {l t : Nat} {s u : State} {ok : State → Link → Bool} {f : State → State} (h1 : ∀ s, (f s).keep = s.keep)
    (h : onLink l t s ok f = .next u) : u.keep = s.keep := by
  unfold onLink at h
  exact onUnit_keep (a := when_ _ (s.tick t) _) (when_keep rfl ((h1 (s.tick t)).trans rfl)) h

theorem execXcenc_keep :
    ∀ (g : Nat) (f : TsiFields) (s : State) (t' : State), execXcenc g f s = .next t' → t'.keep = s.keep := by
  intros; rename_i h; unfold execXcenc at h; (try dsimp only at h); (repeat' split at h)
  all_goals (first
      | refine next_keep ?_ h | refine onUnit_keep ?_ h | refine onSideband_keep (fun _ => ?_) h
      | refine onLink_keep (fun _ => ?_) h)
  all_goals (repeat' (first
      | (with_reducible rfl) | (simp only [keep_mk, keep_fold])
      | (with_reducible refine ite_keep (fun _ => ?_) fun _ => ?_)
      | (with_reducible refine ite1_keep (fun _ => ?_) fun _ => ?_)
      | (with_reducible refine ite2_keep (fun _ => ?_) fun _ => ?_) | (with_reducible refine when_keep ?_ ?_)
      | (with_reducible refine (foldl_keep _ (fun _ _ => ?_) _ _).trans ?_)
      | (with_reducible refine (foldl1_keep _ (fun _ _ => ?_) _ _).trans ?_)
      | (with_reducible refine (foldl2_keep _ (fun _ _ => ?_) _ _).trans ?_)
      | (with_reducible refine getD_keep (fun _ _ => ?_) ?_)
      | (with_reducible refine (State.emitOp_keep _ _ _ _ _ (fun _ _ => ?_)).trans ?_)
      | (simp only [↓State.xcencEff_keep, ↓State.tick_keep]) | split | (simp_all; done)))

theorem execEmit_keep :
    ∀ (g : Nat) (f : TsiFields) (s : State) (t' : State), execEmit g f s = .next t' → t'.keep = s.keep := by
  intros; rename_i h; unfold execEmit at h; (try dsimp only at h); (repeat' split at h)
  all_goals (first
      | refine next_keep ?_ h | refine onUnit_keep ?_ h | refine onSideband_keep (fun _ => ?_) h
      | refine onLink_keep (fun _ => ?_) h)
  all_goals (repeat' (first
      | (with_reducible rfl) | (simp only [keep_mk, keep_fold])
      | (with_reducible refine ite_keep (fun _ => ?_) fun _ => ?_)
      | (with_reducible refine ite1_keep (fun _ => ?_) fun _ => ?_)
      | (with_reducible refine ite2_keep (fun _ => ?_) fun _ => ?_) | (with_reducible refine when_keep ?_ ?_)
      | (with_reducible refine (foldl_keep _ (fun _ _ => ?_) _ _).trans ?_)
      | (with_reducible refine (foldl1_keep _ (fun _ _ => ?_) _ _).trans ?_)
      | (with_reducible refine (foldl2_keep _ (fun _ _ => ?_) _ _).trans ?_)
      | (with_reducible refine getD_keep (fun _ _ => ?_) ?_)
      | (with_reducible refine (State.emitOp_keep _ _ _ _ _ (fun _ _ => ?_)).trans ?_)
      | (simp only [↓State.emitEff_keep, ↓State.tick_keep]) | split | (simp_all; done)))

theorem execEmita_keep :
    ∀ (g : Nat) (f : TsiFields) (s : State) (t' : State), execEmita g f s = .next t' → t'.keep = s.keep := by
  intros; rename_i h; unfold execEmita at h; (try dsimp only at h); (repeat' split at h)
  all_goals (first
      | refine next_keep ?_ h | refine onUnit_keep ?_ h | refine onSideband_keep (fun _ => ?_) h
      | refine onLink_keep (fun _ => ?_) h)
  all_goals (repeat' (first
      | (with_reducible rfl) | (simp only [keep_mk, keep_fold])
      | (with_reducible refine ite_keep (fun _ => ?_) fun _ => ?_)
      | (with_reducible refine ite1_keep (fun _ => ?_) fun _ => ?_)
      | (with_reducible refine ite2_keep (fun _ => ?_) fun _ => ?_) | (with_reducible refine when_keep ?_ ?_)
      | (with_reducible refine (foldl_keep _ (fun _ _ => ?_) _ _).trans ?_)
      | (with_reducible refine (foldl1_keep _ (fun _ _ => ?_) _ _).trans ?_)
      | (with_reducible refine (foldl2_keep _ (fun _ _ => ?_) _ _).trans ?_)
      | (with_reducible refine getD_keep (fun _ _ => ?_) ?_)
      | (with_reducible refine (State.emitOp_keep _ _ _ _ _ (fun _ _ => ?_)).trans ?_)
      | (simp only [↓State.emitaEff_keep, ↓State.tick_keep]) | split | (simp_all; done)))

theorem execEmsc_keep :
    ∀ (g : Nat) (f : TsiFields) (s : State) (t' : State), execEmsc g f s = .next t' → t'.keep = s.keep := by
  intros; rename_i h; unfold execEmsc at h; (try dsimp only at h); (repeat' split at h)
  all_goals (first
      | refine next_keep ?_ h | refine onUnit_keep ?_ h | refine onSideband_keep (fun _ => ?_) h
      | refine onLink_keep (fun _ => ?_) h)
  all_goals (repeat' (first
      | (with_reducible rfl) | (simp only [keep_mk, keep_fold])
      | (with_reducible refine ite_keep (fun _ => ?_) fun _ => ?_)
      | (with_reducible refine ite1_keep (fun _ => ?_) fun _ => ?_)
      | (with_reducible refine ite2_keep (fun _ => ?_) fun _ => ?_) | (with_reducible refine when_keep ?_ ?_)
      | (with_reducible refine (foldl_keep _ (fun _ _ => ?_) _ _).trans ?_)
      | (with_reducible refine (foldl1_keep _ (fun _ _ => ?_) _ _).trans ?_)
      | (with_reducible refine (foldl2_keep _ (fun _ _ => ?_) _ _).trans ?_)
      | (with_reducible refine getD_keep (fun _ _ => ?_) ?_)
      | (with_reducible refine (State.emitOp_keep _ _ _ _ _ (fun _ _ => ?_)).trans ?_)
      | (simp only [↓State.emscEff_keep, ↓State.tick_keep]) | split | (simp_all; done)))

theorem execEndHandler_keep :
    ∀ (g : Nat) (f : TsiFields) (s : State) (t' : State), execEndHandler g f s = .next t' → t'.keep = s.keep := by
  intros; rename_i h; unfold execEndHandler at h; (try dsimp only at h); (repeat' split at h)
  all_goals (first
      | refine next_keep ?_ h | refine onUnit_keep ?_ h | refine onSideband_keep (fun _ => ?_) h
      | refine onLink_keep (fun _ => ?_) h)
  all_goals (repeat' (first
      | (with_reducible rfl) | (simp only [keep_mk, keep_fold])
      | (with_reducible refine ite_keep (fun _ => ?_) fun _ => ?_)
      | (with_reducible refine ite1_keep (fun _ => ?_) fun _ => ?_)
      | (with_reducible refine ite2_keep (fun _ => ?_) fun _ => ?_) | (with_reducible refine when_keep ?_ ?_)
      | (with_reducible refine (foldl_keep _ (fun _ _ => ?_) _ _).trans ?_)
      | (with_reducible refine (foldl1_keep _ (fun _ _ => ?_) _ _).trans ?_)
      | (with_reducible refine (foldl2_keep _ (fun _ _ => ?_) _ _).trans ?_)
      | (with_reducible refine getD_keep (fun _ _ => ?_) ?_)
      | (with_reducible refine (State.ctlOp_keep _ _ _ _ _ (fun _ _ => ?_)).trans ?_)
      | (simp only [↓State.flow_keep, ↓State.tick_keep]) | split | (simp_all; done)))

theorem execFetch_keep :
    ∀ (g : Nat) (f : TsiFields) (s : State) (t' : State), execFetch g f s = .next t' → t'.keep = s.keep := by
  intros; rename_i h; unfold execFetch at h; (try dsimp only at h); (repeat' split at h)
  all_goals (first
      | refine next_keep ?_ h | refine onUnit_keep ?_ h | refine onSideband_keep (fun _ => ?_) h
      | refine onLink_keep (fun _ => ?_) h)
  all_goals (repeat' (first
      | (with_reducible rfl) | (simp only [keep_mk, keep_fold])
      | (with_reducible refine ite_keep (fun _ => ?_) fun _ => ?_)
      | (with_reducible refine ite1_keep (fun _ => ?_) fun _ => ?_)
      | (with_reducible refine ite2_keep (fun _ => ?_) fun _ => ?_) | (with_reducible refine when_keep ?_ ?_)
      | (with_reducible refine (foldl_keep _ (fun _ _ => ?_) _ _).trans ?_)
      | (with_reducible refine (foldl1_keep _ (fun _ _ => ?_) _ _).trans ?_)
      | (with_reducible refine (foldl2_keep _ (fun _ _ => ?_) _ _).trans ?_)
      | (with_reducible refine getD_keep (fun _ _ => ?_) ?_)
      | (with_reducible refine (State.ctlOp_keep _ _ _ _ _ (fun _ _ => ?_)).trans ?_)
      | (simp only [↓State.fetchEff_keep, ↓State.tick_keep]) | split | (simp_all; done)))

theorem execWaitf_keep :
    ∀ (g : Nat) (f : TsiFields) (s : State) (t' : State), execWaitf g f s = .next t' → t'.keep = s.keep := by
  intros; rename_i h; unfold execWaitf at h; (try dsimp only at h); (repeat' split at h)
  all_goals (first
      | refine next_keep ?_ h | refine onUnit_keep ?_ h | refine onSideband_keep (fun _ => ?_) h
      | refine onLink_keep (fun _ => ?_) h)
  all_goals (repeat' (first
      | (with_reducible rfl) | (simp only [keep_mk, keep_fold])
      | (with_reducible refine ite_keep (fun _ => ?_) fun _ => ?_)
      | (with_reducible refine ite1_keep (fun _ => ?_) fun _ => ?_)
      | (with_reducible refine ite2_keep (fun _ => ?_) fun _ => ?_) | (with_reducible refine when_keep ?_ ?_)
      | (with_reducible refine (foldl_keep _ (fun _ _ => ?_) _ _).trans ?_)
      | (with_reducible refine (foldl1_keep _ (fun _ _ => ?_) _ _).trans ?_)
      | (with_reducible refine (foldl2_keep _ (fun _ _ => ?_) _ _).trans ?_)
      | (with_reducible refine getD_keep (fun _ _ => ?_) ?_)
      | (with_reducible refine (State.ctlOp_keep _ _ _ _ _ (fun _ _ => ?_)).trans ?_)
      | (simp only [↓State.waitfEff_keep, ↓State.tick_keep]) | split | (simp_all; done)))

theorem execPcnt_keep :
    ∀ (g : Nat) (f : TsiFields) (s : State) (t' : State), execPcnt g f s = .next t' → t'.keep = s.keep := by
  intros; rename_i h; unfold execPcnt at h; (try dsimp only at h); (repeat' split at h)
  all_goals (first
      | refine next_keep ?_ h | refine onUnit_keep ?_ h | refine onSideband_keep (fun _ => ?_) h
      | refine onLink_keep (fun _ => ?_) h)
  all_goals (repeat' (first
      | (with_reducible rfl) | (simp only [keep_mk, keep_fold])
      | (with_reducible refine ite_keep (fun _ => ?_) fun _ => ?_)
      | (with_reducible refine ite1_keep (fun _ => ?_) fun _ => ?_)
      | (with_reducible refine ite2_keep (fun _ => ?_) fun _ => ?_) | (with_reducible refine when_keep ?_ ?_)
      | (with_reducible refine (foldl_keep _ (fun _ _ => ?_) _ _).trans ?_)
      | (with_reducible refine (foldl1_keep _ (fun _ _ => ?_) _ _).trans ?_)
      | (with_reducible refine (foldl2_keep _ (fun _ _ => ?_) _ _).trans ?_)
      | (with_reducible refine getD_keep (fun _ _ => ?_) ?_)
      | (with_reducible refine (State.ctlOp_keep _ _ _ _ _ (fun _ _ => ?_)).trans ?_)
      | (simp only [↓State.pcntEff_keep, ↓State.tick_keep]) | split | (simp_all; done)))

theorem execOutputRoomResume_keep :
    ∀ (g t : Nat) (s : State) (t' : State), execOutputRoomResume g t s = .next t' → t'.keep = s.keep := by
  intros; rename_i h; unfold execOutputRoomResume at h; (try dsimp only at h); (repeat' split at h)
  all_goals (first
      | refine next_keep ?_ h | refine onUnit_keep ?_ h | refine onSideband_keep (fun _ => ?_) h
      | refine onLink_keep (fun _ => ?_) h)
  all_goals (repeat' (first
      | (with_reducible rfl) | (simp only [keep_mk, keep_fold])
      | (with_reducible refine ite_keep (fun _ => ?_) fun _ => ?_)
      | (with_reducible refine ite1_keep (fun _ => ?_) fun _ => ?_)
      | (with_reducible refine ite2_keep (fun _ => ?_) fun _ => ?_) | (with_reducible refine when_keep ?_ ?_)
      | (with_reducible refine (foldl_keep _ (fun _ _ => ?_) _ _).trans ?_)
      | (with_reducible refine (foldl1_keep _ (fun _ _ => ?_) _ _).trans ?_)
      | (with_reducible refine (foldl2_keep _ (fun _ _ => ?_) _ _).trans ?_)
      | (with_reducible refine getD_keep (fun _ _ => ?_) ?_)
      | (with_reducible refine (State.emitOp_keep _ _ _ _ _ (fun _ _ => ?_)).trans ?_)
      | (simp only [↓State.setRun_keep, ↓State.emitaEff_keep, ↓drainWait_keep, ↓State.emscEff_keep, ↓State.emitEff_keep, ↓State.xcencEff_keep, ↓State.tick_keep])
      | split | (simp_all; done)))

theorem execWatchdogTimeout_keep :
    ∀ (g waited : Nat) (s : State) (t' : State), execWatchdogTimeout g waited s = .next t' → t'.keep = s.keep := by
  intros; rename_i h; unfold execWatchdogTimeout at h; (try dsimp only at h); (repeat' split at h)
  all_goals (first
      | refine next_keep ?_ h | refine onUnit_keep ?_ h | refine onSideband_keep (fun _ => ?_) h
      | refine onLink_keep (fun _ => ?_) h)
  all_goals (repeat' (first
      | (with_reducible rfl) | (simp only [keep_mk, keep_fold])
      | (with_reducible refine ite_keep (fun _ => ?_) fun _ => ?_)
      | (with_reducible refine ite1_keep (fun _ => ?_) fun _ => ?_)
      | (with_reducible refine ite2_keep (fun _ => ?_) fun _ => ?_) | (with_reducible refine when_keep ?_ ?_)
      | (with_reducible refine (foldl_keep _ (fun _ _ => ?_) _ _).trans ?_)
      | (with_reducible refine (foldl1_keep _ (fun _ _ => ?_) _ _).trans ?_)
      | (with_reducible refine (foldl2_keep _ (fun _ _ => ?_) _ _).trans ?_)
      | (with_reducible refine getD_keep (fun _ _ => ?_) ?_)
      | (simp only [↓State.modRun_keep, ↓State.faultAt_keep, ↓State.overRun_keep, ↓State.tick_keep]) | split
      | (simp_all; done)))

theorem execSparseRunDecode_keep :
    ∀ (g : Nat) (s : State) (t' : State), execSparseRunDecode g s = .next t' → t'.keep = s.keep := by
  intros; rename_i h; unfold execSparseRunDecode at h; (try dsimp only at h); (repeat' split at h)
  all_goals (first
      | refine next_keep ?_ h | refine onUnit_keep ?_ h | refine onSideband_keep (fun _ => ?_) h
      | refine onLink_keep (fun _ => ?_) h)
  all_goals (repeat' (first
      | (with_reducible rfl) | (simp only [keep_mk, keep_fold])
      | (with_reducible refine ite_keep (fun _ => ?_) fun _ => ?_)
      | (with_reducible refine ite1_keep (fun _ => ?_) fun _ => ?_)
      | (with_reducible refine ite2_keep (fun _ => ?_) fun _ => ?_) | (with_reducible refine when_keep ?_ ?_)
      | (with_reducible refine (foldl_keep _ (fun _ _ => ?_) _ _).trans ?_)
      | (with_reducible refine (foldl1_keep _ (fun _ _ => ?_) _ _).trans ?_)
      | (with_reducible refine (foldl2_keep _ (fun _ _ => ?_) _ _).trans ?_)
      | (with_reducible refine getD_keep (fun _ _ => ?_) ?_) | (simp only [↓State.setCh_keep, ↓State.tick_keep])
      | split | (simp_all; done)))

theorem execTbarrierRelease_keep :
    ∀ (link t : Nat) (s : State) (t' : State), execTbarrierRelease link t s = .next t' → t'.keep = s.keep := by
  intros; rename_i h; unfold execTbarrierRelease at h; (try dsimp only at h); (repeat' split at h)
  all_goals (first
      | refine next_keep ?_ h | refine onUnit_keep ?_ h | refine onSideband_keep (fun _ => ?_) h
      | refine onLink_keep (fun _ => ?_) h)
  all_goals (repeat' (first
      | (with_reducible rfl) | (simp only [keep_mk, keep_fold])
      | (with_reducible refine ite_keep (fun _ => ?_) fun _ => ?_)
      | (with_reducible refine ite1_keep (fun _ => ?_) fun _ => ?_)
      | (with_reducible refine ite2_keep (fun _ => ?_) fun _ => ?_) | (with_reducible refine when_keep ?_ ?_)
      | (with_reducible refine (foldl_keep _ (fun _ _ => ?_) _ _).trans ?_)
      | (with_reducible refine (foldl1_keep _ (fun _ _ => ?_) _ _).trans ?_)
      | (with_reducible refine (foldl2_keep _ (fun _ _ => ?_) _ _).trans ?_)
      | (with_reducible refine getD_keep (fun _ _ => ?_) ?_)
      | (simp only [↓State.setLink_keep, ↓State.releaseLate_keep, ↓State.putBuf_keep, ↓State.tick_keep]) | split
      | (simp_all; done)))

theorem execMessageTimeout_keep :
    ∀ (cl src tag t : Nat) (s : State) (t' : State), execMessageTimeout cl src tag t s = .next t' → t'.keep = s.keep := by
  intros; rename_i h; unfold execMessageTimeout at h; (try dsimp only at h); (repeat' split at h)
  all_goals (first
      | refine next_keep ?_ h | refine onUnit_keep ?_ h | refine onSideband_keep (fun _ => ?_) h
      | refine onLink_keep (fun _ => ?_) h)
  all_goals (repeat' (first
      | (with_reducible rfl) | (simp only [keep_mk, keep_fold])
      | (with_reducible refine ite_keep (fun _ => ?_) fun _ => ?_)
      | (with_reducible refine ite1_keep (fun _ => ?_) fun _ => ?_)
      | (with_reducible refine ite2_keep (fun _ => ?_) fun _ => ?_) | (with_reducible refine when_keep ?_ ?_)
      | (with_reducible refine (foldl_keep _ (fun _ _ => ?_) _ _).trans ?_)
      | (with_reducible refine (foldl1_keep _ (fun _ _ => ?_) _ _).trans ?_)
      | (with_reducible refine (foldl2_keep _ (fun _ _ => ?_) _ _).trans ?_)
      | (with_reducible refine getD_keep (fun _ _ => ?_) ?_) | (simp only [↓State.failMsg_keep, ↓State.tick_keep])
      | split | (simp_all; done)))

theorem execMessageEntryFree_keep :
    ∀ (cl src tag t : Nat) (s : State) (t' : State), execMessageEntryFree cl src tag t s = .next t' → t'.keep = s.keep := by
  intros; rename_i h; unfold execMessageEntryFree at h; (try dsimp only at h); (repeat' split at h)
  all_goals (first
      | refine next_keep ?_ h | refine onUnit_keep ?_ h | refine onSideband_keep (fun _ => ?_) h
      | refine onLink_keep (fun _ => ?_) h)
  all_goals (repeat' (first
      | (with_reducible rfl) | (simp only [keep_mk, keep_fold])
      | (with_reducible refine ite_keep (fun _ => ?_) fun _ => ?_)
      | (with_reducible refine ite1_keep (fun _ => ?_) fun _ => ?_)
      | (with_reducible refine ite2_keep (fun _ => ?_) fun _ => ?_) | (with_reducible refine when_keep ?_ ?_)
      | (with_reducible refine (foldl_keep _ (fun _ _ => ?_) _ _).trans ?_)
      | (with_reducible refine (foldl1_keep _ (fun _ _ => ?_) _ _).trans ?_)
      | (with_reducible refine (foldl2_keep _ (fun _ _ => ?_) _ _).trans ?_)
      | (with_reducible refine getD_keep (fun _ _ => ?_) ?_) | (simp only [↓State.tick_keep]) | split
      | (simp_all; done)))

theorem execPatrolScrub_keep :
    ∀ (granule upset : Nat) (s : State) (t' : State), execPatrolScrub granule upset s = .next t' → t'.keep = s.keep := by
  intros; rename_i h; unfold execPatrolScrub at h; (try dsimp only at h); (repeat' split at h)
  all_goals (first
      | refine next_keep ?_ h | refine onUnit_keep ?_ h | refine onSideband_keep (fun _ => ?_) h
      | refine onLink_keep (fun _ => ?_) h)
  all_goals (repeat' (first
      | (with_reducible rfl) | (simp only [keep_mk, keep_fold])
      | (with_reducible refine ite_keep (fun _ => ?_) fun _ => ?_)
      | (with_reducible refine ite1_keep (fun _ => ?_) fun _ => ?_)
      | (with_reducible refine ite2_keep (fun _ => ?_) fun _ => ?_) | (with_reducible refine when_keep ?_ ?_)
      | (with_reducible refine (foldl_keep _ (fun _ _ => ?_) _ _).trans ?_)
      | (with_reducible refine (foldl1_keep _ (fun _ _ => ?_) _ _).trans ?_)
      | (with_reducible refine (foldl2_keep _ (fun _ _ => ?_) _ _).trans ?_)
      | (with_reducible refine getD_keep (fun _ _ => ?_) ?_)
      | (simp only [↓State.eccUncorr_keep, ↓State.granError_keep, ↓State.tick_keep]) | split | (simp_all; done)))

theorem execSnapshotTakeDone_keep :
    ∀ (e t : Nat) (s : State) (t' : State), execSnapshotTakeDone e t s = .next t' → t'.keep = s.keep := by
  intros; rename_i h; unfold execSnapshotTakeDone at h; (try dsimp only at h); (repeat' split at h)
  all_goals (first
      | refine next_keep ?_ h | refine onUnit_keep ?_ h | refine onSideband_keep (fun _ => ?_) h
      | refine onLink_keep (fun _ => ?_) h)
  all_goals (repeat' (first
      | (with_reducible rfl) | (simp only [keep_mk, keep_fold])
      | (with_reducible refine ite_keep (fun _ => ?_) fun _ => ?_)
      | (with_reducible refine ite1_keep (fun _ => ?_) fun _ => ?_)
      | (with_reducible refine ite2_keep (fun _ => ?_) fun _ => ?_) | (with_reducible refine when_keep ?_ ?_)
      | (with_reducible refine (foldl_keep _ (fun _ _ => ?_) _ _).trans ?_)
      | (with_reducible refine (foldl1_keep _ (fun _ _ => ?_) _ _).trans ?_)
      | (with_reducible refine (foldl2_keep _ (fun _ _ => ?_) _ _).trans ?_)
      | (with_reducible refine getD_keep (fun _ _ => ?_) ?_)
      | (simp only [↓State.setReg_keep, ↓State.eccUncorr_keep, ↓State.endSnap_keep, ↓State.tick_keep]) | split
      | (simp_all; done)))

theorem execExportWriteResponse_keep :
    ∀ (t : Nat) (s : State) (t' : State), execExportWriteResponse t s = .next t' → t'.keep = s.keep := by
  intros; rename_i h; unfold execExportWriteResponse at h; (try dsimp only at h); (repeat' split at h)
  all_goals (first
      | refine next_keep ?_ h | refine onUnit_keep ?_ h | refine onSideband_keep (fun _ => ?_) h
      | refine onLink_keep (fun _ => ?_) h)
  all_goals (repeat' (first
      | (with_reducible rfl) | (simp only [keep_mk, keep_fold])
      | (with_reducible refine ite_keep (fun _ => ?_) fun _ => ?_)
      | (with_reducible refine ite1_keep (fun _ => ?_) fun _ => ?_)
      | (with_reducible refine ite2_keep (fun _ => ?_) fun _ => ?_) | (with_reducible refine when_keep ?_ ?_)
      | (with_reducible refine (foldl_keep _ (fun _ _ => ?_) _ _).trans ?_)
      | (with_reducible refine (foldl1_keep _ (fun _ _ => ?_) _ _).trans ?_)
      | (with_reducible refine (foldl2_keep _ (fun _ _ => ?_) _ _).trans ?_)
      | (with_reducible refine getD_keep (fun _ _ => ?_) ?_)
      | (with_reducible refine (State.mpPacket_keep _ _ _ (fun _ => ?_)).trans ?_)
      | (refine Eq.trans (State.takeMp_keep _ _ _ ‹_›) ?_)
      | (simp only [↓State.setSnap_keep, ↓State.endSnap_keep, ↓State.freeCode_keep, ↓State.exportPump_keep, ↓State.tick_keep])
      | split | (simp_all; done)))

theorem execMemwrResponse_keep :
    ∀ (cl t : Nat) (s : State) (t' : State), execMemwrResponse cl t s = .next t' → t'.keep = s.keep := by
  intros; rename_i h; unfold execMemwrResponse at h; (try dsimp only at h); (repeat' split at h)
  all_goals (first
      | refine next_keep ?_ h | refine onUnit_keep ?_ h | refine onSideband_keep (fun _ => ?_) h
      | refine onLink_keep (fun _ => ?_) h)
  all_goals (repeat' (first
      | (with_reducible rfl) | (simp only [keep_mk, keep_fold])
      | (with_reducible refine ite_keep (fun _ => ?_) fun _ => ?_)
      | (with_reducible refine ite1_keep (fun _ => ?_) fun _ => ?_)
      | (with_reducible refine ite2_keep (fun _ => ?_) fun _ => ?_) | (with_reducible refine when_keep ?_ ?_)
      | (with_reducible refine (foldl_keep _ (fun _ _ => ?_) _ _).trans ?_)
      | (with_reducible refine (foldl1_keep _ (fun _ _ => ?_) _ _).trans ?_)
      | (with_reducible refine (foldl2_keep _ (fun _ _ => ?_) _ _).trans ?_)
      | (with_reducible refine getD_keep (fun _ _ => ?_) ?_) | (refine Eq.trans (State.takeMem_keep _ _ _ _ ‹_›) ?_)
      | (simp only [↓State.landWrite_keep, ↓State.tick_keep]) | split | (simp_all; done)))

theorem execBlockTx_keep :
    ∀ (l : Nat) (parity : Option Nat) (t : Nat) (s : State) (t' : State), execBlockTx l parity t s = .next t' → t'.keep = s.keep := by
  intros; rename_i h; unfold execBlockTx at h; (try dsimp only at h); (repeat' split at h)
  all_goals (first
      | refine next_keep ?_ h | refine onUnit_keep ?_ h | refine onSideband_keep (fun _ => ?_) h
      | refine onLink_keep (fun _ => ?_) h)
  all_goals (repeat' (first
      | (with_reducible rfl) | (simp only [keep_mk, keep_fold])
      | (with_reducible refine ite_keep (fun _ => ?_) fun _ => ?_)
      | (with_reducible refine ite1_keep (fun _ => ?_) fun _ => ?_)
      | (with_reducible refine ite2_keep (fun _ => ?_) fun _ => ?_) | (with_reducible refine when_keep ?_ ?_)
      | (with_reducible refine (foldl_keep _ (fun _ _ => ?_) _ _).trans ?_)
      | (with_reducible refine (foldl1_keep _ (fun _ _ => ?_) _ _).trans ?_)
      | (with_reducible refine (foldl2_keep _ (fun _ _ => ?_) _ _).trans ?_)
      | (with_reducible refine getD_keep (fun _ _ => ?_) ?_)
      | (simp only [↓drainWait_keep, ↓State.blockTx_keep, ↓State.headerParity_keep, ↓State.tick_keep]) | split
      | (simp_all; done)))

theorem execBlockRx_keep :
    ∀ (l : Nat) (b : Block) (fec : FecReport) (t : Nat) (s : State) (t' : State), execBlockRx l b fec t s = .next t' → t'.keep = s.keep := by
  intros; rename_i h; unfold execBlockRx at h; (try dsimp only at h); (repeat' split at h)
  all_goals (first
      | refine next_keep ?_ h | refine onUnit_keep ?_ h | refine onSideband_keep (fun _ => ?_) h
      | refine onLink_keep (fun _ => ?_) h)
  all_goals (repeat' (first
      | (with_reducible rfl) | (simp only [keep_mk, keep_fold])
      | (with_reducible refine ite_keep (fun _ => ?_) fun _ => ?_)
      | (with_reducible refine ite1_keep (fun _ => ?_) fun _ => ?_)
      | (with_reducible refine ite2_keep (fun _ => ?_) fun _ => ?_) | (with_reducible refine when_keep ?_ ?_)
      | (with_reducible refine (foldl_keep _ (fun _ _ => ?_) _ _).trans ?_)
      | (with_reducible refine (foldl1_keep _ (fun _ _ => ?_) _ _).trans ?_)
      | (with_reducible refine (foldl2_keep _ (fun _ _ => ?_) _ _).trans ?_)
      | (with_reducible refine getD_keep (fun _ _ => ?_) ?_) | (simp only [↓State.blockRx_keep, ↓State.tick_keep])
      | split | (simp_all; done)))

theorem execReplayTimeout_keep :
    ∀ (l t : Nat) (s : State) (t' : State), execReplayTimeout l t s = .next t' → t'.keep = s.keep := by
  intros; rename_i h; unfold execReplayTimeout at h; (try dsimp only at h); (repeat' split at h)
  all_goals (first
      | refine next_keep ?_ h | refine onUnit_keep ?_ h | refine onSideband_keep (fun _ => ?_) h
      | refine onLink_keep (fun _ => ?_) h)
  all_goals (repeat' (first
      | (with_reducible rfl) | (simp only [keep_mk, keep_fold])
      | (with_reducible refine ite_keep (fun _ => ?_) fun _ => ?_)
      | (with_reducible refine ite1_keep (fun _ => ?_) fun _ => ?_)
      | (with_reducible refine ite2_keep (fun _ => ?_) fun _ => ?_) | (with_reducible refine when_keep ?_ ?_)
      | (with_reducible refine (foldl_keep _ (fun _ _ => ?_) _ _).trans ?_)
      | (with_reducible refine (foldl1_keep _ (fun _ _ => ?_) _ _).trans ?_)
      | (with_reducible refine (foldl2_keep _ (fun _ _ => ?_) _ _).trans ?_)
      | (with_reducible refine getD_keep (fun _ _ => ?_) ?_) | (simp only [↓State.startReplay_keep, ↓State.tick_keep])
      | split | (simp_all; done)))

theorem execNakRepeat_keep :
    ∀ (l t : Nat) (s : State) (t' : State), execNakRepeat l t s = .next t' → t'.keep = s.keep := by
  intros; rename_i h; unfold execNakRepeat at h; (try dsimp only at h); (repeat' split at h)
  all_goals (first
      | refine next_keep ?_ h | refine onUnit_keep ?_ h | refine onSideband_keep (fun _ => ?_) h
      | refine onLink_keep (fun _ => ?_) h)
  all_goals (repeat' (first
      | (with_reducible rfl) | (simp only [keep_mk, keep_fold])
      | (with_reducible refine ite_keep (fun _ => ?_) fun _ => ?_)
      | (with_reducible refine ite1_keep (fun _ => ?_) fun _ => ?_)
      | (with_reducible refine ite2_keep (fun _ => ?_) fun _ => ?_) | (with_reducible refine when_keep ?_ ?_)
      | (with_reducible refine (foldl_keep _ (fun _ _ => ?_) _ _).trans ?_)
      | (with_reducible refine (foldl1_keep _ (fun _ _ => ?_) _ _).trans ?_)
      | (with_reducible refine (foldl2_keep _ (fun _ _ => ?_) _ _).trans ?_)
      | (with_reducible refine getD_keep (fun _ _ => ?_) ?_) | (simp only [↓State.askReplay_keep, ↓State.tick_keep])
      | split | (simp_all; done)))

theorem execLaneFail_keep :
    ∀ (l : Nat) (x : LaneReport) (t : Nat) (s : State) (t' : State), execLaneFail l x t s = .next t' → t'.keep = s.keep := by
  intros; rename_i h; unfold execLaneFail at h; (try dsimp only at h); (repeat' split at h)
  all_goals (first
      | refine next_keep ?_ h | refine onUnit_keep ?_ h | refine onSideband_keep (fun _ => ?_) h
      | refine onLink_keep (fun _ => ?_) h)
  all_goals (repeat' (first
      | (with_reducible rfl) | (simp only [keep_mk, keep_fold])
      | (with_reducible refine ite_keep (fun _ => ?_) fun _ => ?_)
      | (with_reducible refine ite1_keep (fun _ => ?_) fun _ => ?_)
      | (with_reducible refine ite2_keep (fun _ => ?_) fun _ => ?_) | (with_reducible refine when_keep ?_ ?_)
      | (with_reducible refine (foldl_keep _ (fun _ _ => ?_) _ _).trans ?_)
      | (with_reducible refine (foldl1_keep _ (fun _ _ => ?_) _ _).trans ?_)
      | (with_reducible refine (foldl2_keep _ (fun _ _ => ?_) _ _).trans ?_)
      | (with_reducible refine getD_keep (fun _ _ => ?_) ?_) | (simp only [↓State.laneFailed_keep, ↓State.tick_keep])
      | split | (simp_all; done)))

theorem execDegradeRepeat_keep :
    ∀ (l t : Nat) (s : State) (t' : State), execDegradeRepeat l t s = .next t' → t'.keep = s.keep := by
  intros; rename_i h; unfold execDegradeRepeat at h; (try dsimp only at h); (repeat' split at h)
  all_goals (first
      | refine next_keep ?_ h | refine onUnit_keep ?_ h | refine onSideband_keep (fun _ => ?_) h
      | refine onLink_keep (fun _ => ?_) h)
  all_goals (repeat' (first
      | (with_reducible rfl) | (simp only [keep_mk, keep_fold])
      | (with_reducible refine ite_keep (fun _ => ?_) fun _ => ?_)
      | (with_reducible refine ite1_keep (fun _ => ?_) fun _ => ?_)
      | (with_reducible refine ite2_keep (fun _ => ?_) fun _ => ?_) | (with_reducible refine when_keep ?_ ?_)
      | (with_reducible refine (foldl_keep _ (fun _ _ => ?_) _ _).trans ?_)
      | (with_reducible refine (foldl1_keep _ (fun _ _ => ?_) _ _).trans ?_)
      | (with_reducible refine (foldl2_keep _ (fun _ _ => ?_) _ _).trans ?_)
      | (with_reducible refine getD_keep (fun _ _ => ?_) ?_) | (simp only [↓State.askDegrade_keep, ↓State.tick_keep])
      | split | (simp_all; done)))

theorem execDegradeTimeout_keep :
    ∀ (l t : Nat) (s : State) (t' : State), execDegradeTimeout l t s = .next t' → t'.keep = s.keep := by
  intros; rename_i h; unfold execDegradeTimeout at h; (try dsimp only at h); (repeat' split at h)
  all_goals (first
      | refine next_keep ?_ h | refine onUnit_keep ?_ h | refine onSideband_keep (fun _ => ?_) h
      | refine onLink_keep (fun _ => ?_) h)
  all_goals (repeat' (first
      | (with_reducible rfl) | (simp only [keep_mk, keep_fold])
      | (with_reducible refine ite_keep (fun _ => ?_) fun _ => ?_)
      | (with_reducible refine ite1_keep (fun _ => ?_) fun _ => ?_)
      | (with_reducible refine ite2_keep (fun _ => ?_) fun _ => ?_) | (with_reducible refine when_keep ?_ ?_)
      | (with_reducible refine (foldl_keep _ (fun _ _ => ?_) _ _).trans ?_)
      | (with_reducible refine (foldl1_keep _ (fun _ _ => ?_) _ _).trans ?_)
      | (with_reducible refine (foldl2_keep _ (fun _ _ => ?_) _ _).trans ?_)
      | (with_reducible refine getD_keep (fun _ _ => ?_) ?_)
      | (simp only [↓State.enterRetrain_keep, ↓State.tick_keep]) | split | (simp_all; done)))

theorem execRetrainDone_keep :
    ∀ (l : Nat) (x : Retrained) (ack t : Nat) (s : State) (t' : State), execRetrainDone l x ack t s = .next t' → t'.keep = s.keep := by
  intros; rename_i h; unfold execRetrainDone at h; (try dsimp only at h); (repeat' split at h)
  all_goals (first
      | refine next_keep ?_ h | refine onUnit_keep ?_ h | refine onSideband_keep (fun _ => ?_) h
      | refine onLink_keep (fun _ => ?_) h)
  all_goals (repeat' (first
      | (with_reducible rfl) | (simp only [keep_mk, keep_fold])
      | (with_reducible refine ite_keep (fun _ => ?_) fun _ => ?_)
      | (with_reducible refine ite1_keep (fun _ => ?_) fun _ => ?_)
      | (with_reducible refine ite2_keep (fun _ => ?_) fun _ => ?_) | (with_reducible refine when_keep ?_ ?_)
      | (with_reducible refine (foldl_keep _ (fun _ _ => ?_) _ _).trans ?_)
      | (with_reducible refine (foldl1_keep _ (fun _ _ => ?_) _ _).trans ?_)
      | (with_reducible refine (foldl2_keep _ (fun _ _ => ?_) _ _).trans ?_)
      | (with_reducible refine getD_keep (fun _ _ => ?_) ?_)
      | (simp only [↓State.setLink_keep, ↓State.toState_keep, ↓State.linkEvent_keep, ↓State.linkDown_keep, ↓State.ackRx_keep, ↓State.tick_keep])
      | split | (simp_all; done)))

theorem execSignalDetect_keep :
    ∀ (l t : Nat) (s : State) (t' : State), execSignalDetect l t s = .next t' → t'.keep = s.keep := by
  intros; rename_i h; exact onLink_keep (fun _ => by simp only [↓State.toState_keep, ↓State.tick_keep]) h

theorem execEqualiseDone_keep :
    ∀ (l good t : Nat) (s : State) (t' : State), execEqualiseDone l good t s = .next t' → t'.keep = s.keep := by
  intros; rename_i h; exact onLink_keep (fun _ => by simp only [↓State.judgeLanes_keep, ↓State.tick_keep]) h

theorem execEqualiseTimeout_keep :
    ∀ (l good t : Nat) (s : State) (t' : State), execEqualiseTimeout l good t s = .next t' → t'.keep = s.keep := by
  intros; rename_i h; exact onLink_keep (fun _ => by simp only [↓State.judgeLanes_keep, ↓State.tick_keep]) h

theorem execFecLockDone_keep :
    ∀ (l : Nat) (x : LanesLocked) (t : Nat) (s : State) (t' : State), execFecLockDone l x t s = .next t' → t'.keep = s.keep := by
  intros; rename_i h; unfold execFecLockDone at h; (try dsimp only at h); refine onLink_keep (fun _ => ?_) h
  repeat' (first
      | (with_reducible rfl) | (simp only [keep_mk, keep_fold])
      | (with_reducible refine ite_keep (fun _ => ?_) fun _ => ?_)
      | (simp only [↓State.queueTsync_keep, ↓State.linkDown_keep, ↓State.sendHello_keep, ↓State.judgeLanes_keep, ↓State.tick_keep])
      | split | (simp_all; done))

theorem execFecLockTimeout_keep :
    ∀ (l t : Nat) (s : State) (t' : State), execFecLockTimeout l t s = .next t' → t'.keep = s.keep := by
  intros; rename_i h; exact onLink_keep (fun _ => by simp only [↓State.linkDown_keep, ↓State.tick_keep]) h

theorem execDiscoverTimeout_keep :
    ∀ (l t : Nat) (s : State) (t' : State), execDiscoverTimeout l t s = .next t' → t'.keep = s.keep := by
  intros; rename_i h; exact onLink_keep (fun _ => by simp only [↓State.linkDown_keep, ↓State.tick_keep]) h

theorem execInitTimeout_keep :
    ∀ (l t : Nat) (s : State) (t' : State), execInitTimeout l t s = .next t' → t'.keep = s.keep := by
  intros; rename_i h; exact onLink_keep (fun _ => by simp only [↓State.linkDown_keep, ↓State.tick_keep]) h

theorem execLinkRestart_keep :
    ∀ (l t : Nat) (s : State) (t' : State), execLinkRestart l t s = .next t' → t'.keep = s.keep := by
  intros; rename_i h; exact onLink_keep (fun _ => by simp only [↓State.startLink_keep, ↓State.tick_keep]) h

theorem execStoppingAbortTimeout_keep :
    ∀ (l t : Nat) (s : State) (t' : State), execStoppingAbortTimeout l t s = .next t' → t'.keep = s.keep := by
  intros; rename_i h; unfold execStoppingAbortTimeout at h; (try dsimp only at h); refine onLink_keep (fun _ => ?_) h
  repeat' (first
      | (with_reducible rfl) | (simp only [keep_mk, keep_fold])
      | (with_reducible refine (foldl_keep _ (fun _ _ => ?_) _ _).trans ?_)
      | (simp only [↓State.abortChan_keep, ↓State.tick_keep]) | split | (simp_all; done))

theorem execStoppingDone_keep :
    ∀ (l t : Nat) (s : State) (t' : State), execStoppingDone l t s = .next t' → t'.keep = s.keep := by
  intros; rename_i h; exact onLink_keep (fun _ => by simp only [↓State.linkOff_keep, ↓State.tick_keep]) h

theorem execHelloRepeat_keep :
    ∀ (l t : Nat) (s : State) (t' : State), execHelloRepeat l t s = .next t' → t'.keep = s.keep := by
  intros; rename_i h; unfold execHelloRepeat at h; (try dsimp only at h); refine onLink_keep (fun _ => ?_) h
  repeat' (first
      | (with_reducible rfl) | (simp only [keep_mk, keep_fold])
      | (with_reducible refine ite_keep (fun _ => ?_) fun _ => ?_)
      | (simp only [↓State.queueTsync_keep, ↓State.sendHello_keep, ↓State.tick_keep]) | split | (simp_all; done))

theorem execTsyncSend_keep :
    ∀ (l t : Nat) (s : State) (t' : State), execTsyncSend l t s = .next t' → t'.keep = s.keep := by
  intros; rename_i h; unfold execTsyncSend at h; (try dsimp only at h); refine onUnit_keep ?_ h
  repeat' (first
      | (with_reducible rfl) | (simp only [keep_mk, keep_fold]) | (with_reducible refine when_keep ?_ ?_)
      | (simp only [↓State.trailTsyncTick_keep, ↓State.queueTsync_keep, ↓State.tick_keep]) | split | (simp_all; done))

theorem execDigestHeartbeat_keep :
    ∀ (t : Nat) (s : State) (t' : State), execDigestHeartbeat t s = .next t' → t'.keep = s.keep := by
  intros; rename_i h; unfold execDigestHeartbeat at h; (try dsimp only at h); refine next_keep ?_ h
  repeat' (first
      | (with_reducible rfl) | (simp only [keep_mk, keep_fold]) | (with_reducible refine when_keep ?_ ?_)
      | (with_reducible refine (foldl_keep _ (fun _ _ => ?_) _ _).trans ?_)
      | (simp only [↓State.setLink_keep, ↓State.trailCast_keep, ↓State.tick_keep]) | split | (simp_all; done))

theorem execDigestMissing_keep :
    ∀ (l t : Nat) (s : State) (t' : State), execDigestMissing l t s = .next t' → t'.keep = s.keep := by
  intros; rename_i h; exact onLink_keep (fun _ => by simp only [↓State.count_keep, ↓State.setLink_keep, ↓State.event_keep, ↓State.tick_keep]) h

theorem execReplayAgeTimeout_keep :
    ∀ (l t : Nat) (s : State) (t' : State), execReplayAgeTimeout l t s = .next t' → t'.keep = s.keep := by
  intros; rename_i h; exact onLink_keep (fun _ => by simp only [↓State.linkDown_keep, ↓State.tick_keep]) h

theorem execNeighbourMissingTimeout_keep :
    ∀ (l t : Nat) (s : State) (t' : State), execNeighbourMissingTimeout l t s = .next t' → t'.keep = s.keep := by
  intros; rename_i h; unfold execNeighbourMissingTimeout at h; (try dsimp only at h); refine onLink_keep (fun _ => ?_) h
  repeat' (first
      | (with_reducible rfl) | (simp only [keep_mk, keep_fold])
      | (with_reducible refine ite_keep (fun _ => ?_) fun _ => ?_)
      | (simp only [↓State.setLink_keep, ↓State.setDisc_keep, ↓State.tick_keep]) | split | (simp_all; done))

theorem execPacketIngress_keep :
    ∀ (l v : Nat) (parity : Bool) (t : Nat) (s : State) (t' : State), execPacketIngress l v parity t s = .next t' → t'.keep = s.keep := by
  intros; rename_i h; unfold execPacketIngress at h; (try dsimp only at h); refine onUnit_keep ?_ h
  repeat' (first
      | (with_reducible rfl) | (simp only [keep_mk, keep_fold])
      | (with_reducible refine ite_keep (fun _ => ?_) fun _ => ?_)
      | (simp only [↓State.setLink_keep, ↓State.ingressWhole_keep, ↓State.parityDrop_keep, ↓State.ingressHead_keep, ↓State.tick_keep])
      | split | (simp_all; done))

theorem execPacketAgeTimeout_keep :
    ∀ (id t : Nat) (s : State) (t' : State), execPacketAgeTimeout id t s = .next t' → t'.keep = s.keep := by
  intros; rename_i h; unfold execPacketAgeTimeout at h; (try dsimp only at h); refine next_keep ?_ h
  repeat' (first
      | (with_reducible rfl) | (simp only [keep_mk, keep_fold])
      | (with_reducible refine (foldl_keep _ (fun _ _ => ?_) _ _).trans ?_)
      | (simp only [↓drainWait_keep, ↓State.ageChan_keep, ↓State.ageBuf_keep, ↓State.tick_keep]) | split
      | (simp_all; done))

theorem execRouteSetDiscard_keep :
    ∀ (t : Nat) (s : State) (t' : State), execRouteSetDiscard t s = .next t' → t'.keep = s.keep := by
  intros; rename_i h; unfold execRouteSetDiscard at h; (try dsimp only at h); refine next_keep ?_ h
  repeat' (first
      | (with_reducible rfl) | (simp only [keep_mk, keep_fold]) | (simp only [↓State.tick_keep]) | split
      | (simp_all; done))

theorem execOutputArbitration_keep :
    ∀ (l v t : Nat) (s : State) (t' : State), execOutputArbitration l v t s = .next t' → t'.keep = s.keep := by
  intros; rename_i h; unfold execOutputArbitration at h; (try dsimp only at h); refine onUnit_keep ?_ h
  repeat' (first
      | (with_reducible rfl) | (simp only [keep_mk, keep_fold])
      | (with_reducible refine ite_keep (fun _ => ?_) fun _ => ?_)
      | (with_reducible refine getD_keep (fun _ _ => ?_) ?_)
      | (simp only [↓State.dropVc_keep, ↓State.flushLink_keep, ↓drainWait_keep, ↓fillPre_keep, ↓State.arbitrate_keep, ↓State.tick_keep])
      | split | (simp_all; done))

theorem execHoldCut_keep :
    ∀ (l v cycles t : Nat) (s : State) (t' : State), execHoldCut l v cycles t s = .next t' → t'.keep = s.keep := by
  intros; rename_i h; unfold execHoldCut at h; (try dsimp only at h); refine onUnit_keep ?_ h
  repeat' (first
      | (with_reducible rfl) | (simp only [keep_mk, keep_fold])
      | (with_reducible refine ite_keep (fun _ => ?_) fun _ => ?_)
      | (simp only [↓State.count_keep, ↓State.health_keep, ↓State.endCopy_keep, ↓State.event_keep, ↓drainWait_keep, ↓State.arbitrate_keep, ↓State.tick_keep])
      | split | (simp_all; done))

theorem execStarve_keep :
    ∀ (l v id t : Nat) (s : State) (t' : State), execStarve l v id t s = .next t' → t'.keep = s.keep := by
  intros; rename_i h; unfold execStarve at h; (try dsimp only at h); refine onUnit_keep ?_ h
  repeat' (first
      | (with_reducible rfl) | (simp only [keep_mk, keep_fold])
      | (with_reducible refine ite_keep (fun _ => ?_) fun _ => ?_)
      | (simp only [↓State.count_keep, ↓State.setChan_keep, ↓State.setBufPkt_keep, ↓State.event_keep, ↓State.tick_keep])
      | split | (simp_all; done))

theorem execShaperRefill_keep :
    ∀ (t : Nat) (s : State) (t' : State), execShaperRefill t s = .next t' → t'.keep = s.keep := by
  intros; rename_i h; unfold execShaperRefill at h; (try dsimp only at h); refine next_keep ?_ h
  repeat' (first
      | (with_reducible rfl) | (simp only [keep_mk, keep_fold])
      | (with_reducible refine ite_keep (fun _ => ?_) fun _ => ?_) | (with_reducible refine when_keep ?_ ?_)
      | (with_reducible refine (foldl_keep _ (fun _ _ => ?_) _ _).trans ?_)
      | (simp only [↓State.tick_keep, ↓State.refill_keep]) | split | (simp_all; done))

theorem execGateTakeover_keep :
    ∀ (l t : Nat) (s : State) (t' : State), execGateTakeover l t s = .next t' → t'.keep = s.keep := by
  intros; rename_i h; unfold execGateTakeover at h; (try dsimp only at h); refine onUnit_keep ?_ h
  repeat' (first
      | (with_reducible rfl) | (simp only [keep_mk, keep_fold])
      | (with_reducible refine ite_keep (fun _ => ?_) fun _ => ?_)
      | (simp only [↓State.setGate_keep, ↓State.tick_keep]) | split | (simp_all; done))

theorem execQuRefresh_keep :
    ∀ (d : Nat) (s : State) (t' : State), execQuRefresh d s = .next t' → t'.keep = s.keep := by
  intros; rename_i h; unfold execQuRefresh at h; (try dsimp only at h); refine onUnit_keep ?_ h
  repeat' (first
      | (with_reducible rfl) | (simp only [keep_mk, keep_fold])
      | (with_reducible refine (foldl_keep _ (fun _ _ => ?_) _ _).trans ?_) | (simp only [↓State.tick_keep]) | split
      | (simp_all; done))

theorem execCmapTake_keep : ∀ (t : Nat) (s : State) (t' : State), execCmapTake t s = .next t' → t'.keep = s.keep := by
  intros; rename_i h; unfold execCmapTake at h; (try dsimp only at h); (repeat' split at h)
  all_goals (first
      | refine next_keep ?_ h | refine onUnit_keep ?_ h | refine onSideband_keep (fun _ => ?_) h
      | refine onLink_keep (fun _ => ?_) h)
  all_goals (repeat' (first
      | (with_reducible rfl) | (simp only [keep_mk, keep_fold])
      | (with_reducible refine ite_keep (fun _ => ?_) fun _ => ?_)
      | (with_reducible refine ite1_keep (fun _ => ?_) fun _ => ?_)
      | (with_reducible refine ite2_keep (fun _ => ?_) fun _ => ?_) | (with_reducible refine when_keep ?_ ?_)
      | (with_reducible refine (foldl_keep _ (fun _ _ => ?_) _ _).trans ?_)
      | (with_reducible refine (foldl1_keep _ (fun _ _ => ?_) _ _).trans ?_)
      | (with_reducible refine (foldl2_keep _ (fun _ _ => ?_) _ _).trans ?_)
      | (with_reducible refine getD_keep (fun _ _ => ?_) ?_)
      | (simp only [↓State.count_keep, ↓State.fromMp_keep, ↓State.complete_keep, ↓drainWait_keep, ↓State.telemOff_keep, ↓State.tick_keep])
      | split | (simp_all; done)))

theorem execHoldoverEntry_keep :
    ∀ (t : Nat) (s : State) (t' : State), execHoldoverEntry t s = .next t' → t'.keep = s.keep := by
  intros; rename_i h; unfold execHoldoverEntry at h; (try dsimp only at h); refine next_keep ?_ h
  repeat' (first
      | (with_reducible rfl) | (simp only [keep_mk, keep_fold]) | (with_reducible refine when_keep ?_ ?_)
      | (simp only [↓State.enterTime_keep, ↓State.tick_keep]) | split | (simp_all; done))

theorem execHoldoverExpiry_keep :
    ∀ (t : Nat) (s : State) (t' : State), execHoldoverExpiry t s = .next t' → t'.keep = s.keep := by
  intros; rename_i h; unfold execHoldoverExpiry at h; (try dsimp only at h); refine next_keep ?_ h
  repeat' (first
      | (with_reducible rfl) | (simp only [keep_mk, keep_fold]) | (with_reducible refine when_keep ?_ ?_)
      | (simp only [↓State.enterTime_keep, ↓State.tick_keep]) | split | (simp_all; done))

theorem execDigestEntryTimeout_keep :
    ∀ (slot inst t : Nat) (s : State) (t' : State), execDigestEntryTimeout slot inst t s = .next t' → t'.keep = s.keep := by
  intros; rename_i h; unfold execDigestEntryTimeout at h; (try dsimp only at h); refine next_keep ?_ h
  repeat' (first
      | (with_reducible rfl) | (simp only [keep_mk, keep_fold]) | (with_reducible refine when_keep ?_ ?_)
      | (simp only [↓State.closeDigest_keep, ↓State.tick_keep]) | split | (simp_all; done))

theorem execHealthDecay_keep :
    ∀ (t : Nat) (s : State) (t' : State), execHealthDecay t s = .next t' → t'.keep = s.keep := by
  intros; rename_i h; unfold execHealthDecay at h; (try dsimp only at h); refine next_keep ?_ h
  repeat' (first
      | (with_reducible rfl) | (simp only [keep_mk, keep_fold]) | (with_reducible refine when_keep ?_ ?_)
      | (simp only [↓State.tick_keep]) | split | (simp_all; done))

theorem execShadowActivation_keep :
    ∀ (t : Nat) (s : State) (t' : State), execShadowActivation t s = .next t' → t'.keep = s.keep := by
  intros; rename_i h; unfold execShadowActivation at h; (try dsimp only at h); refine next_keep ?_ h
  repeat' (first
      | (with_reducible rfl) | (simp only [keep_mk, keep_fold])
      | (with_reducible refine ite_keep (fun _ => ?_) fun _ => ?_)
      | (simp only [↓State.complete_keep, ↓State.tick_keep]) | split | (simp_all; done))

theorem execShadowImageTimeout_keep :
    ∀ (t : Nat) (s : State) (t' : State), execShadowImageTimeout t s = .next t' → t'.keep = s.keep := by
  intros; rename_i h; unfold execShadowImageTimeout at h; (try dsimp only at h); refine next_keep ?_ h
  repeat' (first
      | (with_reducible rfl) | (simp only [keep_mk, keep_fold]) | (with_reducible refine when_keep ?_ ?_)
      | (simp only [↓State.fawnOff_keep, ↓State.tick_keep]) | split | (simp_all; done))

theorem execShadowNotice_keep :
    ∀ (t : Nat) (s : State) (t' : State), execShadowNotice t s = .next t' → t'.keep = s.keep := by
  intros; rename_i h; unfold execShadowNotice at h; (try dsimp only at h); refine next_keep ?_ h
  repeat' (first
      | (with_reducible rfl) | (simp only [keep_mk, keep_fold])
      | (with_reducible refine ite_keep (fun _ => ?_) fun _ => ?_)
      | (simp only [↓State.sendNotice_keep, ↓State.announce_keep, ↓State.tick_keep]) | split | (simp_all; done))

theorem execShadowRotate_keep :
    ∀ (t : Nat) (s : State) (t' : State), execShadowRotate t s = .next t' → t'.keep = s.keep := by
  intros; rename_i h; unfold execShadowRotate at h; (try dsimp only at h); refine next_keep ?_ h
  repeat' (first
      | (with_reducible rfl) | (simp only [keep_mk, keep_fold])
      | (with_reducible refine ite_keep (fun _ => ?_) fun _ => ?_)
      | (simp only [↓State.beginTarget_keep, ↓State.tick_keep]) | split | (simp_all; done))

theorem execShadowCompareTimeout_keep :
    ∀ (cid inst pepoch t : Nat) (s : State) (t' : State), execShadowCompareTimeout cid inst pepoch t s = .next t' → t'.keep = s.keep := by
  intros; rename_i h; unfold execShadowCompareTimeout at h; (try dsimp only at h); refine next_keep ?_ h
  repeat' (first
      | (with_reducible rfl) | (simp only [keep_mk, keep_fold])
      | (with_reducible refine ite_keep (fun _ => ?_) fun _ => ?_)
      | (simp only [↓State.countN_keep, ↓State.tick_keep]) | split | (simp_all; done))

theorem execPlanReadResend_keep :
    ∀ (off t : Nat) (s : State) (t' : State), execPlanReadResend off t s = .next t' → t'.keep = s.keep := by
  intros; rename_i h; unfold execPlanReadResend at h; (try dsimp only at h); refine next_keep ?_ h
  repeat' (first
      | (with_reducible rfl) | (simp only [keep_mk, keep_fold])
      | (with_reducible refine ite_keep (fun _ => ?_) fun _ => ?_)
      | (simp only [↓State.planReadSend_keep, ↓State.fawnOff_keep, ↓State.tick_keep]) | split | (simp_all; done))

theorem execFusedQueryResend_keep :
    ∀ (t : Nat) (s : State) (t' : State), execFusedQueryResend t s = .next t' → t'.keep = s.keep := by
  intros; rename_i h; unfold execFusedQueryResend at h; (try dsimp only at h); refine next_keep ?_ h
  repeat' (first
      | (with_reducible rfl) | (simp only [keep_mk, keep_fold])
      | (with_reducible refine ite_keep (fun _ => ?_) fun _ => ?_)
      | (simp only [↓State.sendImage_keep, ↓State.fawnOff_keep, ↓State.tick_keep]) | split | (simp_all; done))

theorem execRestoreReadResend_keep :
    ∀ (tag t : Nat) (s : State) (t' : State), execRestoreReadResend tag t s = .next t' → t'.keep = s.keep := by
  intros; rename_i h; unfold execRestoreReadResend at h; (try dsimp only at h); refine next_keep ?_ h
  repeat' (first
      | (with_reducible rfl) | (simp only [keep_mk, keep_fold])
      | (with_reducible refine ite_keep (fun _ => ?_) fun _ => ?_)
      | (simp only [↓State.mpRead_keep, ↓State.tick_keep]) | split | (simp_all; done))

theorem execArmPoint_keep : ∀ (t : Nat) (s : State) (t' : State), execArmPoint t s = .next t' → t'.keep = s.keep := by
  intros; rename_i h; exact next_keep (by simp only [↓State.armPoint_keep, ↓State.tick_keep]) h

theorem execOverlapEnd_keep :
    ∀ (t : Nat) (s : State) (t' : State), execOverlapEnd t s = .next t' → t'.keep = s.keep := by
  intros; rename_i h; unfold execOverlapEnd at h; (try dsimp only at h); refine next_keep ?_ h
  repeat' (first
      | (with_reducible rfl) | (simp only [keep_mk, keep_fold])
      | (with_reducible refine ite_keep (fun _ => ?_) fun _ => ?_)
      | (simp only [↓State.pruneOld_keep, ↓State.tick_keep]) | split | (simp_all; done))

theorem execStageReadResponse_keep :
    ∀ (t : Nat) (s : State) (t' : State), execStageReadResponse t s = .next t' → t'.keep = s.keep := by
  intros; rename_i h; unfold execStageReadResponse at h; (try dsimp only at h); refine next_keep ?_ h
  repeat' (first
      | (with_reducible rfl) | (simp only [keep_mk, keep_fold])
      | (with_reducible refine ite_keep (fun _ => ?_) fun _ => ?_)
      | (with_reducible refine (State.mpPacket_keep _ _ _ (fun _ => ?_)).trans ?_)
      | (refine Eq.trans (State.takeMp_keep _ _ _ ‹_›) ?_)
      | (simp only [↓State.setStage_keep, ↓State.endStage_keep, ↓State.stagePump_keep, ↓State.tick_keep]) | split
      | (simp_all; done))

theorem execStageReadResend_keep :
    ∀ (tag t : Nat) (s : State) (t' : State), execStageReadResend tag t s = .next t' → t'.keep = s.keep := by
  intros; rename_i h; unfold execStageReadResend at h; (try dsimp only at h); refine next_keep ?_ h
  repeat' (first
      | (with_reducible rfl) | (simp only [keep_mk, keep_fold])
      | (with_reducible refine ite_keep (fun _ => ?_) fun _ => ?_)
      | (simp only [↓State.setStage_keep, ↓State.endStage_keep, ↓State.mpRead_keep, ↓State.tick_keep, ↓State.stageDue_keep])
      | split | (simp_all; done))

theorem execStageComplete_keep :
    ∀ (t : Nat) (s : State) (t' : State), execStageComplete t s = .next t' → t'.keep = s.keep := by
  intros; rename_i h; unfold execStageComplete at h; (try dsimp only at h); refine next_keep ?_ h
  repeat' (first
      | (with_reducible rfl) | (simp only [keep_mk, keep_fold])
      | (with_reducible refine ite_keep (fun _ => ?_) fun _ => ?_)
      | (simp only [↓State.complete_keep, ↓State.tick_keep]) | split | (simp_all; done))

theorem execPartStarted_keep :
    ∀ (p t : Nat) (s : State) (t' : State), execPartStarted p t s = .next t' → t'.keep = s.keep := by
  intros; rename_i h; unfold execPartStarted at h; (try dsimp only at h); refine onUnit_keep ?_ h
  repeat' (first
      | (with_reducible rfl) | (simp only [keep_mk, keep_fold])
      | (with_reducible refine ite_keep (fun _ => ?_) fun _ => ?_)
      | (simp only [↓State.complete_keep, ↓State.setPart_keep, ↓State.tick_keep]) | split | (simp_all; done))

theorem execPartStopped_keep :
    ∀ (p t : Nat) (s : State) (t' : State), execPartStopped p t s = .next t' → t'.keep = s.keep := by
  intros; rename_i h; unfold execPartStopped at h; (try dsimp only at h); refine onUnit_keep ?_ h
  repeat' (first
      | (with_reducible rfl) | (simp only [keep_mk, keep_fold]) | (with_reducible refine when_keep ?_ ?_)
      | (simp only [↓State.partOff_keep, ↓State.tick_keep]) | split | (simp_all; done))

theorem execClusterStarted_keep :
    ∀ (cl t : Nat) (s : State) (t' : State), execClusterStarted cl t s = .next t' → t'.keep = s.keep := by
  intros; rename_i h; unfold execClusterStarted at h; (try dsimp only at h); refine onUnit_keep ?_ h
  repeat' (first
      | (with_reducible rfl) | (simp only [keep_mk, keep_fold])
      | (with_reducible refine ite_keep (fun _ => ?_) fun _ => ?_)
      | (simp only [↓State.complete_keep, ↓State.setCluster_keep, ↓State.tick_keep]) | split | (simp_all; done))

theorem execClusterStopped_keep :
    ∀ (cl t : Nat) (s : State) (t' : State), execClusterStopped cl t s = .next t' → t'.keep = s.keep := by
  intros; rename_i h; unfold execClusterStopped at h; (try dsimp only at h); refine onUnit_keep ?_ h
  repeat' (first
      | (with_reducible rfl) | (simp only [keep_mk, keep_fold]) | (with_reducible refine when_keep ?_ ?_)
      | (simp only [↓State.setCluster_keep, ↓Fn.doneOff_keep, ↓State.tick_keep]) | split | (simp_all; done))

theorem execShadowStopped_keep :
    ∀ (t : Nat) (s : State) (t' : State), execShadowStopped t s = .next t' → t'.keep = s.keep := by
  intros; rename_i h; unfold execShadowStopped at h; (try dsimp only at h); refine next_keep ?_ h
  repeat' (first
      | (with_reducible rfl) | (simp only [keep_mk, keep_fold]) | (with_reducible refine when_keep ?_ ?_)
      | (simp only [↓State.fawnOff_keep, ↓State.tick_keep]) | split | (simp_all; done))

theorem execMbwr_keep : ∀ (t : Nat) (s : State) (t' : State), execMbwr t s = .next t' → t'.keep = s.keep := by
  intros; rename_i h; unfold execMbwr at h; (try dsimp only at h); refine next_keep ?_ h
  repeat' (first
      | (with_reducible rfl) | (simp only [keep_mk, keep_fold])
      | (with_reducible refine ite_keep (fun _ => ?_) fun _ => ?_)
      | (with_reducible refine (State.mpPacket_keep _ _ _ (fun _ => ?_)).trans ?_)
      | (refine Eq.trans (State.takeMp_keep _ _ _ ‹_›) ?_) | (simp only [↓State.tick_keep, ↓State.mbwr_keep]) | split
      | (simp_all; done))

theorem execMbrd_keep : ∀ (t : Nat) (s : State) (t' : State), execMbrd t s = .next t' → t'.keep = s.keep := by
  intros; rename_i h; unfold execMbrd at h; (try dsimp only at h); refine next_keep ?_ h
  repeat' (first
      | (with_reducible rfl) | (simp only [keep_mk, keep_fold])
      | (with_reducible refine ite_keep (fun _ => ?_) fun _ => ?_)
      | (with_reducible refine (State.mpPacket_keep _ _ _ (fun _ => ?_)).trans ?_)
      | (refine Eq.trans (State.takeMp_keep _ _ _ ‹_›) ?_) | (simp only [↓State.mbrd_keep, ↓State.tick_keep]) | split
      | (simp_all; done))

theorem execPlanStage_keep :
    ∀ (m t : Nat) (s : State) (t' : State), execPlanStage m t s = .next t' → t'.keep = s.keep := by
  intros; rename_i h; unfold execPlanStage at h; (try dsimp only at h); refine onUnit_keep ?_ h
  repeat' (first
      | (with_reducible rfl) | (simp only [keep_mk, keep_fold])
      | (with_reducible refine (State.command_keep _ _ _ _ (fun _ _ => ?_)).trans ?_)
      | (simp only [↓planStage_keep, ↓State.tick_keep]) | split | (simp_all; done))

theorem execPlanAbort_keep :
    ∀ (m t : Nat) (s : State) (t' : State), execPlanAbort m t s = .next t' → t'.keep = s.keep := by
  intros; rename_i h; unfold execPlanAbort at h; (try dsimp only at h); refine onUnit_keep ?_ h
  repeat' (first
      | (with_reducible rfl) | (simp only [keep_mk, keep_fold])
      | (with_reducible refine (State.command_keep _ _ _ _ (fun _ _ => ?_)).trans ?_)
      | (simp only [↓planAbort_keep, ↓State.tick_keep]) | split | (simp_all; done))

theorem execPartCreate_keep :
    ∀ (m t : Nat) (s : State) (t' : State), execPartCreate m t s = .next t' → t'.keep = s.keep := by
  intros; rename_i h; unfold execPartCreate at h; (try dsimp only at h); refine onUnit_keep ?_ h
  repeat' (first
      | (with_reducible rfl) | (simp only [keep_mk, keep_fold])
      | (with_reducible refine (State.command_keep _ _ _ _ (fun _ _ => ?_)).trans ?_)
      | (simp only [↓State.tick_keep, ↓partCreate_keep]) | split | (simp_all; done))

theorem execPortEnable_keep :
    ∀ (m t : Nat) (s : State) (t' : State), execPortEnable m t s = .next t' → t'.keep = s.keep := by
  intros; rename_i h; unfold execPortEnable at h; (try dsimp only at h); refine onUnit_keep ?_ h
  repeat' (first
      | (with_reducible rfl) | (simp only [keep_mk, keep_fold])
      | (with_reducible refine (State.command_keep _ _ _ _ (fun _ _ => ?_)).trans ?_)
      | (simp only [↓portEnable_keep, ↓State.tick_keep]) | split | (simp_all; done))

theorem execPortDisable_keep :
    ∀ (m t : Nat) (s : State) (t' : State), execPortDisable m t s = .next t' → t'.keep = s.keep := by
  intros; rename_i h; unfold execPortDisable at h; (try dsimp only at h); refine onUnit_keep ?_ h
  repeat' (first
      | (with_reducible rfl) | (simp only [keep_mk, keep_fold])
      | (with_reducible refine (State.command_keep _ _ _ _ (fun _ _ => ?_)).trans ?_)
      | (simp only [↓portDisable_keep, ↓State.tick_keep]) | split | (simp_all; done))

theorem execClusterEnable_keep :
    ∀ (m t : Nat) (s : State) (t' : State), execClusterEnable m t s = .next t' → t'.keep = s.keep := by
  intros; rename_i h; unfold execClusterEnable at h; (try dsimp only at h); refine onUnit_keep ?_ h
  repeat' (first
      | (with_reducible rfl) | (simp only [keep_mk, keep_fold])
      | (with_reducible refine (State.command_keep _ _ _ _ (fun _ _ => ?_)).trans ?_)
      | (simp only [↓clusterEnable_keep, ↓State.tick_keep]) | split | (simp_all; done))

theorem execClusterDisable_keep :
    ∀ (m t : Nat) (s : State) (t' : State), execClusterDisable m t s = .next t' → t'.keep = s.keep := by
  intros; rename_i h; unfold execClusterDisable at h; (try dsimp only at h); refine onUnit_keep ?_ h
  repeat' (first
      | (with_reducible rfl) | (simp only [keep_mk, keep_fold])
      | (with_reducible refine (State.command_keep _ _ _ _ (fun _ _ => ?_)).trans ?_)
      | (simp only [↓clusterDisable_keep, ↓State.tick_keep]) | split | (simp_all; done))

theorem execMemRegionMap_keep :
    ∀ (m t : Nat) (s : State) (t' : State), execMemRegionMap m t s = .next t' → t'.keep = s.keep := by
  intros; rename_i h; unfold execMemRegionMap at h; (try dsimp only at h); refine onUnit_keep ?_ h
  repeat' (first
      | (with_reducible rfl) | (simp only [keep_mk, keep_fold])
      | (with_reducible refine (State.command_keep _ _ _ _ (fun _ _ => ?_)).trans ?_)
      | (simp only [↓memRegionMap_keep, ↓State.tick_keep]) | split | (simp_all; done))

theorem execShadowStart_keep :
    ∀ (m t : Nat) (s : State) (t' : State), execShadowStart m t s = .next t' → t'.keep = s.keep := by
  intros; rename_i h; unfold execShadowStart at h; (try dsimp only at h); refine onUnit_keep ?_ h
  repeat' (first
      | (with_reducible rfl) | (simp only [keep_mk, keep_fold])
      | (with_reducible refine (State.command_keep _ _ _ _ (fun _ _ => ?_)).trans ?_)
      | (simp only [↓shadowStart_keep, ↓State.tick_keep]) | split | (simp_all; done))

theorem execShadowStop_keep :
    ∀ (m t : Nat) (s : State) (t' : State), execShadowStop m t s = .next t' → t'.keep = s.keep := by
  intros; rename_i h; unfold execShadowStop at h; (try dsimp only at h); refine onUnit_keep ?_ h
  repeat' (first
      | (with_reducible rfl) | (simp only [keep_mk, keep_fold])
      | (with_reducible refine (State.command_keep _ _ _ _ (fun _ _ => ?_)).trans ?_)
      | (simp only [↓shadowStop_keep, ↓State.tick_keep]) | split | (simp_all; done))

theorem execReservePromote_keep :
    ∀ (m t : Nat) (s : State) (t' : State), execReservePromote m t s = .next t' → t'.keep = s.keep := by
  intros; rename_i h; unfold execReservePromote at h; (try dsimp only at h); refine onUnit_keep ?_ h
  repeat' (first
      | (with_reducible rfl) | (simp only [keep_mk, keep_fold])
      | (with_reducible refine (State.command_keep _ _ _ _ (fun _ _ => ?_)).trans ?_)
      | (simp only [↓reservePromote_keep, ↓State.tick_keep]) | split | (simp_all; done))

theorem execSnapshotTake_keep :
    ∀ (m t : Nat) (s : State) (t' : State), execSnapshotTake m t s = .next t' → t'.keep = s.keep := by
  intros; rename_i h; unfold execSnapshotTake at h; (try dsimp only at h); refine onUnit_keep ?_ h
  repeat' (first
      | (with_reducible rfl) | (simp only [keep_mk, keep_fold])
      | (with_reducible refine (State.command_keep _ _ _ _ (fun _ _ => ?_)).trans ?_)
      | (simp only [↓snapshotTake_keep, ↓State.tick_keep]) | split | (simp_all; done))

theorem execSnapshotRestore_keep :
    ∀ (m t : Nat) (s : State) (t' : State), execSnapshotRestore m t s = .next t' → t'.keep = s.keep := by
  intros; rename_i h; unfold execSnapshotRestore at h; (try dsimp only at h); refine onUnit_keep ?_ h
  repeat' (first
      | (with_reducible rfl) | (simp only [keep_mk, keep_fold])
      | (with_reducible refine (State.command_keep _ _ _ _ (fun _ _ => ?_)).trans ?_)
      | (simp only [↓snapshotRestore_keep, ↓State.tick_keep]) | split | (simp_all; done))

theorem execSnapshotExport_keep :
    ∀ (m t : Nat) (s : State) (t' : State), execSnapshotExport m t s = .next t' → t'.keep = s.keep := by
  intros; rename_i h; unfold execSnapshotExport at h; (try dsimp only at h); refine onUnit_keep ?_ h
  repeat' (first
      | (with_reducible rfl) | (simp only [keep_mk, keep_fold])
      | (with_reducible refine (State.command_keep _ _ _ _ (fun _ _ => ?_)).trans ?_)
      | (simp only [↓snapshotExport_keep, ↓State.tick_keep]) | split | (simp_all; done))

theorem execDigestRead_keep :
    ∀ (m t : Nat) (s : State) (t' : State), execDigestRead m t s = .next t' → t'.keep = s.keep := by
  intros; rename_i h; unfold execDigestRead at h; (try dsimp only at h); refine onUnit_keep ?_ h
  repeat' (first
      | (with_reducible rfl) | (simp only [keep_mk, keep_fold])
      | (with_reducible refine (State.command_keep _ _ _ _ (fun _ _ => ?_)).trans ?_)
      | (simp only [↓digestRead_keep, ↓State.tick_keep]) | split | (simp_all; done))

theorem execCounterRead_keep :
    ∀ (m t : Nat) (s : State) (t' : State), execCounterRead m t s = .next t' → t'.keep = s.keep := by
  intros; rename_i h; unfold execCounterRead at h; (try dsimp only at h); refine onUnit_keep ?_ h
  repeat' (first
      | (with_reducible rfl) | (simp only [keep_mk, keep_fold])
      | (with_reducible refine (State.command_keep _ _ _ _ (fun _ _ => ?_)).trans ?_)
      | (simp only [↓counterRead_keep, ↓State.tick_keep]) | split | (simp_all; done))

theorem execTelemConfig_keep :
    ∀ (m t : Nat) (s : State) (t' : State), execTelemConfig m t s = .next t' → t'.keep = s.keep := by
  intros; rename_i h; unfold execTelemConfig at h; (try dsimp only at h); refine onUnit_keep ?_ h
  repeat' (first
      | (with_reducible rfl) | (simp only [keep_mk, keep_fold])
      | (with_reducible refine (State.command_keep _ _ _ _ (fun _ _ => ?_)).trans ?_)
      | (simp only [↓telemConfig_keep, ↓State.tick_keep]) | split | (simp_all; done))

theorem execSampleSet_keep :
    ∀ (m t : Nat) (s : State) (t' : State), execSampleSet m t s = .next t' → t'.keep = s.keep := by
  intros; rename_i h; unfold execSampleSet at h; (try dsimp only at h); refine onUnit_keep ?_ h
  repeat' (first
      | (with_reducible rfl) | (simp only [keep_mk, keep_fold])
      | (with_reducible refine (State.command_keep _ _ _ _ (fun _ _ => ?_)).trans ?_)
      | (simp only [↓sampleSet_keep, ↓State.tick_keep]) | split | (simp_all; done))

theorem execHealthRead_keep :
    ∀ (m t : Nat) (s : State) (t' : State), execHealthRead m t s = .next t' → t'.keep = s.keep := by
  intros; rename_i h; unfold execHealthRead at h; (try dsimp only at h); refine onUnit_keep ?_ h
  repeat' (first
      | (with_reducible rfl) | (simp only [keep_mk, keep_fold])
      | (with_reducible refine (State.command_keep _ _ _ _ (fun _ _ => ?_)).trans ?_)
      | (simp only [↓healthRead_keep, ↓State.tick_keep]) | split | (simp_all; done))

theorem execTimeSet_keep :
    ∀ (m t : Nat) (s : State) (t' : State), execTimeSet m t s = .next t' → t'.keep = s.keep := by
  intros; rename_i h; unfold execTimeSet at h; (try dsimp only at h); refine onUnit_keep ?_ h
  repeat' (first
      | (with_reducible rfl) | (simp only [keep_mk, keep_fold])
      | (with_reducible refine (State.command_keep _ _ _ _ (fun _ _ => ?_)).trans ?_)
      | (simp only [↓timeSet_keep, ↓State.tick_keep]) | split | (simp_all; done))

theorem execAttestGet_keep :
    ∀ (m t : Nat) (s : State) (t' : State), execAttestGet m t s = .next t' → t'.keep = s.keep := by
  intros; rename_i h; unfold execAttestGet at h; (try dsimp only at h); refine onUnit_keep ?_ h
  repeat' (first
      | (with_reducible rfl) | (simp only [keep_mk, keep_fold])
      | (with_reducible refine (State.command_keep _ _ _ _ (fun _ _ => ?_)).trans ?_)
      | (simp only [↓attest_keep, ↓State.tick_keep]) | split | (simp_all; done))

theorem execFwInfo_keep : ∀ (m t : Nat) (s : State) (t' : State), execFwInfo m t s = .next t' → t'.keep = s.keep := by
  intros; rename_i h; unfold execFwInfo at h; (try dsimp only at h); refine onUnit_keep ?_ h
  repeat' (first
      | (with_reducible rfl) | (simp only [keep_mk, keep_fold])
      | (with_reducible refine (State.command_keep _ _ _ _ (fun _ _ => ?_)).trans ?_)
      | (simp only [↓fwInfo_keep, ↓State.tick_keep]) | split | (simp_all; done))

theorem execMpHeartbeat_keep :
    ∀ (t : Nat) (s : State) (t' : State), execMpHeartbeat t s = .next t' → t'.keep = s.keep := by
  intros; rename_i h; unfold execMpHeartbeat at h; (try dsimp only at h); refine next_keep ?_ h
  repeat' (first
      | (with_reducible rfl) | (simp only [keep_mk, keep_fold]) | (with_reducible refine when_keep ?_ ?_)
      | (simp only [↓State.tick_keep]) | split | (simp_all; done))

theorem execMpstop_keep : ∀ (t : Nat) (s : State) (t' : State), execMpstop t s = .next t' → t'.keep = s.keep := by
  intros; rename_i h; unfold execMpstop at h; (try dsimp only at h); refine next_keep ?_ h
  repeat' (first
      | (with_reducible rfl) | (simp only [keep_mk, keep_fold]) | (with_reducible refine when_keep ?_ ?_)
      | (simp only [↓State.roeEvent_keep, ↓State.logFault_keep, ↓State.tick_keep]) | split | (simp_all; done))

theorem execThermalLevelUp_keep :
    ∀ (temp t : Nat) (s : State) (t' : State), execThermalLevelUp temp t s = .next t' → t'.keep = s.keep := by
  intros; rename_i h; unfold execThermalLevelUp at h; (try dsimp only at h); refine next_keep ?_ h
  repeat' (first
      | (with_reducible rfl) | (simp only [keep_mk, keep_fold]) | (with_reducible refine when_keep ?_ ?_)
      | (simp only [↓State.noteTemp_keep, ↓State.levelMoved_keep, ↓State.tick_keep]) | split | (simp_all; done))

theorem execThermalLevelDown_keep :
    ∀ (temp t : Nat) (s : State) (t' : State), execThermalLevelDown temp t s = .next t' → t'.keep = s.keep := by
  intros; rename_i h; unfold execThermalLevelDown at h; (try dsimp only at h); refine next_keep ?_ h
  repeat' (first
      | (with_reducible rfl) | (simp only [keep_mk, keep_fold]) | (with_reducible refine when_keep ?_ ?_)
      | (simp only [↓State.noteTemp_keep, ↓State.levelMoved_keep, ↓State.tick_keep]) | split | (simp_all; done))

theorem execPowerLevelUp_keep :
    ∀ (mw t : Nat) (s : State) (t' : State), execPowerLevelUp mw t s = .next t' → t'.keep = s.keep := by
  intros; rename_i h; unfold execPowerLevelUp at h; (try dsimp only at h); refine next_keep ?_ h
  repeat' (first
      | (with_reducible rfl) | (simp only [keep_mk, keep_fold]) | (with_reducible refine when_keep ?_ ?_)
      | (simp only [↓State.levelMoved_keep, ↓State.tick_keep]) | split | (simp_all; done))

theorem execPowerLevelDown_keep :
    ∀ (mw t : Nat) (s : State) (t' : State), execPowerLevelDown mw t s = .next t' → t'.keep = s.keep := by
  intros; rename_i h; unfold execPowerLevelDown at h; (try dsimp only at h); refine next_keep ?_ h
  repeat' (first
      | (with_reducible rfl) | (simp only [keep_mk, keep_fold]) | (with_reducible refine when_keep ?_ ?_)
      | (simp only [↓State.levelMoved_keep, ↓State.tick_keep]) | split | (simp_all; done))

theorem execAvsConfirm_keep :
    ∀ (t : Nat) (s : State) (t' : State), execAvsConfirm t s = .next t' → t'.keep = s.keep := by
  intros; rename_i h; unfold execAvsConfirm at h; (try dsimp only at h); refine next_keep ?_ h
  repeat' (first
      | (with_reducible rfl) | (simp only [keep_mk, keep_fold])
      | (simp only [↓State.avsDone_keep, ↓State.tick_keep, ↓State.idle_keep]) | split | (simp_all; done))

theorem execAvsConfirmTimeout_keep :
    ∀ (t : Nat) (s : State) (t' : State), execAvsConfirmTimeout t s = .next t' → t'.keep = s.keep := by
  intros; rename_i h; unfold execAvsConfirmTimeout at h; (try dsimp only at h); refine next_keep ?_ h
  repeat' (first
      | (with_reducible rfl) | (simp only [keep_mk, keep_fold])
      | (with_reducible refine ite_keep (fun _ => ?_) fun _ => ?_)
      | (simp only [↓State.avsDone_keep, ↓State.tick_keep, ↓State.idle_keep]) | split | (simp_all; done))

theorem execDramThrottleOn_keep :
    ∀ (stack temp t : Nat) (s : State) (t' : State), execDramThrottleOn stack temp t s = .next t' → t'.keep = s.keep := by
  intros; rename_i h; unfold execDramThrottleOn at h; (try dsimp only at h); refine onUnit_keep ?_ h
  repeat' (first
      | (with_reducible rfl) | (simp only [keep_mk, keep_fold]) | (with_reducible refine when_keep ?_ ?_)
      | (simp only [↓State.refreshRate_keep, ↓State.throttled_keep, ↓State.tick_keep]) | split | (simp_all; done))

theorem execDramThrottleOff_keep :
    ∀ (stack temp t : Nat) (s : State) (t' : State), execDramThrottleOff stack temp t s = .next t' → t'.keep = s.keep := by
  intros; rename_i h; unfold execDramThrottleOff at h; (try dsimp only at h); refine onUnit_keep ?_ h
  repeat' (first
      | (with_reducible rfl) | (simp only [keep_mk, keep_fold]) | (with_reducible refine when_keep ?_ ?_)
      | (simp only [↓State.refreshRate_keep, ↓State.tick_keep]) | split | (simp_all; done))

theorem execThermalTrip_keep :
    ∀ (raw0 raw1 t : Nat) (s : State) (t' : State), execThermalTrip raw0 raw1 t s = .next t' → t'.keep = s.keep := by
  intros; rename_i h; unfold execThermalTrip at h; (try dsimp only at h); refine next_keep ?_ h
  repeat' (first
      | (with_reducible rfl) | (simp only [keep_mk, keep_fold]) | (with_reducible refine when_keep ?_ ?_)
      | (simp only [↓State.roeEvent_keep, ↓State.c6Stop_keep, ↓State.tick_keep]) | split | (simp_all; done))

theorem execRailFault_keep :
    ∀ (rail us t : Nat) (s : State) (t' : State), execRailFault rail us t s = .next t' → t'.keep = s.keep := by
  intros; rename_i h; unfold execRailFault at h; (try dsimp only at h); refine onUnit_keep ?_ h
  repeat' (first
      | (with_reducible rfl) | (simp only [keep_mk, keep_fold]) | (with_reducible refine when_keep ?_ ?_)
      | (simp only [↓State.roeEvent_keep, ↓State.c6Stop_keep, ↓State.tick_keep]) | split | (simp_all; done))

theorem execRefclkLoss_keep :
    ∀ (ns t : Nat) (s : State) (t' : State), execRefclkLoss ns t s = .next t' → t'.keep = s.keep := by
  intros; rename_i h; unfold execRefclkLoss at h; (try dsimp only at h); refine next_keep ?_ h
  repeat' (first
      | (with_reducible rfl) | (simp only [keep_mk, keep_fold]) | (with_reducible refine when_keep ?_ ?_)
      | (simp only [↓State.roeEvent_keep, ↓State.c6Stop_keep, ↓State.tick_keep]) | split | (simp_all; done))

theorem execLaserFault_keep :
    ∀ (engine samples t : Nat) (s : State) (t' : State), execLaserFault engine samples t s = .next t' → t'.keep = s.keep := by
  intros; rename_i h; unfold execLaserFault at h; (try dsimp only at h); refine onUnit_keep ?_ h
  repeat' (first
      | (with_reducible rfl) | (simp only [keep_mk, keep_fold]) | (with_reducible refine when_keep ?_ ?_)
      | (with_reducible refine (foldl_keep _ (fun _ _ => ?_) _ _).trans ?_)
      | (simp only [↓State.roeEvent_keep, ↓State.linkDown_keep, ↓State.tick_keep]) | split | (simp_all; done))

theorem execLaserClear_keep :
    ∀ (engine samples t : Nat) (s : State) (t' : State), execLaserClear engine samples t s = .next t' → t'.keep = s.keep := by
  intros; rename_i h; unfold execLaserClear at h; (try dsimp only at h); refine onUnit_keep ?_ h
  repeat' (first
      | (with_reducible rfl) | (simp only [keep_mk, keep_fold]) | (with_reducible refine when_keep ?_ ?_)
      | (simp only [↓State.tick_keep]) | split | (simp_all; done))

theorem execPllLock_keep :
    ∀ (u : PllRef) (t : Nat) (s : State) (t' : State), execPllLock u t s = .next t' → t'.keep = s.keep := by
  intros; rename_i h; unfold execPllLock at h; (try dsimp only at h); (repeat' split at h)
  all_goals (first
      | refine next_keep ?_ h | refine onUnit_keep ?_ h | refine onSideband_keep (fun _ => ?_) h
      | refine onLink_keep (fun _ => ?_) h)
  all_goals (repeat' (first
      | (with_reducible rfl) | (simp only [keep_mk, keep_fold])
      | (with_reducible refine ite_keep (fun _ => ?_) fun _ => ?_)
      | (with_reducible refine ite1_keep (fun _ => ?_) fun _ => ?_)
      | (with_reducible refine ite2_keep (fun _ => ?_) fun _ => ?_) | (with_reducible refine when_keep ?_ ?_)
      | (with_reducible refine (foldl_keep _ (fun _ _ => ?_) _ _).trans ?_)
      | (with_reducible refine (foldl1_keep _ (fun _ _ => ?_) _ _).trans ?_)
      | (with_reducible refine (foldl2_keep _ (fun _ _ => ?_) _ _).trans ?_)
      | (with_reducible refine getD_keep (fun _ _ => ?_) ?_)
      | (simp only [↓State.bypass_keep, ↓State.romStart_keep, ↓State.tick_keep]) | split | (simp_all; done)))

theorem execPowerTransitionDone_keep :
    ∀ (t : Nat) (s : State) (t' : State), execPowerTransitionDone t s = .next t' → t'.keep = s.keep := by
  intros; rename_i h; unfold execPowerTransitionDone at h; (try dsimp only at h); refine next_keep ?_ h
  repeat' (first
      | (with_reducible rfl) | (simp only [keep_mk, keep_fold])
      | (with_reducible refine ite_keep (fun _ => ?_) fun _ => ?_)
      | (simp only [↓State.reached_keep, ↓State.woken_keep, ↓State.tick_keep]) | split | (simp_all; done))

theorem execEdgeWakeDetect_keep :
    ∀ (ep us t : Nat) (s : State) (t' : State), execEdgeWakeDetect ep us t s = .next t' → t'.keep = s.keep := by
  intros; rename_i h; unfold execEdgeWakeDetect at h; (try dsimp only at h); refine onUnit_keep ?_ h
  repeat' (first
      | (with_reducible rfl) | (simp only [keep_mk, keep_fold]) | (with_reducible refine when_keep ?_ ?_)
      | (simp only [↓State.wakeUp_keep, ↓State.tick_keep]) | split | (simp_all; done))

theorem execRoeWakeWrite_keep :
    ∀ (v : BitVec 32) (t : Nat) (s : State) (t' : State), execRoeWakeWrite v t s = .next t' → t'.keep = s.keep := by
  intros; rename_i h; unfold execRoeWakeWrite at h; (try dsimp only at h); (repeat' split at h)
  all_goals (first
      | refine next_keep ?_ h | refine onUnit_keep ?_ h | refine onSideband_keep (fun _ => ?_) h
      | refine onLink_keep (fun _ => ?_) h)
  all_goals (repeat' (first
      | (with_reducible rfl) | (simp only [keep_mk, keep_fold])
      | (with_reducible refine ite_keep (fun _ => ?_) fun _ => ?_)
      | (with_reducible refine ite1_keep (fun _ => ?_) fun _ => ?_)
      | (with_reducible refine ite2_keep (fun _ => ?_) fun _ => ?_) | (with_reducible refine when_keep ?_ ?_)
      | (with_reducible refine (foldl_keep _ (fun _ _ => ?_) _ _).trans ?_)
      | (with_reducible refine (foldl1_keep _ (fun _ _ => ?_) _ _).trans ?_)
      | (with_reducible refine (foldl2_keep _ (fun _ _ => ?_) _ _).trans ?_)
      | (with_reducible refine getD_keep (fun _ _ => ?_) ?_)
      | (simp only [↓State.writeRoeCtrl_keep, ↓State.wroteAt_keep, ↓State.tick_keep]) | split | (simp_all; done)))

theorem execForcebypWrite_keep :
    ∀ (v : BitVec 32) (t : Nat) (s : State) (t' : State), execForcebypWrite v t s = .next t' → t'.keep = s.keep := by
  intros; rename_i h; unfold execForcebypWrite at h; (try dsimp only at h); (repeat' split at h)
  all_goals (first
      | refine next_keep ?_ h | refine onUnit_keep ?_ h | refine onSideband_keep (fun _ => ?_) h
      | refine onLink_keep (fun _ => ?_) h)
  all_goals (repeat' (first
      | (with_reducible rfl) | (simp only [keep_mk, keep_fold])
      | (with_reducible refine ite_keep (fun _ => ?_) fun _ => ?_)
      | (with_reducible refine ite1_keep (fun _ => ?_) fun _ => ?_)
      | (with_reducible refine ite2_keep (fun _ => ?_) fun _ => ?_) | (with_reducible refine when_keep ?_ ?_)
      | (with_reducible refine (foldl_keep _ (fun _ _ => ?_) _ _).trans ?_)
      | (with_reducible refine (foldl1_keep _ (fun _ _ => ?_) _ _).trans ?_)
      | (with_reducible refine (foldl2_keep _ (fun _ _ => ?_) _ _).trans ?_)
      | (with_reducible refine getD_keep (fun _ _ => ?_) ?_)
      | (simp only [↓State.writeRoeCtrl_keep, ↓State.wroteAt_keep, ↓State.tick_keep]) | split | (simp_all; done)))

theorem execDiagDataRead_keep : ∀ (s : State) (t' : State), execDiagDataRead s = .next t' → t'.keep = s.keep := by
  intros; rename_i h; unfold execDiagDataRead at h; (try dsimp only at h); refine onSideband_keep (fun _ => ?_) h
  repeat' (first
      | (with_reducible rfl) | (simp only [keep_mk, keep_fold])
      | (simp only [↓State.answerI3c_keep, ↓State.diagWord_keep, ↓State.tick_keep]) | split | (simp_all; done))

theorem execI3cMailboxWrite_keep :
    ∀ (addr : Nat) (data : List Byte) (t : Nat) (s : State) (t' : State), execI3cMailboxWrite addr data t s = .next t' → t'.keep = s.keep := by
  intros; rename_i h; unfold execI3cMailboxWrite at h; (try dsimp only at h); (repeat' split at h)
  all_goals (first
      | refine next_keep ?_ h | refine onUnit_keep ?_ h | refine onSideband_keep (fun _ => ?_) h
      | refine onLink_keep (fun _ => ?_) h)
  all_goals (repeat' (first
      | (with_reducible rfl) | (simp only [keep_mk, keep_fold])
      | (with_reducible refine ite_keep (fun _ => ?_) fun _ => ?_)
      | (with_reducible refine ite1_keep (fun _ => ?_) fun _ => ?_)
      | (with_reducible refine ite2_keep (fun _ => ?_) fun _ => ?_) | (with_reducible refine when_keep ?_ ?_)
      | (with_reducible refine (foldl_keep _ (fun _ _ => ?_) _ _).trans ?_)
      | (with_reducible refine (foldl1_keep _ (fun _ _ => ?_) _ _).trans ?_)
      | (with_reducible refine (foldl2_keep _ (fun _ _ => ?_) _ _).trans ?_)
      | (with_reducible refine getD_keep (fun _ _ => ?_) ?_)
      | (simp only [↓State.i3cMailbox_keep, ↓State.wroteAt_keep, ↓State.tick_keep]) | split | (simp_all; done)))

theorem execRegisterWrite_keep :
    ∀ (addr : Nat) (v : BitVec 32) (s : State) (t' : State), execRegisterWrite addr v s = .next t' → t'.keep = s.keep := by
  intros; rename_i h; unfold execRegisterWrite at h; (try dsimp only at h); refine onSideband_keep (fun _ => ?_) h
  repeat' (first
      | (with_reducible rfl) | (simp only [keep_mk, keep_fold])
      | (with_reducible refine ite_keep (fun _ => ?_) fun _ => ?_)
      | (simp only [↓State.event_keep, ↓State.i3cMailbox_keep, ↓State.writeRoeCtrl_keep, ↓State.wroteAt_keep, ↓State.tick_keep])
      | split | (simp_all; done))

theorem execEntdaa_keep :
    ∀ (addr : Nat) (s : State) (t' : State), execEntdaa addr s = .next t' → t'.keep = s.keep := by
  intros; rename_i h; unfold execEntdaa at h; (try dsimp only at h); refine onSideband_keep (fun _ => ?_) h
  repeat' (first
      | (with_reducible rfl) | (simp only [keep_mk, keep_fold])
      | (with_reducible refine ite_keep (fun _ => ?_) fun _ => ?_) | (simp only [↓State.tick_keep]) | split
      | (simp_all; done))

theorem execSetdasa_keep :
    ∀ (addr : Nat) (s : State) (t' : State), execSetdasa addr s = .next t' → t'.keep = s.keep := by
  intros; rename_i h; unfold execSetdasa at h; (try dsimp only at h); refine onSideband_keep (fun _ => ?_) h
  repeat' (first
      | (with_reducible rfl) | (simp only [keep_mk, keep_fold])
      | (with_reducible refine ite_keep (fun _ => ?_) fun _ => ?_) | (simp only [↓State.tick_keep]) | split
      | (simp_all; done))

theorem execSetnewda_keep :
    ∀ (addr : Nat) (s : State) (t' : State), execSetnewda addr s = .next t' → t'.keep = s.keep := by
  intros; rename_i h; unfold execSetnewda at h; (try dsimp only at h); refine onSideband_keep (fun _ => ?_) h
  repeat' (first
      | (with_reducible rfl) | (simp only [keep_mk, keep_fold])
      | (with_reducible refine ite_keep (fun _ => ?_) fun _ => ?_) | (simp only [↓State.tick_keep]) | split
      | (simp_all; done))

theorem execRstdaa_keep : ∀ (s : State) (t' : State), execRstdaa s = .next t' → t'.keep = s.keep := by
  intros; rename_i h; unfold execRstdaa at h; (try dsimp only at h); refine onSideband_keep (fun _ => ?_) h
  repeat' (first
      | (with_reducible rfl) | (simp only [keep_mk, keep_fold]) | (simp only [↓State.tick_keep]) | split
      | (simp_all; done))

theorem execGetpid_keep : ∀ (s : State) (t' : State), execGetpid s = .next t' → t'.keep = s.keep := by
  intros; rename_i h; exact onSideband_keep (fun _ => by simp only [↓State.answerI3c_keep, ↓State.tick_keep]) h

theorem execGetbcr_keep : ∀ (s : State) (t' : State), execGetbcr s = .next t' → t'.keep = s.keep := by
  intros; rename_i h; exact onSideband_keep (fun _ => by simp only [↓State.answerI3c_keep, ↓State.tick_keep]) h

theorem execGetdcr_keep : ∀ (s : State) (t' : State), execGetdcr s = .next t' → t'.keep = s.keep := by
  intros; rename_i h; exact onSideband_keep (fun _ => by simp only [↓State.answerI3c_keep, ↓State.tick_keep]) h

theorem execGetstatus_keep : ∀ (s : State) (t' : State), execGetstatus s = .next t' → t'.keep = s.keep := by
  intros; rename_i h; unfold execGetstatus at h; (try dsimp only at h); refine onSideband_keep (fun _ => ?_) h
  repeat' (first
      | (with_reducible rfl) | (simp only [keep_mk, keep_fold])
      | (simp only [↓State.answerI3c_keep, ↓State.tick_keep]) | split | (simp_all; done))

theorem execEnec_keep : ∀ (v : BitVec 8) (s : State) (t' : State), execEnec v s = .next t' → t'.keep = s.keep := by
  intros; rename_i h; unfold execEnec at h; (try dsimp only at h); refine onSideband_keep (fun _ => ?_) h
  repeat' (first
      | (with_reducible rfl) | (simp only [keep_mk, keep_fold])
      | (with_reducible refine ite_keep (fun _ => ?_) fun _ => ?_) | (simp only [↓State.tick_keep]) | split
      | (simp_all; done))

theorem execDisec_keep : ∀ (v : BitVec 8) (s : State) (t' : State), execDisec v s = .next t' → t'.keep = s.keep := by
  intros; rename_i h; unfold execDisec at h; (try dsimp only at h); refine onSideband_keep (fun _ => ?_) h
  repeat' (first
      | (with_reducible rfl) | (simp only [keep_mk, keep_fold])
      | (with_reducible refine ite_keep (fun _ => ?_) fun _ => ?_) | (simp only [↓State.tick_keep]) | split
      | (simp_all; done))

theorem execRstact_keep :
    ∀ (v : BitVec 8) (s : State) (t' : State), execRstact v s = .next t' → t'.keep = s.keep := by
  intros; rename_i h; unfold execRstact at h; (try dsimp only at h); refine onSideband_keep (fun _ => ?_) h
  repeat' (first
      | (with_reducible rfl) | (simp only [keep_mk, keep_fold]) | (simp only [↓State.tick_keep]) | split
      | (simp_all; done))

theorem execTrailPktFrame_keep :
    ∀ (f : Frame) (t : Nat) (s : State) (t' : State), execTrailPktFrame f t s = .next t' → t'.keep = s.keep := by
  intros; rename_i h; unfold execTrailPktFrame at h; (try dsimp only at h); refine next_keep ?_ h
  repeat' (first
      | (with_reducible rfl) | (simp only [keep_mk, keep_fold])
      | (with_reducible refine ite_keep (fun _ => ?_) fun _ => ?_)
      | (with_reducible refine (State.trailRx_keep _ _ _ _ (fun _ => ?_)).trans ?_)
      | (simp only [↓State.count_keep, ↓State.health_keep, ↓arrive_keep, ↓State.tick_keep]) | split
      | (simp_all; done))

theorem execTrailTsyncFrame_keep :
    ∀ (f : Frame) (t : Nat) (s : State) (t' : State), execTrailTsyncFrame f t s = .next t' → t'.keep = s.keep := by
  intros; rename_i h; unfold execTrailTsyncFrame at h; (try dsimp only at h); refine next_keep ?_ h
  repeat' (first
      | (with_reducible rfl) | (simp only [keep_mk, keep_fold])
      | (with_reducible refine ite_keep (fun _ => ?_) fun _ => ?_)
      | (with_reducible refine (State.trailRx_keep _ _ _ _ (fun _ => ?_)).trans ?_)
      | (simp only [↓State.count_keep, ↓State.trailTsync_keep, ↓State.useOffset_keep, ↓State.tick_keep]) | split
      | (simp_all; done))

theorem execTrailDigestFrame_keep :
    ∀ (f : Frame) (t : Nat) (s : State) (t' : State), execTrailDigestFrame f t s = .next t' → t'.keep = s.keep := by
  intros; rename_i h; unfold execTrailDigestFrame at h; (try dsimp only at h); refine next_keep ?_ h
  repeat' (first
      | (with_reducible rfl) | (simp only [keep_mk, keep_fold])
      | (with_reducible refine (State.trailRx_keep _ _ _ _ (fun _ => ?_)).trans ?_)
      | (simp only [↓State.setMember_keep, ↓State.digestResult_keep, ↓State.tick_keep]) | split | (simp_all; done))

theorem execCensusFrame_keep :
    ∀ (f : Frame) (t : Nat) (s : State) (t' : State), execCensusFrame f t s = .next t' → t'.keep = s.keep := by
  intros; rename_i h; unfold execCensusFrame at h; (try dsimp only at h); refine next_keep ?_ h
  repeat' (first
      | (with_reducible rfl) | (simp only [keep_mk, keep_fold])
      | (with_reducible refine ite_keep (fun _ => ?_) fun _ => ?_)
      | (with_reducible refine (State.trailRx_keep _ _ _ _ (fun _ => ?_)).trans ?_)
      | (simp only [↓State.event_keep, ↓State.setMember_keep, ↓State.bootLead_keep, ↓State.tick_keep]) | split
      | (simp_all; done))

theorem execCensusSend_keep :
    ∀ (t : Nat) (s : State) (t' : State), execCensusSend t s = .next t' → t'.keep = s.keep := by
  intros; rename_i h; unfold execCensusSend at h; (try dsimp only at h); refine next_keep ?_ h
  repeat' (first
      | (with_reducible rfl) | (simp only [keep_mk, keep_fold]) | (with_reducible refine when_keep ?_ ?_)
      | (simp only [↓State.trailCast_keep, ↓State.tick_keep]) | split | (simp_all; done))

theorem execWakeFrame_keep :
    ∀ (f : Frame) (t : Nat) (s : State) (t' : State), execWakeFrame f t s = .next t' → t'.keep = s.keep := by
  intros; rename_i h; unfold execWakeFrame at h; (try dsimp only at h); refine next_keep ?_ h
  repeat' (first
      | (with_reducible rfl) | (simp only [keep_mk, keep_fold])
      | (with_reducible refine ite_keep (fun _ => ?_) fun _ => ?_)
      | (with_reducible refine (State.trailRx_keep _ _ _ _ (fun _ => ?_)).trans ?_)
      | (simp only [↓State.wakeUp_keep, ↓State.tick_keep]) | split | (simp_all; done))

theorem execShadowEntry_keep :
    ∀ (f : Frame) (t : Nat) (s : State) (t' : State), execShadowEntry f t s = .next t' → t'.keep = s.keep := by
  intros; rename_i h; unfold execShadowEntry at h; (try dsimp only at h); refine next_keep ?_ h
  repeat' (first
      | (with_reducible rfl) | (simp only [keep_mk, keep_fold])
      | (with_reducible refine (State.trailMp_keep _ _ _ _ _ (fun _ => ?_)).trans ?_)
      | (simp only [↓State.tick_keep, ↓State.shadowEntry_keep]) | split | (simp_all; done))

theorem execShadowResult_keep :
    ∀ (f : Frame) (t : Nat) (s : State) (t' : State), execShadowResult f t s = .next t' → t'.keep = s.keep := by
  intros; rename_i h; unfold execShadowResult at h; (try dsimp only at h); refine next_keep ?_ h
  repeat' (first
      | (with_reducible rfl) | (simp only [keep_mk, keep_fold])
      | (with_reducible refine ite_keep (fun _ => ?_) fun _ => ?_)
      | (with_reducible refine (State.trailMp_keep _ _ _ _ _ (fun _ => ?_)).trans ?_)
      | (simp only [↓State.health_keep, ↓State.event_keep, ↓State.tick_keep]) | split | (simp_all; done))

theorem execPlanRead_keep :
    ∀ (f : Frame) (t : Nat) (s : State) (t' : State), execPlanRead f t s = .next t' → t'.keep = s.keep := by
  intros; rename_i h; unfold execPlanRead at h; (try dsimp only at h); refine next_keep ?_ h
  repeat' (first
      | (with_reducible rfl) | (simp only [keep_mk, keep_fold])
      | (with_reducible refine (State.trailMp_keep _ _ _ _ _ (fun _ => ?_)).trans ?_)
      | (simp only [↓State.planRead_keep, ↓State.tick_keep]) | split | (simp_all; done))

theorem execPlanData_keep :
    ∀ (f : Frame) (t : Nat) (s : State) (t' : State), execPlanData f t s = .next t' → t'.keep = s.keep := by
  intros; rename_i h; unfold execPlanData at h; (try dsimp only at h); refine next_keep ?_ h
  repeat' (first
      | (with_reducible rfl) | (simp only [keep_mk, keep_fold])
      | (with_reducible refine (State.trailMp_keep _ _ _ _ _ (fun _ => ?_)).trans ?_)
      | (simp only [↓State.tick_keep, ↓State.planData_keep]) | split | (simp_all; done))

theorem execPlanNone_keep :
    ∀ (f : Frame) (t : Nat) (s : State) (t' : State), execPlanNone f t s = .next t' → t'.keep = s.keep := by
  intros; rename_i h; unfold execPlanNone at h; (try dsimp only at h); refine next_keep ?_ h
  repeat' (first
      | (with_reducible rfl) | (simp only [keep_mk, keep_fold])
      | (with_reducible refine ite_keep (fun _ => ?_) fun _ => ?_)
      | (with_reducible refine (State.trailMp_keep _ _ _ _ _ (fun _ => ?_)).trans ?_) | (simp only [↓State.tick_keep])
      | split | (simp_all; done))

theorem execFusedQuery_keep :
    ∀ (f : Frame) (t : Nat) (s : State) (t' : State), execFusedQuery f t s = .next t' → t'.keep = s.keep := by
  intros; rename_i h; unfold execFusedQuery at h; (try dsimp only at h); refine next_keep ?_ h
  repeat' (first
      | (with_reducible rfl) | (simp only [keep_mk, keep_fold])
      | (with_reducible refine (State.trailMp_keep _ _ _ _ _ (fun _ => ?_)).trans ?_)
      | (simp only [↓State.fusedQuery_keep, ↓State.tick_keep]) | split | (simp_all; done))

theorem execFusedStateRecord_keep :
    ∀ (t : Nat) (s : State) (t' : State), execFusedStateRecord t s = .next t' → t'.keep = s.keep := by
  intros; rename_i h; unfold execFusedStateRecord at h; (try dsimp only at h); refine next_keep ?_ h
  repeat' (first
      | (with_reducible rfl) | (simp only [keep_mk, keep_fold])
      | (with_reducible refine ite_keep (fun _ => ?_) fun _ => ?_)
      | (with_reducible refine (foldl_keep _ (fun _ _ => ?_) _ _).trans ?_)
      | (simp only [↓State.tick_keep, ↓State.recordFused_keep]) | split | (simp_all; done))

theorem execFusedState_keep :
    ∀ (f : Frame) (t : Nat) (s : State) (t' : State), execFusedState f t s = .next t' → t'.keep = s.keep := by
  intros; rename_i h; unfold execFusedState at h; (try dsimp only at h); refine next_keep ?_ h
  repeat' (first
      | (with_reducible rfl) | (simp only [keep_mk, keep_fold])
      | (with_reducible refine (State.trailMp_keep _ _ _ _ _ (fun _ => ?_)).trans ?_)
      | (simp only [↓State.fusedState_keep, ↓State.tick_keep]) | split | (simp_all; done))

theorem execBootRead_keep :
    ∀ (f : Frame) (t : Nat) (s : State) (t' : State), execBootRead f t s = .next t' → t'.keep = s.keep := by
  intros; rename_i h; unfold execBootRead at h; (try dsimp only at h); refine next_keep ?_ h
  repeat' (first
      | (with_reducible rfl) | (simp only [keep_mk, keep_fold])
      | (with_reducible refine ite_keep (fun _ => ?_) fun _ => ?_)
      | (with_reducible refine (State.trailRx_keep _ _ _ _ (fun _ => ?_)).trans ?_)
      | (simp only [↓State.sendImage_keep, ↓State.tick_keep]) | split | (simp_all; done))

theorem execBootNone_keep :
    ∀ (f : Frame) (t : Nat) (s : State) (t' : State), execBootNone f t s = .next t' → t'.keep = s.keep := by
  intros; rename_i h; unfold execBootNone at h; (try dsimp only at h); refine next_keep ?_ h
  repeat' (first
      | (with_reducible rfl) | (simp only [keep_mk, keep_fold])
      | (with_reducible refine ite_keep (fun _ => ?_) fun _ => ?_)
      | (with_reducible refine (State.trailRx_keep _ _ _ _ (fun _ => ?_)).trans ?_) | (simp only [↓State.tick_keep])
      | split | (simp_all; done))

theorem execBootNoneRetry_keep :
    ∀ (t : Nat) (s : State) (t' : State), execBootNoneRetry t s = .next t' → t'.keep = s.keep := by
  intros; rename_i h; unfold execBootNoneRetry at h; (try dsimp only at h); refine next_keep ?_ h
  repeat' (first
      | (with_reducible rfl) | (simp only [keep_mk, keep_fold]) | (with_reducible refine when_keep ?_ ?_)
      | (simp only [↓State.bootIssue_keep, ↓State.tick_keep]) | split | (simp_all; done))

theorem execLeadWaitTimeout_keep :
    ∀ (t : Nat) (s : State) (t' : State), execLeadWaitTimeout t s = .next t' → t'.keep = s.keep := by
  intros; rename_i h; unfold execLeadWaitTimeout at h; (try dsimp only at h); refine next_keep ?_ h
  repeat' (first
      | (with_reducible rfl) | (simp only [keep_mk, keep_fold]) | (with_reducible refine when_keep ?_ ?_)
      | (simp only [↓State.bootFail_keep, ↓State.tick_keep]) | split | (simp_all; done))

theorem execTrailInsert_keep :
    ∀ (t : Nat) (s : State) (t' : State), execTrailInsert t s = .next t' → t'.keep = s.keep := by
  intros; rename_i h; unfold execTrailInsert at h; (try dsimp only at h); refine next_keep ?_ h
  repeat' (first
      | (with_reducible rfl) | (simp only [keep_mk, keep_fold]) | (with_reducible refine when_keep ?_ ?_)
      | (simp only [↓State.tick_keep]) | split | (simp_all; done))

theorem execBootReadResend_keep :
    ∀ (off t : Nat) (s : State) (t' : State), execBootReadResend off t s = .next t' → t'.keep = s.keep := by
  intros; rename_i h; unfold execBootReadResend at h; (try dsimp only at h); refine next_keep ?_ h
  repeat' (first
      | (with_reducible rfl) | (simp only [keep_mk, keep_fold])
      | (with_reducible refine ite_keep (fun _ => ?_) fun _ => ?_)
      | (simp only [↓State.bootSend_keep, ↓State.fetchEnd_keep, ↓State.bootDue_keep, ↓State.tick_keep]) | split
      | (simp_all; done))

theorem execBootRetry_keep :
    ∀ (t : Nat) (s : State) (t' : State), execBootRetry t s = .next t' → t'.keep = s.keep := by
  intros; rename_i h; unfold execBootRetry at h; (try dsimp only at h); refine next_keep ?_ h
  repeat' (first
      | (with_reducible rfl) | (simp only [keep_mk, keep_fold]) | (with_reducible refine when_keep ?_ ?_)
      | (simp only [↓State.bootFrom_keep, ↓State.tick_keep]) | split | (simp_all; done))

theorem execSnapshotRestoreReadResend_keep :
    ∀ (tag t : Nat) (s : State) (t' : State), execSnapshotRestoreReadResend tag t s = .next t' → t'.keep = s.keep := by
  intros; rename_i h; unfold execSnapshotRestoreReadResend at h; (try dsimp only at h); refine next_keep ?_ h
  repeat' (first
      | (with_reducible rfl) | (simp only [keep_mk, keep_fold])
      | (with_reducible refine ite_keep (fun _ => ?_) fun _ => ?_)
      | (simp only [↓State.setSnap_keep, ↓State.mpRead_keep, ↓State.failRestore_keep, ↓State.snapDue_keep, ↓State.tick_keep])
      | split | (simp_all; done))

theorem execBootTrainTimeout_keep :
    ∀ (t : Nat) (s : State) (t' : State), execBootTrainTimeout t s = .next t' → t'.keep = s.keep := by
  intros; rename_i h; unfold execBootTrainTimeout at h; (try dsimp only at h); refine next_keep ?_ h
  repeat' (first
      | (with_reducible rfl) | (simp only [keep_mk, keep_fold]) | (with_reducible refine when_keep ?_ ?_)
      | (simp only [↓State.fetchEnd_keep, ↓State.tick_keep]) | split | (simp_all; done))

theorem execMpStopsExecuting_keep :
    ∀ (s : State) (t' : State), execMpStopsExecuting s = .next t' → t'.keep = s.keep := by
  intros; rename_i h; unfold execMpStopsExecuting at h; (try dsimp only at h); refine next_keep ?_ h
  repeat' (first
      | (with_reducible rfl) | (simp only [keep_mk, keep_fold]) | (simp only [↓State.tick_keep]) | split
      | (simp_all; done))

theorem execRefreshRateDoubled_keep :
    ∀ (stack temp t : Nat) (s : State) (t' : State), execRefreshRateDoubled stack temp t s = .next t' → t'.keep = s.keep := by
  intros; rename_i h; unfold execRefreshRateDoubled at h; (try dsimp only at h); refine onUnit_keep ?_ h
  repeat' (first
      | (with_reducible rfl) | (simp only [keep_mk, keep_fold]) | (with_reducible refine when_keep ?_ ?_)
      | (simp only [↓State.refreshRate_keep, ↓State.tick_keep]) | split | (simp_all; done))

end Sys2Proof.Machine
end

