-- ==== Sys2Proof/Laws/Memory.lean ====
section
/-!
SUPPORT. The laws of the byte memories: every operation keeps the canonical form, a read after a write gives what was
written, and a write leaves every other address alone.
-/
namespace Sys2Proof.Machine

/-- Addresses above a bound are above every smaller bound. -/
theorem memFrom_le {m : List Host.Cell} {lo lo' : Nat} (h : lo' ≤ lo) (w : memFrom lo m = true) : memFrom lo' m = true := by
  cases m with
  | nil => rfl
  | cons c m =>
    obtain ⟨k, b⟩ := c
    simp only [memFrom, Bool.and_eq_true, decide_eq_true_eq] at w ⊢
    exact ⟨⟨Nat.le_trans h w.1.1, w.1.2⟩, w.2⟩

/-- An address below every listed one reads 0. -/
theorem memGet_below {m : List Host.Cell} {lo a : Nat} (w : memFrom lo m = true) (h : a < lo) : memGet m a = 0 := by
  induction m generalizing lo with
  | nil => rfl
  | cons c m ih =>
    obtain ⟨k, b⟩ := c
    simp only [memFrom, Bool.and_eq_true, decide_eq_true_eq] at w
    rw [memGet, if_neg (by omega)]
    exact ih w.2 (by omega)

/-- Removing an address keeps the form. -/
theorem memDel_from {m : List Host.Cell} {lo : Nat} (w : memFrom lo m = true) (a : Nat) : memFrom lo (memDel m a) = true := by
  induction m generalizing lo with
  | nil => rfl
  | cons c m ih =>
    obtain ⟨k, b⟩ := c
    simp only [memFrom, Bool.and_eq_true, decide_eq_true_eq] at w
    rw [memDel]
    split
    · exact memFrom_le (by omega) w.2
    · split <;> simp only [memFrom, Bool.and_eq_true, decide_eq_true_eq]
      · exact w
      · exact ⟨w.1, ih w.2⟩

/-- Listing a byte other than 0 keeps the form. -/
theorem memIns_from {m : List Host.Cell} {lo a : Nat} {x : Byte} (w : memFrom lo m = true) (ha : lo ≤ a) (hx : x ≠ 0) :
    memFrom lo (memIns m a x) = true := by
  induction m generalizing lo with
  | nil => simp only [memIns, memFrom, Bool.and_true, Bool.and_eq_true, decide_eq_true_eq]; exact ⟨ha, hx⟩
  | cons c m ih =>
    obtain ⟨k, b⟩ := c
    simp only [memFrom, Bool.and_eq_true, decide_eq_true_eq] at w
    rw [memIns]
    split
    · rename_i h
      subst h
      simp only [memFrom, Bool.and_eq_true, decide_eq_true_eq]
      exact ⟨⟨ha, hx⟩, w.2⟩
    · split <;> simp only [memFrom, Bool.and_eq_true, decide_eq_true_eq]
      · exact ⟨⟨ha, hx⟩, ⟨by omega, w.1.2⟩, w.2⟩
      · exact ⟨w.1, ih w.2 (by omega)⟩

/-- Writing one byte keeps the canonical form. -/
theorem memPut_wf {m : List Host.Cell} (w : Memory.wf m = true) (a : Nat) (x : Byte) : Memory.wf (memPut m a x) = true := by
  unfold memPut
  split
  · exact memDel_from w a
  · exact memIns_from w (Nat.zero_le _) ‹_›

/-- Writing a byte string keeps the canonical form. -/
theorem memWrite_wf {m : List Host.Cell} (w : Memory.wf m = true) (a : Nat) (bs : List Byte) :
    Memory.wf (memWrite m a bs) = true := by
  induction bs generalizing m a with
  | nil => exact w
  | cons x xs ih => exact ih (memPut_wf w a x) (a + 1)

/-- Dropping entries keeps the form. -/
theorem memFrom_filter {m : List Host.Cell} {lo : Nat} (w : memFrom lo m = true) (p : Host.Cell → Bool) :
    memFrom lo (m.filter p) = true := by
  induction m generalizing lo with
  | nil => rfl
  | cons c m ih =>
    obtain ⟨k, b⟩ := c
    simp only [memFrom, Bool.and_eq_true, decide_eq_true_eq] at w
    rw [List.filter_cons]
    split
    · simp only [memFrom, Bool.and_eq_true, decide_eq_true_eq]
      exact ⟨w.1, ih w.2⟩
    · exact ih (memFrom_le (by omega) w.2)

/-- Writing byte strings one after the other keeps the canonical form. -/
theorem memWrite_foldl_wf {α : Type} (at_ : α → Nat) (bs : α → List Byte) (l : List α) {m : List Host.Cell}
    (w : Memory.wf m = true) : Memory.wf (l.foldl (fun m x => memWrite m (at_ x) (bs x)) m) = true := by
  induction l generalizing m with
  | nil => exact w
  | cons a l ih => exact ih (memWrite_wf w _ _)

/-- What a memory with an address removed reads. -/
theorem memGet_memDel {m : List Host.Cell} {lo : Nat} (w : memFrom lo m = true) (a b : Nat) :
    memGet (memDel m a) b = if b = a then 0 else memGet m b := by
  induction m generalizing lo with
  | nil => simp [memDel, memGet]
  | cons c m ih =>
    obtain ⟨k, y⟩ := c
    simp only [memFrom, Bool.and_eq_true, decide_eq_true_eq] at w
    have below : ∀ d, d ≤ k → memGet m d = 0 := fun d hd => memGet_below w.2 (by omega)
    rw [memDel]
    split
    · rename_i h
      subst h
      simp only [memGet]
      by_cases hb : b = k
      · rw [if_pos hb, below b (by omega)]
      · rw [if_neg hb, if_neg (fun h => hb h.symm)]
    · split
      · simp only [memGet]
        by_cases hb : b = a
        · rw [if_pos hb, if_neg (by omega), below b (by omega)]
        · rw [if_neg hb]
      · simp only [memGet, ih w.2]
        by_cases hk : k = b
        · rw [if_pos hk, if_neg (by omega), if_pos hk]
        · rw [if_neg hk, if_neg hk]

/-- What a memory with a byte listed reads. -/
theorem memGet_memIns (m : List Host.Cell) (a b : Nat) (x : Byte) :
    memGet (memIns m a x) b = if b = a then x else memGet m b := by
  induction m with
  | nil =>
    simp only [memIns, memGet]
    by_cases h : b = a
    · rw [if_pos h, if_pos h.symm]
    · rw [if_neg h, if_neg (fun g => h g.symm)]
  | cons c m ih =>
    obtain ⟨k, y⟩ := c
    rw [memIns]
    split
    · rename_i h
      subst h
      simp only [memGet]
      by_cases hb : b = k
      · rw [if_pos hb, if_pos hb.symm]
      · rw [if_neg hb, if_neg (fun g => hb g.symm), if_neg (fun g => hb g.symm)]
    · split
      · simp only [memGet]
        by_cases hb : b = a
        · rw [if_pos hb, if_pos hb.symm]
        · rw [if_neg hb, if_neg (fun g => hb g.symm)]
      · simp only [memGet, ih]
        by_cases hk : k = b
        · rw [if_pos hk, if_neg (by omega), if_pos hk]
        · rw [if_neg hk, if_neg hk]

/-- A read after a write of one byte: that byte at its address, what was there at every other. -/
theorem memGet_memPut {m : List Host.Cell} (w : Memory.wf m = true) (a b : Nat) (x : Byte) :
    memGet (memPut m a x) b = if b = a then x else memGet m b := by
  unfold memPut
  split
  · rename_i h
    rw [memGet_memDel w, h]
  · exact memGet_memIns m a b x

/-- A write of a byte string leaves every address outside it alone. -/
theorem memGet_memWrite_other {m : List Host.Cell} (w : Memory.wf m = true) (a b : Nat) (bs : List Byte)
    (h : b < a ∨ a + bs.length ≤ b) : memGet (memWrite m a bs) b = memGet m b := by
  induction bs generalizing m a with
  | nil => rfl
  | cons x xs ih =>
    simp only [List.length_cons] at h
    rw [memWrite, ih (memPut_wf w a x) (a + 1) (by omega), memGet_memPut w, if_neg (by omega)]

/-- A write of a byte string leaves byte `i` of it at its place. -/
theorem memGet_memWrite_same {m : List Host.Cell} (w : Memory.wf m = true) (a i : Nat) (bs : List Byte) (h : i < bs.length) :
    memGet (memWrite m a bs) (a + i) = bs[i] := by
  induction bs generalizing m a i with
  | nil => simp at h
  | cons x xs ih =>
    rw [memWrite]
    cases i with
    | zero =>
      rw [memGet_memWrite_other (memPut_wf w a x) _ _ _ (Or.inl (by omega)), memGet_memPut w, if_pos (by omega)]
      rfl
    | succ i =>
      have h' : i < xs.length := by simpa using h
      rw [show a + (i + 1) = a + 1 + i by omega, ih (memPut_wf w a x) (a + 1) i h']
      rfl

/-- A read of `n` bytes has `n` bytes. -/
theorem memRead_length (m : List Host.Cell) (a n : Nat) : (memRead m a n).length = n := by
  induction n generalizing a with
  | zero => rfl
  | succ n ih => rw [memRead, List.length_cons, ih]

/-- A read of what has just been written gives it back. -/
theorem memRead_memWrite {m : List Host.Cell} (w : Memory.wf m = true) (a : Nat) (bs : List Byte) :
    memRead (memWrite m a bs) a bs.length = bs := by
  induction bs generalizing m a with
  | nil => rfl
  | cons x xs ih =>
    rw [List.length_cons, memRead, memWrite, ih (memPut_wf w a x) (a + 1),
      memGet_memWrite_other (memPut_wf w a x) _ _ _ (Or.inl (by omega)), memGet_memPut w, if_pos rfl]

end Sys2Proof.Machine
end

