-- ==== Sys2Proof/Laws/Kept.lean ====
section
/-!
SUPPORT. What the operations and commands that change the fuse bank, a data SRAM or the DRAM do to them: `KeptK` says that the
queue stays, the fuses only grow and stay within their bounds, and the byte memories keep their canonical form.
-/
set_option maxRecDepth 4000
set_option linter.unusedSimpArgs false
set_option linter.unusedVariables false

namespace Sys2Proof.Machine

/-- What may become of the four pieces. -/
def KeptK (a b : List Instr × Fuse × List Host.Cell × List Host.Cell) : Prop :=
  b.1 = a.1 ∧ a.2.1.Grows b.2.1 ∧ ((a.2.1.floor ≤ 64 ∧ a.2.1.lmsCtr ≤ 4096) → b.2.1.floor ≤ 64 ∧ b.2.1.lmsCtr ≤ 4096) ∧
    (Memory.wf a.2.2.1 = true → Memory.wf b.2.2.1 = true) ∧ (Memory.wf a.2.2.2 = true → Memory.wf b.2.2.2 = true)

theorem KeptK.refl (a) : KeptK a a := ⟨rfl, ⟨rfl, Nat.le_refl _, Nat.le_refl _⟩, id, id, id⟩

theorem KeptK.then {a b c} (h : KeptK b c) (g : KeptK a b) : KeptK a c := by
  obtain ⟨h1, ⟨h2, h3, h4⟩, h5, h6, h7⟩ := h
  obtain ⟨g1, ⟨g2, g3, g4⟩, g5, g6, g7⟩ := g
  rw [g2] at h2
  exact ⟨h1.trans g1, ⟨h2, Nat.le_trans g3 h3, Nat.le_trans g4 h4⟩, h5 ∘ g5, h6 ∘ g6, h7 ∘ g7⟩

theorem ite_kept {c : Prop} [Decidable c] {a b s : State} (h1 : c → KeptK s.keep a.keep) (h2 : ¬c → KeptK s.keep b.keep) :
    KeptK s.keep (if c then a else b).keep := by
  split
  · exact h1 ‹_›
  · exact h2 ‹_›

theorem ite1_kept {β} {c : Prop} [Decidable c] {a b : State × β} {s : State} (h1 : c → KeptK s.keep a.1.keep) (h2 : ¬c → KeptK s.keep b.1.keep) :
    KeptK s.keep (if c then a else b).1.keep := by
  split
  · exact h1 ‹_›
  · exact h2 ‹_›

theorem when_kept {c : Bool} {a b s : State} (h1 : KeptK s.keep a.keep) (h2 : KeptK s.keep b.keep) : KeptK s.keep (when_ c a b).keep := by
  unfold when_; split
  · exact h2
  · exact h1

theorem getD_kept {o : Option State} {b s : State} (h1 : ∀ y, o = some y → KeptK s.keep y.keep) (h2 : KeptK s.keep b.keep) :
    KeptK s.keep (o.getD b).keep := by
  cases o with
  | none => exact h2
  | some y => exact h1 y rfl

theorem foldl_kept {α} {f : State → α → State} (h : ∀ s x, KeptK s.keep (f s x).keep) (l : List α) {s t : State} (g : KeptK s.keep t.keep) :
    KeptK s.keep (l.foldl f t).keep := by
  induction l generalizing t with
  | nil => exact g
  | cons a l ih => exact ih ((h t a).then g)

theorem foldl1_kept {α β} {f : State × β → α → State × β} (h : ∀ s x, KeptK s.1.keep (f s x).1.keep) (l : List α) {s : State}
    {t : State × β} (g : KeptK s.keep t.1.keep) : KeptK s.keep (l.foldl f t).1.keep := by
  induction l generalizing t with
  | nil => exact g
  | cons a l ih => exact ih ((h t a).then g)

theorem State.granPut_kept :
    ∀ (s : State) (cl g off : Nat) (bs : List Byte), KeptK s.keep ((s.granPut cl g off bs).fst).keep := by
  intro s cl g off bs; unfold State.granPut; split
  · exact (by rw [State.eccUncorr_keep]; exact KeptK.refl _ : KeptK s.keep (s.eccUncorr cl 1).keep)
  · exact ⟨rfl, ⟨rfl, Nat.le_refl _, Nat.le_refl _⟩, id, id, fun w => memWrite_wf w _ _⟩

theorem State.dramPut_kept :
    ∀ (s : State) (cl a : Nat) (bs : List Byte), KeptK s.keep ((s.dramPut cl a bs).fst).keep := by
  intros; unfold State.dramPut; (try dsimp only)
  repeat' (first
      | (with_reducible exact KeptK.refl _) | (simp only [keep_mk, keep_fold])
      | (with_reducible refine ite_kept (fun _ => ?_) fun _ => ?_)
      | (with_reducible refine ite1_kept (fun _ => ?_) fun _ => ?_) | (with_reducible refine when_kept ?_ ?_)
      | (with_reducible refine foldl_kept (fun _ _ => ?_) _ ?_)
      | (with_reducible refine foldl1_kept (fun _ _ => ?_) _ ?_)
      | (with_reducible refine getD_kept (fun _ _ => ?_) ?_)
      | (with_reducible refine (State.granPut_kept _ _ _ _ _).then ?_) | (with_reducible rfl) | split)

theorem State.trySignal_kept : ∀ (s : State) (m : Msg), KeptK s.keep (s.trySignal m).keep := by
  intros; unfold State.trySignal; (try dsimp only)
  repeat' (first
      | (with_reducible exact KeptK.refl _) | (simp only [keep_mk, keep_fold])
      | (with_reducible refine ite_kept (fun _ => ?_) fun _ => ?_)
      | (with_reducible refine (State.dramPut_kept _ _ _ _).then ?_)
      | (simp only [↓State.failMsg_keep, ↓State.sendRsp_keep, ↓State.eccUncorr_keep, ↓State.putMsg_keep, ↓State.mirrorChange_keep, ↓State.count_keep])
      | (with_reducible rfl) | split)

theorem State.trySignals_kept : ∀ (s : State), KeptK s.keep (s.trySignals).keep := by
  intros; unfold State.trySignals; (try dsimp only)
  repeat' (first
      | (with_reducible exact KeptK.refl _) | (simp only [keep_mk, keep_fold])
      | (with_reducible refine foldl_kept (fun _ _ => ?_) _ ?_)
      | (with_reducible refine (State.trySignal_kept _ _).then ?_) | (with_reducible rfl) | split)

theorem State.mirrorFail_kept : ∀ (s : State) (w : MirrorWr), KeptK s.keep (s.mirrorFail w).keep := by
  intros; unfold State.mirrorFail; (try dsimp only)
  repeat' (first
      | (with_reducible exact KeptK.refl _) | (simp only [keep_mk, keep_fold])
      | (with_reducible refine (State.trySignals_kept _).then ?_)
      | (simp only [↓State.goSolo_keep, ↓State.health_keep, ↓State.dropMirror_keep, ↓State.count_keep, ↓State.failGrp_keep])
      | (with_reducible rfl) | split)

theorem issueReads_kept :
    ∀ (send : BulkRead → State → State) (total next : Nat) (rs : List BulkRead) (s : State), (∀ (a : BulkRead) (a_1 : State), KeptK a_1.keep (send a a_1).keep) → KeptK s.keep ((issueReads send total next rs s).snd.snd).keep := by
  intro send total next rs s hk; unfold issueReads
  have go : ∀ (n : Nat) (x : Nat × List BulkRead × State), KeptK x.2.2.keep (issueGo send total n x).2.2.keep := by
    intro n; induction n with
    | zero => intro x; exact KeptK.refl _
    | succ n ih =>
      intro x; obtain ⟨a, b, c⟩ := x; unfold issueGo; dsimp only; split
      · exact (ih _).then (by dsimp only; exact hk _ _)
      · exact KeptK.refl _
  exact go 16 _

theorem State.flagWrite_kept : ∀ (s : State) (e : CEnv) (r : Rec), KeptK s.keep (s.flagWrite e r).keep := by
  intros; unfold State.flagWrite; (try dsimp only)
  repeat' (first
      | (with_reducible exact KeptK.refl _) | (simp only [keep_mk, keep_fold])
      | (with_reducible refine ite_kept (fun _ => ?_) fun _ => ?_)
      | (with_reducible refine getD_kept (fun _ _ => ?_) ?_)
      | (with_reducible refine (State.dramPut_kept _ _ _ _).then ?_) | (with_reducible rfl) | split)

theorem State.clearBacking_kept :
    ∀ (s : State) (r : BitVec 256), KeptK s.keep (s.clearBacking r).keep := fun _ _ => ⟨rfl, ⟨rfl, Nat.le_refl _, Nat.le_refl _⟩, id, id, fun w => memFrom_filter w _⟩

theorem State.installSram_kept : ∀ (s : State) (p : Plan), KeptK s.keep (s.installSram p).keep := by
  intro s p; unfold State.installSram
  refine foldl_kept (fun _ _ => ?_) _ (KeptK.refl _)
  exact ⟨rfl, ⟨rfl, Nat.le_refl _, Nat.le_refl _⟩, id, fun w => memWrite_wf w _ _, id⟩

theorem State.installRegion_kept :
    ∀ (s : State) (old : Option Plan) (promote : Bool) (e : Nat) (r : BitVec 256), KeptK s.keep (s.installRegion old promote e r).keep := by
  intros; unfold State.installRegion; (try dsimp only)
  repeat' (first
      | (with_reducible exact KeptK.refl _) | (simp only [keep_mk, keep_fold])
      | (with_reducible refine ite_kept (fun _ => ?_) fun _ => ?_)
      | (with_reducible refine (State.clearBacking_kept _ _).then ?_)
      | (simp only [↓State.setReg_keep, ↓State.resyncNext_keep, ↓State.failLater_keep]) | (with_reducible rfl)
      | split)

theorem State.installRegions_kept :
    ∀ (s : State) (old : Option Plan) (p : Plan) (promote : Bool), KeptK s.keep (s.installRegions old p promote).keep := by
  intros; unfold State.installRegions; (try dsimp only)
  repeat' (first
      | (with_reducible exact KeptK.refl _) | (simp only [keep_mk, keep_fold])
      | (with_reducible refine foldl_kept (fun _ _ => ?_) _ ?_)
      | (with_reducible refine (State.installRegion_kept _ _ _ _ _).then ?_) | (with_reducible rfl) | split)

theorem State.install_kept :
    ∀ (s : State) (p : Plan) (c : Nat) (o : Option Nat) (promote : Bool), KeptK s.keep (s.install p c o promote).keep := by
  intros; unfold State.install; (try dsimp only)
  repeat' (first
      | (with_reducible exact KeptK.refl _) | (simp only [keep_mk, keep_fold])
      | (with_reducible refine ite_kept (fun _ => ?_) fun _ => ?_)
      | (with_reducible refine foldl_kept (fun _ _ => ?_) _ ?_)
      | (with_reducible refine (State.installSram_kept _ _).then ?_)
      | (with_reducible refine (State.installRegions_kept _ _ _ _).then ?_)
      | (simp only [↓State.clearRecords_keep, ↓State.installChunks_keep, ↓State.pruneOld_keep, ↓State.installTime_keep, ↓State.installRoute_keep, ↓State.installGate_keep, ↓State.awaitStart_keep])
      | (with_reducible rfl) | split)

theorem planCommit_kept : ∀ (c : Call) (s : State), KeptK s.keep ((planCommit c s).st).keep := by
  intros; unfold planCommit; (try dsimp only)
  repeat' (first
      | (with_reducible exact KeptK.refl _) | (simp only [keep_mk, keep_fold])
      | (with_reducible refine ite_kept (fun _ => ?_) fun _ => ?_)
      | (with_reducible refine (State.install_kept _ _ _ _ _).then ?_)
      | (simp only [↓State.complete_keep, ↓refuseCmd_keep]) | (with_reducible rfl) | split)

theorem State.portArg_kept :
    ∀ (s : State) (c : Call) (f : Nat → Verdict), (∀ l, KeptK s.keep (f l).st.keep) → KeptK s.keep (s.portArg c f).st.keep := by
  intro s c f hk; unfold State.portArg; dsimp only
  repeat' (first | (exact KeptK.refl _) | (exact hk _) | split)

theorem State.fusedSend_kept : ∀ (s : State) (e : CEnv) (inst : Nat), KeptK s.keep (s.fusedSend e inst).keep := by
  intros; unfold State.fusedSend; (try dsimp only)
  repeat' (first
      | (with_reducible exact KeptK.refl _) | (simp only [keep_mk, keep_fold])
      | (with_reducible refine ite_kept (fun _ => ?_) fun _ => ?_)
      | (with_reducible refine (State.flagWrite_kept _ _ _).then ?_)
      | (simp only [↓State.endFail_keep, ↓State.collSend_keep, ↓State.health_keep, ↓State.setCh_keep])
      | (with_reducible rfl) | split)

theorem State.fusedRound_kept : ∀ (s : State) (e : CEnv) (r : Rec), KeptK s.keep (s.fusedRound e r).keep := by
  intros; unfold State.fusedRound; (try dsimp only)
  repeat' (first
      | (with_reducible exact KeptK.refl _) | (simp only [keep_mk, keep_fold])
      | (with_reducible refine ite_kept (fun _ => ?_) fun _ => ?_)
      | (with_reducible refine foldl_kept (fun _ _ => ?_) _ ?_)
      | (with_reducible refine (State.fusedSend_kept _ _ _).then ?_)
      | (simp only [↓State.endFail_keep, ↓State.toPeers_keep, ↓State.health_keep, ↓State.setCh_keep])
      | (with_reducible rfl) | split)

theorem State.runCurrent_kept : ∀ (s : State) (e : CEnv) (inst : Nat), KeptK s.keep (s.runCurrent e inst).keep := by
  intros; unfold State.runCurrent; (try dsimp only)
  repeat' (first
      | (with_reducible exact KeptK.refl _) | (simp only [keep_mk, keep_fold])
      | (with_reducible refine ite_kept (fun _ => ?_) fun _ => ?_)
      | (with_reducible refine (State.fusedRound_kept _ _ _).then ?_) | (simp only [↓State.barrier_keep])
      | (with_reducible rfl) | split)

theorem settle_kept : ∀ (e : CEnv) (a : Nat) (a_1 : State), KeptK a_1.keep (settle e a a_1).keep := by
  intro e n; induction n with
  | zero => intro s; exact KeptK.refl _
  | succ n ih =>
    intro s; unfold settle; (try dsimp only)
    repeat' (first
        | (with_reducible refine (ih _).then ?_) | (with_reducible exact KeptK.refl _)
        | (simp only [keep_mk, keep_fold]) | (with_reducible refine ite_kept (fun _ => ?_) fun _ => ?_)
        | (with_reducible refine ite1_kept (fun _ => ?_) fun _ => ?_) | (with_reducible refine when_kept ?_ ?_)
        | (with_reducible refine foldl_kept (fun _ _ => ?_) _ ?_)
        | (with_reducible refine foldl1_kept (fun _ _ => ?_) _ ?_)
        | (with_reducible refine getD_kept (fun _ _ => ?_) ?_)
        | (with_reducible refine (State.runCurrent_kept _ _ _).then ?_)
        | (simp only [↓State.endFail_keep, ↓State.pumpOutputs_keep, ↓State.setCh_keep]) | (with_reducible rfl)
        | split)

theorem State.settled_kept : ∀ (s : State) (e : CEnv), KeptK s.keep (s.settled e).keep := by
  intros; unfold State.settled; (try dsimp only)
  repeat' (first
      | (with_reducible exact KeptK.refl _) | (simp only [keep_mk, keep_fold])
      | (with_reducible refine (settle_kept _ _ _).then ?_) | (with_reducible rfl) | split)

theorem State.failWhere_kept :
    ∀ (s : State) (pick : CEnv → Bool) (cause : Nat), KeptK s.keep (s.failWhere pick cause).keep := by
  intros; unfold State.failWhere; (try dsimp only)
  repeat' (first
      | (with_reducible exact KeptK.refl _) | (simp only [keep_mk, keep_fold])
      | (with_reducible refine ite_kept (fun _ => ?_) fun _ => ?_)
      | (with_reducible refine foldl_kept (fun _ _ => ?_) _ ?_)
      | (with_reducible refine (State.settled_kept _ _).then ?_) | (simp only [↓State.endFail_keep])
      | (with_reducible rfl) | split)

theorem State.leaving_kept : ∀ (s : State) (dest : PState), KeptK s.keep (s.leaving dest).keep := by
  intros; unfold State.leaving; (try dsimp only)
  repeat' (first
      | (with_reducible exact KeptK.refl _) | (simp only [keep_mk, keep_fold])
      | (with_reducible refine ite_kept (fun _ => ?_) fun _ => ?_)
      | (with_reducible refine foldl_kept (fun _ _ => ?_) _ ?_)
      | (with_reducible refine (State.failWhere_kept _ _ _).then ?_)
      | (simp only [↓State.failMsgs_keep, ↓State.stopLinks_keep]) | (with_reducible rfl) | split)

theorem State.sramWrite_kept :
    ∀ (s : State) (ws : List (Nat × List Byte)), KeptK s.keep (s.sramWrite ws).keep := fun s ws =>
  ⟨rfl, ⟨rfl, Nat.le_refl _, Nat.le_refl _⟩, id, fun w => memWrite_foldl_wf (fun x : Nat × List Byte => x.1) (fun x => x.2) ws w, id⟩

theorem State.applyTsi_kept : ∀ (s : State) (e : Env) (r : TsiRes), KeptK s.keep (s.applyTsi e r).keep := by
  intros; unfold State.applyTsi; (try dsimp only)
  repeat' (first
      | (with_reducible exact KeptK.refl _) | (simp only [keep_mk, keep_fold])
      | (with_reducible refine ite_kept (fun _ => ?_) fun _ => ?_)
      | (with_reducible refine foldl_kept (fun _ _ => ?_) _ ?_)
      | (with_reducible refine (State.sramWrite_kept _ _).then ?_)
      | (simp only [↓State.flow_keep, ↓State.modRun_keep, ↓State.setCore_keep, ↓State.foldFlagsAt_keep, ↓State.residueFail_keep])
      | (with_reducible rfl) | split)

theorem State.fence_kept :
    ∀ (s : State) (part cls cause : Nat) (dies : List Nat), KeptK s.keep (s.fence part cls cause dies).keep := by
  intros; unfold State.fence; (try dsimp only)
  repeat' (first
      | (with_reducible exact KeptK.refl _) | (simp only [keep_mk, keep_fold])
      | (with_reducible refine ite_kept (fun _ => ?_) fun _ => ?_)
      | (with_reducible refine (State.failWhere_kept _ _ _).then ?_)
      | (simp only [↓State.setPart_keep, ↓State.failMsgs_keep, ↓State.stopEndpoints_keep, ↓State.event_keep])
      | (with_reducible rfl) | split)

theorem State.unitError_kept : ∀ (s : State) (u : UnitRef), KeptK s.keep (s.unitError u).keep := by
  intros; unfold State.unitError; (try dsimp only)
  repeat' (first
      | (with_reducible exact KeptK.refl _) | (simp only [keep_mk, keep_fold])
      | (with_reducible refine ite_kept (fun _ => ?_) fun _ => ?_)
      | (with_reducible refine foldl_kept (fun _ _ => ?_) _ ?_)
      | (with_reducible refine (State.fence_kept _ _ _ _ _).then ?_)
      | (simp only [↓State.health_keep, ↓State.event_keep]) | (with_reducible rfl) | split)

theorem State.command_kept :
    ∀ (s : State) (m : Nat) (k : CmdRule) (f : Call → State → Verdict), (∀ c s, KeptK s.keep (f c s).st.keep) → KeptK s.keep (s.command m k f).keep := by
  intro s m k f hk; unfold State.command; dsimp only; split
  · rw [settleHead_keep, State.respondMbx_keep]
    repeat' (first | (exact KeptK.refl _) | (exact hk _ _) | split)
  · exact KeptK.refl _

theorem State.absorbMsg_kept :
    ∀ (s : State) (q : MReq) (e : Nat) (r : BitVec 256) (ok : Bool) (gs : List Nat), KeptK s.keep (s.absorbMsg q e r ok gs).keep := by
  intros; unfold State.absorbMsg; (try dsimp only)
  repeat' (first
      | (with_reducible exact KeptK.refl _) | (simp only [keep_mk, keep_fold])
      | (with_reducible refine ite_kept (fun _ => ?_) fun _ => ?_)
      | (with_reducible refine getD_kept (fun _ _ => ?_) ?_)
      | (with_reducible refine (State.trySignal_kept _ _).then ?_)
      | (simp only [↓State.sendRsp_keep, ↓State.settleWrite_keep, ↓State.putMsg_keep, ↓State.mirrorChange_keep])
      | (with_reducible rfl) | split)

theorem State.fail_kept :
    ∀ (s : State) (e : CEnv) (inst etag cause : Nat) (missing : Option Nat), KeptK s.keep (s.fail e inst etag cause missing).keep := by
  intros; unfold State.fail; (try dsimp only)
  repeat' (first
      | (with_reducible exact KeptK.refl _) | (simp only [keep_mk, keep_fold])
      | (with_reducible refine (State.settled_kept _ _).then ?_) | (simp only [↓State.endFail_keep])
      | (with_reducible rfl) | split)

theorem State.sparseFlush_kept : ∀ (s : State) (e : CEnv) (r : Rec), KeptK s.keep (s.sparseFlush e r).keep := by
  intros; unfold State.sparseFlush; (try dsimp only)
  repeat' (first
      | (with_reducible exact KeptK.refl _) | (simp only [keep_mk, keep_fold])
      | (with_reducible refine ite_kept (fun _ => ?_) fun _ => ?_)
      | (with_reducible refine foldl_kept (fun _ _ => ?_) _ ?_)
      | (with_reducible refine (State.fail_kept _ _ _ _ _ _).then ?_)
      | (simp only [↓State.collSend_keep, ↓State.health_keep, ↓State.setCh_keep]) | (with_reducible rfl) | split)

theorem State.xaccRead_kept : ∀ (s : State) (q : MReq) (r : BitVec 256), KeptK s.keep (s.xaccRead q r).keep := by
  intros; unfold State.xaccRead; (try dsimp only)
  repeat' (first
      | (with_reducible exact KeptK.refl _) | (simp only [keep_mk, keep_fold])
      | (with_reducible refine ite_kept (fun _ => ?_) fun _ => ?_)
      | (with_reducible refine foldl_kept (fun _ _ => ?_) _ ?_) | (with_reducible refine getD_kept (fun _ _ => ?_) ?_)
      | (with_reducible refine (State.dramPut_kept _ _ _ _).then ?_)
      | (simp only [↓State.sendRsp_keep, ↓State.eccUncorr_keep, ↓State.respond_keep, ↓State.health_keep, ↓State.count_keep])
      | (with_reducible rfl) | split)

theorem State.mpPacket_kept :
    ∀ (s : State) (x : Steered) (f : State → State), (∀ (a : State), KeptK a.keep (f a).keep) → KeptK s.keep (s.mpPacket x f).keep := by
  intros; rename_i hk; unfold State.mpPacket; (try dsimp only)
  repeat' (first
      | (with_reducible refine (hk _  ).then ?_) | (with_reducible exact KeptK.refl _)
      | (simp only [keep_mk, keep_fold]) | (with_reducible refine ite_kept (fun _ => ?_) fun _ => ?_)
      | (with_reducible refine ite1_kept (fun _ => ?_) fun _ => ?_) | (with_reducible refine when_kept ?_ ?_)
      | (with_reducible refine foldl_kept (fun _ _ => ?_) _ ?_)
      | (with_reducible refine foldl1_kept (fun _ _ => ?_) _ ?_)
      | (with_reducible refine getD_kept (fun _ _ => ?_) ?_) | (simp only [↓State.checkInt_keep, ↓State.count_keep])
      | (with_reducible rfl) | split)

theorem State.xaccWrite_kept :
    ∀ (s : State) (cl : Nat) (r : BitVec 256) (e0 : Nat) (bs : List Byte), KeptK s.keep (s.xaccWrite cl r e0 bs).keep := by
  intros; unfold State.xaccWrite; (try dsimp only)
  repeat' (first
      | (with_reducible exact KeptK.refl _) | (simp only [keep_mk, keep_fold])
      | (with_reducible refine foldl_kept (fun _ _ => ?_) _ ?_)
      | (with_reducible refine (State.dramPut_kept _ _ _ _).then ?_) | (with_reducible rfl) | split)

theorem State.chunkTimer_kept : ∀ (s : State) (e : CEnv), KeptK s.keep (s.chunkTimer e).keep := by
  intros; unfold State.chunkTimer; (try dsimp only)
  repeat' (first
      | (with_reducible exact KeptK.refl _) | (simp only [keep_mk, keep_fold])
      | (with_reducible refine ite_kept (fun _ => ?_) fun _ => ?_)
      | (with_reducible refine (State.fail_kept _ _ _ _ _ _).then ?_) | (with_reducible rfl) | split)

theorem State.identity_kept : ∀ (s : State) (m : BitVec 384) (svn : Nat), KeptK s.keep (s.identity m svn).keep := by
  intro s m svn; unfold State.identity; dsimp only; split
  · exact KeptK.refl s.keep
  · split
    · exact KeptK.refl s.keep
    · rename_i h
      exact ⟨rfl, ⟨rfl, Nat.le_refl _, Nat.le_succ _⟩, fun x => ⟨x.1, by show s.fuse.lmsCtr + 1 ≤ 4096; omega⟩, id, id⟩

theorem State.decideMem_kept :
    ∀ (s : State) (q : MReq) (ups : List (Nat × Nat)) (f : Target → State → State), (∀ (a : Target) (a_1 : State), KeptK a_1.keep (f a a_1).keep) → KeptK s.keep (s.decideMem q ups f).keep := by
  intros; rename_i hk; unfold State.decideMem; (try dsimp only)
  repeat' (first
      | (with_reducible refine (hk _ _  ).then ?_) | (with_reducible exact KeptK.refl _)
      | (simp only [keep_mk, keep_fold]) | (with_reducible refine ite_kept (fun _ => ?_) fun _ => ?_)
      | (with_reducible refine ite1_kept (fun _ => ?_) fun _ => ?_) | (with_reducible refine when_kept ?_ ?_)
      | (with_reducible refine foldl_kept (fun _ _ => ?_) _ ?_)
      | (with_reducible refine foldl1_kept (fun _ _ => ?_) _ ?_)
      | (with_reducible refine getD_kept (fun _ _ => ?_) ?_)
      | (simp only [↓State.checkInt_keep, ↓State.refuseMem_keep, ↓State.readErrors_keep, ↓State.msgTimers_keep, ↓State.noteMsg_keep])
      | (with_reducible rfl) | split)

theorem State.accumulate_kept :
    ∀ (s : State) (cl : Nat) (r : BitVec 256) (e0 : Nat) (fs : List (Lane → Lane)), KeptK s.keep ((s.accumulate cl r e0 fs).fst).keep := by
  intros; unfold State.accumulate; (try dsimp only)
  repeat' (first
      | (with_reducible exact KeptK.refl _) | (simp only [keep_mk, keep_fold])
      | (with_reducible refine ite_kept (fun _ => ?_) fun _ => ?_)
      | (with_reducible refine ite1_kept (fun _ => ?_) fun _ => ?_) | (with_reducible refine when_kept ?_ ?_)
      | (with_reducible refine foldl_kept (fun _ _ => ?_) _ ?_)
      | (with_reducible refine foldl1_kept (fun _ _ => ?_) _ ?_)
      | (with_reducible refine getD_kept (fun _ _ => ?_) ?_)
      | (with_reducible refine (State.dramPut_kept _ _ _ _).then ?_) | (simp only [↓State.eccUncorr_keep])
      | (with_reducible rfl) | split)

theorem State.localWrite_kept :
    ∀ (s : State) (g : Nat) (d : BitVec 128) (off : Nat) (bs : List Byte), KeptK s.keep (s.localWrite g d off bs).keep := fun _ _ _ _ _ => ⟨rfl, ⟨rfl, Nat.le_refl _, Nat.le_refl _⟩, id, fun w => memWrite_wf w _ _, id⟩

theorem State.snapArg_kept :
    ∀ (s : State) (c : Call) (q : BitVec 256 → Option Nat) (f : BitVec 256 → SnapOp → State), (∀ r o, KeptK s.keep (f r o).keep) → KeptK s.keep (s.snapArg c q f).st.keep := by
  intro s c q f hk; unfold State.snapArg; dsimp only
  repeat' (first | (exact KeptK.refl _) | (exact hk _ _) | split)

theorem State.bootRun_kept : ∀ (s : State) (im : List Byte), KeptK s.keep (s.bootRun im).keep := by
  intro s im; unfold State.bootRun; dsimp only
  simp only [keep_mk, keep_fold]
  with_reducible refine (State.identity_kept _ _ _).then ?_
  exact ⟨rfl, ⟨rfl, Nat.le_max_left _ _, Nat.le_refl _⟩, fun x => ⟨by have : s.fuse.floor ≤ 64 := x.1; show max _ _ ≤ _; omega, x.2⟩, id, id⟩

theorem State.bootLanded_kept : ∀ (s : State), KeptK s.keep (s.bootLanded).keep := by
  intros; unfold State.bootLanded; (try dsimp only)
  repeat' (first
      | (with_reducible exact KeptK.refl _) | (simp only [keep_mk, keep_fold])
      | (with_reducible refine ite_kept (fun _ => ?_) fun _ => ?_)
      | (with_reducible refine (State.bootRun_kept _ _).then ?_)
      | (simp only [↓State.bootFail_keep, ↓State.bootIssue_keep]) | (with_reducible rfl) | split)

theorem State.bootAnswer_kept :
    ∀ (s : State) (r : BulkRead) (status : Nat) (data : List Byte), KeptK s.keep (s.bootAnswer r status data).keep := by
  intros; unfold State.bootAnswer; (try dsimp only)
  repeat' (first
      | (with_reducible exact KeptK.refl _) | (simp only [keep_mk, keep_fold])
      | (with_reducible refine ite_kept (fun _ => ?_) fun _ => ?_)
      | (with_reducible refine (State.bootLanded_kept _).then ?_) | (simp only [↓State.fetchEnd_keep])
      | (with_reducible rfl) | split)

theorem State.flush_kept : ∀ (s : State) (e : CEnv) (r : Rec), KeptK s.keep (s.flush e r).keep := by
  intros; unfold State.flush; (try dsimp only)
  repeat' (first
      | (with_reducible exact KeptK.refl _) | (simp only [keep_mk, keep_fold])
      | (with_reducible refine ite_kept (fun _ => ?_) fun _ => ?_)
      | (with_reducible refine ite1_kept (fun _ => ?_) fun _ => ?_) | (with_reducible refine when_kept ?_ ?_)
      | (with_reducible refine foldl_kept (fun _ _ => ?_) _ ?_)
      | (with_reducible refine foldl1_kept (fun _ _ => ?_) _ ?_)
      | (with_reducible refine getD_kept (fun _ _ => ?_) ?_)
      | (with_reducible refine (State.flagWrite_kept _ _ _).then ?_)
      | (with_reducible refine (State.sparseFlush_kept _ _ _).then ?_)
      | (simp only [↓sendApp_keep, ↓sendPos_keep, ↓State.setCh_keep]) | (with_reducible rfl) | split)

theorem State.heldReset_kept :
    ∀ (s : State) (aon : Bool), KeptK s.keep (s.heldReset aon).keep := fun _ _ => ⟨rfl, ⟨rfl, Nat.le_refl _, Nat.le_refl _⟩, id, fun _ => rfl, fun _ => rfl⟩

theorem State.tsi_kept :
    ∀ (s : State) (g op : Nat) (f : TsiFields) (usesC : Bool) (eff : Env → Core → State → TsiRes), KeptK s.keep (s.tsi g op f usesC eff).keep := by
  intros; unfold State.tsi; (try dsimp only)
  repeat' (first
      | (with_reducible exact KeptK.refl _) | (simp only [keep_mk, keep_fold])
      | (with_reducible refine ite_kept (fun _ => ?_) fun _ => ?_)
      | (with_reducible refine (State.applyTsi_kept _ _ _).then ?_) | (simp only [↓State.flow_keep])
      | (with_reducible rfl) | split)

theorem State.takeFrame_kept :
    ∀ (s : State) (f : Frame) (take : State → State), (∀ (a : State), KeptK a.keep (take a).keep) → KeptK s.keep (s.takeFrame f take).keep := by
  intros; rename_i hk; unfold State.takeFrame; (try dsimp only)
  repeat' (first
      | (with_reducible refine (hk _  ).then ?_) | (with_reducible exact KeptK.refl _)
      | (simp only [keep_mk, keep_fold]) | (with_reducible refine ite_kept (fun _ => ?_) fun _ => ?_)
      | (with_reducible refine ite1_kept (fun _ => ?_) fun _ => ?_) | (with_reducible refine when_kept ?_ ?_)
      | (with_reducible refine foldl_kept (fun _ _ => ?_) _ ?_)
      | (with_reducible refine foldl1_kept (fun _ _ => ?_) _ ?_)
      | (with_reducible refine getD_kept (fun _ _ => ?_) ?_) | (simp only [↓State.count_keep]) | (with_reducible rfl)
      | split)

theorem State.trailRx_kept :
    ∀ (s : State) (f : Frame) (mine : Bool) (take : State → State), (∀ (a : State), KeptK a.keep (take a).keep) → KeptK s.keep (s.trailRx f mine take).keep := by
  intros; rename_i hk; unfold State.trailRx; (try dsimp only)
  repeat' (first
      | (with_reducible refine (hk _  ).then ?_) | (with_reducible exact KeptK.refl _)
      | (simp only [keep_mk, keep_fold]) | (with_reducible refine ite_kept (fun _ => ?_) fun _ => ?_)
      | (with_reducible refine ite1_kept (fun _ => ?_) fun _ => ?_) | (with_reducible refine when_kept ?_ ?_)
      | (with_reducible refine foldl_kept (fun _ _ => ?_) _ ?_)
      | (with_reducible refine foldl1_kept (fun _ _ => ?_) _ ?_)
      | (with_reducible refine getD_kept (fun _ _ => ?_) ?_)
      | (with_reducible refine (State.takeFrame_kept _ _ _ (fun _ => ?_)).then ?_)
      | (simp only [↓State.forward_keep, ↓State.count_keep]) | (with_reducible rfl) | split)

theorem State.landFetch_kept :
    ∀ (s : State) (g : Nat) (r : Run) (q : CoreReq) (st : Nat) (data : List Byte), KeptK s.keep (s.landFetch g r q st data).keep := by
  intros; unfold State.landFetch; (try dsimp only)
  repeat' (first
      | (with_reducible exact KeptK.refl _) | (simp only [keep_mk, keep_fold])
      | (with_reducible refine ite_kept (fun _ => ?_) fun _ => ?_)
      | (with_reducible refine (State.localWrite_kept _ _ _ _ _).then ?_)
      | (simp only [↓State.resumeWait_keep, ↓State.setRun_keep]) | (with_reducible rfl) | split)

theorem State.absorb_kept :
    ∀ (s : State) (e : CEnv) (d inst : Nat) (h : BitVec 256) (pay : List Byte) (sl : List (Nat × List Byte)), KeptK s.keep (s.absorb e d inst h pay sl).keep := by
  intros; unfold State.absorb; (try dsimp only)
  repeat' (first
      | (with_reducible exact KeptK.refl _) | (simp only [keep_mk, keep_fold])
      | (with_reducible refine ite_kept (fun _ => ?_) fun _ => ?_)
      | (with_reducible refine (State.settled_kept _ _).then ?_)
      | (simp only [↓State.present_keep, ↓State.sparseAbsorb_keep, ↓State.count_keep, ↓State.createRec_keep, ↓State.setCh_keep])
      | (with_reducible rfl) | split)

theorem State.contribTests_kept : ∀ (s : State) (e : CEnv) (p : Packet), KeptK s.keep (s.contribTests e p).keep := by
  intros; unfold State.contribTests; (try dsimp only)
  repeat' (first
      | (with_reducible exact KeptK.refl _) | (simp only [keep_mk, keep_fold])
      | (with_reducible refine ite_kept (fun _ => ?_) fun _ => ?_)
      | (with_reducible refine getD_kept (fun _ _ => ?_) ?_)
      | (with_reducible refine (State.absorb_kept _ _ _ _ _ _ _).then ?_)
      | (simp only [↓State.takeInst_keep, ↓State.refuse_keep, ↓State.count_keep]) | (with_reducible rfl) | split)

theorem State.emitOp_kept :
    ∀ (s : State) (g op : Nat) (f : TsiFields) (eff : State → Env → State), (∀ (a : State) (a_1 : Env), KeptK a.keep (eff a a_1).keep) → KeptK s.keep (s.emitOp g op f eff).keep := by
  intros; rename_i hk; unfold State.emitOp; (try dsimp only)
  repeat' (first
      | (with_reducible refine (hk _ _  ).then ?_) | (with_reducible exact KeptK.refl _)
      | (simp only [keep_mk, keep_fold]) | (with_reducible refine ite_kept (fun _ => ?_) fun _ => ?_)
      | (with_reducible refine ite1_kept (fun _ => ?_) fun _ => ?_) | (with_reducible refine when_kept ?_ ?_)
      | (with_reducible refine foldl_kept (fun _ _ => ?_) _ ?_)
      | (with_reducible refine foldl1_kept (fun _ _ => ?_) _ ?_)
      | (with_reducible refine getD_kept (fun _ _ => ?_) ?_) | (simp only [↓State.flow_keep]) | (with_reducible rfl)
      | split)

theorem State.coreEcc_kept : ∀ (s : State) (g : Nat) (id : CtxId), KeptK s.keep (s.coreEcc g id).keep := by
  intros; unfold State.coreEcc; (try dsimp only)
  repeat' (first
      | (with_reducible exact KeptK.refl _) | (simp only [keep_mk, keep_fold])
      | (with_reducible refine ite_kept (fun _ => ?_) fun _ => ?_)
      | (with_reducible refine (State.unitError_kept _ _).then ?_)
      | (simp only [↓State.faultAt_keep, ↓State.setCore_keep]) | (with_reducible rfl) | split)

theorem State.ctlOp_kept :
    ∀ (s : State) (g op : Nat) (f : TsiFields) (eff : State → Env → State), (∀ (a : State) (a_1 : Env), KeptK a.keep (eff a a_1).keep) → KeptK s.keep (s.ctlOp g op f eff).keep := by
  intros; rename_i hk; unfold State.ctlOp; (try dsimp only)
  repeat' (first
      | (with_reducible refine (hk _ _  ).then ?_) | (with_reducible exact KeptK.refl _)
      | (simp only [keep_mk, keep_fold]) | (with_reducible refine ite_kept (fun _ => ?_) fun _ => ?_)
      | (with_reducible refine ite1_kept (fun _ => ?_) fun _ => ?_) | (with_reducible refine when_kept ?_ ?_)
      | (with_reducible refine foldl_kept (fun _ _ => ?_) _ ?_)
      | (with_reducible refine foldl1_kept (fun _ _ => ?_) _ ?_)
      | (with_reducible refine getD_kept (fun _ _ => ?_) ?_) | (with_reducible rfl) | split)

theorem partDestroy_kept : ∀ (c : Call) (s : State), KeptK s.keep ((partDestroy c s).st).keep := by
  intros; unfold partDestroy; (try dsimp only)
  repeat' (first
      | (with_reducible exact KeptK.refl _) | (simp only [keep_mk, keep_fold])
      | (with_reducible refine ite_kept (fun _ => ?_) fun _ => ?_)
      | (with_reducible refine (State.failWhere_kept _ _ _).then ?_)
      | (simp only [↓State.setPart_keep, ↓State.failMsgs_keep, ↓Fn.disable_keep, ↓noChange_keep, ↓deferred_keep, ↓State.stopEndpoints_keep, ↓refuseCmd_keep])
      | (with_reducible rfl) | split)

theorem State.timed_kept : ∀ (s : State) (e : CEnv), KeptK s.keep (s.timed e).keep := by
  intros; unfold State.timed; (try dsimp only)
  repeat' (first
      | (with_reducible exact KeptK.refl _) | (simp only [keep_mk, keep_fold])
      | (with_reducible refine ite_kept (fun _ => ?_) fun _ => ?_)
      | (with_reducible refine (State.chunkTimer_kept _ _).then ?_) | (with_reducible rfl) | split)

theorem State.decide13_kept :
    ∀ (s : State) (cl : Nat) (x : Steered) (f : CEnv → State → State), (∀ (a : CEnv) (a_1 : State), KeptK a_1.keep (f a a_1).keep) → KeptK s.keep (s.decide13 cl x f).keep := by
  intros; rename_i hk; unfold State.decide13; (try dsimp only)
  repeat' (first
      | (with_reducible refine (hk _ _  ).then ?_) | (with_reducible exact KeptK.refl _)
      | (simp only [keep_mk, keep_fold]) | (with_reducible refine ite_kept (fun _ => ?_) fun _ => ?_)
      | (with_reducible refine ite1_kept (fun _ => ?_) fun _ => ?_) | (with_reducible refine when_kept ?_ ?_)
      | (with_reducible refine foldl_kept (fun _ _ => ?_) _ ?_)
      | (with_reducible refine foldl1_kept (fun _ _ => ?_) _ ?_)
      | (with_reducible refine getD_kept (fun _ _ => ?_) ?_) | (with_reducible refine (State.timed_kept _ _).then ?_)
      | (simp only [↓State.powerRefuse_keep, ↓State.checkInt_keep, ↓State.refuse_keep, ↓State.sendAnswer_keep, ↓State.count_keep])
      | (with_reducible rfl) | split)

theorem State.buddyFail_kept : ∀ (s : State), KeptK s.keep (s.buddyFail).keep := by
  intros; unfold State.buddyFail; (try dsimp only)
  repeat' (first
      | (with_reducible exact KeptK.refl _) | (simp only [keep_mk, keep_fold])
      | (with_reducible refine ite_kept (fun _ => ?_) fun _ => ?_)
      | (with_reducible refine foldl_kept (fun _ _ => ?_) _ ?_)
      | (with_reducible refine (State.fence_kept _ _ _ _ _).then ?_)
      | (simp only [↓State.setReg_keep, ↓State.promoteDone_keep]) | (with_reducible rfl) | split)

theorem State.commitNow_kept :
    ∀ (s : State) (promote : Bool) (after : Plan → Arm → State → State), (∀ (a : Plan) (a_1 : Arm) (a_2 : State), KeptK a_2.keep (after a a_1 a_2).keep) → KeptK s.keep (s.commitNow promote after).keep := by
  intros; rename_i hk; unfold State.commitNow; (try dsimp only)
  repeat' (first
      | (with_reducible refine (hk _ _ _  ).then ?_) | (with_reducible exact KeptK.refl _)
      | (simp only [keep_mk, keep_fold]) | (with_reducible refine ite_kept (fun _ => ?_) fun _ => ?_)
      | (with_reducible refine ite1_kept (fun _ => ?_) fun _ => ?_) | (with_reducible refine when_kept ?_ ?_)
      | (with_reducible refine foldl_kept (fun _ _ => ?_) _ ?_)
      | (with_reducible refine foldl1_kept (fun _ _ => ?_) _ ?_)
      | (with_reducible refine getD_kept (fun _ _ => ?_) ?_)
      | (with_reducible refine (State.install_kept _ _ _ _ _).then ?_) | (simp only [↓State.armPoint_keep])
      | (with_reducible rfl) | split)

theorem powerStateSet_kept : ∀ (c : Call) (s : State), KeptK s.keep ((powerStateSet c s).st).keep := by
  intros; unfold powerStateSet; (try dsimp only)
  repeat' (first
      | (with_reducible exact KeptK.refl _) | (simp only [keep_mk, keep_fold])
      | (with_reducible refine ite_kept (fun _ => ?_) fun _ => ?_)
      | (with_reducible refine (State.leaving_kept _ _).then ?_) | (simp only [↓deferred_keep, ↓refuseCmd_keep])
      | (with_reducible rfl) | split)

theorem State.mirrorOk_kept : ∀ (s : State) (w : MirrorWr), KeptK s.keep (s.mirrorOk w).keep := by
  intros; unfold State.mirrorOk; (try dsimp only)
  repeat' (first
      | (with_reducible exact KeptK.refl _) | (simp only [keep_mk, keep_fold])
      | (with_reducible refine ite_kept (fun _ => ?_) fun _ => ?_)
      | (with_reducible refine (State.trySignals_kept _).then ?_)
      | (simp only [↓State.confirmLater_keep, ↓State.confirm_keep, ↓State.resyncNext_keep, ↓State.dropMirror_keep])
      | (with_reducible rfl) | split)

theorem State.trailMp_kept :
    ∀ (s : State) (f : Frame) (type : Nat) (sub : Option Nat) (take : State → State), (∀ (a : State), KeptK a.keep (take a).keep) → KeptK s.keep (s.trailMp f type sub take).keep := by
  intros; rename_i hk; unfold State.trailMp; (try dsimp only)
  repeat' (first
      | (with_reducible refine (hk _  ).then ?_) | (with_reducible exact KeptK.refl _)
      | (simp only [keep_mk, keep_fold]) | (with_reducible refine ite_kept (fun _ => ?_) fun _ => ?_)
      | (with_reducible refine ite1_kept (fun _ => ?_) fun _ => ?_) | (with_reducible refine when_kept ?_ ?_)
      | (with_reducible refine foldl_kept (fun _ _ => ?_) _ ?_)
      | (with_reducible refine foldl1_kept (fun _ _ => ?_) _ ?_)
      | (with_reducible refine getD_kept (fun _ _ => ?_) ?_)
      | (with_reducible refine (State.trailRx_kept _ _ _ _ (fun _ => ?_)).then ?_) | (with_reducible rfl) | split)

theorem State.parkOut_kept : ∀ (s : State) (g : Nat), KeptK s.keep (s.parkOut g).keep := by
  intros; unfold State.parkOut; (try dsimp only)
  repeat' (first
      | (with_reducible exact KeptK.refl _) | (simp only [keep_mk, keep_fold])
      | (with_reducible refine (State.sramWrite_kept _ _).then ?_) | (with_reducible rfl) | split)

theorem State.dispatch_kept :
    ∀ (s : State) (g : Nat) (x : Ctx) (p : Plan) (q : ProgCfg) (k : HKind) (pc : Nat) (sl : Option Slice), KeptK s.keep (s.dispatch g x p q k pc sl).keep := by
  intros; unfold State.dispatch; (try dsimp only)
  repeat' (first
      | (with_reducible exact KeptK.refl _) | (simp only [keep_mk, keep_fold])
      | (with_reducible refine ite_kept (fun _ => ?_) fun _ => ?_)
      | (with_reducible refine (State.parkOut_kept _ _).then ?_) | (simp only [↓State.setCore_keep])
      | (with_reducible rfl) | split)

theorem next_kept {s a t : State} (h1 : KeptK s.keep a.keep) (h : (Host.Outcome.next a : Out State) = .next t) : KeptK s.keep t.keep :=
  (Host.Outcome.next.inj h) ▸ h1

theorem onUnit_kept {c : Bool} {s a t : State} (h1 : KeptK s.keep a.keep) (h : onUnit c a = .next t) : KeptK s.keep t.keep := by
  unfold onUnit at h; split at h
  · exact (Host.Outcome.next.inj h) ▸ h1
  · cases h

theorem execRecv_kept :
    ∀ (g : Nat) (f : TsiFields) (s : State) (t' : State), execRecv g f s = .next t' → KeptK s.keep t'.keep := fun _ _ _ _ h =>
  onUnit_kept (State.tsi_kept _ _ _ _ _ _) h

theorem execLdv_kept :
    ∀ (g : Nat) (f : TsiFields) (s : State) (t' : State), execLdv g f s = .next t' → KeptK s.keep t'.keep := fun _ _ _ _ h =>
  onUnit_kept (State.tsi_kept _ _ _ _ _ _) h

theorem execStv_kept :
    ∀ (g : Nat) (f : TsiFields) (s : State) (t' : State), execStv g f s = .next t' → KeptK s.keep t'.keep := fun _ _ _ _ h =>
  onUnit_kept (State.tsi_kept _ _ _ _ _ _) h

theorem execLds_kept :
    ∀ (g : Nat) (f : TsiFields) (s : State) (t' : State), execLds g f s = .next t' → KeptK s.keep t'.keep := fun _ _ _ _ h =>
  onUnit_kept (State.tsi_kept _ _ _ _ _ _) h

theorem execMovi_kept :
    ∀ (g : Nat) (f : TsiFields) (s : State) (t' : State), execMovi g f s = .next t' → KeptK s.keep t'.keep := fun _ _ _ _ h =>
  onUnit_kept (State.tsi_kept _ _ _ _ _ _) h

theorem execSaddi_kept :
    ∀ (g : Nat) (f : TsiFields) (s : State) (t' : State), execSaddi g f s = .next t' → KeptK s.keep t'.keep := fun _ _ _ _ h =>
  onUnit_kept (State.tsi_kept _ _ _ _ _ _) h

theorem execVmov_kept :
    ∀ (g : Nat) (f : TsiFields) (s : State) (t' : State), execVmov g f s = .next t' → KeptK s.keep t'.keep := fun _ _ _ _ h =>
  onUnit_kept (State.tsi_kept _ _ _ _ _ _) h

theorem execMovm_kept :
    ∀ (g : Nat) (f : TsiFields) (s : State) (t' : State), execMovm g f s = .next t' → KeptK s.keep t'.keep := fun _ _ _ _ h =>
  onUnit_kept (State.tsi_kept _ _ _ _ _ _) h

theorem execVsplat_kept :
    ∀ (g : Nat) (f : TsiFields) (s : State) (t' : State), execVsplat g f s = .next t' → KeptK s.keep t'.keep := fun _ _ _ _ h =>
  onUnit_kept (State.tsi_kept _ _ _ _ _ _) h

theorem execXadd_kept :
    ∀ (g : Nat) (f : TsiFields) (s : State) (t' : State), execXadd g f s = .next t' → KeptK s.keep t'.keep := fun _ _ _ _ h =>
  onUnit_kept (State.tsi_kept _ _ _ _ _ _) h

theorem execXcin_kept :
    ∀ (g : Nat) (f : TsiFields) (s : State) (t' : State), execXcin g f s = .next t' → KeptK s.keep t'.keep := fun _ _ _ _ h =>
  onUnit_kept (State.tsi_kept _ _ _ _ _ _) h

theorem execXclr_kept :
    ∀ (g : Nat) (f : TsiFields) (s : State) (t' : State), execXclr g f s = .next t' → KeptK s.keep t'.keep := fun _ _ _ _ h =>
  onUnit_kept (State.tsi_kept _ _ _ _ _ _) h

theorem execXmov_kept :
    ∀ (g : Nat) (f : TsiFields) (s : State) (t' : State), execXmov g f s = .next t' → KeptK s.keep t'.keep := fun _ _ _ _ h =>
  onUnit_kept (State.tsi_kept _ _ _ _ _ _) h

theorem execXfold_kept :
    ∀ (g : Nat) (f : TsiFields) (s : State) (t' : State), execXfold g f s = .next t' → KeptK s.keep t'.keep := fun _ _ _ _ h =>
  onUnit_kept (State.tsi_kept _ _ _ _ _ _) h

theorem execXpadd_kept :
    ∀ (g : Nat) (f : TsiFields) (s : State) (t' : State), execXpadd g f s = .next t' → KeptK s.keep t'.keep := fun _ _ _ _ h =>
  onUnit_kept (State.tsi_kept _ _ _ _ _ _) h

theorem execXssum_kept :
    ∀ (g : Nat) (f : TsiFields) (s : State) (t' : State), execXssum g f s = .next t' → KeptK s.keep t'.keep := fun _ _ _ _ h =>
  onUnit_kept (State.tsi_kept _ _ _ _ _ _) h

theorem execVbit_kept :
    ∀ (g : Nat) (f : TsiFields) (s : State) (t' : State), execVbit g f s = .next t' → KeptK s.keep t'.keep := fun _ _ _ _ h =>
  onUnit_kept (State.tsi_kept _ _ _ _ _ _) h

theorem execDot_kept :
    ∀ (g : Nat) (f : TsiFields) (s : State) (t' : State), execDot g f s = .next t' → KeptK s.keep t'.keep := fun _ _ _ _ h =>
  onUnit_kept (State.tsi_kept _ _ _ _ _ _) h

theorem execSsq_kept :
    ∀ (g : Nat) (f : TsiFields) (s : State) (t' : State), execSsq g f s = .next t' → KeptK s.keep t'.keep := fun _ _ _ _ h =>
  onUnit_kept (State.tsi_kept _ _ _ _ _ _) h

theorem execXpsum_kept :
    ∀ (g : Nat) (f : TsiFields) (s : State) (t' : State), execXpsum g f s = .next t' → KeptK s.keep t'.keep := fun _ _ _ _ h =>
  onUnit_kept (State.tsi_kept _ _ _ _ _ _) h

theorem execExpand_kept :
    ∀ (g : Nat) (f : TsiFields) (s : State) (t' : State), execExpand g f s = .next t' → KeptK s.keep t'.keep := fun _ _ _ _ h =>
  onUnit_kept (State.tsi_kept _ _ _ _ _ _) h

theorem execRnd_kept :
    ∀ (g : Nat) (f : TsiFields) (s : State) (t' : State), execRnd g f s = .next t' → KeptK s.keep t'.keep := fun _ _ _ _ h =>
  onUnit_kept (State.tsi_kept _ _ _ _ _ _) h

theorem execCvt_kept :
    ∀ (g : Nat) (f : TsiFields) (s : State) (t' : State), execCvt g f s = .next t' → KeptK s.keep t'.keep := fun _ _ _ _ h =>
  onUnit_kept (State.tsi_kept _ _ _ _ _ _) h

theorem execMxq_kept :
    ∀ (g : Nat) (f : TsiFields) (s : State) (t' : State), execMxq g f s = .next t' → KeptK s.keep t'.keep := fun _ _ _ _ h =>
  onUnit_kept (State.tsi_kept _ _ _ _ _ _) h

theorem execXcenc_kept :
    ∀ (g : Nat) (f : TsiFields) (s : State) (t' : State), execXcenc g f s = .next t' → KeptK s.keep t'.keep := by
  intros; rename_i h; unfold execXcenc at h; (try dsimp only at h); refine onUnit_kept ?_ h
  (repeat' (first
      | (with_reducible exact KeptK.refl _) | (simp only [keep_mk, keep_fold])
      | (with_reducible refine (State.emitOp_kept _ _ _ _ _ (fun _ _ => ?_)).then ?_)
      | (simp only [↓State.xcencEff_keep, ↓State.tick_keep]) | (with_reducible rfl) | split))

theorem execVmax_kept :
    ∀ (g : Nat) (f : TsiFields) (s : State) (t' : State), execVmax g f s = .next t' → KeptK s.keep t'.keep := fun _ _ _ _ h =>
  onUnit_kept (State.tsi_kept _ _ _ _ _ _) h

theorem execVmin_kept :
    ∀ (g : Nat) (f : TsiFields) (s : State) (t' : State), execVmin g f s = .next t' → KeptK s.keep t'.keep := fun _ _ _ _ h =>
  onUnit_kept (State.tsi_kept _ _ _ _ _ _) h

theorem execHmax_kept :
    ∀ (g : Nat) (f : TsiFields) (s : State) (t' : State), execHmax g f s = .next t' → KeptK s.keep t'.keep := fun _ _ _ _ h =>
  onUnit_kept (State.tsi_kept _ _ _ _ _ _) h

theorem execHmin_kept :
    ∀ (g : Nat) (f : TsiFields) (s : State) (t' : State), execHmin g f s = .next t' → KeptK s.keep t'.keep := fun _ _ _ _ h =>
  onUnit_kept (State.tsi_kept _ _ _ _ _ _) h

theorem execVflag_kept :
    ∀ (g : Nat) (f : TsiFields) (s : State) (t' : State), execVflag g f s = .next t' → KeptK s.keep t'.keep := fun _ _ _ _ h =>
  onUnit_kept (State.tsi_kept _ _ _ _ _ _) h

theorem execVcmp_kept :
    ∀ (g : Nat) (f : TsiFields) (s : State) (t' : State), execVcmp g f s = .next t' → KeptK s.keep t'.keep := fun _ _ _ _ h =>
  onUnit_kept (State.tsi_kept _ _ _ _ _ _) h

theorem execVcmps_kept :
    ∀ (g : Nat) (f : TsiFields) (s : State) (t' : State), execVcmps g f s = .next t' → KeptK s.keep t'.keep := fun _ _ _ _ h =>
  onUnit_kept (State.tsi_kept _ _ _ _ _ _) h

theorem execMlog_kept :
    ∀ (g : Nat) (f : TsiFields) (s : State) (t' : State), execMlog g f s = .next t' → KeptK s.keep t'.keep := fun _ _ _ _ h =>
  onUnit_kept (State.tsi_kept _ _ _ _ _ _) h

theorem execMpop_kept :
    ∀ (g : Nat) (f : TsiFields) (s : State) (t' : State), execMpop g f s = .next t' → KeptK s.keep t'.keep := fun _ _ _ _ h =>
  onUnit_kept (State.tsi_kept _ _ _ _ _ _) h

theorem execFilt_kept :
    ∀ (g : Nat) (f : TsiFields) (s : State) (t' : State), execFilt g f s = .next t' → KeptK s.keep t'.keep := fun _ _ _ _ h =>
  onUnit_kept (State.tsi_kept _ _ _ _ _ _) h

theorem execFidx_kept :
    ∀ (g : Nat) (f : TsiFields) (s : State) (t' : State), execFidx g f s = .next t' → KeptK s.keep t'.keep := fun _ _ _ _ h =>
  onUnit_kept (State.tsi_kept _ _ _ _ _ _) h

theorem execVsel_kept :
    ∀ (g : Nat) (f : TsiFields) (s : State) (t' : State), execVsel g f s = .next t' → KeptK s.keep t'.keep := fun _ _ _ _ h =>
  onUnit_kept (State.tsi_kept _ _ _ _ _ _) h

theorem execMkrec_kept :
    ∀ (g : Nat) (f : TsiFields) (s : State) (t' : State), execMkrec g f s = .next t' → KeptK s.keep t'.keep := fun _ _ _ _ h =>
  onUnit_kept (State.tsi_kept _ _ _ _ _ _) h

theorem execRinit_kept :
    ∀ (g : Nat) (f : TsiFields) (s : State) (t' : State), execRinit g f s = .next t' → KeptK s.keep t'.keep := fun _ _ _ _ h =>
  onUnit_kept (State.tsi_kept _ _ _ _ _ _) h

theorem execSort_kept :
    ∀ (g : Nat) (f : TsiFields) (s : State) (t' : State), execSort g f s = .next t' → KeptK s.keep t'.keep := fun _ _ _ _ h =>
  onUnit_kept (State.tsi_kept _ _ _ _ _ _) h

theorem execMerge_kept :
    ∀ (g : Nat) (f : TsiFields) (s : State) (t' : State), execMerge g f s = .next t' → KeptK s.keep t'.keep := fun _ _ _ _ h =>
  onUnit_kept (State.tsi_kept _ _ _ _ _ _) h

theorem execTopk_kept :
    ∀ (g : Nat) (f : TsiFields) (s : State) (t' : State), execTopk g f s = .next t' → KeptK s.keep t'.keep := fun _ _ _ _ h =>
  onUnit_kept (State.tsi_kept _ _ _ _ _ _) h

theorem execUnrec_kept :
    ∀ (g : Nat) (f : TsiFields) (s : State) (t' : State), execUnrec g f s = .next t' → KeptK s.keep t'.keep := fun _ _ _ _ h =>
  onUnit_kept (State.tsi_kept _ _ _ _ _ _) h

theorem execGath_kept :
    ∀ (g : Nat) (f : TsiFields) (s : State) (t' : State), execGath g f s = .next t' → KeptK s.keep t'.keep := fun _ _ _ _ h =>
  onUnit_kept (State.tsi_kept _ _ _ _ _ _) h

theorem execScat_kept :
    ∀ (g : Nat) (f : TsiFields) (s : State) (t' : State), execScat g f s = .next t' → KeptK s.keep t'.keep := fun _ _ _ _ h =>
  onUnit_kept (State.tsi_kept _ _ _ _ _ _) h

theorem execKsel_kept :
    ∀ (g : Nat) (f : TsiFields) (s : State) (t' : State), execKsel g f s = .next t' → KeptK s.keep t'.keep := fun _ _ _ _ h =>
  onUnit_kept (State.tsi_kept _ _ _ _ _ _) h

theorem execEmit_kept :
    ∀ (g : Nat) (f : TsiFields) (s : State) (t' : State), execEmit g f s = .next t' → KeptK s.keep t'.keep := by
  intros; rename_i h; unfold execEmit at h; (try dsimp only at h); refine onUnit_kept ?_ h
  (repeat' (first
      | (with_reducible exact KeptK.refl _) | (simp only [keep_mk, keep_fold])
      | (with_reducible refine (State.emitOp_kept _ _ _ _ _ (fun _ _ => ?_)).then ?_)
      | (simp only [↓State.emitEff_keep, ↓State.tick_keep]) | (with_reducible rfl) | split))

theorem execEmita_kept :
    ∀ (g : Nat) (f : TsiFields) (s : State) (t' : State), execEmita g f s = .next t' → KeptK s.keep t'.keep := by
  intros; rename_i h; unfold execEmita at h; (try dsimp only at h); refine onUnit_kept ?_ h
  (repeat' (first
      | (with_reducible exact KeptK.refl _) | (simp only [keep_mk, keep_fold])
      | (with_reducible refine (State.emitOp_kept _ _ _ _ _ (fun _ _ => ?_)).then ?_)
      | (simp only [↓State.emitaEff_keep, ↓State.tick_keep]) | (with_reducible rfl) | split))

theorem execEmsc_kept :
    ∀ (g : Nat) (f : TsiFields) (s : State) (t' : State), execEmsc g f s = .next t' → KeptK s.keep t'.keep := by
  intros; rename_i h; unfold execEmsc at h; (try dsimp only at h); refine onUnit_kept ?_ h
  (repeat' (first
      | (with_reducible exact KeptK.refl _) | (simp only [keep_mk, keep_fold])
      | (with_reducible refine (State.emitOp_kept _ _ _ _ _ (fun _ _ => ?_)).then ?_)
      | (simp only [↓State.emscEff_keep, ↓State.tick_keep]) | (with_reducible rfl) | split))

theorem execEndHandler_kept :
    ∀ (g : Nat) (f : TsiFields) (s : State) (t' : State), execEndHandler g f s = .next t' → KeptK s.keep t'.keep := by
  intros; rename_i h; unfold execEndHandler at h; (try dsimp only at h); refine onUnit_kept ?_ h
  (repeat' (first
      | (with_reducible exact KeptK.refl _) | (simp only [keep_mk, keep_fold])
      | (with_reducible refine (State.ctlOp_kept _ _ _ _ _ (fun _ _ => ?_)).then ?_)
      | (simp only [↓State.flow_keep, ↓State.tick_keep]) | (with_reducible rfl) | split))

theorem execBr_kept :
    ∀ (g : Nat) (f : TsiFields) (s : State) (t' : State), execBr g f s = .next t' → KeptK s.keep t'.keep := fun _ _ _ _ h =>
  onUnit_kept (State.tsi_kept _ _ _ _ _ _) h

theorem execBz_kept :
    ∀ (g : Nat) (f : TsiFields) (s : State) (t' : State), execBz g f s = .next t' → KeptK s.keep t'.keep := fun _ _ _ _ h =>
  onUnit_kept (State.tsi_kept _ _ _ _ _ _) h

theorem execBm_kept :
    ∀ (g : Nat) (f : TsiFields) (s : State) (t' : State), execBm g f s = .next t' → KeptK s.keep t'.keep := fun _ _ _ _ h =>
  onUnit_kept (State.tsi_kept _ _ _ _ _ _) h

theorem execLoop_kept :
    ∀ (g : Nat) (f : TsiFields) (s : State) (t' : State), execLoop g f s = .next t' → KeptK s.keep t'.keep := fun _ _ _ _ h =>
  onUnit_kept (State.tsi_kept _ _ _ _ _ _) h

theorem execScalc_kept :
    ∀ (g : Nat) (f : TsiFields) (s : State) (t' : State), execScalc g f s = .next t' → KeptK s.keep t'.keep := fun _ _ _ _ h =>
  onUnit_kept (State.tsi_kept _ _ _ _ _ _) h

theorem execFetch_kept :
    ∀ (g : Nat) (f : TsiFields) (s : State) (t' : State), execFetch g f s = .next t' → KeptK s.keep t'.keep := by
  intros; rename_i h; unfold execFetch at h; (try dsimp only at h); refine onUnit_kept ?_ h
  (repeat' (first
      | (with_reducible exact KeptK.refl _) | (simp only [keep_mk, keep_fold])
      | (with_reducible refine (State.ctlOp_kept _ _ _ _ _ (fun _ _ => ?_)).then ?_)
      | (simp only [↓State.fetchEff_keep, ↓State.tick_keep]) | (with_reducible rfl) | split))

theorem execWaitf_kept :
    ∀ (g : Nat) (f : TsiFields) (s : State) (t' : State), execWaitf g f s = .next t' → KeptK s.keep t'.keep := by
  intros; rename_i h; unfold execWaitf at h; (try dsimp only at h); refine onUnit_kept ?_ h
  (repeat' (first
      | (with_reducible exact KeptK.refl _) | (simp only [keep_mk, keep_fold])
      | (with_reducible refine (State.ctlOp_kept _ _ _ _ _ (fun _ _ => ?_)).then ?_)
      | (simp only [↓State.waitfEff_keep, ↓State.tick_keep]) | (with_reducible rfl) | split))

theorem execSkip_kept :
    ∀ (g : Nat) (f : TsiFields) (s : State) (t' : State), execSkip g f s = .next t' → KeptK s.keep t'.keep := fun _ _ _ _ h =>
  onUnit_kept (State.tsi_kept _ _ _ _ _ _) h

theorem execStat_kept :
    ∀ (g : Nat) (f : TsiFields) (s : State) (t' : State), execStat g f s = .next t' → KeptK s.keep t'.keep := fun _ _ _ _ h =>
  onUnit_kept (State.tsi_kept _ _ _ _ _ _) h

theorem execRaise_kept :
    ∀ (g : Nat) (f : TsiFields) (s : State) (t' : State), execRaise g f s = .next t' → KeptK s.keep t'.keep := fun _ _ _ _ h =>
  onUnit_kept (State.tsi_kept _ _ _ _ _ _) h

theorem execPcnt_kept :
    ∀ (g : Nat) (f : TsiFields) (s : State) (t' : State), execPcnt g f s = .next t' → KeptK s.keep t'.keep := by
  intros; rename_i h; unfold execPcnt at h; (try dsimp only at h); refine onUnit_kept ?_ h
  (repeat' (first
      | (with_reducible exact KeptK.refl _) | (simp only [keep_mk, keep_fold])
      | (with_reducible refine (State.ctlOp_kept _ _ _ _ _ (fun _ _ => ?_)).then ?_)
      | (simp only [↓State.pcntEff_keep, ↓State.tick_keep]) | (with_reducible rfl) | split))

theorem execOutputRoomResume_kept :
    ∀ (g t : Nat) (s : State) (t' : State), execOutputRoomResume g t s = .next t' → KeptK s.keep t'.keep := by
  intros; rename_i h; unfold execOutputRoomResume at h; (try dsimp only at h); refine onUnit_kept ?_ h
  (repeat' (first
      | (with_reducible exact KeptK.refl _) | (simp only [keep_mk, keep_fold])
      | (with_reducible refine ite_kept (fun _ => ?_) fun _ => ?_)
      | (with_reducible refine getD_kept (fun _ _ => ?_) ?_)
      | (with_reducible refine (State.emitOp_kept _ _ _ _ _ (fun _ _ => ?_)).then ?_)
      | (simp only [↓State.setRun_keep, ↓State.emitaEff_keep, ↓drainWait_keep, ↓State.emscEff_keep, ↓State.emitEff_keep, ↓State.xcencEff_keep, ↓State.tick_keep])
      | (with_reducible rfl) | split))

theorem execInitHandler_kept :
    ∀ (g slot inst chunk : Nat) (s : State) (t' : State), execInitHandler g slot inst chunk s = .next t' → KeptK s.keep t'.keep := by
  intros; rename_i h; unfold execInitHandler at h; (try dsimp only at h); refine onUnit_kept ?_ h
  (repeat' (first
      | (with_reducible exact KeptK.refl _) | (simp only [keep_mk, keep_fold])
      | (with_reducible refine ite_kept (fun _ => ?_) fun _ => ?_)
      | (with_reducible refine (State.dispatch_kept _ _ _ _ _ _ _ _).then ?_) | (simp only [↓State.tick_keep])
      | (with_reducible rfl) | split))

theorem execSliceHandler_kept :
    ∀ (g : Nat) (ecc : Bool) (t : Nat) (s : State) (t' : State), execSliceHandler g ecc t s = .next t' → KeptK s.keep t'.keep := by
  intros; rename_i h; unfold execSliceHandler at h; (try dsimp only at h); refine onUnit_kept ?_ h
  (repeat' (first
      | (with_reducible exact KeptK.refl _) | (simp only [keep_mk, keep_fold])
      | (with_reducible refine ite_kept (fun _ => ?_) fun _ => ?_)
      | (with_reducible refine (State.coreEcc_kept _ _ _).then ?_)
      | (with_reducible refine (State.dispatch_kept _ _ _ _ _ _ _ _).then ?_)
      | (simp only [↓State.setCore_keep, ↓State.tick_keep]) | (with_reducible rfl) | split))

theorem execFinalHandler_kept :
    ∀ (g slot inst chunk : Nat) (ecc : Bool) (t : Nat) (s : State) (t' : State), execFinalHandler g slot inst chunk ecc t s = .next t' → KeptK s.keep t'.keep := by
  intros; rename_i h; unfold execFinalHandler at h; (try dsimp only at h); refine onUnit_kept ?_ h
  (repeat' (first
      | (with_reducible exact KeptK.refl _) | (simp only [keep_mk, keep_fold])
      | (with_reducible refine ite_kept (fun _ => ?_) fun _ => ?_)
      | (with_reducible refine (State.coreEcc_kept _ _ _).then ?_)
      | (with_reducible refine (State.dispatch_kept _ _ _ _ _ _ _ _).then ?_)
      | (simp only [↓State.setCore_keep, ↓State.complete_keep, ↓State.tick_keep]) | (with_reducible rfl) | split))

theorem execDirectAccumulate_kept :
    ∀ (g : Nat) (s : State) (t' : State), execDirectAccumulate g s = .next t' → KeptK s.keep t'.keep := by
  intros; rename_i h; unfold execDirectAccumulate at h; (try dsimp only at h); refine onUnit_kept ?_ h
  (repeat' (first
      | (with_reducible exact KeptK.refl _) | (simp only [keep_mk, keep_fold])
      | (with_reducible refine ite_kept (fun _ => ?_) fun _ => ?_)
      | (with_reducible refine getD_kept (fun _ _ => ?_) ?_)
      | (with_reducible refine (State.settled_kept _ _).then ?_)
      | (with_reducible refine (State.parkOut_kept _ _).then ?_)
      | (simp only [↓State.setCore_keep, ↓State.faultAt_keep, ↓State.tick_keep]) | (with_reducible rfl) | split))

theorem execContribRx_kept :
    ∀ (cl t : Nat) (s : State) (t' : State), execContribRx cl t s = .next t' → KeptK s.keep t'.keep := by
  intros; rename_i h; unfold execContribRx at h; (try dsimp only at h); refine onUnit_kept ?_ h
  (repeat' (first
      | (with_reducible exact KeptK.refl _) | (simp only [keep_mk, keep_fold])
      | (with_reducible refine ite_kept (fun _ => ?_) fun _ => ?_)
      | (with_reducible refine (State.contribTests_kept _ _ _).then ?_)
      | (with_reducible refine (State.decide13_kept _ _ _ _ (fun _ _ => ?_)).then ?_)
      | (simp only [State.takeSteered_keep _ _ _ _ ‹_›]) | (simp only [↓State.relay_keep, ↓State.tick_keep])
      | (with_reducible rfl) | split))

theorem execCstatMemberRx_kept :
    ∀ (cl t : Nat) (s : State) (t' : State), execCstatMemberRx cl t s = .next t' → KeptK s.keep t'.keep := by
  intros; rename_i h; unfold execCstatMemberRx at h; (try dsimp only at h); refine onUnit_kept ?_ h
  (repeat' (first
      | (with_reducible exact KeptK.refl _) | (simp only [keep_mk, keep_fold])
      | (with_reducible refine ite_kept (fun _ => ?_) fun _ => ?_)
      | (with_reducible refine getD_kept (fun _ _ => ?_) ?_)
      | (with_reducible refine (State.fail_kept _ _ _ _ _ _).then ?_)
      | (with_reducible refine (State.decide13_kept _ _ _ _ (fun _ _ => ?_)).then ?_)
      | (simp only [State.takeSteered_keep _ _ _ _ ‹_›]) | (simp only [↓State.count_keep, ↓State.tick_keep])
      | (with_reducible rfl) | split))

theorem execResultRelay_kept :
    ∀ (cl t : Nat) (s : State) (t' : State), execResultRelay cl t s = .next t' → KeptK s.keep t'.keep := by
  intros; rename_i h; unfold execResultRelay at h; (try dsimp only at h); refine onUnit_kept ?_ h
  (repeat' (first
      | (with_reducible exact KeptK.refl _) | (simp only [keep_mk, keep_fold])
      | (with_reducible refine (State.decide13_kept _ _ _ _ (fun _ _ => ?_)).then ?_)
      | (simp only [State.takeSteered_keep _ _ _ _ ‹_›]) | (simp only [↓State.relay_keep, ↓State.tick_keep])
      | (with_reducible rfl) | split))

theorem execChunkTimeout_kept :
    ∀ (cl slot h t : Nat) (s : State) (t' : State), execChunkTimeout cl slot h t s = .next t' → KeptK s.keep t'.keep := by
  intros; rename_i h; unfold execChunkTimeout at h; (try dsimp only at h); refine onUnit_kept ?_ h
  (repeat' (first
      | (with_reducible exact KeptK.refl _) | (simp only [keep_mk, keep_fold])
      | (with_reducible refine (State.chunkTimer_kept _ _).then ?_) | (simp only [↓State.tick_keep])
      | (with_reducible rfl) | split))

theorem execCstatSend_kept :
    ∀ (cl slot inst h t : Nat) (s : State) (t' : State), execCstatSend cl slot inst h t s = .next t' → KeptK s.keep t'.keep := by
  intros; rename_i h; unfold execCstatSend at h; (try dsimp only at h); refine onUnit_kept ?_ h
  (repeat' (first
      | (with_reducible exact KeptK.refl _) | (simp only [keep_mk, keep_fold])
      | (with_reducible refine when_kept ?_ ?_) | (with_reducible refine (State.fail_kept _ _ _ _ _ _).then ?_)
      | (simp only [↓State.tick_keep]) | (with_reducible rfl) | split))

theorem execChunkOutputFlush_kept :
    ∀ (cl slot inst h t : Nat) (s : State) (t' : State), execChunkOutputFlush cl slot inst h t s = .next t' → KeptK s.keep t'.keep := by
  intros; rename_i h; unfold execChunkOutputFlush at h; (try dsimp only at h); refine onUnit_kept ?_ h
  (repeat' (first
      | (with_reducible exact KeptK.refl _) | (simp only [keep_mk, keep_fold])
      | (with_reducible refine when_kept ?_ ?_) | (with_reducible refine (State.flush_kept _ _ _).then ?_)
      | (simp only [↓State.complete_keep, ↓State.tick_keep]) | (with_reducible rfl) | split))

theorem execChunkEnd_kept :
    ∀ (cl slot inst h t : Nat) (s : State) (t' : State), execChunkEnd cl slot inst h t s = .next t' → KeptK s.keep t'.keep := by
  intros; rename_i h; unfold execChunkEnd at h; (try dsimp only at h); refine onUnit_kept ?_ h
  (repeat' (first
      | (with_reducible exact KeptK.refl _) | (simp only [keep_mk, keep_fold])
      | (with_reducible refine ite_kept (fun _ => ?_) fun _ => ?_) | (with_reducible refine when_kept ?_ ?_)
      | (with_reducible refine (State.flagWrite_kept _ _ _).then ?_)
      | (with_reducible refine (State.settled_kept _ _).then ?_)
      | (simp only [↓State.complete_keep, ↓State.endOk_keep, ↓State.tick_keep]) | (with_reducible rfl) | split))

theorem execQPartialRx_kept :
    ∀ (cl t : Nat) (s : State) (t' : State), execQPartialRx cl t s = .next t' → KeptK s.keep t'.keep := by
  intros; rename_i h; unfold execQPartialRx at h; (try dsimp only at h); refine onUnit_kept ?_ h
  (repeat' (first
      | (with_reducible exact KeptK.refl _) | (simp only [keep_mk, keep_fold])
      | (with_reducible refine ite_kept (fun _ => ?_) fun _ => ?_)
      | (with_reducible refine (State.fusedSend_kept _ _ _).then ?_)
      | (with_reducible refine (State.settled_kept _ _).then ?_) | (simp only [State.takeSide_keep _ _ _ _ ‹_›])
      | (simp only [↓State.setCh_keep, ↓State.tick_keep]) | (with_reducible rfl) | split))

theorem execSideAbortRx_kept :
    ∀ (cl t : Nat) (s : State) (t' : State), execSideAbortRx cl t s = .next t' → KeptK s.keep t'.keep := by
  intros; rename_i h; unfold execSideAbortRx at h; (try dsimp only at h); refine onUnit_kept ?_ h
  (repeat' (first
      | (with_reducible exact KeptK.refl _) | (simp only [keep_mk, keep_fold])
      | (with_reducible refine ite_kept (fun _ => ?_) fun _ => ?_)
      | (with_reducible refine (State.fail_kept _ _ _ _ _ _).then ?_) | (simp only [State.takeSide_keep _ _ _ _ ‹_›])
      | (simp only [↓State.setCh_keep, ↓State.tick_keep]) | (with_reducible rfl) | split))

theorem execQPartialTimeout_kept :
    ∀ (cl slot inst h t : Nat) (s : State) (t' : State), execQPartialTimeout cl slot inst h t s = .next t' → KeptK s.keep t'.keep := by
  intros; rename_i h; unfold execQPartialTimeout at h; (try dsimp only at h); refine onUnit_kept ?_ h
  (repeat' (first
      | (with_reducible exact KeptK.refl _) | (simp only [keep_mk, keep_fold])
      | (with_reducible refine when_kept ?_ ?_) | (with_reducible refine (State.fail_kept _ _ _ _ _ _).then ?_)
      | (simp only [↓State.complete_keep, ↓State.tick_keep]) | (with_reducible rfl) | split))

theorem execRead_kept :
    ∀ (cl : Nat) (x : MemTime) (s : State) (t' : State), execRead cl x s = .next t' → KeptK s.keep t'.keep := by
  intros; rename_i h; unfold execRead at h; (try dsimp only at h); refine onUnit_kept ?_ h
  (repeat' (first
      | (with_reducible exact KeptK.refl _) | (simp only [keep_mk, keep_fold])
      | (with_reducible refine ite_kept (fun _ => ?_) fun _ => ?_)
      | (with_reducible refine (State.xaccRead_kept _ _ _).then ?_)
      | (with_reducible refine (State.decideMem_kept _ _ _ _ (fun _ _ => ?_)).then ?_)
      | (simp only [State.takeReq_keep _ _ _ _ ‹_›])
      | (simp only [↓State.viewRead_keep, ↓State.tick_keep, ↓State.plainRead_keep]) | (with_reducible rfl) | split))

theorem execWrite_kept :
    ∀ (cl : Nat) (x : MemTime) (s : State) (t' : State), execWrite cl x s = .next t' → KeptK s.keep t'.keep := by
  intros; rename_i h; unfold execWrite at h; (try dsimp only at h); refine onUnit_kept ?_ h
  (repeat' (first
      | (with_reducible exact KeptK.refl _) | (simp only [keep_mk, keep_fold])
      | (with_reducible refine ite_kept (fun _ => ?_) fun _ => ?_)
      | (with_reducible refine (State.dramPut_kept _ _ _ _).then ?_)
      | (with_reducible refine (State.xaccWrite_kept _ _ _ _ _).then ?_)
      | (with_reducible refine (State.decideMem_kept _ _ _ _ (fun _ _ => ?_)).then ?_)
      | (simp only [State.takeReq_keep _ _ _ _ ‹_›])
      | (simp only [↓State.count_keep, ↓State.settleWrite_keep, ↓State.respond_keep, ↓State.tick_keep])
      | (with_reducible rfl) | split))

theorem execWriteSignal_kept :
    ∀ (cl : Nat) (x : MemTime) (s : State) (t' : State), execWriteSignal cl x s = .next t' → KeptK s.keep t'.keep := by
  intros; rename_i h; unfold execWriteSignal at h; (try dsimp only at h); refine onUnit_kept ?_ h
  (repeat' (first
      | (with_reducible exact KeptK.refl _) | (simp only [keep_mk, keep_fold])
      | (with_reducible refine (State.dramPut_kept _ _ _ _).then ?_)
      | (with_reducible refine (State.absorbMsg_kept _ _ _ _ _ _).then ?_)
      | (with_reducible refine (State.decideMem_kept _ _ _ _ (fun _ _ => ?_)).then ?_)
      | (simp only [State.takeReq_keep _ _ _ _ ‹_›]) | (simp only [↓State.count_keep, ↓State.tick_keep])
      | (with_reducible rfl) | split))

theorem execAtomic_kept :
    ∀ (cl : Nat) (x : MemTime) (s : State) (t' : State), execAtomic cl x s = .next t' → KeptK s.keep t'.keep := by
  intros; rename_i h; unfold execAtomic at h; (try dsimp only at h); refine onUnit_kept ?_ h
  (repeat' (first
      | (with_reducible exact KeptK.refl _) | (simp only [keep_mk, keep_fold])
      | (with_reducible refine ite_kept (fun _ => ?_) fun _ => ?_)
      | (with_reducible refine (State.dramPut_kept _ _ _ _).then ?_)
      | (with_reducible refine (State.decideMem_kept _ _ _ _ (fun _ _ => ?_)).then ?_)
      | (simp only [State.takeReq_keep _ _ _ _ ‹_›])
      | (simp only [↓State.count_keep, ↓State.eccUncorr_keep, ↓State.settleWrite_keep, ↓State.respond_keep, ↓State.tick_keep])
      | (with_reducible rfl) | split))

theorem execAccum_kept :
    ∀ (cl : Nat) (x : MemTime) (s : State) (t' : State), execAccum cl x s = .next t' → KeptK s.keep t'.keep := by
  intros; rename_i h; unfold execAccum at h; (try dsimp only at h); refine onUnit_kept ?_ h
  (repeat' (first
      | (with_reducible exact KeptK.refl _) | (simp only [keep_mk, keep_fold])
      | (with_reducible refine ite_kept (fun _ => ?_) fun _ => ?_)
      | (with_reducible refine (State.decideMem_kept _ _ _ _ (fun _ _ => ?_)).then ?_)
      | (with_reducible refine (State.accumulate_kept _ _ _ _ _).then ?_)
      | (simp only [State.takeReq_keep _ _ _ _ ‹_›])
      | (simp only [↓State.count_keep, ↓State.respond_keep, ↓State.tick_keep]) | (with_reducible rfl) | split))

theorem execAccumSignal_kept :
    ∀ (cl : Nat) (x : MemTime) (s : State) (t' : State), execAccumSignal cl x s = .next t' → KeptK s.keep t'.keep := by
  intros; rename_i h; unfold execAccumSignal at h; (try dsimp only at h); refine onUnit_kept ?_ h
  (repeat' (first
      | (with_reducible exact KeptK.refl _) | (simp only [keep_mk, keep_fold])
      | (with_reducible refine (State.absorbMsg_kept _ _ _ _ _ _).then ?_)
      | (with_reducible refine (State.decideMem_kept _ _ _ _ (fun _ _ => ?_)).then ?_)
      | (with_reducible refine (State.accumulate_kept _ _ _ _ _).then ?_)
      | (simp only [State.takeReq_keep _ _ _ _ ‹_›]) | (simp only [↓State.count_keep, ↓State.tick_keep])
      | (with_reducible rfl) | split))

theorem execMirrorResponse_kept :
    ∀ (cl t : Nat) (s : State) (t' : State), execMirrorResponse cl t s = .next t' → KeptK s.keep t'.keep := by
  intros; rename_i h; unfold execMirrorResponse at h; (try dsimp only at h); refine onUnit_kept ?_ h
  (repeat' (first
      | (with_reducible exact KeptK.refl _) | (simp only [keep_mk, keep_fold])
      | (with_reducible refine ite_kept (fun _ => ?_) fun _ => ?_)
      | (with_reducible refine (State.mirrorFail_kept _ _).then ?_) | (simp only [State.takeMem_keep _ _ _ _ ‹_›])
      | (with_reducible refine (State.mirrorOk_kept _ _).then ?_)
      | (simp only [↓State.msgTimers_keep, ↓State.tick_keep]) | (with_reducible rfl) | split))

theorem execMirrorTimeout_kept :
    ∀ (cl tag t : Nat) (s : State) (t' : State), execMirrorTimeout cl tag t s = .next t' → KeptK s.keep t'.keep := by
  intros; rename_i h; unfold execMirrorTimeout at h; (try dsimp only at h); refine onUnit_kept ?_ h
  (repeat' (first
      | (with_reducible exact KeptK.refl _) | (simp only [keep_mk, keep_fold])
      | (with_reducible refine when_kept ?_ ?_) | (with_reducible refine (State.mirrorFail_kept _ _).then ?_)
      | (simp only [↓State.tick_keep]) | (with_reducible rfl) | split))

theorem execSnapshotRestoreReadResp_kept :
    ∀ (t : Nat) (s : State) (t' : State), execSnapshotRestoreReadResp t s = .next t' → KeptK s.keep t'.keep := by
  intros; rename_i h; unfold execSnapshotRestoreReadResp at h; (try dsimp only at h); refine next_kept ?_ h
  (repeat' (first
      | (with_reducible exact KeptK.refl _) | (simp only [keep_mk, keep_fold])
      | (with_reducible refine ite_kept (fun _ => ?_) fun _ => ?_)
      | (with_reducible refine (State.dramPut_kept _ _ _ _).then ?_)
      | (with_reducible refine (State.mpPacket_kept _ _ _ (fun _ => ?_)).then ?_)
      | (simp only [State.takeMp_keep _ _ _ ‹_›])
      | (simp only [↓State.setSnap_keep, ↓State.failRestore_keep, ↓State.restorePump_keep, ↓State.tick_keep])
      | (with_reducible rfl) | split))

theorem execExportWriteResponse_kept :
    ∀ (t : Nat) (s : State) (t' : State), execExportWriteResponse t s = .next t' → KeptK s.keep t'.keep := by
  intros; rename_i h; unfold execExportWriteResponse at h; (try dsimp only at h); refine next_kept ?_ h
  (repeat' (first
      | (with_reducible exact KeptK.refl _) | (simp only [keep_mk, keep_fold])
      | (with_reducible refine ite_kept (fun _ => ?_) fun _ => ?_)
      | (with_reducible refine (State.mpPacket_kept _ _ _ (fun _ => ?_)).then ?_)
      | (simp only [State.takeMp_keep _ _ _ ‹_›])
      | (simp only [↓State.setSnap_keep, ↓State.endSnap_keep, ↓State.freeCode_keep, ↓State.exportPump_keep, ↓State.tick_keep])
      | (with_reducible rfl) | split))

theorem execFetchResponse_kept :
    ∀ (cl t : Nat) (s : State) (t' : State), execFetchResponse cl t s = .next t' → KeptK s.keep t'.keep := by
  intros; rename_i h; unfold execFetchResponse at h; (try dsimp only at h); refine onUnit_kept ?_ h
  (repeat' (first
      | (with_reducible exact KeptK.refl _) | (simp only [keep_mk, keep_fold])
      | (with_reducible refine ite_kept (fun _ => ?_) fun _ => ?_) | (simp only [State.takeMem_keep _ _ _ _ ‹_›])
      | (with_reducible refine (State.landFetch_kept _ _ _ _ _ _).then ?_) | (simp only [↓State.tick_keep])
      | (with_reducible rfl) | split))

theorem execRequestResend_kept :
    ∀ (cl tag t : Nat) (s : State) (t' : State), execRequestResend cl tag t s = .next t' → KeptK s.keep t'.keep := by
  intros; rename_i h; unfold execRequestResend at h; (try dsimp only at h); refine onUnit_kept ?_ h
  (repeat' (first
      | (with_reducible exact KeptK.refl _) | (simp only [keep_mk, keep_fold])
      | (with_reducible refine ite_kept (fun _ => ?_) fun _ => ?_)
      | (with_reducible refine (State.landFetch_kept _ _ _ _ _ _).then ?_)
      | (simp only [↓State.fromCluster_keep, ↓State.setCore_keep, ↓State.setRun_keep, ↓State.landWrite_keep, ↓State.tick_keep])
      | (with_reducible rfl) | split))

theorem execUnitError_kept :
    ∀ (u : UnitRef) (t : Nat) (s : State) (t' : State), execUnitError u t s = .next t' → KeptK s.keep t'.keep := by
  intros; rename_i h; unfold execUnitError at h; (try dsimp only at h); refine onUnit_kept ?_ h
  (repeat' (first
      | (with_reducible exact KeptK.refl _) | (simp only [keep_mk, keep_fold])
      | (with_reducible refine (State.unitError_kept _ _).then ?_) | (simp only [↓State.tick_keep])
      | (with_reducible rfl) | split))

theorem execTakeover_kept :
    ∀ (t : Nat) (s : State) (t' : State), execTakeover t s = .next t' → KeptK s.keep t'.keep := by
  intros; rename_i h; unfold execTakeover at h; (try dsimp only at h); refine next_kept ?_ h
  (repeat' (first
      | (with_reducible exact KeptK.refl _) | (simp only [keep_mk, keep_fold])
      | (with_reducible refine (State.commitNow_kept _ _ _ (fun _ _ _ => ?_)).then ?_)
      | (simp only [↓State.afterTakeover_keep, ↓State.tick_keep]) | (with_reducible rfl) | split))

theorem execRestoreReadResponse_kept :
    ∀ (t : Nat) (s : State) (t' : State), execRestoreReadResponse t s = .next t' → KeptK s.keep t'.keep := by
  intros; rename_i h; unfold execRestoreReadResponse at h; (try dsimp only at h); refine next_kept ?_ h
  (repeat' (first
      | (with_reducible exact KeptK.refl _) | (simp only [keep_mk, keep_fold])
      | (with_reducible refine ite_kept (fun _ => ?_) fun _ => ?_)
      | (with_reducible refine (State.dramPut_kept _ _ _ _).then ?_)
      | (with_reducible refine (State.mpPacket_kept _ _ _ (fun _ => ?_)).then ?_)
      | (simp only [State.takeMp_keep _ _ _ ‹_›]) | (with_reducible refine (State.buddyFail_kept _).then ?_)
      | (simp only [↓State.setReg_keep, ↓State.restoreNext_keep, ↓State.promoteDone_keep, ↓State.tick_keep])
      | (with_reducible rfl) | split))

theorem execBuddyTimeout_kept :
    ∀ (t : Nat) (s : State) (t' : State), execBuddyTimeout t s = .next t' → KeptK s.keep t'.keep := by
  intros; rename_i h; unfold execBuddyTimeout at h; (try dsimp only at h); refine next_kept ?_ h
  (repeat' (first
      | (with_reducible exact KeptK.refl _) | (simp only [keep_mk, keep_fold])
      | (with_reducible refine when_kept ?_ ?_) | (with_reducible refine (State.buddyFail_kept _).then ?_)
      | (simp only [↓State.tick_keep]) | (with_reducible rfl) | split))

theorem execCommit_kept : ∀ (t : Nat) (s : State) (t' : State), execCommit t s = .next t' → KeptK s.keep t'.keep := by
  intros; rename_i h; unfold execCommit at h; (try dsimp only at h); refine next_kept ?_ h
  (repeat' (first
      | (with_reducible exact KeptK.refl _) | (simp only [keep_mk, keep_fold])
      | (with_reducible refine (State.commitNow_kept _ _ _ (fun _ _ _ => ?_)).then ?_)
      | (simp only [↓State.complete_keep, ↓State.tick_keep]) | (with_reducible rfl) | split))

theorem execStageReadResponse_kept :
    ∀ (t : Nat) (s : State) (t' : State), execStageReadResponse t s = .next t' → KeptK s.keep t'.keep := by
  intros; rename_i h; unfold execStageReadResponse at h; (try dsimp only at h); refine next_kept ?_ h
  (repeat' (first
      | (with_reducible exact KeptK.refl _) | (simp only [keep_mk, keep_fold])
      | (with_reducible refine ite_kept (fun _ => ?_) fun _ => ?_)
      | (with_reducible refine (State.mpPacket_kept _ _ _ (fun _ => ?_)).then ?_)
      | (simp only [State.takeMp_keep _ _ _ ‹_›])
      | (simp only [↓State.setStage_keep, ↓State.endStage_keep, ↓State.stagePump_keep, ↓State.tick_keep])
      | (with_reducible rfl) | split))

theorem execMbwr_kept : ∀ (t : Nat) (s : State) (t' : State), execMbwr t s = .next t' → KeptK s.keep t'.keep := by
  intros; rename_i h; unfold execMbwr at h; (try dsimp only at h); refine next_kept ?_ h
  (repeat' (first
      | (with_reducible exact KeptK.refl _) | (simp only [keep_mk, keep_fold])
      | (with_reducible refine ite_kept (fun _ => ?_) fun _ => ?_)
      | (with_reducible refine (State.mpPacket_kept _ _ _ (fun _ => ?_)).then ?_)
      | (simp only [State.takeMp_keep _ _ _ ‹_›]) | (simp only [↓State.tick_keep, ↓State.mbwr_keep])
      | (with_reducible rfl) | split))

theorem execMbrd_kept : ∀ (t : Nat) (s : State) (t' : State), execMbrd t s = .next t' → KeptK s.keep t'.keep := by
  intros; rename_i h; unfold execMbrd at h; (try dsimp only at h); refine next_kept ?_ h
  (repeat' (first
      | (with_reducible exact KeptK.refl _) | (simp only [keep_mk, keep_fold])
      | (with_reducible refine ite_kept (fun _ => ?_) fun _ => ?_)
      | (with_reducible refine (State.mpPacket_kept _ _ _ (fun _ => ?_)).then ?_)
      | (simp only [State.takeMp_keep _ _ _ ‹_›]) | (simp only [↓State.mbrd_keep, ↓State.tick_keep])
      | (with_reducible rfl) | split))

theorem execPlanCommit_kept :
    ∀ (m t : Nat) (s : State) (t' : State), execPlanCommit m t s = .next t' → KeptK s.keep t'.keep := by
  intros; rename_i h; unfold execPlanCommit at h; (try dsimp only at h); refine onUnit_kept ?_ h
  (repeat' (first
      | (with_reducible exact KeptK.refl _) | (simp only [keep_mk, keep_fold])
      | (with_reducible refine (planCommit_kept _ _).then ?_)
      | (with_reducible refine (State.command_kept _ _ _ _ (fun _ _ => ?_)).then ?_) | (simp only [↓State.tick_keep])
      | (with_reducible rfl) | split))

theorem execPartDestroy_kept :
    ∀ (m t : Nat) (s : State) (t' : State), execPartDestroy m t s = .next t' → KeptK s.keep t'.keep := by
  intros; rename_i h; unfold execPartDestroy at h; (try dsimp only at h); refine onUnit_kept ?_ h
  (repeat' (first
      | (with_reducible exact KeptK.refl _) | (simp only [keep_mk, keep_fold])
      | (with_reducible refine (State.command_kept _ _ _ _ (fun _ _ => ?_)).then ?_)
      | (with_reducible refine (partDestroy_kept _ _).then ?_) | (simp only [↓State.tick_keep]) | (with_reducible rfl)
      | split))

theorem execPowerStateSet_kept :
    ∀ (m t : Nat) (s : State) (t' : State), execPowerStateSet m t s = .next t' → KeptK s.keep t'.keep := by
  intros; rename_i h; unfold execPowerStateSet at h; (try dsimp only at h); refine onUnit_kept ?_ h
  (repeat' (first
      | (with_reducible exact KeptK.refl _) | (simp only [keep_mk, keep_fold])
      | (with_reducible refine (State.command_kept _ _ _ _ (fun _ _ => ?_)).then ?_)
      | (with_reducible refine (powerStateSet_kept _ _).then ?_) | (simp only [↓State.tick_keep])
      | (with_reducible rfl) | split))

theorem execPllLockLoss_kept :
    ∀ (u : PllRef) (t : Nat) (s : State) (t' : State), execPllLockLoss u t s = .next t' → KeptK s.keep t'.keep := by
  intros; rename_i h; unfold execPllLockLoss at h; (try dsimp only at h); (repeat' split at h)
  all_goals (first | refine next_kept ?_ h | refine onUnit_kept ?_ h)
  all_goals (repeat' (first
      | (with_reducible exact KeptK.refl _) | (simp only [keep_mk, keep_fold])
      | (with_reducible refine ite_kept (fun _ => ?_) fun _ => ?_)
      | (with_reducible refine ite1_kept (fun _ => ?_) fun _ => ?_) | (with_reducible refine when_kept ?_ ?_)
      | (with_reducible refine foldl_kept (fun _ _ => ?_) _ ?_)
      | (with_reducible refine foldl1_kept (fun _ _ => ?_) _ ?_)
      | (with_reducible refine getD_kept (fun _ _ => ?_) ?_)
      | (with_reducible refine (State.unitError_kept _ _).then ?_)
      | (simp only [↓State.bypass_keep, ↓State.laneFailed_keep, ↓State.c6Stop_keep, ↓State.tick_keep, ↓State.tick_keep])
      | (with_reducible rfl) | split))

theorem execTrailPktFrame_kept :
    ∀ (f : Frame) (t : Nat) (s : State) (t' : State), execTrailPktFrame f t s = .next t' → KeptK s.keep t'.keep := by
  intros; rename_i h; unfold execTrailPktFrame at h; (try dsimp only at h); refine next_kept ?_ h
  (repeat' (first
      | (with_reducible exact KeptK.refl _) | (simp only [keep_mk, keep_fold])
      | (with_reducible refine ite_kept (fun _ => ?_) fun _ => ?_)
      | (with_reducible refine (State.trailRx_kept _ _ _ _ (fun _ => ?_)).then ?_)
      | (simp only [↓State.count_keep, ↓State.health_keep, ↓arrive_keep, ↓State.tick_keep]) | (with_reducible rfl)
      | split))

theorem execTrailTsyncFrame_kept :
    ∀ (f : Frame) (t : Nat) (s : State) (t' : State), execTrailTsyncFrame f t s = .next t' → KeptK s.keep t'.keep := by
  intros; rename_i h; unfold execTrailTsyncFrame at h; (try dsimp only at h); refine next_kept ?_ h
  (repeat' (first
      | (with_reducible exact KeptK.refl _) | (simp only [keep_mk, keep_fold])
      | (with_reducible refine ite_kept (fun _ => ?_) fun _ => ?_)
      | (with_reducible refine (State.trailRx_kept _ _ _ _ (fun _ => ?_)).then ?_)
      | (simp only [↓State.count_keep, ↓State.trailTsync_keep, ↓State.useOffset_keep, ↓State.tick_keep])
      | (with_reducible rfl) | split))

theorem execTrailDigestFrame_kept :
    ∀ (f : Frame) (t : Nat) (s : State) (t' : State), execTrailDigestFrame f t s = .next t' → KeptK s.keep t'.keep := by
  intros; rename_i h; unfold execTrailDigestFrame at h; (try dsimp only at h); refine next_kept ?_ h
  (repeat' (first
      | (with_reducible exact KeptK.refl _) | (simp only [keep_mk, keep_fold])
      | (with_reducible refine (State.trailRx_kept _ _ _ _ (fun _ => ?_)).then ?_)
      | (simp only [↓State.setMember_keep, ↓State.digestResult_keep, ↓State.tick_keep]) | (with_reducible rfl)
      | split))

theorem execCensusFrame_kept :
    ∀ (f : Frame) (t : Nat) (s : State) (t' : State), execCensusFrame f t s = .next t' → KeptK s.keep t'.keep := by
  intros; rename_i h; unfold execCensusFrame at h; (try dsimp only at h); refine next_kept ?_ h
  (repeat' (first
      | (with_reducible exact KeptK.refl _) | (simp only [keep_mk, keep_fold])
      | (with_reducible refine ite_kept (fun _ => ?_) fun _ => ?_)
      | (with_reducible refine (State.trailRx_kept _ _ _ _ (fun _ => ?_)).then ?_)
      | (simp only [↓State.event_keep, ↓State.setMember_keep, ↓State.bootLead_keep, ↓State.tick_keep])
      | (with_reducible rfl) | split))

theorem execMemberAbsent_kept :
    ∀ (plane t : Nat) (s : State) (t' : State), execMemberAbsent plane t s = .next t' → KeptK s.keep t'.keep := by
  intros; rename_i h; unfold execMemberAbsent at h; (try dsimp only at h); refine onUnit_kept ?_ h
  (repeat' (first
      | (with_reducible exact KeptK.refl _) | (simp only [keep_mk, keep_fold])
      | (with_reducible refine ite_kept (fun _ => ?_) fun _ => ?_)
      | (with_reducible refine (State.buddyFail_kept _).then ?_)
      | (simp only [↓State.setMember_keep, ↓State.present_keep, ↓State.tick_keep]) | (with_reducible rfl) | split))

theorem execWakeFrame_kept :
    ∀ (f : Frame) (t : Nat) (s : State) (t' : State), execWakeFrame f t s = .next t' → KeptK s.keep t'.keep := by
  intros; rename_i h; unfold execWakeFrame at h; (try dsimp only at h); refine next_kept ?_ h
  (repeat' (first
      | (with_reducible exact KeptK.refl _) | (simp only [keep_mk, keep_fold])
      | (with_reducible refine ite_kept (fun _ => ?_) fun _ => ?_)
      | (with_reducible refine (State.trailRx_kept _ _ _ _ (fun _ => ?_)).then ?_)
      | (simp only [↓State.wakeUp_keep, ↓State.tick_keep]) | (with_reducible rfl) | split))

theorem execShadowEntry_kept :
    ∀ (f : Frame) (t : Nat) (s : State) (t' : State), execShadowEntry f t s = .next t' → KeptK s.keep t'.keep := by
  intros; rename_i h; unfold execShadowEntry at h; (try dsimp only at h); refine next_kept ?_ h
  (repeat' (first
      | (with_reducible exact KeptK.refl _) | (simp only [keep_mk, keep_fold])
      | (with_reducible refine (State.trailMp_kept _ _ _ _ _ (fun _ => ?_)).then ?_)
      | (simp only [↓State.tick_keep, ↓State.shadowEntry_keep]) | (with_reducible rfl) | split))

theorem execShadowResult_kept :
    ∀ (f : Frame) (t : Nat) (s : State) (t' : State), execShadowResult f t s = .next t' → KeptK s.keep t'.keep := by
  intros; rename_i h; unfold execShadowResult at h; (try dsimp only at h); refine next_kept ?_ h
  (repeat' (first
      | (with_reducible exact KeptK.refl _) | (simp only [keep_mk, keep_fold])
      | (with_reducible refine ite_kept (fun _ => ?_) fun _ => ?_)
      | (with_reducible refine (State.trailMp_kept _ _ _ _ _ (fun _ => ?_)).then ?_)
      | (simp only [↓State.health_keep, ↓State.event_keep, ↓State.tick_keep]) | (with_reducible rfl) | split))

theorem execPlanRead_kept :
    ∀ (f : Frame) (t : Nat) (s : State) (t' : State), execPlanRead f t s = .next t' → KeptK s.keep t'.keep := by
  intros; rename_i h; unfold execPlanRead at h; (try dsimp only at h); refine next_kept ?_ h
  (repeat' (first
      | (with_reducible exact KeptK.refl _) | (simp only [keep_mk, keep_fold])
      | (with_reducible refine (State.trailMp_kept _ _ _ _ _ (fun _ => ?_)).then ?_)
      | (simp only [↓State.planRead_keep, ↓State.tick_keep]) | (with_reducible rfl) | split))

theorem execPlanData_kept :
    ∀ (f : Frame) (t : Nat) (s : State) (t' : State), execPlanData f t s = .next t' → KeptK s.keep t'.keep := by
  intros; rename_i h; unfold execPlanData at h; (try dsimp only at h); refine next_kept ?_ h
  (repeat' (first
      | (with_reducible exact KeptK.refl _) | (simp only [keep_mk, keep_fold])
      | (with_reducible refine (State.trailMp_kept _ _ _ _ _ (fun _ => ?_)).then ?_)
      | (simp only [↓State.tick_keep, ↓State.planData_keep]) | (with_reducible rfl) | split))

theorem execPlanNone_kept :
    ∀ (f : Frame) (t : Nat) (s : State) (t' : State), execPlanNone f t s = .next t' → KeptK s.keep t'.keep := by
  intros; rename_i h; unfold execPlanNone at h; (try dsimp only at h); refine next_kept ?_ h
  (repeat' (first
      | (with_reducible exact KeptK.refl _) | (simp only [keep_mk, keep_fold])
      | (with_reducible refine ite_kept (fun _ => ?_) fun _ => ?_)
      | (with_reducible refine (State.trailMp_kept _ _ _ _ _ (fun _ => ?_)).then ?_) | (simp only [↓State.tick_keep])
      | (with_reducible rfl) | split))

theorem execFusedQuery_kept :
    ∀ (f : Frame) (t : Nat) (s : State) (t' : State), execFusedQuery f t s = .next t' → KeptK s.keep t'.keep := by
  intros; rename_i h; unfold execFusedQuery at h; (try dsimp only at h); refine next_kept ?_ h
  (repeat' (first
      | (with_reducible exact KeptK.refl _) | (simp only [keep_mk, keep_fold])
      | (with_reducible refine (State.trailMp_kept _ _ _ _ _ (fun _ => ?_)).then ?_)
      | (simp only [↓State.fusedQuery_keep, ↓State.tick_keep]) | (with_reducible rfl) | split))

theorem execFusedState_kept :
    ∀ (f : Frame) (t : Nat) (s : State) (t' : State), execFusedState f t s = .next t' → KeptK s.keep t'.keep := by
  intros; rename_i h; unfold execFusedState at h; (try dsimp only at h); refine next_kept ?_ h
  (repeat' (first
      | (with_reducible exact KeptK.refl _) | (simp only [keep_mk, keep_fold])
      | (with_reducible refine (State.trailMp_kept _ _ _ _ _ (fun _ => ?_)).then ?_)
      | (simp only [↓State.fusedState_keep, ↓State.tick_keep]) | (with_reducible rfl) | split))

theorem execBootRead_kept :
    ∀ (f : Frame) (t : Nat) (s : State) (t' : State), execBootRead f t s = .next t' → KeptK s.keep t'.keep := by
  intros; rename_i h; unfold execBootRead at h; (try dsimp only at h); refine next_kept ?_ h
  (repeat' (first
      | (with_reducible exact KeptK.refl _) | (simp only [keep_mk, keep_fold])
      | (with_reducible refine ite_kept (fun _ => ?_) fun _ => ?_)
      | (with_reducible refine (State.trailRx_kept _ _ _ _ (fun _ => ?_)).then ?_)
      | (simp only [↓State.sendImage_keep, ↓State.tick_keep]) | (with_reducible rfl) | split))

theorem execBootData_kept :
    ∀ (f : Frame) (t : Nat) (s : State) (t' : State), execBootData f t s = .next t' → KeptK s.keep t'.keep := by
  intros; rename_i h; unfold execBootData at h; (try dsimp only at h); refine next_kept ?_ h
  (repeat' (first
      | (with_reducible exact KeptK.refl _) | (simp only [keep_mk, keep_fold])
      | (with_reducible refine ite_kept (fun _ => ?_) fun _ => ?_)
      | (with_reducible refine (State.bootAnswer_kept _ _ _ _).then ?_)
      | (with_reducible refine (State.trailRx_kept _ _ _ _ (fun _ => ?_)).then ?_) | (simp only [↓State.tick_keep])
      | (with_reducible rfl) | split))

theorem execBootNone_kept :
    ∀ (f : Frame) (t : Nat) (s : State) (t' : State), execBootNone f t s = .next t' → KeptK s.keep t'.keep := by
  intros; rename_i h; unfold execBootNone at h; (try dsimp only at h); refine next_kept ?_ h
  (repeat' (first
      | (with_reducible exact KeptK.refl _) | (simp only [keep_mk, keep_fold])
      | (with_reducible refine ite_kept (fun _ => ?_) fun _ => ?_)
      | (with_reducible refine (State.trailRx_kept _ _ _ _ (fun _ => ?_)).then ?_) | (simp only [↓State.tick_keep])
      | (with_reducible rfl) | split))

theorem execPorstNAssert_kept : ∀ (s : State) (t' : State), execPorstNAssert s = .next t' → KeptK s.keep t'.keep := by
  intros; rename_i h; unfold execPorstNAssert at h; (try dsimp only at h); refine next_kept ?_ h
  (repeat' (first
      | (with_reducible exact KeptK.refl _) | (simp only [keep_mk, keep_fold])
      | (with_reducible refine when_kept ?_ ?_) | (with_reducible refine (State.heldReset_kept _ _).then ?_)
      | (simp only [↓State.tick_keep]) | (with_reducible rfl) | split))

theorem execPorstNRelease_kept :
    ∀ (st : Straps) (s : State) (t' : State), execPorstNRelease st s = .next t' → KeptK s.keep t'.keep := by
  intro st s t' h; refine next_kept (when_kept (KeptK.refl _) ?_) h
  rw [State.bypass_keep]
  exact ⟨rfl, ⟨rfl, Nat.le_refl _, Nat.le_refl _⟩, id, id, id⟩

theorem execVddAonUp_kept : ∀ (s : State) (t' : State), execVddAonUp s = .next t' → KeptK s.keep t'.keep := by
  intros; rename_i h; unfold execVddAonUp at h; (try dsimp only at h); refine next_kept ?_ h
  (repeat' (first
      | (with_reducible exact KeptK.refl _) | (simp only [keep_mk, keep_fold])
      | (with_reducible refine when_kept ?_ ?_) | (with_reducible refine (State.heldReset_kept _ _).then ?_)
      | (simp only [↓State.tick_keep]) | (with_reducible rfl) | split))

theorem execBootFetchResponse_kept :
    ∀ (t : Nat) (s : State) (t' : State), execBootFetchResponse t s = .next t' → KeptK s.keep t'.keep := by
  intros; rename_i h; unfold execBootFetchResponse at h; (try dsimp only at h); refine next_kept ?_ h
  (repeat' (first
      | (with_reducible exact KeptK.refl _) | (simp only [keep_mk, keep_fold])
      | (with_reducible refine ite_kept (fun _ => ?_) fun _ => ?_)
      | (with_reducible refine (State.mpPacket_kept _ _ _ (fun _ => ?_)).then ?_)
      | (with_reducible refine (State.bootAnswer_kept _ _ _ _).then ?_) | (simp only [State.takeMp_keep _ _ _ ‹_›])
      | (simp only [↓State.tick_keep]) | (with_reducible rfl) | split))

theorem execVddAonDown_kept : ∀ (s : State) (t' : State), execVddAonDown s = .next t' → KeptK s.keep t'.keep := by
  intros; rename_i h; unfold execVddAonDown at h; (try dsimp only at h); refine next_kept ?_ h
  (repeat' (first
      | (with_reducible exact KeptK.refl _) | (simp only [keep_mk, keep_fold])
      | (with_reducible refine (State.heldReset_kept _ _).then ?_) | (simp only [↓State.tick_keep])
      | (with_reducible rfl) | split))

/-- A command that changes none of the four pieces. -/
theorem KeptK.of_keep {s t : State} (h : t.keep = s.keep) : KeptK s.keep t.keep := h ▸ KeptK.refl _

end Sys2Proof.Machine
end

