-- ==== Sys2Proof/Laws/Tsi.lean ====
section
/-!
SUPPORT. What a TSI instruction does to the machine, once for all of them: how its effect on the core becomes the next state.
-/
namespace Sys2Proof.Machine

/-- The environment of the next instruction names the core and the handler it was found for. -/
theorem State.tsiEnv_spec {s : State} {g op : Nat} {f : TsiFields} {e : Env} (h : s.tsiEnv g op f = some e) :
    e.g = g ∧ e.f = f ∧ (s.core g).run = some e.run ∧ e.run.wait = .none ∧ e.op = op := by
  unfold State.tsiEnv at h
  cases hr : (s.core g).run with
  | none => rw [hr] at h; cases h
  | some r =>
    rw [hr] at h
    dsimp only at h
    cases he : s.runEnv g r f with
    | none => rw [he] at h; cases h
    | some x =>
      rw [he] at h
      dsimp only at h
      split at h
      · rename_i hw
        cases h
        unfold State.runEnv at he
        split at he
        · cases he
        · split at he
          · cases he
          · split at he
            · cases he; exact ⟨rfl, rfl, rfl, hw.2.1, rfl⟩
            · cases he
      · cases h

/-- Writing nothing to the data SRAM changes nothing. -/
@[simp] theorem State.sramWrite_nil (s : State) : s.sramWrite [] = s := rfl
/-- Folding no flags changes nothing. -/
@[simp] theorem State.foldFlagsAt_nil (s : State) (e : Env) : s.foldFlagsAt e [] = s := rfl
/-- No residue failure changes nothing. -/
@[simp] theorem State.residueFail_nil (s : State) (e : Env) : s.residueFail e [] false = s := rfl

/-- Writing the data SRAM and writing a core commute. -/
theorem State.sramWrite_setCore (s : State) (ws : List (Nat × List Byte)) (g : Nat) (c : Core) :
    (s.setCore g c).sramWrite ws = (s.sramWrite ws).setCore g c := rfl

/-- Folding flags and writing a core commute. -/
theorem State.foldFlagsAt_setCore (s : State) (e : Env) (fl : List (Nat × Nat)) (g : Nat) (c : Core) :
    (s.setCore g c).foldFlagsAt e fl = (s.foldFlagsAt e fl).setCore g c := by
  unfold State.foldFlagsAt
  have h : (s.setCore g c).chunk (clusterOf e.g) e.run.ctx.slot e.run.ctx.chunk =
      s.chunk (clusterOf e.g) e.run.ctx.slot e.run.ctx.chunk := rfl
  split
  · rfl
  · dsimp only
    rw [h]
    split <;> rfl

/-- Folding flags leaves every core alone. -/
@[simp] theorem State.foldFlagsAt_core (s : State) (e : Env) (fl : List (Nat × Nat)) (g : Nat) :
    (s.foldFlagsAt e fl).core g = s.core g := by
  unfold State.foldFlagsAt
  split
  · rfl
  · dsimp only
    split <;> rfl

/-- Writing the data SRAM leaves every core alone. -/
@[simp] theorem State.sramWrite_core (s : State) (ws : List (Nat × List Byte)) (g : Nat) :
    (s.sramWrite ws).core g = s.core g := rfl

/-- The run of a core that has just been written is changed in place. -/
theorem State.modRun_setCore (s : State) (g : Nat) (c : Core) (r : Run) (f : Run → Run) (h : c.run = some r) :
    (s.setCore g c).modRun g f = s.setCore g { c with run := some (f r) } := by
  unfold State.modRun State.setRun
  simp [h]

/-- An instruction that goes on: its stores and flags, then its registers, and the next offset. -/
theorem State.applyTsi_next {s : State} {e : Env} {r : TsiRes} (hr : (s.core e.g).run = some e.run) (hf : r.flow = .next)
    (hb : r.bad = []) (ha : r.badAll = false) (hd : r.drew = false) :
    s.applyTsi e r = ((s.sramWrite r.store).foldFlagsAt e r.flags).goesOn e r.core r.cycles := by
  unfold State.applyTsi State.goesOn State.onward
  simp only [hf, hb, ha, hd, Bool.false_eq_true, if_false, State.residueFail_nil, State.sramWrite_setCore,
    State.foldFlagsAt_setCore, State.flow]
  rw [State.modRun_setCore _ _ _ e.run _ (by exact hr)]
  simp

/-- An instruction that draws a free word and goes on. -/
theorem State.applyTsi_drew {s : State} {e : Env} {r : TsiRes} (hr : (s.core e.g).run = some e.run) (hf : r.flow = .next)
    (hb : r.bad = []) (ha : r.badAll = false) (hd : r.drew = true) :
    s.applyTsi e r =
      ((({ s with free := s.free + 1 } : State).sramWrite r.store).foldFlagsAt e r.flags).goesOn e r.core r.cycles := by
  have h := State.applyTsi_next (s := { s with free := s.free + 1 }) (r := { r with drew := false }) hr hf hb ha rfl
  rw [← h]
  unfold State.applyTsi
  simp only [hf, hd]
  rfl

/-- An instruction that branches. -/
theorem State.applyTsi_goto {s : State} {e : Env} {r : TsiRes} {pc : Nat} (hr : (s.core e.g).run = some e.run)
    (hf : r.flow = .goto pc) (hs : r.store = []) (hl : r.flags = []) (hb : r.bad = []) (ha : r.badAll = false)
    (hd : r.drew = false) : s.applyTsi e r = s.onward e r.core pc r.cycles := by
  unfold State.applyTsi State.onward
  simp only [hf, hs, hl, hb, ha, hd, Bool.false_eq_true, if_false, State.residueFail_nil, State.sramWrite_nil,
    State.foldFlagsAt_nil, State.flow]
  rw [State.modRun_setCore _ _ _ e.run _ (by exact hr)]

/-- An instruction that stops its handler. -/
theorem State.applyTsi_stop {s : State} {e : Env} {r : TsiRes} {st : Nat} (hr : (s.core e.g).run = some e.run)
    (hf : r.flow = .stop st) (hs : r.store = []) (hl : r.flags = []) (hb : r.bad = []) (ha : r.badAll = false)
    (hd : r.drew = false) : s.applyTsi e r = s.stopsOn e r.core r.cycles st := by
  unfold State.applyTsi State.stopsOn
  simp only [hf, hs, hl, hb, ha, hd, Bool.false_eq_true, if_false, State.residueFail_nil, State.sramWrite_nil,
    State.foldFlagsAt_nil, State.flow]
  rw [State.modRun_setCore _ _ _ e.run _ (by exact hr)]
  rfl

/-- An instruction that waits. -/
theorem State.applyTsi_wait {s : State} {e : Env} {r : TsiRes} {w : Wait} (hr : (s.core e.g).run = some e.run)
    (hf : r.flow = .wait w) : s.applyTsi e r = s.waitsFor e w := by
  unfold State.applyTsi State.waitsFor State.modRun
  simp only [hf, hr]

/-- A TSI command whose instruction the handler is about to run. -/
theorem State.tsi_runs {s : State} {g op : Nat} {f : TsiFields} {e : Env} {usesC : Bool} {eff : Env → Core → State → TsiRes}
    (h : s.Runs g op f e) (hc : usesC = true → dKind e.descC ≠ 0) :
    onUnit (decide (g < Config.cores)) (s.tsi g op f usesC eff) = .next (s.applyTsi e (eff e (s.core g) s)) := by
  unfold onUnit State.tsi
  rw [if_pos (decide_eq_true h.1), h.2]
  cases usesC with
  | false => rfl
  | true => simp [hc rfl]

/-- An instruction that only changes registers. -/
theorem State.tsi_reg {s : State} {g op : Nat} {f : TsiFields} {e : Env} {usesC : Bool} {eff : Env → Core → State → TsiRes}
    {c : Core} {n : Nat} (h : s.Runs g op f e) (hc : usesC = true → dKind e.descC ≠ 0)
    (hr : eff e (s.core g) s = Sys2Proof.Machine.reg c n) :
    onUnit (decide (g < Config.cores)) (s.tsi g op f usesC eff) = .next (s.goesOn e c n) := by
  have h2 := State.tsiEnv_spec h.2
  rw [State.tsi_runs h hc, hr, State.applyTsi_next (h2.1 ▸ h2.2.2.1) rfl rfl rfl rfl]
  rfl

end Sys2Proof.Machine
end

