-- ==== Sys2Proof/Tests/Slice0.lean ====
section
/-!
SUPPORT. Tests: ill-formed commands are refused, the manual's worked examples come out, and every statement with hypotheses has a
state and operands that meet them.
-/
set_option maxRecDepth 20000
set_option exponentiation.threshold 600
set_option linter.unusedSimpArgs false
set_option linter.unusedVariables false

namespace Sys2Proof.Tests
open Sys2Proof Sys2Proof.Machine

/-! ### A small machine: one slot, one program on core 0, and the handler about to run its first instruction -/

/-- A routing set without entries. -/
def route0 : Route :=
  { hdr := 0, lt := [], st := [], ct := [], ut := [], kt := [], dt := [], sets := [], links := [], nbrs := [], vars := [] }

/-- A plan of epoch 1 with the given slots, programs and streams. -/
def plan0 (slots : List SlotCfg) (progs : List ProgCfg) (streams : List StreamCfg) : Plan :=
  { pepoch := 1, pdig := 0, ldig := 0, route := route0, slots := slots, cids := [0x007], owners := [(0, 0)], progs := progs,
    streams := streams, regions := [], accounts := [], sched := [], gates := [], time := 0, reserve := none, weights := [],
    mgmt := none, sram := [], image := [] }

/-- Slot 0 of a group of one. -/
def slot0 : SlotCfg := { num := 0, desc := 0, flagoff := [] }

/-- The first 128 bits of an entry for slot 0 on core 0, descriptor `n`. -/
def head0 (n : Nat) : BitVec 128 := BitVec.ofNat 128 (1 <<< 23 + n <<< 32)

/-- A stream descriptor: KIND, FMT, LEN. -/
def desc0 (kind fmt len : Nat) : BitVec 128 := BitVec.ofNat 128 (kind + fmt <<< 4 + len <<< 16)

/-- A program of the word of `op` and `f`, of two instructions, with the descriptor `d` as ST0 and ST1. -/
def planOf (op : Nat) (f : TsiFields) (d : BitVec 128) : Plan :=
  plan0 [slot0] [{ cluster := 0, head := head0 0, h0 := 0x07FF0002, h1 := 0, code := [encWord op f, 0] }]
    [⟨0, head0 0, d⟩, ⟨0, head0 1, d⟩]

/-- The handler's context and run: FINAL, at offset 0, with a slice of two beats. -/
def id0 : CtxId := ⟨0, 0, 0⟩
def run0 : Run :=
  { ctx := id0, kind := .final, pc := 0, cycles := 4, slice := some ⟨id0, 0, List.replicate 128 0x3C⟩, wait := .none, fetches := [] }

/-- Core 0 about to run the instruction; `c` gives its registers. -/
def tsi0 (op : Nat) (f : TsiFields) (d : BitVec 128) (c : Core) : State :=
  { State.reset with
    plans := { State.reset.plans with active := some (planOf op f d) }
    cores := [(0, { c with run := some run0, resident := some id0, ctxs := [{ id := id0, etag := 1 }] })]
    coll := { State.reset.coll with chunks := [((0, 0, 0), { recs := [{ inst := 0, etag := 1 }] })] } }

/-- The environment of that instruction. -/
def env0 (op : Nat) (f : TsiFields) (d : BitVec 128) : Env :=
  { g := 0, run := run0, plan := planOf op f d, slot := slot0,
    prog := { cluster := 0, head := head0 0, h0 := 0x07FF0002, h1 := 0, code := [encWord op f, 0] }, f := f, op := op }

/-- Fields with the given immediate, formats and registers. -/
def flds (imm fa fd : Nat) (d a b : Nat := 0) (c : Nat := 0) : TsiFields :=
  { d := BitVec.ofNat 5 d, a := BitVec.ofNat 5 a, b := BitVec.ofNat 5 b, c := BitVec.ofNat 4 c, fa := BitVec.ofNat 4 fa,
    fd := BitVec.ofNat 4 fd, rm := 0, rms := 0, msk := 0, imm := BitVec.ofNat 22 imm }

/-- S5 holding the length of the slice. -/
def core0 : Core := { s := [(5, 2)] }

/-- Every TSI statement asks that the handler run its instruction: it does, whatever the instruction. -/
theorem witness_runs (op : Nat) (f : TsiFields) (d : BitVec 128) (c : Core) : (tsi0 op f d c).Runs 0 op f (env0 op f d) := by
  refine ⟨by decide, ?_⟩
  unfold State.tsiEnv
  have h : ((tsi0 op f d c).core 0).run = some run0 := rfl
  rw [h]
  have h2 : (tsi0 op f d c).runEnv 0 run0 f = some { env0 op f d with op := 0 } := by
    have h4 : (tsi0 op f d c).planBound 0 1 = some (planOf op f d) := rfl
    have h5 : (planOf op f d).slot 0 = some slot0 := rfl
    have h6 : heSlot (head0 0) = 0 ∧ heCore0 (head0 0) = 0 ∧ heNcore (head0 0) = 1 := by decide
    have h7 : (planOf op f d).prog 0 0 0 = some (env0 op f d).prog := by
      simp [Plan.prog, planOf, plan0, h6, slotNo, env0]
    have h8 : clusterOf 0 = 0 := by decide
    have h9 : ((tsi0 op f d c).core 0).ctx run0.ctx = some { id := id0, etag := 1 } := rfl
    have h10 : run0.ctx.slot = 0 := rfl
    simp only [State.runEnv, h9, h10, h4, h5, h8, Nat.zero_mod, h7]
    rfl
  simp only [h2]
  have h3 : (env0 op f d).prog.code[run0.pc]? = some (encWord op f) := rfl
  have h5 : run0.issueAt op f = 4 := by
    unfold Run.issueAt
    generalize tsiReads op f = xs
    have : ∀ ys : List Nat, ys.foldl (fun m x => max m (run0.ready.at x 0)) 4 = 4 := by
      intro ys
      induction ys with
      | nil => rfl
      | cons y ys ih => exact ih
    exact this xs
  have h4 : run0.issueAt op f ≤ (env0 op f d).prog.limit := by
    rw [h5]
    show 4 ≤ (let w := fld (0 : BitVec 64) 47 32; (if w = 0 then 256 else w) * 256)
    decide
  have h6 : (tsi0 op f d c).roe.pstate = .p0 := rfl
  rw [if_pos ⟨h6, rfl, h4, h3⟩]
  rfl

/-! ### Witnesses: TSI statements. Runs is `witness_runs`; what else each clause asks stands here. -/

theorem witness_scalar : fld (flds 0x170000 0 0).imm 19 16 < 8 ∧
    ((tsi0 0xF0 (flds 0 0 0) 0 core0).core 0).ctxs.find? (fun k => decide (k.id = run0.ctx)) = some { id := id0, etag := 1 } := by
  decide
theorem witness_vector_moves : fld (flds 2 0 0).imm 1 0 < 3 ∧ elemBits 0x8 = 4 ∧ elemBits 0x5 = 6 ∧ elemBits 0x0 = 32 := by decide
theorem witness_element_widths : elemBits 0x3 = 8 ∧ elemBits 0x1 = 16 ∧ elemBits 0xA = 32 := by decide
theorem witness_exact : ((List.range 16).all fun k => (core0.rp 0 k).resOk) = true ∧
    (xcinLoop 0 16 0 (List.replicate 256 0) core0 0 0).2.2.2 = true ∧ dKind (desc0 1 0xE 4) ≠ 0 := by decide
theorem witness_round : dKind (env0 0x30 (flds 0 0 1) (desc0 3 1 4)).descC ≠ 0 ∧ elemBits 0x1 = 16 ∧
    (∀ k, k < 32 → (rndLane (env0 0x30 (flds 0 0 1) (desc0 3 1 4)) core0 k).1.resOk = true) ∧
    (∀ k, k < 32 → (core0.rx (0 + k / 16) (k % 16)).resOk = true) := by decide
theorem witness_records : fmtOk 0 (groupRecs core0 0 1 ++ groupRecs core0 4 1) = true ∧
    sortedRecs (recBefore false) (groupRecs core0 0 1) = true ∧ fmtOk 0 (groupRecs core0 0 4) = true := by decide
theorem witness_loads :
    let e := env0 0x02 (flds 0x10001 0 0) (desc0 2 0 3)
    dKind e.descC = 2 ∧ (core0.rs 0).toNat + 1 + 2 ≤ dLen e.descC ∧ e.fetchHits e.descC 1 2 = false ∧
      core0.cursor 0 + 2 ≤ (core0.rs 5).toNat ∧ Memory.wf State.reset.coll.sram = true ∧ 8 + 8 ≤ e.sliceData.length := by decide
theorem witness_gather :
    let e := env0 0x70 (flds 0 0 0) (desc0 2 0 3)
    let idx := fun k => laneIndex (core0.rs 0) (core0.rv 0) k
    (∀ k, k < 16 → inStream (64 * dLen e.descC * 8 / 32) (idx k) = true ∧
      e.fetchHits e.descC ((idx k).toNat * 32 / 512) 1 = false) ∧
    64 * 0 + 16 * 4 ≤ 64 * dLen e.descC ∧ fmtOk 0 (elemsAt 0 128 4) = true := by decide
theorem witness_emit :
    let s := tsi0 0x80 (flds 0 0 0) (desc0 3 1 4) core0
    let e := env0 0x80 (flds 0 0 0) (desc0 3 1 4)
    dKind e.descC ≠ 0 ∧ s.runRec e = some { inst := 0, etag := 1 } ∧ s.noRoom 0 = false ∧ 0 * 16 % 512 = 0 ∧ 0 + 1 ≤ dLen e.descC ∧
      e.run.kind = .final ∧ ({ inst := 0, etag := 1 } : Rec).withAll = false ∧ ({ inst := 0, etag := 1 } : Rec).withheld = [] ∧ (((Rec.asm { inst := 0, etag := 1 } 0).put 0 (vBytes core0 0 1)).2 = false) := by decide
theorem witness_fetch :
    let e := env0 0xE6 (flds 2 0 0 1) (desc0 5 0 4)
    dKind e.descC ≠ 0 ∧ dKind (e.desc 1) ≠ 0 ∧ (core0.rs 0).toNat + 2 ≤ dLen e.descC ∧ (core0.rs 0).toNat + 2 ≤ dLen (e.desc 1) ∧
      e.fetchHits (e.desc 1) (core0.rs 0).toNat 2 = false ∧ e.run.fetchCount < 8 ∧ e.run.pc + 1 < e.prog.ninst ∧ e.run.fetches = [] := by decide
theorem witness_fetch_waits :
    let q : CoreReq := { tag := 3, desc := 1, beat := 0, n := 1, no := 0, status := none, sentAt := 0, resends := 0, pkt := mkPkt 0 [] }
    let e := env0 0xE6 (flds 2 0 0 1) (desc0 5 0 4)
    let a : Env := { e with run := { run0 with fetches := [q] } }
    let b : Env := { e with run := { run0 with fetches := (List.range 8).map fun i => { q with beat := 3, no := i } } }
    a.fetchHits (a.desc 1) 0 2 = true ∧ b.fetchHits (b.desc 1) 0 2 = false ∧ 8 ≤ b.run.fetchCount := by decide
theorem witness_withheld : ({ inst := 0, etag := 1, withAll := true } : Rec).withAll = true ∧
    (∃ t ∈ ({ inst := 0, etag := 1, withheld := [0] } : Rec).withheld, 0 < 1024 * (t + 1) ∧ 1024 * t < 0 + 1 * 512 / 16) := by decide
theorem witness_stops :
    let e := env0 0x01 (flds 0x20000 0 0) (desc0 1 0 2)
    dKind (env0 0x01 (flds 0 0 0) 0).descC = 0 ∧ dKind e.descC ≠ 0 ∧ (core0.rs 5).toNat < core0.cursor 0 + 3 ∧
      dLen e.descC < (core0.rs 0).toNat + 3 ∧ (core0.rs 0).toNat % 8 = 0 ∧ 64 * dLen e.descC < (core0.rs 0).toNat + 128 + 8 ∧
      fmtOk 0 (groupRecs { core0 with v := [(0, BitVec.ofNat 512 (0x1 <<< 112))] } 0 1) = false := by decide

/-! ### Well-formedness: one ill-formed command for each check -/

theorem test_wf_good : ((Instr.br 4607 (flds 0 0 0)).wf && (Instr.contribRx 35 0).wf && (Instr.blockTx 579 none 0).wf &&
    (Instr.starve 579 7 0 0).wf && (Instr.planStage 7 0).wf && (Instr.quRefresh 3).wf && (Instr.entdaa 127).wf &&
    (Instr.unitError (.bridge 0 3) 0).wf && (Instr.pllLock (.lane 579 7) 0).wf && (Instr.partStarted 63 0).wf) = true := by decide
theorem test_wf_core : (Instr.br 4608 (flds 0 0 0)).wf = false := by decide
theorem test_wf_cluster : (Instr.contribRx 36 0).wf = false := by decide
theorem test_wf_link : (Instr.blockTx 580 none 0).wf = false := by decide
theorem test_wf_vc : (Instr.starve 579 8 0 0).wf = false := by decide
theorem test_wf_mailbox : (Instr.planStage 8 0).wf = false := by decide
theorem test_wf_die : (Instr.quRefresh 4).wf = false := by decide
theorem test_wf_parity : (Instr.blockTx 0 (some 8) 0).wf = false := by decide
theorem test_wf_fec : (Instr.blockRx 0 ⟨List.replicate 8 0, 0⟩ ⟨false, List.replicate 9 0, []⟩ 0).wf = false := by decide
theorem test_wf_block : (Instr.blockRx 0 ⟨List.replicate 7 0, 0⟩ ⟨false, [], []⟩ 0).wf = false := by decide
theorem test_wf_frame : Frame.wf ⟨0, List.replicate 8192 0, 0⟩ = false := by
  show decide ((List.replicate 8192 (0 : Byte)).length < 8192) = false
  rw [List.length_replicate]
  decide
theorem test_wf_unit : ((Instr.unitError (.core 4608) 0).wf || (Instr.unitError (.clusterCtl 36) 0).wf ||
    (Instr.unitError (.die 4) 0).wf || (Instr.unitError (.bridge 1 1) 0).wf) = false := by decide
theorem test_wf_pll : ((Instr.pllLock (.die 4) 0).wf || (Instr.pllLock (.lane 580 0) 0).wf || (Instr.pllLock (.lane 0 8) 0).wf) = false := by
  decide
theorem test_wf_shapes : ((Instr.entdaa 128).wf || (Instr.memberAbsent 32 0).wf || (Instr.partStarted 64 0).wf ||
    (Instr.railFault 7 0 0).wf) = false := by decide
theorem test_absent_unit_faults : exec (.quRefresh 4) State.reset = .fault .noSuchUnit := rfl

/-! ### The manual's worked examples -/

/-- Table LNK-3's check string. -/
theorem test_crc32c : crc32c [0x31, 0x32, 0x33, 0x34, 0x35, 0x36, 0x37, 0x38, 0x39] = 0xE3069283 := by decide
/-- Chapter RES: the CHECK of 32 zero bytes. -/
theorem test_check_zeros : checkOf (List.replicate 32 0) = 0x8A9136AA := by decide
/-- Chapter MEM: the coordinate of the leaf of rack 5, pod 3, plane 2; chapter RTE: cluster 5 of spine 2. -/
theorem test_coordinates : mkCoord 2 3 5 255 0 = 0x10185FF0 ∧ mkCoord 0 0 2 250 9 = 0x00002FA9 := by decide
/-- Chapter ARI: mix64. -/
theorem test_mix64 : mix64 0x41A2000700000001 0x0000001200000003 = 0x2294C1EE1C84DCDA := by decide
/-- Chapter ARI: E4M3 saturation. -/
theorem test_e4m3 : convert 0x3 { mode := 0 } (.fin false 460 0) = (0x7E, 0x10) ∧ convert 0x3 { mode := 0 } (.fin true 464 0) = (0xFE, 0x10) ∧
    convert 0x3 { mode := 0 } (.fin false 500 0) = (0x7E, 0x14) ∧ convert 0x3 { mode := 0, nanOpt := true } (.fin false 500 0) = (0x7F, 0x15) := by
  decide
/-- Chapter ARI: XC16 and the escape to XC48. -/
theorem test_xc16 : xcEnc { x := 2 ^ 170 + 2 ^ 120 } = [0x78, 1, 0, 0, 0, 0, 0, 4, 0, 0, 0, 0, 0, 0, 0, 0] := by decide
theorem test_xc48 : xcEnc { x := 2 ^ 250 + 2 ^ 50 } =
    0xF8 :: (List.replicate 6 0 ++ [4] ++ List.replicate 24 0 ++ [4] ++ List.replicate 15 0) := by decide
/-- Chapter ARI: stochastic rounding of 1 + 2^-8 + 2^-10, and the same sum by RNE. -/
theorem test_sr : convert 0x1 { mode := 4, r := 0x2294C1EE } (.fin false (2 ^ 150 + 2 ^ 142 + 2 ^ 140) (-150)) = (0x3F80, 0x10) ∧
    convert 0x1 { mode := 0 } (.fin false (2 ^ 150 + 2 ^ 142 + 2 ^ 140) (-150)) = (0x3F81, 0x10) := by decide
/-- Chapter ARI: the dot product beyond the BF16 range. -/
theorem test_dot_range : convert 0x1 { mode := 0 } (.fin false (2 ^ 427 + 2 ^ 302 + 2 ^ 299) (-300)) = (0x7F00, 0x10) := by decide
/-- Chapter ARI: MXFP8 quantisation. -/
theorem test_mxfp8 : mxBlock 0xB (fun _ => { mode := 0 }) [elemVal 1 0x40C0, elemVal 1 0x3DCD, elemVal 1 0x3580] =
    (0x79, [(0x7C, 0), (0x4D, 0x10), (0, 0x18)]) := by decide
/-- Chapter MEM: three ACCUMs to one lane. -/
theorem test_xacc : let l := [0x3F800000, 0x33800000, 0x33800000].foldl (fun l v => Lane.add 150 l (elemVal 0 v)) {}
    l.x = 2 ^ 150 + 2 ^ 127 ∧ l.res = 0x10000020 ∧ convert 0 { mode := 0 } (l.val 150) = (0x3F800001, 0) := by decide
/-- Chapter TSI: the widened weights. -/
theorem test_dot_widened : let l := [Val.fin false 1 (-1), .fin false 5 (-2)].foldl Lane.addProd {}
    l.x = 7 * 2 ^ 298 ∧ l.res = 0x01C0000000000000 ∧ (convert 1 { mode := 0 } (l.val 300)) = (0x3FE0, 0) := by decide
/-- Chapter SEC: the part whose LMS counter is used up. -/
theorem test_lms_status : State.lmsStatus { State.reset with
    fuse := { State.reset.fuse with lmsCtr := 4096 }, boot := { State.reset.boot with lmsLow := true, lmsOut := true } } = 0x03001000 := by decide
/-- Chapter SWC: the codes of the congestion map. -/
theorem test_depth_codes : depthCode 40 = 6 ∧ depthCode 20000 = 15 := by decide
/-- Chapter TIM: B is 37.25 ns ahead of A. -/
theorem test_tsync : offsetOf (1000000 * 65536) (1000769 * 65536 + 49152) (1000600 * 65536) (0x0001F8C0 * 256) 0 = 37 * 65536 + 16384 := by decide

/-- A handler that waits for room, about to run its EMIT. -/
def room0 (op : Nat) : State :=
  let s := tsi0 op (flds 0 0 0) (desc0 3 1 4) core0
  s.setRun 0 (some { run0 with wait := .room })
theorem witness_emit_more :
    dKind (desc0 4 1 4) = 4 ∧ (let d := BitVec.ofNat 128 (3 + 11 <<< 4 + 4 <<< 16 + 1 <<< 107); dKind d ≠ 0 ∧ 0 / 32 < dMxblk d) ∧
    (0 : Nat) ≤ 1 * elemsOfV 16 ∧ ((List.range 16).all fun i => (core0.rx 0 i).resOk) = true ∧
    (room0 0x80).noRoom 0 = false ∧ ({ room0 0x80 with sw := { State.reset.sw with
      wait := [{ pkt := mkPkt 0 [], vc := 2, acct := .cluster 0, die := 0 }] } } : State).noRoom 0 = true := by
  decide

theorem witness_output_room : ∀ op, op ∈ [0x80, 0x81, 0x82, 0x33] →
    let s1 := drainWait ((room0 op).tick 0)
    (s1.core 0).run = some { run0 with wait := .room } ∧ s1.noRoom 0 = false ∧
      ((s1.setRun 0 (some run0)).tsiEnv 0 op (flds 0 0 0)).isSome = true := by decide
theorem witness_record_sort : fmtOk 1 [mkRec 1 0 0 0 1, mkRec 2 1 0 0 1, mkRec 0 0 0 0 0xF] = true := by decide

/-- A program of one instruction with an INIT handler, and a context of core 0 under it, in a chunk whose record is `r`. -/
def prog1 : ProgCfg := { cluster := 0, head := head0 0, h0 := 1, h1 := 0, code := [0] }
def ctxOf (x : Ctx) (ring : List Slice) (r : Rec) : State :=
  { State.reset with
    plans := { State.reset.plans with active := some (plan0 [slot0] [prog1] []) }
    cores := [(0, { ctxs := [x], ring := ring })]
    coll := { State.reset.coll with chunks := [((0, 0, 0), { recs := [r] })] } }
theorem witness_dispatch :
    let x : Ctx := { id := id0, etag := 1 }
    let y : Ctx := { x with initDone := true }
    let r : Rec := { inst := 0, etag := 1 }
    let p := plan0 [slot0] [prog1] []
    let sl : Slice := ⟨id0, 0, [1]⟩
    let s := (ctxOf y [sl] r).tick 5
    let f := ctxOf y [] { r with st := .complete }
    (ctxOf x [] r).readyCtx 0 id0 = some (x, p, prog1) ∧ prog1.init = some 0 ∧ x.initDone = false ∧
    takeFirst (fun z : Slice => !s.instDead 0 z.ctx) (s.core 0).ring = some (sl, []) ∧ s.sliceReady 0 sl = true ∧
    s.readyCtx 0 sl.ctx = some (y, p, prog1) ∧
    f.readyCtx 0 id0 = some (y, p, prog1) ∧ (f.chunk 0 0 0).recOf 0 = some { r with st := .complete } ∧ y.finalStarted = false ∧
    ((f.core 0).ring.all fun z => decide (z.ctx ≠ id0)) = true := by decide
theorem witness_watchdog :
    let s := tsi0 0 (flds 0 0 0) 0 core0
    let x : Ctx := { id := id0, etag := 1 }
    (s.core 0).run = some run0 ∧ (s.core 0).ctx id0 = some x ∧
    s.roe.pstate = .p0 ∧ ({ s with roe := { s.roe with pstate := .p1 } } : State).roe.pstate ≠ .p0 ∧
    (s.ctxProg 0 x).map (fun p => (p.2.limit, decide (run0.pc < p.2.ninst), p.2.code[run0.pc]?,
      { run0 with wait := .landing }.spent p.2 65532, { run0 with wait := .landing }.spent p.2 65533,
      { run0 with wait := .room }.spent p.2 65533)) = some (65536, true, some (encWord 0 (flds 0 0 0)), 65536, 65537, 4) := by decide

/-! ### Witnesses: collectives -/

/-- A part in P0 with the active plan of one slot of descriptor `d`, partition 0 ON, and core 0 of cluster 0 owning chunk
0. -/
def planC (d : BitVec 384) (px : Option (BitVec 128)) : Plan :=
  { plan0 [{ num := 0, desc := d, flagoff := [], pronk := px }] [] [] with
    owners := [(0, BitVec.ofNat 128 (1 <<< 71 + 64 <<< 80))] }
def stC (d : BitVec 384) (px : Option (BitVec 128) := none) : State :=
  { State.reset with
    plans := { State.reset.plans with active := some (planC d px) }
    mp := { State.reset.mp with running := true, parts := [(0, { fn := { st := .on } })] }
    mem := { State.reset.mem with regs := [] } }
def envC (d : BitVec 384) (px : Option (BitVec 128) := none) : CEnv :=
  ⟨planC d px, { num := 0, desc := d, flagoff := [], pronk := px }, 0, 0, 0⟩
/-- A packet steered to cluster 0 (or the MP) on VC2. -/
def steer (s : State) (dest : Option Nat) (p : Packet) (vc : Nat := 2) : State :=
  { s with sw := { s.sw with steer := s.sw.steer ++ [{ dest := dest, vc := vc, pkt := p, link := 0, bad := false }] } }
/-- A collective packet of a kind, epoch tag and CID. -/
def pktC (kind etag cid : Nat) : Packet := mkPkt (mkHdr [⟨99, 96, kind⟩, ⟨111, 104, etag⟩, ⟨135, 112, cid⟩]) [1]

def mineC (s : State) (y : Steered) : Bool := decide (hKind y.pkt.hdr = 3) || (isCollKind (hKind y.pkt.hdr) &&
  decide (s.steeredRole 0 y ≠ .child ∧ s.steeredRole 0 y ≠ .relay))
theorem witness_coll_contrib : ∃ x s2, ((steer (stC 0) (some 0) (pktC 1 1 7)).tick 0).takeSteered 0
      (mineC ((steer (stC 0) (some 0) (pktC 1 1 7)).tick 0)) = some (x, s2) ∧ hKind x.pkt.hdr ≠ 3 ∧
    s2.collOpen = true ∧ s2.pktEnv 0 x.pkt.hdr = some (envC 0) ∧ tests13 s2 (envC 0) x.vc x.pkt = none ∧
    s2.pktEnv 0 (pktC 1 1 8).hdr = none ∧ tests13 s2 (envC 0) 3 x.pkt ≠ none ∧
    ({ s2 with roe := { s2.roe with pstate := .p1 } } : State).collOpen = false :=
  ⟨_, _, rfl, by decide, by decide, rfl, by decide, by decide, by decide, by decide⟩
theorem witness_coll_answer : ∃ x s2, ((steer (stC 0) (some 0) (pktC 3 1 7)).tick 0).takeSteered 0
    (mineC ((steer (stC 0) (some 0) (pktC 3 1 7)).tick 0)) = some (x, s2) ∧ hKind x.pkt.hdr = 3 := ⟨_, _, rfl, by decide⟩
theorem witness_coll_relay : let s1 := (steer (stC (2 <<< 20)) (some 0) (pktC 2 1 7)).tick 0
    ∃ x s2, s1.takeSteered 0 (fun y => decide (hKind y.pkt.hdr = 2 ∨ hKind y.pkt.hdr = 4) &&
        decide (s1.steeredRole 0 y = .relay)) = some (x, s2) ∧ s2.collOpen = true ∧
      s2.pktEnv 0 x.pkt.hdr = some (envC (2 <<< 20)) ∧ tests13 s2 (envC (2 <<< 20)) x.vc x.pkt = none :=
  ⟨_, _, rfl, by decide, rfl, by decide⟩
theorem witness_coll_child : let s1 := (steer (stC 0) (some 0) (pktC 4 1 7)).tick 0
    ∃ x s2, s1.takeSteered 0 (fun y => decide (hKind y.pkt.hdr = 4) && decide (s1.steeredRole 0 y = .child)) = some (x, s2) ∧
      s2.pktEnv 0 x.pkt.hdr = some (envC 0) ∧ tests13 s2 (envC 0) x.vc x.pkt = none ∧
      (s2.curInst (envC 0).cfg 0 (s2.ch (envC 0))).getD 0 = 0 ∧ (s2.ch (envC 0)).ended.contains 0 = false :=
  ⟨_, _, rfl, rfl, by decide, by decide, by decide⟩

/-- The part with one record in chunk 0. -/
def recC (r : Rec) (timer : Option Nat) (px : Option (BitVec 128)) (d : BitVec 384) : State :=
  let s := stC d px
  { s with coll := { s.coll with chunks := [((0, 0, 0), { recs := [r], timer := timer })] } }
def rec0 : Rec := { inst := 0, etag := 1 }
theorem witness_chunk_timer :
    let s := (recC rec0 (some 0) none 0).tick 10000000
    s.chunkEnv 0 0 0 = some (envC 0) ∧ (s.ch (envC 0)).timer = some 0 ∧ s.curInst (envC 0).cfg 0 (s.ch (envC 0)) = some 0 ∧
      0 + (envC 0).cfg.timeout ≤ s.now ∧ (s.ch (envC 0)).recOf 0 = some rec0 ∧
      ((recC rec0 (some 0) none 0).tick 9999999).now < 0 + (envC 0).cfg.timeout :=
  ⟨rfl, by decide, by decide, by decide, by decide, by decide⟩
theorem witness_chunk_ends :
    let r : Rec := { rec0 with st := .complete }
    let s := recC r none none 0
    let e := envC 0
    let x : Rec := { rec0 with failed := some 0x20 }
    let fl : Rec := { r with flushed := true }
    let px : BitVec 128 := 1
    let d : BitVec 384 := 1 <<< 22
    s.current 0 0 0 0 = some (e, r) ∧ (recC x none none 0).current 0 0 0 0 = some (e, x) ∧ (recC x none none 0).running e 0 = false ∧
      (recC fl none none 0).current 0 0 0 0 = some (e, fl) ∧ (recC fl none none 0).packetWaits e 0 = false ∧
      e.cfg.fused = false ∧ e.plainBarrier = false ∧ s.allRetired e 0 = true ∧ s.decoded id0 = true ∧ s.drained e 0 = true ∧
      ((recC r none (some px) d).tick 10000000).current 0 0 0 0 = some (envC d (some px), r) ∧ (envC d (some px)).cfg.fused = true ∧
      r.doneT + (envC d (some px)).cfg.timeout ≤ ((recC r none (some px) d).tick 10000000).now :=
  ⟨rfl, rfl, by decide, rfl, by decide, by decide, by decide, by decide, by decide, by decide, rfl, by decide, by decide⟩

/-- The part with a message of the bridge sets for chunk 0. -/
def sideC (m : SideMsg) : State :=
  let s := recC rec0 none (some 1) (1 <<< 22)
  { s with coll := { s.coll with side := [m] } }
theorem witness_fused_messages : ∀ i ∈ [0, 1, 0x7FFF, 0x8000, 0xFFFF], ∀ p ∈ [none, some ({} : Lane)],
    let m : SideMsg := { dst := 0, slot := 0, inst := i, chunk := 0, part := p }
    (((sideC m).tick 0).takeSide 0 fun x => decide (x.part.isSome = p.isSome)).map (fun x => (x.1, (x.2.sideEnv 0 m).isSome,
      x.2.curInst (envC (1 <<< 22) (some 1)).cfg 0 (x.2.ch (envC (1 <<< 22) (some 1))),
      (x.2.ch (envC (1 <<< 22) (some 1))).ended.contains i)) = some (m, true, some 0, false) := by decide

theorem witness_fused_peer_lacks :
    let d : BitVec 384 := 1 <<< 22
    let px : BitVec 128 := BitVec.ofNat 128 (1 + 1 <<< 19)
    let p : Plan := { planC d (some px) with owners := [(0, BitVec.ofNat 128 (1 <<< 71 + 64 <<< 80)), (1, BitVec.ofNat 128 (1 <<< 16 + 1 <<< 36 + 1 <<< 71))] }
    let e : CEnv := { envC d (some px) with plan := p }
    ∃ x ∈ e.peers, ((recC rec0 none (some px) d).ch e).parts.find (0, x.2) = none := by decide

theorem witness_fused_abort_of_a_waiting_instance :
    let e := envC (1 <<< 22) (some 1)
    let s0 := stC (1 <<< 22) (some 1)
    let s := { s0 with coll := { s0.coll with chunks := [((0, 0, 0), { recs := [rec0, { rec0 with inst := 1, st := .waiting }] })] } }
    s.curInst e.cfg e.slot (s.ch e) = some 0 ∧ ((s.ch e).recOf 1).map (·.st) = some .waiting ∧ (1 + 65536 - 0) % 65536 < 0x8000 ∧
      (s.ch e).ended.contains 1 = false := by decide

theorem witness_holds :
    let s : State := { State.reset with
      time := { State.reset.time with st := .locked }
      links := [(0, { hold := [(0, mkPkt 0 []), (1, mkPkt 0 [])] })] }
    (s.tick 0).ftSet = true ∧ ((s.tick 0).link 0).hold.length = 2 ∧ (s.tick 0).ftNow = 0 := by decide
theorem witness_direct :
    let d : BitVec 384 := 1 <<< 22
    let s : State := { recC rec0 none (some 4) d with
      cores := [(0, { ctxs := [{ id := id0, etag := 1, initDone := true }], ring := [⟨id0, 0, [1, 2]⟩] })] }
    let e := envC d (some 4)
    (s.core 0).ring = [⟨id0, 0, [1, 2]⟩] ∧ (s.core 0).run = none ∧ ((s.core 0).ctx id0).isSome = true ∧
      s.cenv (clusterOf 0) 0 0 1 = some e ∧ e.cfg.direct = true ∧ (s.ch e).recOf 0 = some rec0 := 
  ⟨by decide, by decide, by decide, rfl, by decide, by decide⟩
theorem witness_sparse_run :
    let q : SRun := ⟨id0, 0, 0, [⟨0, 0, 3, [1, 2]⟩]⟩
    let s0 := recC rec0 none none 8
    let s : State := { s0 with coll := { s0.coll with runs := [(0, [q])] } }
    s.coll.runs.at 0 [] = [q] ∧ (s.chunk (clusterOf 0) 0 0).recOf 0 = some rec0 ∧ s.cenv (clusterOf 0) 0 0 1 = some (envC 8) ∧
      (s.chunk (clusterOf 0) 0 1).recOf 0 = none :=
  ⟨by decide, by decide, rfl, by decide⟩

/-! ### Witnesses: fabric memory -/

/-- A region entry of all rights: type, base, length and backing area in granules. -/
def reg (type base len pbase : Nat) : BitVec 256 :=
  BitVec.ofNat 256 (1 + type <<< 1 + 7 <<< 10 + base <<< 32 + len <<< 64 + pbase <<< 96)
/-- A part whose plan has the region of `type` at granule 0 and a PLAIN region at granule 16. -/
def stM (type : Nat) : State :=
  let s := stC 0
  { s with plans := { s.plans with
    active := some { planC 0 none with regions := [(0, reg type 0 1 100), (1, reg 0 16 1 0)] } } }
/-- A request: MOP, FMT, MLEN, payload; PKT 0, LAST, COUNT 1 for a message. -/
def reqM (mop fmt len : Nat) (pay : List Byte) : Packet :=
  mkPkt (mkHdr [⟨99, 96, 5⟩, ⟨103, 100, fmt⟩, ⟨111, 104, 1⟩, ⟨114, 112, mop⟩, ⟨186, 174, len⟩, ⟨200, 200, 1⟩,
    ⟨212, 201, 1⟩]) pay
/-- A signal lead for granule 16: value 5, SOP as given. -/
def lead0 (sop : Nat) : List Byte := toLE 8 5 ++ toLE 4 16 ++ toLE 1 0 ++ toLE 1 sop ++ toLE 2 0

/-- A request that passes its tests: taken by its row, and absorbed in the region at granule 0. -/
def passes (type mop fmt len : Nat) (pay : List Byte) : Bool :=
  match ((steer (stM type) (some 0) (reqM mop fmt len pay)).tick 0).takeReq 0 (fun m => decide (m = mop)) with
  | none => false
  | some (q, s2) => let u := s2.msgTimers 0
    u.memOpen && decide (memTests u q = .inr (.region 0 (reg type 0 1 100))) && (u.badIn q.addr (hMlen q.hdr)).isEmpty &&
      !u.badGran (q.addr / 64) && !(u.badGran (rePbase (reg type 0 1 100) + elem0 (reg type 0 1 100) q.hdr)) &&
      decide (hMlen q.hdr = len)
theorem witness_memory_passes : (passes 0 0 0 4 [] && passes 1 0 0 4 [] && passes 0 1 0 4 [1, 2, 3, 4] && passes 0 3 0 8 (toLE 16 7) &&
    passes 1 4 0 4 [0, 0, 128, 63] && passes 0 2 0 4 (lead0 0 ++ [1, 2, 3, 4]) && passes 1 5 0 4 (lead0 1 ++ [0, 0, 128, 63])) = true := by
  decide
theorem witness_memory_refusals :
    let s := stM 0
    let q : MReq := { cl := 0, hdr := (reqM 1 0 4 [1, 2, 3, 4]).hdr, pay := [1, 2, 3, 5], edge := false, bad := false }
    memTests s q = .inl 0x30 ∧ ({ s with roe := { s.roe with pstate := .s1 } } : State).memOpen = false ∧
      Memory.wf s.mem.dram = true := by decide
theorem witness_memory_window :
    let w : BitVec 256 := BitVec.ofNat 256 (1 + 1 <<< 5 + 1 <<< 12 + 1 <<< 32 + 1 <<< 48 + 200 <<< 64 + 300 <<< 128)
    let s0 := stM 0
    let s : State := { s0 with plans := { s0.plans with active := some { planC 0 none with weights := [w] } } }
    let q : MReq := { cl := 0, hdr := (reqM 0 0 4 []).hdr, pay := [], edge := false, bad := false }
    memTests s q = .inr (.window 0 w) := by decide
theorem witness_signals :
    let h := (reqM 2 0 4 (lead0 0 ++ [1, 2, 3, 4])).hdr
    let m : Msg := { cl := 0, src := hSrc h, tag := hTag h, lead := lead0 0, since := 0, sigto := 1000000, entry := 0, hdr := h }
    let m' : Msg := { m with got := [0], count := some 1 }
    let m2 : Msg := { m with got := [0] }
    rePrimary (reg 0 0 1 100) = false ∧ rePrimary (reg 1 0 1 100) = false ∧ m'.full = true ∧ m.fail = none ∧ m.mirrors = 0 ∧ m2.full = false ∧
      ((stM 0).mem.mirrors.any fun w => w.grans.contains (leadAddr (lead0 0) / 64)) = false ∧
      (stM 0).badGran (leadAddr (lead0 0) / 64) = false ∧
      ({ stM 0 with mem := { bad := [16] } } : State).badGran (leadAddr (lead0 0) / 64) = true ∧
      ((({ stM 0 with mem := { bad := [0] } } : State).dramPut 0 0 [1, 2, 3, 4]).2 = false) ∧
      (((stM 0).dramPut 0 0 [1, 2, 3, 4]).2 = true) := by decide
theorem witness_messages : ∀ f ∈ [none, some 5],
    let m : Msg := { cl := 0, src := 1, tag := 2, since := 0, sigto := 7, ended := f }
    let s := { stM 0 with mem := { msgs := [m] } }
    (s.tick 7).msgOf 0 1 2 = some m ∧ m.since + m.sigto ≤ (s.tick 7).now ∧ (s.tick 6).now < m.since + m.sigto ∧
      5 + m.sigto ≤ (s.tick 12).now ∧ (s.tick 11).now < 5 + m.sigto := by decide

/-- An answer with a tag and a status. -/
def rspM (tag st : Nat) (pay : List Byte) : Packet := mkPkt (mkHdr [⟨99, 96, 6⟩, ⟨135, 120, tag⟩, ⟨220, 213, st⟩]) pay
def mir0 : MirrorWr := { cl := 0, tag := 9, grp := 9, entry := 0, grans := [0], resp := none, last := false, msg := none, sentAt := 0 }
theorem witness_mirror_answers : ∀ st ∈ [0, 0x24],
    let s := (steer { stM 2 with mem := { mirrors := [mir0] } } (some 0) (rspM 9 st [])).tick 0
    ∃ x s2, s.takeMem 0 (fun y => decide (hKind y.pkt.hdr = 6) && (s.mirrorOf 0 (hTag y.pkt.hdr)).isSome) = some (x, s2) ∧
      s2.mirrorOf 0 (hTag x.pkt.hdr) = some mir0 ∧ (answerOf x.pkt = 0 ↔ st = 0) ∧
      (s2.msgTimers 0).now < mir0.sentAt + reMirto ((s2.msgTimers 0).regionEnt mir0.entry) := by
  intro st h
  rcases List.mem_cons.1 h with rfl | h
  · exact ⟨_, _, rfl, by decide, by decide, by decide⟩
  · rcases List.mem_cons.1 h with rfl | h
    · exact ⟨_, _, rfl, by decide, by decide, by decide⟩
    · cases h
theorem witness_mirror_timer : let s := { stM 2 with mem := { mirrors := [mir0] } }
    (s.tick 100000).mirrorOf 0 9 = some mir0 ∧ mir0.sentAt + reMirto ((s.tick 100000).regionEnt 0) ≤ (s.tick 100000).now ∧
      (s.tick 99999).now < mir0.sentAt + reMirto ((s.tick 99999).regionEnt 0) := by decide

/-- A snapshot command in progress on entry 0, with one read outstanding for each tag. -/
def snap0 (op : Nat) : SnapOp :=
  { req := ⟨0, 0, op⟩, entry := 0, arg := 0, want := 0, next := 0, done := 0, reads := [{ off := 0, len := 64, tag := 4, sentAt := 0, first := 0, resends := 0 }] }
def stS (op : Nat) (bad : List Nat) : State :=
  let s := stM 3
  { s with mem := { snaps := [snap0 op], bad := bad }, time := { s.time with st := .locked } }
theorem witness_snapshot_take : ∀ b ∈ [[], [0]], let s := (stS 0x0600 b).tick 0
    s.snapOn 0 = some (snap0 0x0600) ∧ s.ftSet = true ∧ 0 ≤ s.ftNow ∧ s.mpServes = true ∧
      s.answersDue 0 (s.regionEnt 0) = false ∧ s.regionBad (s.regionEnt 0) 0 = decide (b ≠ []) := by decide
def snapAnswered (op st : Nat) : Bool :=
  let s := (steer (stS op []) none (rspM 4 st [1])).tick 0
  match s.takeMp fun y => decide (hKind y.pkt.hdr = 6) && (s.snapTag op (hTag y.pkt.hdr)).isSome with
  | none => false
  | some (x, s2) => s2.mpServes && decide (hCheck x.pkt.hdr = checkOf x.pkt.payload) && decide (hStatus x.pkt.hdr = st) &&
      decide (s2.snapTag op (hTag x.pkt.hdr) = some (snap0 op)) &&
      ((snap0 op).reads.find? fun y => decide (y.tag = hTag x.pkt.hdr)).isSome
theorem witness_snapshot_answers : ([0x0601, 0x0602].all fun op => [0, 0x24, 0x30].all fun st => snapAnswered op st) = true := by decide
theorem witness_refusal_codes : definedCodes ≠ [] ∧ definedCodes.all (fun c => decide (c < 256)) = true := by decide
theorem witness_scrub : (stS 0 [0]).badGran 0 = true ∧ (stS 0 []).badGran (4 * Config.dieGranules - 1) = false := by decide

/-- Core 0 with a fetch of one beat and a WRITE outstanding. -/
def stF (resends : Nat) : State :=
  let q : CoreReq := { tag := 3, desc := 0, beat := 0, n := 1, no := 0, status := none, sentAt := 0, resends := resends, pkt := mkPkt 0 [] }
  { tsi0 0 (flds 0 0 0) 0 core0 with cores := [(0, { run := some { run0 with fetches := [q] }, ctxs := [{ id := id0, etag := 1, wrs := [{ q with tag := 5 }] }] })] }
theorem witness_core_requests :
    let f := fun (r t : Nat) => (((stF r).tick t).fetchOf 0 3).map fun x => (x.1, x.2.2.resends, decide (x.2.2.sentAt + 10000000 ≤ ((stF r).tick t).now))
    f 0 10000000 = some (0, 0, true) ∧ f 3 10000000 = some (0, 3, true) ∧ f 4 10000000 = some (0, 4, true) ∧ f 0 9999999 = some (0, 0, false) ∧
      (((stF 4).tick 10000000).fetchOf 0 5).isNone = true ∧
      (((stF 4).tick 10000000).wrOf 0 5).map (fun x => (x.1, x.2.2.resends, x.2.2.sentAt)) = some (0, 4, 0) := by decide
theorem witness_core_answers : ∀ tag ∈ [3, 5],
    let s := (steer (stF 0) (some 0) (rspM tag 0 (if tag = 3 then zeros 64 else []))).tick 0
    (s.takeMem 0 fun y => decide (hKind y.pkt.hdr = 6) && (s.mirrorOf 0 (hTag y.pkt.hdr)).isNone &&
        decide ((s.wrOf 0 (hTag y.pkt.hdr)).isNone = decide (tag = 3))).map (fun x => (answerOf x.1.pkt, x.1.pkt.payload.length,
          (x.2.fetchOf 0 (hTag x.1.pkt.hdr)).isSome, (x.2.wrOf 0 (hTag x.1.pkt.hdr)).isSome)) =
      some (0, if tag = 3 then 64 else 0, decide (tag = 3), decide (tag = 5)) := by decide

/-! ### Witnesses: links -/

/-- The part with link 0 in a state. -/
def stL (k : Link) : State := { State.reset with links := [(0, k)], time := { State.reset.time with st := .locked } }
theorem witness_training :
    chooseSet 0xFF 8 (0x00 &&& 0xFF) = none ∧ chooseSet 0xFF 8 (0xF7 &&& 0xFF) = some 0xF0 ∧ chooseSet 0xFF 8 (0x10 &&& 0xFF) = none ∧
    (stL {}).fullLanes 0 = 0xFF ∧
    (([(LState.signal, 0), (.equalise, 20000000), (.fecLock, 1000000), (.discover, 1000000), (.init, 100000), (.down, 1000000000),
        (.discover, 10000), (.retrain, 10000)].all fun x =>
      decide ((((stL { st := x.1 }).tick x.2).link 0).st = x.1 ∧ ((stL { st := x.1 }).tick x.2).roe.c6 = false ∧
        (((stL { st := x.1 }).tick x.2).link 0).since + x.2 ≤ ((stL { st := x.1 }).tick x.2).now ∧
        ((stL { st := x.1 }).tick x.2).roe.laser.contains (engineOf 0) = false))) = true ∧
    ({} : Link).looped = false ∧ ({ looped := true } : Link).looped = true := by decide
theorem witness_stopping : let k : Link := { st := .stopping, since := 5 }
    let h : Link := { k with held := [⟨0, ⟨List.replicate 8 0, 8⟩, 7⟩] }
    (((stL k).tick 10005).link 0).st = .stopping ∧ k.since + 10000 ≤ ((stL k).tick 10005).now ∧
      ((stL k).tick 10004).now < k.since + 10000 ∧ ((stL k).tick 10005).linkIdle 0 = true ∧ k.held = [] ∧
      ((stL { k with ctl := [1] }).tick 0).linkIdle 0 = false ∧ k.fn.queued = none ∧ k.restart = false ∧
      (h.held.foldl (fun n x => max n x.at_) h.since) + max 2000 (h.loop + 1000) ≤ ((stL h).tick 2007).now := by decide

/-- A block of eight flits of zeros with the FTAG field and the sequence number given. -/
def blk (tag seq : Nat) : Block := sealBlock (List.replicate 8 0) tag seq 0 (0, 0, 0) (0, 0, 0) false
theorem witness_blocks : blockGood (blk 8 0) = true ∧ blockGood (blk 0 0x3FFF) = true ∧
    blockSeqd ⟨List.replicate 8 0, 8⟩ = true ∧ blockSeqd ⟨List.replicate 8 0, 0⟩ = false ∧ blockGood ⟨List.replicate 8 0, 8⟩ = false := by
  decide +kernel
/-- The states of a receiver: the next block, a duplicate (the 8,192nd behind), and one ahead, in NORMAL and in WAIT. -/
theorem witness_receiver :
    let b : Block := { flits := List.replicate 8 0, trailer := 8 }
    let rx := fun (e : Nat) (w : Bool) =>
      let s := ((stL { st := .up, rxExp := e, rxWait := w }).tick 0).fecNote 0 ⟨false, [], []⟩
      let a := ((s.ackRx 0 (fld b.trailer 59 46) (bit b.trailer.toNat 94)).creditRx 0 (fld b.trailer 62 60) (fld b.trailer 66 63)
        (fld b.trailer 76 67)).creditRx 0 (fld b.trailer 79 77) (fld b.trailer 83 80) (fld b.trailer 93 84)
      ((s.link 0).st, (a.link 0).rxExp, (a.link 0).rxWait, (fld b.trailer 45 32 + 16384 - (a.link 0).rxExp) % 16384)
    rx 0 false = (.up, 0, false, 0) ∧ rx 8192 false = (.up, 8192, false, 8192) ∧ rx 8193 true = (.up, 8193, true, 8191) ∧
      rx 16383 false = (.up, 16383, false, 1) := by decide +kernel
/-- What the FEC report leaves of a link: it takes blocks, it is in RETRAIN, or four bad codewords have taken a lane from
it. -/
theorem witness_fec :
    let u := fun (st : LState) (w : Bool) (n : Nat) =>
      (((stL { st := st, rxWait := w, good := 3, lanes := 3 }).tick 0).fecNote 0 { bad := true, uncorr := [n], corr := [] }).count .badBlocks 0 0
    ((u .up true 3).link 0).st = .up ∧ ((u .up true 3).link 0).rxWait = true ∧ ((u .up false 0).link 0).rxWait = false ∧
      ((u .retrain false 3).link 0).st = .retrain ∧ ((u .up false 4).link 0).good = 2 := by decide
def held0 : HeldBlock := ⟨0, ⟨List.replicate 8 0, 8⟩, 0⟩
theorem witness_sender :
    let k : Link := { st := .up, held := [held0], hello := some 7, nakAt := 0, rxWait := true }
    let r : Link := { k with replay := 8, replayAt := 1 }
    k.live = true ∧ k.progressAt + max 2000 (k.loop + 1000) ≤ ((stL k).tick 2000).now ∧
      ((stL k).tick 1999).now < k.progressAt + max 2000 (k.loop + 1000) ∧ k.nakAt + 2000 ≤ ((stL k).tick 2000).now ∧
      (if k.replay = 0 ∨ k.replayAt < k.ackAt then 1 else k.replay + 1) = 1 ∧
      (if r.replay = 0 ∨ r.replayAt < r.ackAt then 1 else r.replay + 1) = 9 ∧ r.progressAt + max 2000 (r.loop + 1000) ≤ ((stL r).tick 2001).now ∧
      held0.at_ + 2000000 ≤ ((stL k).tick 2000000).now ∧ ((stL k).tick 1999999).now < held0.at_ + 2000000 ∧
      (stL k).replayCap 0 = 1024 ∧ ({ k with resend := [held0] } : Link).resend = [held0] ∧
      fld (7 + 1 <<< 32 : BitVec 512) 63 32 ≠ fld (7 : BitVec 512) 63 32 ∧ ({ k with st := .down } : Link).live = false := by decide
theorem witness_retrain :
    let k : Link := { st := .retrain, lanes := 0xFF, good := 0x0F, hello := some 7, readySent := true, ready := some 0xFF }
    let g := 0xFF &&& k.good
    let lanes := if k.lanes &&& g = k.lanes then some k.lanes else chooseSet ((stL k).fullLanes 0) (popcount 8 k.lanes) g
    lanes = some 0x0F ∧ k.ready.isSome = true ∧ fld (7 : BitVec 512) 183 120 = fld (7 : BitVec 512) 183 120 ∧
      chooseSet 0xFF (popcount 8 k.lanes) (0x10 &&& k.good) = none ∧ 0xFF &&& (0x10 &&& k.good) ≠ 0xFF := by decide
theorem witness_full_replay : (stL {}).replayCap 0 ≤ (List.replicate 1024 held0).length := by
  rw [List.length_replicate]; decide
theorem witness_degrade :
    let k : Link := { st := .up, good := 0xFF, lanes := 0xFF, degrade := some (0, 0) }
    let h : Link := { k with lanes := 0x0F }
    k.live = true ∧ bit k.good 7 = true ∧ bit k.lanes 7 = true ∧ bit h.lanes 7 = false ∧ bit ({ k with good := 0x7F } : Link).good 7 = false ∧
      chooseSet 0xFF (popcount 8 0xFF) 0x7F = some 0x0F ∧ chooseSet 0xFF (popcount 8 0x03) 0x02 = none ∧
      0 + 1000 ≤ ((stL k).tick 1000).now ∧ ((stL k).tick 1000).now < 0 + 100000 ∧ 0 + 100000 ≤ ((stL k).tick 100000).now ∧
      laneFails .lock = true ∧ laneFails (.signal 1000) = true ∧ laneFails (.signal 999) = false ∧ laneFails (.errors 1 4999) = true ∧
      laneFails (.errors 1 5000) = false := by decide
theorem witness_heartbeats :
    let k : Link := { st := .up, awaited := some 0 }
    let r : Route := { route0 with nbrs := [0] }
    let s := { stL k with plans := { State.reset.plans with routes := [⟨r, 0, none, []⟩] } }
    k.tsAt + 16000 ≤ ((stL k).tick 16000).now ∧ k.disc = .used ∧ max k.since (k.digAt.getD 0) + 2000000 ≤ ((stL k).tick 2000000).now ∧
      (s.tick 1000000000).newest = some r ∧ 0 + 1000000000 ≤ (s.tick 1000000000).now ∧ fld (r.nbr 0) 39 32 ≠ 0xFF ∧
      ((stL k).tick 999999).ftNow / 1000000 = ((stL k).tick 999999).mp.digAt / 1000000 ∧
      ((stL k).tick 1000000).ftNow / 1000000 ≠ ((stL k).tick 1000000).mp.digAt / 1000000 := by decide

/-! ### Witnesses: the switch -/

theorem witness_ingress :
    let p := pktC 1 1 7
    let f : BitVec 512 := BitVec.ofNat 512 (mkHdr [⟨31, 0, 0⟩]).toNat
    let k : Link := { st := .up, rxq := [(2, p)], rx := [(3, { flits := [f], total := 2, mode := .waits })] }
    let s := (stL k).tick 0
    takeFirst (fun x : Nat × Packet => decide (x.1 = 2)) (s.link 0).rxq = some ((2, p), []) ∧
      takeFirst (fun x : Nat × Packet => decide (x.1 = 3)) (s.link 0).rxq = none ∧
      (((s.link 0).rx.find 3).map fun x => (x.mode, x.flits)) = some (.waits, [f]) ∧
      (s.link 0).rx.find 4 = none := by decide
theorem witness_ingress_hits :
    let s := stL { st := .up }
    let h := mkHdr [⟨31, 0, s.selfCoord⟩, ⟨99, 96, 0xA⟩]
    (s.ingressHits 0 3 (mkHdr [⟨31, 0, 0xFFFFFFFF⟩, ⟨99, 96, 1⟩])).all (fun x => x.isPort || x.isDrop) = true ∧ s.holdsWhole 0 3 (mkHdr [⟨31, 0, 0xFFFFFFFF⟩, ⟨99, 96, 1⟩]) [] = false ∧
      (s.ingressHits 0 0 h).all (fun x => x.isPort || x.isDrop) = false := by decide

/-- Packet 4 in the buffer with one copy for VC1 of link 0; link 0 UP with its neighbour's READY. -/
def buf0 : BufPkt :=
  { id := 4, pkt := mkPkt 0 [], vc := 1, acct := .mp, die := 0, at_ := 0, got := 2, flits := 2,
    copies := [{ link := 0, vc := 1, hdr := 0, since := some 0 }] }
def stB (c : Chan) : State :=
  let s := stL { st := .up, ready := some 0x02 }
  { s with sw := { s.sw with buf := [buf0], chans := [((0, 1), c)] } }
theorem witness_channels :
    let s := stB {}
    let o := stB { owner := some (4, 0) }
    ((s.link 0).st = .up ∧ (s.link 0).disc = .used ∧ bit ((s.link 0).ready.getD 0) 1 = true ∧ bit ((s.link 0).ready.getD 0) 2 = false) ∧
      ((o.chan 0 1).owner = some (4, 0) ∧ o.holdUs 0 * 1100 ≤ 55000 ∧ 54999 < o.holdUs 0 * 1100 ∧ (o.chan 0 1).pre.length < preCap 1 ∧
        o.leftToMove (4, 0) ≠ 0) ∧
      ((s.chan 0 1).owner = none ∧ s.bufOf 4 = some buf0 ∧
        (buf0.copies.findIdx? fun x => decide (x.link = 0 ∧ x.vc = 1) && !x.started) = some 0 ∧
        ((s.requests 0 1).any fun r => decide (r.id = 4)) = true ∧ 0 + s.starveNs 0 < (s.tick 100001).now ∧
        (s.tick 100000).now ≤ 0 + s.starveNs 0 ∧ (s.chan 0 1).starve = false ∧ ((stB { starve := true }).chan 0 1).starve = true) ∧
      (∀ x ∈ s.sw.chans, ∀ f ∈ x.2.pre, f.id ≠ 4) ∧ buf0.at_ + 7000000 ≤ (s.tick 7000000).now ∧
      (s.tick 6999999).now < buf0.at_ + 7000000 := by decide
theorem witness_switch_clock :
    let e : BitVec 64 := BitVec.ofNat 64 (1 + 1 <<< 63)
    let g : BitVec 128 × List (BitVec 64) := (7, [1])
    let s : State := { stL {} with
      sw := { State.reset.sw with gateNext := [(0, g)] }
      plans := { State.reset.plans with routes := [⟨route0, 0, none, []⟩] } }
    (s.tick 255).ftNow / 256 = s.sw.refillAt / 256 ∧ (s.tick 256).ftNow / 256 ≠ s.sw.refillAt / 256 ∧ (s.tick 0).ftSet = true ∧
      s.sw.gateNext.find 0 = some g ∧ fld g.1 63 0 ≤ (s.tick 7).ftNow ∧ (s.tick 6).ftNow < fld g.1 63 0 ∧ s.newest = some route0 ∧
      ((List.range 64).any fun i => shEn (BitVec.ofNat 64 (2 ^ i))) = true ∧ shEn 0 = false := by decide
theorem witness_telemetry :
    let s := fun (st : Life) (d : Option Nat) => { stL {} with
      mp := { State.reset.mp with running := true, telem := { fn := { st := st }, dest := d } } }
    let u := fun (st : Life) (d : Option Nat) => drainWait ((s st d).tick 100000)
    (u .stopping none).mp.telem.fn.st = .stopping ∧ (u .stopping none).sw.wait.any isCmap = false ∧
      (u .on none).mp.telem.dest = none ∧ (u .on (some 5)).mp.telem.dest = some 5 ∧ (u .on (some 5)).mp.telem.fn.st = .on ∧
      (u .on (some 5)).mp.telem.fn.start = none ∧ (u .on (some 5)).mp.running = true ∧
      (u .on (some 5)).mp.telem.interval * 1000 ≤ (u .on (some 5)).ftNow ∧ (u .on (some 5)).mp.telem.at_ = none := by decide

/-! ### Witnesses: time, errors, health -/

theorem witness_time :
    let s := fun st : TState => { stL {} with time := { State.reset.time with st := st }, mp := { State.reset.mp with running := true } }
    (s .locked).time.usable + 100000 ≤ ((s .locked).tick 100000).now ∧ ((s .locked).tick 99999).now < (s .locked).time.usable + 100000 ∧
      (s .holdover).time.holdAt + 1000000000 ≤ ((s .holdover).tick 1000000000).now ∧
      ((s .locked).tick 60000000000).ftNow / 60000000000 ≠ (s .locked).mp.decayed ∧
      ((s .locked).tick 59999999999).ftNow / 60000000000 = (s .locked).mp.decayed ∧ unitOk (.core 4607) = true := by decide
theorem witness_digest_entry :
    let o : OpenDigest := { slot := 0, inst := 3 }
    let s := { stC 0 with coll := { State.reset.coll with open_ := [o] } }
    ((s.tick 0).coll.open_.find? fun x : OpenDigest => decide (x.slot = 0 ∧ x.inst = 3)) = some o ∧
      (((s.tick 0).planOfSlot 0).bind fun p => p.slot 0).map (fun c => 2 * c.timeout) = some 20000000 := by decide

/-! ### Witnesses: Fawn mode, plans, takeover, lifecycle -/

/-- The part with the MP running and FT LOCKED. -/
def stP : State := { stC 0 with time := { State.reset.time with st := .locked } }
def read0 (resends : Nat) : BulkRead := { off := 0, len := 64, tag := 4, sentAt := 0, first := 0, resends := resends }
def req0 : Req := ⟨0, 0, 0x0500⟩
theorem witness_shadow_start :
    let f : Fawn := { fn := { st := .starting, start := some req0 }, plan := some (planC 0 none), act := some 9, target := some 3 }
    let s := { stP with fawn := f }
    s.mpServes = true ∧ (s.tick 9).ftSet = true ∧ 9 ≤ (s.tick 9).ftNow ∧ (s.tick 8).ftNow < 9 ∧ f.live = false ∧
      ({ f with fn := { st := .on } } : Fawn).fn.start = none := by decide
theorem witness_shadow_fetch : ∀ r ∈ [3, 4],
    let s := { stP with fawn := { fn := { st := .on }, target := some 3, reads := [read0 r] } }
    (s.tick 10000000).fetchingShadow = true ∧ s.fawn.since + 1000000000 ≤ (s.tick 1000000000).now ∧
      (s.fawn.reads.find? fun x : BulkRead => decide (x.off = 0)) = some (read0 r) ∧ (read0 r).sentAt + 10000000 ≤ (s.tick 10000000).now ∧
      (s.tick 9999999).now < (read0 r).sentAt + 10000000 := by decide
theorem witness_shadow_notice : ∀ q ∈ [3, 4],
    let f : Fawn := { fn := { st := .on }, target := some 3, notice := some (0, q), live := true, query := some (4, 0), act := some 0,
                      fusedAll := some 1 }
    let s := { stP with fawn := f }
    f.noticeAt + 100000000 ≤ (s.tick 100000000).now ∧ s.promoting = false ∧ f.pin = false ∧ f.since + s.shDwell ≤ (s.tick 1000000000).now ∧
      (s.tick 999999999).now < f.since + s.shDwell ∧ (f.fusedAll.all fun k => decide (f.fused.length < k)) = true ∧
      0 + 10000000 ≤ (s.tick 10000000).ftNow ∧ 0 + 10000000 ≤ (s.tick 10000000).now := by decide
theorem witness_shadow_compare :
    let f : Fawn := { fn := { st := .stopping }, cmp := [{ target := false, ent := 0, at_ := 0, plane := 3 }] }
    let s := { stP with fawn := f }
    (f.cmp.any fun x : CmpEntry => decide (entryKey x.ent = (0, 0, 0) ∧ x.at_ + s.cmpto ≤ (s.tick 100000000).now)) = true ∧ f.cmp ≠ [] ∧
      (f.finalAt.all fun x : Nat => decide (x ≤ s.ftNow)) = true ∧ ({ f with cmp := [] } : Fawn).cmp = [] := by decide

def arm0 (passed promote : Bool) : Arm := ⟨req0, 1, 600000, 50, passed, promote⟩
def stA (passed promote : Bool) (staged : Option Plan) : State :=
  { stP with plans := { stP.plans with arm := some (arm0 passed promote), staged := staged } }
theorem witness_arm_point :
    let p := planC 0 none
    let s := (stA false false (some p)).tick 100000
    let b : State := { s with plans := { s.plans with routeAt := some 0 } }
    s.mpServes = true ∧ s.ftSet = true ∧ (arm0 false false).c ≤ s.ftNow + 500000 ∧ p.pepoch = (arm0 false false).pepoch ∧ s.plans.stage = none ∧
      ({ s with plans := { s.plans with routes := [⟨route0, 0, none, []⟩] } } : State).routeBusy p 600000 = false ∧ b.routeBusy p 600000 = true ∧
      (stA false false none).plans.staged = none ∧ ({ p with pepoch := 2 } : Plan).pepoch ≠ 1 ∧
      ((stA false false (some p)).tick 99999).ftNow + 500000 < 600000 := by decide
theorem witness_promotion_at_the_arm_point :
    let r : Route := { route0 with hdr := BitVec.ofNat 128 (1 <<< 32) }
    let a : Plan := { planC 0 none with route := r }
    let p : Plan := { a with route := { r with hdr := r.hdr + BitVec.ofNat 128 (1 <<< 27) } }
    let s := stA false false (some p)
    ({ s with plans := { s.plans with active := some a } } : State).promotionStaged = true ∧
      (stA false false (some (planC 0 none))).promotionStaged = false := by decide
theorem witness_commit : ∀ pr ∈ [false, true],
    let s := stA true pr (some (planC 0 none))
    (arm0 true pr).passed = true ∧ (arm0 true pr).promote = pr ∧ (s.tick 600000).mpServes = true ∧ ({ s with mp := {} } : State).mpServes = false ∧ (s.tick 600000).ftSet = true ∧ 600000 ≤ (s.tick 600000).ftNow ∧
      (s.tick 599999).ftNow < 600000 := by decide
theorem witness_overlap : let s := { stP with plans := { stP.plans with prev := some (none, 7) } }
    s.plans.prev = some (none, 7) ∧ 7 ≤ (s.tick 7).now ∧ (s.tick 6).now < 7 := by decide
theorem witness_stage : ∀ r ∈ [3, 4], ∀ st ∈ [0, 0x24, 0x30],
    let g : StageOp := { req := req0, src := 0, len := 64, pepoch := 1, got := [], next := 64, reads := [read0 r], plan := none }
    let s := (steer { stP with plans := { stP.plans with stage := some g } } none (rspM 4 st [1])).tick 10000000
    (g.reads.find? fun x => decide (x.tag = 4)) = some (read0 r) ∧ (read0 r).held = false ∧ ({ read0 r with held := true } : BulkRead).held = true ∧ (read0 r).sentAt + 10000000 ≤ s.now ∧ s.plans.stage = some g ∧
      ((s.takeMp fun y => decide (hKind y.pkt.hdr = 6) && (g.reads.map fun r : BulkRead => r.tag).contains (hTag y.pkt.hdr)).map
        fun x => (hStatus x.1.pkt.hdr, decide (hCheck x.1.pkt.hdr = checkOf x.1.pkt.payload))) = some (st, true) := by decide +kernel
/-- Region 0 restoring its one granule, and the answer to its read. -/
def stRest (st : Nat) : State :=
  let s0 := stM 2
  (steer { s0 with mem := { regs := [(0, { phase := .restoring 1 0 })], restore := [(0, read0 0)] } } none
    (rspM 4 st (zeros 64))).tick 100000000
def restoreAnswered (st : Nat) : Bool :=
  let s := stRest st
  match s.takeMp fun y => decide (hKind y.pkt.hdr = 6) && (s.restoreRead (hTag y.pkt.hdr)).isSome with
  | none => false
  | some (x, s2) => decide (hCheck x.pkt.hdr = checkOf x.pkt.payload) && decide (hStatus x.pkt.hdr = st) &&
      decide (x.pkt.payload.length = 64) && decide (s2.restoreRead (hTag x.pkt.hdr) = some (0, read0 0)) &&
      decide ((s2.reg 0).phase = .restoring 1 0)
theorem witness_restore : restoreAnswered 0 = true ∧ restoreAnswered 0x30 = true ∧ reLen ((stRest 0).regionEnt 0) ≤ 0 + 64 / 64 ∧
    ((stRest 0).mem.regs.any fun x : Nat × RegDyn => x.2.restores) = true ∧ 0 + 100000000 ≤ (stRest 0).now ∧
    (∃ e d, (e, d) ∈ (stRest 0).mem.regs ∧ d.restores = true ∧
      ((stRest 0).member (cPlane (reBuddy ((stRest 0).regionEnt e)))).present = false) := by
  refine ⟨by decide +kernel, by decide +kernel, by decide +kernel, by decide +kernel, by decide +kernel,
    0, { phase := .restoring 1 0 }, by decide +kernel, by decide +kernel, by decide +kernel⟩
theorem witness_lifecycle : ∀ st ∈ [Life.off, .starting, .on, .stopping],
    let f : Fn := { st := st, start := some req0, queued := some (req0, []) }
    let s := (({ stP with mp := { stP.mp with parts := [(0, { fn := f })], clusters := [(0, f)] } }) : State).tick 0
    s.mpServes = true ∧ (s.part 0).fn = f ∧ (s.clusterFn 0) = f ∧ s.endpointsOff 0 = true ∧ s.clusterIdle 0 = true ∧
      (tsi0 0 (flds 0 0 0) 0 core0).clusterIdle 0 = false := by decide
theorem witness_endpoints : let e : BitVec 512 := BitVec.ofNat 512 (1 <<< 70)
    ∃ n, n < 148 ∧ ({ stL { st := .up } with plans := { State.reset.plans with
      active := some { planC 0 none with route := { route0 with hdr := BitVec.ofNat 128 (n <<< 40), links := [e] } },
      routes := [⟨{ route0 with links := [e] }, 0, none, []⟩] } } : State).endpointsOff 0 = false :=
  ⟨0, by decide, by decide⟩

/-! ### Witnesses: the mailbox -/

def pktMb (kind mbx aoff : Nat) (pay : List Byte) : Packet := mkPkt (mkHdr [⟨99, 96, kind⟩, ⟨102, 100, mbx⟩, ⟨115, 104, aoff⟩]) pay
/-- A request for PLAN_ABORT with SEQ 1: OPCODE, SEQ, ALEN 4 and its arguments. -/
def reqB : List Byte := toLE 2 0x0102 ++ toLE 2 1 ++ toLE 2 4 ++ zeros 2 ++ zeros 8
def mbxTaken (k m : Nat) (part : Option Nat) (right busy : Bool) : Bool :=
  match ((steer (stP.setBox m { part := part, busy := busy }) none (pktMb k m 0 reqB)).tick 0).takeMp
      fun y => decide (hKind y.pkt.hdr = k) with
  | none => false
  | some (x, s2) => let h := x.pkt.hdr
    s2.mpServes && decide (hCheck h = checkOf x.pkt.payload) && decide (hAoff h = 0) && decide (hMbx h = m) &&
      decide ((s2.box m).busy = busy) && decide (x.pkt.payload.length % 8 = 0) &&
      decide (right = (bit (s2.rights m) (s2.srcClass x.link) && decide (m = 0 ∨ (s2.box m).part = some (hPart h))))
theorem witness_mailbox_packets : ([0xA, 0xB].all fun k => mbxTaken k 0 none true false && mbxTaken k 7 none false false &&
      mbxTaken k 7 (some 0) true false && mbxTaken k 7 (some 0) true true) = true ∧
    4096 < 0xFF8 + (zeros 16).length ∧ knownOps.contains ({ req := memWrite [] 0 reqB } : Mbox).reqOp = true ∧
    memRead (memWrite [] 0 reqB) 0 4 ≠ memRead ({} : Mbox).rsp 0 4 ∧
    memRead (memWrite [] 0 reqB) 0 4 = memRead (memWrite [] 0 (reqB.take 4)) 0 4 := by decide +kernel

/-- A request of a row at the head of the trigger order. -/
def rowReady (x : Instr × CmdRule × (Call → State → Verdict)) (m : Nat) (part : Option Nat) : Bool :=
  let k := x.2.1
  let b : Mbox := { req := memWrite [] 0 (toLE 2 k.op ++ toLE 2 1 ++ toLE 2 k.alen), busy := true, part := part }
  let s := ((stP.setBox m b).tick 0)
  let s : State := { s with mp := { s.mp with triggers := [m] } }
  s.mpServes && decide (s.mp.triggers.head? = some m) && decide ((s.box m).reqOp = k.op) && decide ((s.box m).reqAlen = k.alen) &&
    (decide (m = 0) || k.admin || decide ((s.box m).part ≠ none)) && s.plans.active.isSome
theorem witness_mailbox_rows : (((mailboxRows 0 0).all fun x => rowReady x 0 none) && ((mailboxRows 7 0).all fun x => rowReady x 7 (some 0)) &&
    ((mailboxRows 0 0).any fun x => x.2.1.admin && x.2.1.noPlan) && ((mailboxRows 0 0).any fun x => x.2.1.p0) &&
    ((mailboxRows 0 0).any fun x => !x.2.1.noPlan)) = true := by decide +kernel
/-- A call with an argument byte. -/
def call0 (a : Nat) : Call := { req := req0, part := none, args := toLE 8 a }
theorem witness_enables : ∀ st ∈ [Life.off, .starting, .on, .stopping],
    let s : State := { stP with mp := { stP.mp with parts := [(0, { fn := { st := st } })], clusters := [(1, { st := st })] } }
    (s.clusterFn ((call0 1).arg 0 0)).st = st ∧ (s.part ((call0 0).arg 0 0)).fn.st = st ∧ Config.clusters ≤ (call0 36).arg 0 0 ∧
      (s.plans.active.any fun p : Plan => p.ownersUsed.contains 1) = false ∧ s.namesLink ((call0 575).arg 1 0) = false ∧
      s.namesLink ((call0 572).arg 1 0) = true ∧ s.namesLink ((call0 579).arg 1 0) = true ∧ s.partRefused 0 = false ∧ s.partRefused 63 = true ∧
      s.mbxTaken 0 1 = false ∧ ({ stP.setBox 1 { part := some 2 } with fuse := {} } : State).mbxTaken 0 1 = true := by decide +kernel

/-! ### Witnesses: throttles, stops, resets, the sideband -/

def stR (r : Roe) : State := { stP with roe := r }
theorem witness_throttles :
    let s := (stR { tlevel := 9, plevel := 1, cap := 40, tlevelAt := some 0, plevelAt := some 0 }).tick 10000000
    let c := (stR { avs := .raising 3 0 }).tick 50000
    s.roeJudges = true ∧ s.roe.c6 = false ∧ 0 + 100000 ≤ s.now ∧ 0 + 1000000 ≤ s.now ∧ 0 + 10000000 ≤ s.now ∧ s.roe.tlevel < 10 ∧
      0 < s.roe.tlevel ∧ 0 < s.roe.plevel ∧ s.roe.plevel < 10 ∧ 1000 * s.roe.cap < s.packagePower 400000 ∧
      s.packagePower 0 ≤ 1000 * 1000 ∧ s.packagePower 0 < 950 * 1000 ∧ c.roe.avs = .raising 3 0 ∧ 0 + 50000 ≤ c.now ∧
      ((stR { avs := .raising 3 0 }).tick 49999).now < 0 + 50000 ∧ s.roe.dramThr.contains 3 = false ∧
      (stR { dramThr := [3] }).roe.dramThr.contains 3 = true ∧
      (stR { dramThr := [3] }).roeJudges = true := by decide
theorem witness_stops_of_the_part :
    let s := (stP.tick 0)
    let b := { stL { st := .up, good := 0xFF } with boot := { State.reset.boot with phase := .firmware } }
    s.roeJudges = true ∧ s.roe.c6 = false ∧ s.roe.laser.contains 35 = false ∧ engineOf 575 = 35 ∧ engineOf 579 = 31 ∧
      (b.tick 1000000000).roe.mpLost = false ∧ b.boot.phase = .firmware ∧ b.roe.pstate ≠ .s3 ∧
      b.roe.beatAt + 1000000000 ≤ (b.tick 1000000000).now ∧ (b.tick 999999999).now < b.roe.beatAt + 1000000000 ∧
      (stR { diePll := [0, 1, 2] }).roe.diePll.length = 3 ∧ (stR { diePll := [0, 1, 2] }).roe.diePll.contains 3 = false ∧
      (stR { diePll := [0, 1, 2] }).roe.diePll.contains 0 = true ∧ stP.boot.phase = .start ∧ stP.boot.attempts = 0 ∧
      (b.link 0).live = true ∧ bit (b.link 0).good 7 = true := by decide
theorem witness_power :
    let s := stR { trans := some (.s3, req0) }
    let d : State := { s with links := [] }
    let w := stR { waking := true, pstate := .s3, waketo := .p1 }
    let e := stR { edgewake := true, pstate := .s3 }
    let i := stR { trailPll := true, k28At := 5 }
    (stR { aon := false }).roe.aon = false ∧ (stR { porst := true }).roe.porst = true ∧ s.roe.waking = false ∧ s.allDisabled = false ∧
      d.allDisabled = true ∧ (∃ x ∈ (tsi0 0 (flds 0 0 0) 0 core0).cores, x.2.ctxs ≠ [] ∨ x.2.run ≠ none) ∧ d.cores = [] ∧ w.roe.waking = true ∧ w.roe.c6 = false ∧ e.roe.edgewake = true ∧ e.roe.pstate = .s3 ∧
      i.roe.bypN = some false ∧ i.bypGood = true ∧ i.roe.k28At + 10000 ≤ (i.tick 10005).now ∧ (i.tick 10004).now < i.roe.k28At + 10000 ∧
      stP.bypGood = false ∧ stP.sideband = true ∧ stP.roe.pstate ≠ .off := by decide
theorem witness_sideband :
    let s : State := { stP with i3c := { dyn := some 9 } }
    stP.sideband = true ∧ stP.i3c.dyn = none ∧ s.i3c.dyn ≠ none ∧ (stP.tick 0).sideband = true ∧ stP.mpServes = true ∧
      bit (stP.rights 0) 0 = true ∧ (stP.box 0).busy = false ∧ (stP.setBox 0 { busy := true } |>.box 0).busy = true ∧
      0x1FFC % 4 = 0 ∧ (zeros 4).length % 4 = 0 := by decide

/-! ### Witnesses: the Trail and the boot ROM -/

/-- A frame: TYPE, source, destination, broadcast, HOPS. -/
def frame (type src dst b hops : Nat) (pay : List Byte) : Frame :=
  mkFrame (mkHdrT type src dst b hops pay.length) pay
where mkHdrT (type src dst b hops len : Nat) : BitVec 64 :=
  BitVec.ofNat 64 (type + src <<< 4 + dst <<< 9 + b <<< 14 + len <<< 16 + hops <<< 32)
/-- Every TYPE and SUB that a statement names, as a good frame for the member and as a broadcast. -/
theorem witness_frames :
    let good := fun f : Frame => f.crc == BitVec.ofNat 32 (crc32c (toLE 8 f.hdr.toNat ++ f.payload)) && fld f.hdr 28 16 == f.payload.length
    (([(7, 0, 0), (1, 0, 32), (2, 0, 16), (3, 0, 16), (4, 0, 16), (5, 1, 40), (5, 2, 72), (6, 0x20, 16), (6, 0x21, 16), (6, 0x22, 16),
      (6, 0x30, 24), (6, 0x31, 16), (6, 0x10, 16), (6, 0x11, 16), (6, 0x12, 16)] : List (Nat × Nat × Nat)).all fun x =>
      [(0, 0), (1, 30), (1, 31)].all fun b =>
        let f := frame x.1 3 0 b.1 b.2 ((toLE 1 x.2.1 ++ zeros 71).take x.2.2)
        good f && fld f.hdr 3 0 == x.1 && fld f.hdr 8 4 == 3 && fld f.hdr 13 9 == stP.plane && bit f.hdr.toNat 14 == decide (b.1 = 1) &&
          fld f.hdr 36 32 == b.2 && f.payload.length == x.2.2) = true := by decide +kernel
theorem witness_frame_faults :
    let f := frame 4 0 1 0 0 (zeros 16)
    ({ f with crc := f.crc + 1 } : Frame).crc ≠ BitVec.ofNat 32 (crc32c (toLE 8 f.hdr.toNat ++ f.payload)) ∧ fld f.hdr 8 4 = stP.plane ∧
      fld f.hdr 13 9 ≠ stP.plane ∧ (stR { bypN := some true, pstate := .s3 }).roe.bypN = some true ∧ stP.roe.bypN ≠ some true ∧
      framesSize stP.trail.fwd + Frame.size f ≤ Config.trailFwdBytes ∧
      Config.trailFwdBytes < framesSize [f] + (Config.trailFwdBytes - 27) := by decide +kernel
theorem witness_trail_clock :
    let s := stR { bypN := some true }
    let m : Member := { census := 0, at_ := 0, present := true }
    let a : State := { stP with trail := { members := [(31, m)] } }
    s.roe.bypN = some true ∧ s.roe.pstate ≠ .off ∧ s.trail.censusAt + 10000 ≤ (s.tick 10000).now ∧
      (s.tick 9999).now < s.trail.censusAt + 10000 ∧ (a.member 31).present = true ∧ (a.member 31).at_ + 100000 ≤ (a.tick 100000).now ∧
      (a.tick 99999).now < (a.member 31).at_ + 100000 ∧ stP.ftSet = true ∧ stP.mpServes = true := by decide
theorem witness_restoring_member :
    let s0 := stM 2
    let s := { s0 with mem := { regs := [(0, { phase := .restoring 0 0 })] } }
    ∃ x ∈ s.mem.regs, x.2.restores = true ∧ cPlane (reBuddy (s.regionEnt x.1)) = 0 :=
  ⟨(0, { phase := .restoring 0 0 }), by decide, by decide, by decide⟩
theorem witness_boot_clock :
    let s := fun (b : Boot) => { State.reset with boot := { b with phase := .fetch } }
    let r := { State.reset with boot := { retry := true } }
    (s { trail := true }).fetching true = true ∧ (s {}).fetching false = true ∧ (s {}).boot.lead = none ∧ (s {}).boot.next = 0 ∧
      0 + 1000000000 ≤ ((s {}).tick 1000000000).now ∧ ((s {}).tick 999999999).now < 0 + 1000000000 ∧
      (s { trail := true, none_ := true }).boot.none_ = true ∧ 0 + 100000000 ≤ ((s {}).tick 100000000).now ∧
      r.boot.retry = true ∧ r.boot.phase = .start ∧ r.roe.c6 = false ∧ State.reset.fuse.straps.bootSel.toNat ≠ 2 ∧
      ({ State.reset with fuse := { straps := ⟨0, 0, 2, 0⟩ } } : State).fuse.straps.bootSel.toNat = 2 := by decide
theorem witness_boot_reads : ∀ r ∈ [3, 4], ∀ st ∈ [0, 0x24, 0x30],
    let s := (steer { State.reset with boot := { phase := .fetch, reads := [{ read0 r with len := 1 }] } } none (rspM 4 st [1])).tick 10000000
    s.fetching false = true ∧ (s.boot.reads.find? fun x : BulkRead => decide (x.off = 0)) = some { read0 r with len := 1 } ∧ 0 + 10000000 ≤ s.now ∧
      (s.takeMp fun y => decide (hKind y.pkt.hdr = 6) && (s.boot.reads.map fun r : BulkRead => r.tag).contains (hTag y.pkt.hdr)).map
        (fun x => (hStatus x.1.pkt.hdr, decide (hCheck x.1.pkt.hdr = checkOf x.1.pkt.payload), x.1.pkt.payload.length)) =
        some (st, true, 1) := by decide +kernel
theorem witness_snapshot_resend : let s := (stS 0x0601 []).tick 10000000
    s.snapTag opRestore 4 = some (snap0 0x0601) ∧ (snap0 0x0601).reads.find? (fun r => decide (r.tag = 4)) = some (read0 0) ∧ (read0 0).held = false ∧
      s.mpServes = true ∧ 0 + 10000000 ≤ s.now := by decide

/-! ### Witnesses: the whole machine, and its arithmetic -/

theorem witness_step : step { State.reset with pending := [.rstdaa] } = .next { State.reset with i3c := { State.reset.i3c with dyn := none } } := rfl
theorem witness_invariant : State.reset.MemOk ∧ State.reset.FuseOk := ⟨by unfold State.MemOk; decide, by unfold State.FuseOk; decide⟩
theorem witness_wf : (Instr.movi 4607 (flds 0 0 0)).wf = true ∧ (Instr.contribRx 35 0).wf = true ∧ (Instr.blockTx 579 none 0).wf = true := by decide
/-- Window positions of an exact carry: the top of the range, the bound of W, and the escape. -/
theorem witness_carry :
    (2 ^ 240 : Int) = 1 * (2 ^ (8 * 30) : Nat) ∧ ¬(256 : Int) ∣ 1 ∧ -(2 ^ 119 : Nat) ≤ (2 ^ 119 - 1 : Int) ∧ (2 ^ 119 - 1 : Int) < (2 ^ 119 : Nat) ∧
      ((2 ^ 119 : Nat) : Int) ≤ 2 ^ 119 + 1 ∧ ¬(256 : Int) ∣ 2 ^ 119 + 1 ∧ -(2 ^ 375 : Nat) ≤ (2 ^ 374 : Int) ∧ (2 ^ 374 : Int) < (2 ^ 375 : Nat) := by
  decide
theorem witness_orders : [Val.nan, .inf true, .fin false 1 0].Perm [.fin false 1 0, .nan, .inf true] ∧ ({} : Lane).resOk = true := by decide

end Sys2Proof.Tests
end

/-!
PROOFS. The steps of the snapshot commands and the patrol scrub (R10, R202, R280, R318, R319, R321, R322): one equation for
each outcome of each command, then the obligation.
-/
namespace Sys2Proof.Machine

/-! ### Laws of the shared operations -/

/-- A packet for the MP whose check holds is given to its use (R482). -/
theorem State.mpPacket_of_check (s : State) {x : Steered} (f : State → State)
    (check : hCheck x.pkt.hdr = checkOf x.pkt.payload) : s.mpPacket x f = f s := by
  rw [State.mpPacket, if_neg (not_not_intro check.symm)]

/-- Counting touches no granule. -/
@[simp] theorem State.badGran_count (s : State) (c : Ctr) (i j g : Nat) : (s.count c i j).badGran g = s.badGran g := rfl

/-- Health events touch no granule. -/
@[simp] theorem State.badGran_health (s : State) (row n g : Nat) : (s.health row n).badGran g = s.badGran g := by
  unfold State.health
  split <;> rfl

/-- Counting an uncorrectable read touches no granule. -/
@[simp] theorem State.badGran_eccUncorr (s : State) (cl n g : Nat) : (s.eccUncorr cl n).badGran g = s.badGran g := by
  unfold State.eccUncorr
  split
  · rfl
  · exact State.badGran_health _ _ _ _

/-- A free status is one of the defined codes (R10, R11). -/
theorem State.freeCode_mem (s : State) : s.freeCode.1 ∈ definedCodes := by
  have hlt : (s.drawFree 8).1 % definedCodes.length < definedCodes.length := Nat.mod_lt _ (by decide)
  rw [State.freeCode, List.getElem?_eq_getElem hlt]
  exact List.getElem_mem hlt

/-! ### SNAPSHOT_TAKE_DONE (R318, R319) -/

/-- A take that is due: its seal FT has passed, the MP serves, and no answer to an earlier write is still to leave. -/
structure State.TakeDue (s : State) (e : Nat) (o : SnapOp) : Prop where
  cmd : s.snapOn e = some o
  op : o.req.op = opTake
  ftSet : s.ftSet = true
  sealPast : o.arg ≤ s.ftNow
  serves : s.mpServes = true
  answered : s.answersDue e (s.regionEnt e) = false

/-- The region with its seal. -/
def State.sealRegion (s : State) (e : Nat) : State := s.setReg e { s.reg e with sealed := true, sealAt := none }

/-- A take that is due seals its region, and ends by whether every granule of the region can be read. -/
theorem execSnapshotTakeDone_of_due {s : State} {e t : Nat} {o : SnapOp} (due : (s.tick t).TakeDue e o) :
    let s1 := s.tick t
    let r := s1.regionEnt e
    let u := s1.sealRegion e
    execSnapshotTakeDone e t s = .next (if s1.regionBad r 0 = true
      then (u.eccUncorr (servingCluster (reBase r)) 1).endSnap o stCheck 0 else u.endSnap o 0 (s1.regionDigest r)) := by
  obtain ⟨cmd, op, ftSet, sealPast, serves, answered⟩ := due
  have allAnswered : (!(s.tick t).answersDue e ((s.tick t).regionEnt e)) = true := by rw [answered]; rfl
  simp only [execSnapshotTakeDone, cmd]
  rw [if_pos ⟨op, ftSet, sealPast, serves, allAnswered⟩]
  rfl

/-! ### Answers to the READs of SNAPSHOT_RESTORE and the WRITEs of SNAPSHOT_EXPORT -/

/-- In `s1` the MP, which serves, takes the packet `x`, which leaves `s2`: an answer whose check holds, to the request `w`
of the snapshot command `o` with the code `op`. -/
structure State.SnapAnswer (s1 : State) (op : Nat) (x : Steered) (s2 : State) (o : SnapOp) (w : BulkRead) : Prop where
  taken : s1.takeMp (fun y => decide (hKind y.pkt.hdr = 6) && (s1.snapTag op (hTag y.pkt.hdr)).isSome) = some (x, s2)
  serves : s2.mpServes = true
  check : hCheck x.pkt.hdr = checkOf x.pkt.payload
  cmd : s2.snapTag op (hTag x.pkt.hdr) = some o
  req : (o.reads.find? fun y => decide (y.tag = hTag x.pkt.hdr)) = some w

section Answers
variable {s s2 : State} {t : Nat} {x : Steered} {o : SnapOp} {w : BulkRead}

/-- The effect of an answer to a READ of SNAPSHOT_RESTORE. -/
theorem execSnapshotRestoreReadResp_of_answer (a : (s.tick t).SnapAnswer opRestore x s2 o w) :
    let r := s2.regionEnt o.entry
    execSnapshotRestoreReadResp t s = .next
      (if hStatus x.pkt.hdr = 0x24 then s2.setSnap { o with reads := busyRead o.reads w.tag s2.now }
      else if hStatus x.pkt.hdr ≠ 0 ∨ x.pkt.payload.length ≠ w.len then s2.failRestore o 0x74 0
      else (s2.dramPut (servingCluster (reBase r)) (64 * reBase r + w.off) x.pkt.payload).1.restorePump
        { o with reads := dropRead o.reads w.tag, done := o.done + w.len / 64 }) := by
  obtain ⟨taken, serves, check, cmd, req⟩ := a
  simp [execSnapshotRestoreReadResp, taken, serves, State.mpPacket_of_check _ _ check, cmd, req]

/-- The effect of an answer to a WRITE of SNAPSHOT_EXPORT. -/
theorem execExportWriteResponse_of_answer (a : (s.tick t).SnapAnswer opExport x s2 o w) :
    execExportWriteResponse t s = .next
      (if hStatus x.pkt.hdr = 0x24 then s2.setSnap { o with reads := busyRead o.reads w.tag s2.now }
      else if hStatus x.pkt.hdr ≠ 0 then s2.freeCode.2.endSnap o s2.freeCode.1 0
      else s2.exportPump { o with reads := dropRead o.reads w.tag }) := by
  obtain ⟨taken, serves, check, cmd, req⟩ := a
  simp [execExportWriteResponse, taken, serves, State.mpPacket_of_check _ _ check, cmd, req]

/-- BUSY: the READ waits before it is resent (R202). -/
theorem execSnapshotRestoreReadResp_busy (a : (s.tick t).SnapAnswer opRestore x s2 o w) (busy : hStatus x.pkt.hdr = 0x24) :
    execSnapshotRestoreReadResp t s = .next (s2.setSnap { o with reads := busyRead o.reads w.tag s2.now }) := by
  rw [execSnapshotRestoreReadResp_of_answer a, if_pos busy]

/-- OK with every byte asked for: they are written, and the restore goes on (R321). -/
theorem execSnapshotRestoreReadResp_ok (a : (s.tick t).SnapAnswer opRestore x s2 o w) (ok : hStatus x.pkt.hdr = 0)
    (len : x.pkt.payload.length = w.len) :
    let r := s2.regionEnt o.entry
    execSnapshotRestoreReadResp t s = .next
      ((s2.dramPut (servingCluster (reBase r)) (64 * reBase r + w.off) x.pkt.payload).1.restorePump
        { o with reads := dropRead o.reads w.tag, done := o.done + w.len / 64 }) := by
  have notBusy : hStatus x.pkt.hdr ≠ 0x24 := by rw [ok]; decide
  have good : ¬(hStatus x.pkt.hdr ≠ 0 ∨ x.pkt.payload.length ≠ w.len) := by
    rintro (h | h)
    · exact h ok
    · exact h len
  rw [execSnapshotRestoreReadResp_of_answer a, if_neg notBusy, if_neg good]

/-- Any other answer: the restore fails with FETCH_FAIL (R321). -/
theorem execSnapshotRestoreReadResp_failed (a : (s.tick t).SnapAnswer opRestore x s2 o w)
    (notBusy : hStatus x.pkt.hdr ≠ 0x24) (bad : hStatus x.pkt.hdr ≠ 0 ∨ x.pkt.payload.length ≠ w.len) :
    execSnapshotRestoreReadResp t s = .next (s2.failRestore o 0x74 0) := by
  rw [execSnapshotRestoreReadResp_of_answer a, if_neg notBusy, if_pos bad]

/-- BUSY: the WRITE waits before it is resent (R202). -/
theorem execExportWriteResponse_busy (a : (s.tick t).SnapAnswer opExport x s2 o w) (busy : hStatus x.pkt.hdr = 0x24) :
    execExportWriteResponse t s = .next (s2.setSnap { o with reads := busyRead o.reads w.tag s2.now }) := by
  rw [execExportWriteResponse_of_answer a, if_pos busy]

/-- OK: SNAPSHOT_EXPORT goes on (R320). -/
theorem execExportWriteResponse_ok (a : (s.tick t).SnapAnswer opExport x s2 o w) (ok : hStatus x.pkt.hdr = 0) :
    execExportWriteResponse t s = .next (s2.exportPump { o with reads := dropRead o.reads w.tag }) := by
  have notBusy : hStatus x.pkt.hdr ≠ 0x24 := by rw [ok]; decide
  rw [execExportWriteResponse_of_answer a, if_neg notBusy, if_neg (not_not_intro ok)]

/-- Refused: SNAPSHOT_EXPORT ends with a free one of the defined codes (R10; log entry 23). -/
theorem execExportWriteResponse_refused (a : (s.tick t).SnapAnswer opExport x s2 o w)
    (notBusy : hStatus x.pkt.hdr ≠ 0x24) (refused : hStatus x.pkt.hdr ≠ 0) :
    ∃ st ∈ definedCodes, execExportWriteResponse t s = .next (({ s2 with free := s2.free + 1 } : State).endSnap o st 0) := by
  refine ⟨s2.freeCode.1, s2.freeCode_mem, ?_⟩
  rw [execExportWriteResponse_of_answer a, if_neg notBusy, if_pos refused]
  rfl

end Answers

/-! ### PATROL_SCRUB (R280, R322) -/

/-- The errors that a read finds in a granule change nothing once its check fails. -/
theorem State.granError_bad {s : State} {g : Nat} (bad : s.badGran g = true) (cl n : Nat) : s.granError cl g n = s := by
  rw [State.granError, if_pos (by rw [bad]; rfl)]

/-- No error found: nothing changes. -/
@[simp] theorem State.granError_zero (s : State) (cl g : Nat) : s.granError cl g 0 = s := by
  rw [State.granError, if_pos (by simp)]

/-- One error found in a granule that can be read: it is corrected and counted. -/
theorem State.granError_one {s : State} {g : Nat} (good : s.badGran g = false) (cl : Nat) :
    s.granError cl g 1 = s.count .eccCorr cl 0 := by
  rw [State.granError, if_neg (by simp [good]), if_pos rfl]

/-- More errors than one: the granule's check fails from then on. -/
theorem State.badGran_granError {s : State} {g n : Nat} (many : 2 ≤ n) (cl : Nat) : (s.granError cl g n).badGran g = true := by
  cases bad : s.badGran g with
  | true => rw [State.granError_bad bad, bad]
  | false =>
    have found : ¬(s.badGran g || decide (n = 0)) = true := by
      simp only [bad, Bool.false_or, decide_eq_true_eq]
      omega
    rw [State.granError, if_neg found, if_neg (by omega)]
    simp [State.badGran]

/-- The scrub of a granule of the part: the errors found, then the count of an uncorrectable read if the check fails. -/
theorem execPatrolScrub_of_granule {g : Nat} (hg : g < 4 * Config.dieGranules) (upset : Nat) (s : State) :
    let v := s.granError (servingCluster g) g upset
    execPatrolScrub g upset s = .next (if v.badGran g = true then v.eccUncorr (servingCluster g) 1 else v) := by
  rw [execPatrolScrub, onUnit, if_pos (decide_eq_true hg)]

section Scrub
variable {s : State} {g upset : Nat}

/-- A failing granule is counted as an uncorrectable read, whatever the scrub finds. -/
theorem execPatrolScrub_bad (hg : g < 4 * Config.dieGranules) (bad : s.badGran g = true) :
    execPatrolScrub g upset s = .next (s.eccUncorr (servingCluster g) 1) := by
  rw [execPatrolScrub_of_granule hg, State.granError_bad bad, if_pos bad]

/-- A granule without error: nothing changes. -/
theorem execPatrolScrub_clean (hg : g < 4 * Config.dieGranules) (good : s.badGran g = false) :
    execPatrolScrub g 0 s = .next s := by
  rw [execPatrolScrub_of_granule hg, State.granError_zero, if_neg (Bool.eq_false_iff.1 good)]

/-- A corrected error is counted. -/
theorem execPatrolScrub_corrected (hg : g < 4 * Config.dieGranules) (good : s.badGran g = false) :
    execPatrolScrub g 1 s = .next (s.count .eccCorr (servingCluster g) 0) := by
  rw [execPatrolScrub_of_granule hg, State.granError_one good, State.badGran_count, if_neg (Bool.eq_false_iff.1 good)]

/-- A granule found with more errors than the ECC corrects fails from then on, and its bytes stay (R280). -/
theorem execPatrolScrub_uncorrectable (hg : g < 4 * Config.dieGranules) (many : 2 ≤ upset) :
    ∃ v, execPatrolScrub g upset s = .next v ∧ v.badGran g = true ∧ v.keep = s.keep := by
  let v := (s.granError (servingCluster g) g upset).eccUncorr (servingCluster g) 1
  have bad := State.badGran_granError (s := s) (g := g) many (servingCluster g)
  have run : execPatrolScrub g upset s = .next v := by rw [execPatrolScrub_of_granule hg, if_pos bad]
  exact ⟨v, run, (State.badGran_eccUncorr _ _ _ _).trans bad, execPatrolScrub_keep _ _ _ _ run⟩

end Scrub

/-! ### The obligation -/

/-- Settles O27: `exec` runs each of the four commands, and every clause is the equation of that command's outcome. -/
theorem snapshotStepsAndScrub : Obligations.SnapshotStepsAndScrub := by
  unfold Obligations.SnapshotStepsAndScrub
  intro s e t
  refine ⟨?takeDone, ?restoreAnswer, ?exportAnswer, ?scrub⟩
  case takeDone =>
    intro o cmd op ftSet sealPast serves answered
    have run := execSnapshotTakeDone_of_due ⟨cmd, op, ftSet, sealPast, serves, answered⟩
    exact ⟨fun good => run.trans (by rw [if_neg (Bool.eq_false_iff.1 good)]; rfl),
      fun bad => run.trans (by rw [if_pos bad]; rfl)⟩
  case restoreAnswer =>
    intro x s2 o w taken serves check cmd req
    have a : (s.tick t).SnapAnswer opRestore x s2 o w := ⟨taken, serves, check, cmd, req⟩
    exact ⟨execSnapshotRestoreReadResp_busy a, execSnapshotRestoreReadResp_ok a, execSnapshotRestoreReadResp_failed a⟩
  case exportAnswer =>
    intro x s2 o w taken serves check cmd req
    have a : (s.tick t).SnapAnswer opExport x s2 o w := ⟨taken, serves, check, cmd, req⟩
    exact ⟨execExportWriteResponse_busy a, execExportWriteResponse_ok a, execExportWriteResponse_refused a⟩
  case scrub =>
    intro g upset hg
    refine ⟨execPatrolScrub_bad hg, ?_, ?_, fun _ => execPatrolScrub_uncorrectable hg⟩
    · rintro good rfl
      exact execPatrolScrub_clean hg good
    · rintro good rfl
      exact execPatrolScrub_corrected hg good

end Sys2Proof.Machine

/-!
The outcome of every command: it completes and leaves the queue alone, or the unit it names does not exist (R16).
-/
namespace Sys2Proof.Machine

/-! ### Laws of the dispatch -/

/-- What any command may do to the queue, the fuse bank and the byte memories. -/
theorem exec_kept (c : Instr) (s t : State) (h : exec c s = .next t) : KeptK s.keep t.keep := by
  cases c with
  | recv | ldv | stv | lds | movi | saddi | vmov | movm | vsplat | xadd | xcin | xclr | xmov | xfold | xpadd | xssum
  | vbit | dot | ssq | xpsum | expand | rnd | cvt | mxq | vmax | vmin | hmax | hmin | vflag | vcmp | vcmps | mlog |
  mpop | filt | fidx | vsel | mkrec | rinit | sort | merge | topk | unrec | gath | scat | ksel | br | bz | bm | loop
  | scalc | skip | stat | raise =>
    exact onUnit_kept (State.tsi_kept _ _ _ _ _ _) h
  | xcenc => exact execXcenc_kept _ _ _ _ h
  | emit => exact execEmit_kept _ _ _ _ h
  | emita => exact execEmita_kept _ _ _ _ h
  | emsc => exact execEmsc_kept _ _ _ _ h
  | endHandler => exact execEndHandler_kept _ _ _ _ h
  | fetch => exact execFetch_kept _ _ _ _ h
  | waitf => exact execWaitf_kept _ _ _ _ h
  | pcnt => exact execPcnt_kept _ _ _ _ h
  | outputRoomResume => exact execOutputRoomResume_kept _ _ _ _ h
  | initHandler => exact execInitHandler_kept _ _ _ _ _ _ h
  | sliceHandler => exact execSliceHandler_kept _ _ _ _ _ h
  | finalHandler => exact execFinalHandler_kept _ _ _ _ _ _ _ _ h
  | watchdogTimeout => exact .of_keep (execWatchdogTimeout_keep _ _ _ _ h)
  | directAccumulate => exact execDirectAccumulate_kept _ _ _ h
  | sparseRunDecode => exact .of_keep (execSparseRunDecode_keep _ _ _ h)
  | contribRx => exact execContribRx_kept _ _ _ _ h
  | cstatMemberRx => exact execCstatMemberRx_kept _ _ _ _ h
  | resultRelay => exact execResultRelay_kept _ _ _ _ h
  | chunkTimeout => exact execChunkTimeout_kept _ _ _ _ _ _ h
  | cstatSend => exact execCstatSend_kept _ _ _ _ _ _ _ h
  | chunkOutputFlush => exact execChunkOutputFlush_kept _ _ _ _ _ _ _ h
  | chunkEnd => exact execChunkEnd_kept _ _ _ _ _ _ _ h
  | qPartialRx => exact execQPartialRx_kept _ _ _ _ h
  | sideAbortRx => exact execSideAbortRx_kept _ _ _ _ h
  | qPartialTimeout => exact execQPartialTimeout_kept _ _ _ _ _ _ _ h
  | tbarrierRelease => exact .of_keep (execTbarrierRelease_keep _ _ _ _ h)
  | read => exact execRead_kept _ _ _ _ h
  | write => exact execWrite_kept _ _ _ _ h
  | writeSignal => exact execWriteSignal_kept _ _ _ _ h
  | atomic => exact execAtomic_kept _ _ _ _ h
  | accum => exact execAccum_kept _ _ _ _ h
  | accumSignal => exact execAccumSignal_kept _ _ _ _ h
  | messageTimeout => exact .of_keep (execMessageTimeout_keep _ _ _ _ _ _ h)
  | messageEntryFree => exact .of_keep (execMessageEntryFree_keep _ _ _ _ _ _ h)
  | mirrorResponse => exact execMirrorResponse_kept _ _ _ _ h
  | mirrorTimeout => exact execMirrorTimeout_kept _ _ _ _ _ h
  | patrolScrub => exact .of_keep (execPatrolScrub_keep _ _ _ _ h)
  | snapshotTakeDone => exact .of_keep (execSnapshotTakeDone_keep _ _ _ _ h)
  | snapshotRestoreReadResp => exact execSnapshotRestoreReadResp_kept _ _ _ h
  | exportWriteResponse => exact execExportWriteResponse_kept _ _ _ h
  | fetchResponse => exact execFetchResponse_kept _ _ _ _ h
  | memwrResponse => exact .of_keep (execMemwrResponse_keep _ _ _ _ h)
  | requestResend => exact execRequestResend_kept _ _ _ _ _ h
  | blockTx => exact .of_keep (execBlockTx_keep _ _ _ _ _ h)
  | blockRx => exact .of_keep (execBlockRx_keep _ _ _ _ _ _ h)
  | replayTimeout => exact .of_keep (execReplayTimeout_keep _ _ _ _ h)
  | nakRepeat => exact .of_keep (execNakRepeat_keep _ _ _ _ h)
  | laneFail => exact .of_keep (execLaneFail_keep _ _ _ _ _ h)
  | degradeRepeat => exact .of_keep (execDegradeRepeat_keep _ _ _ _ h)
  | degradeTimeout => exact .of_keep (execDegradeTimeout_keep _ _ _ _ h)
  | retrainDone => exact .of_keep (execRetrainDone_keep _ _ _ _ _ _ h)
  | signalDetect => exact .of_keep (execSignalDetect_keep _ _ _ _ h)
  | equaliseDone => exact .of_keep (execEqualiseDone_keep _ _ _ _ _ h)
  | equaliseTimeout => exact .of_keep (execEqualiseTimeout_keep _ _ _ _ _ h)
  | fecLockDone => exact .of_keep (execFecLockDone_keep _ _ _ _ _ h)
  | fecLockTimeout => exact .of_keep (execFecLockTimeout_keep _ _ _ _ h)
  | discoverTimeout => exact .of_keep (execDiscoverTimeout_keep _ _ _ _ h)
  | initTimeout => exact .of_keep (execInitTimeout_keep _ _ _ _ h)
  | linkRestart => exact .of_keep (execLinkRestart_keep _ _ _ _ h)
  | stoppingAbortTimeout => exact .of_keep (execStoppingAbortTimeout_keep _ _ _ _ h)
  | stoppingDone => exact .of_keep (execStoppingDone_keep _ _ _ _ h)
  | helloRepeat => exact .of_keep (execHelloRepeat_keep _ _ _ _ h)
  | tsyncSend => exact .of_keep (execTsyncSend_keep _ _ _ _ h)
  | digestHeartbeat => exact .of_keep (execDigestHeartbeat_keep _ _ _ h)
  | digestMissing => exact .of_keep (execDigestMissing_keep _ _ _ _ h)
  | replayAgeTimeout => exact .of_keep (execReplayAgeTimeout_keep _ _ _ _ h)
  | neighbourMissingTimeout => exact .of_keep (execNeighbourMissingTimeout_keep _ _ _ _ h)
  | packetIngress => exact .of_keep (execPacketIngress_keep _ _ _ _ _ _ h)
  | packetAgeTimeout => exact .of_keep (execPacketAgeTimeout_keep _ _ _ _ h)
  | routeSetDiscard => exact .of_keep (execRouteSetDiscard_keep _ _ _ h)
  | outputArbitration => exact .of_keep (execOutputArbitration_keep _ _ _ _ _ h)
  | holdCut => exact .of_keep (execHoldCut_keep _ _ _ _ _ _ h)
  | starve => exact .of_keep (execStarve_keep _ _ _ _ _ _ h)
  | shaperRefill => exact .of_keep (execShaperRefill_keep _ _ _ h)
  | gateTakeover => exact .of_keep (execGateTakeover_keep _ _ _ _ h)
  | quRefresh => exact .of_keep (execQuRefresh_keep _ _ _ h)
  | cmapTake => exact .of_keep (execCmapTake_keep _ _ _ h)
  | holdoverEntry => exact .of_keep (execHoldoverEntry_keep _ _ _ h)
  | holdoverExpiry => exact .of_keep (execHoldoverExpiry_keep _ _ _ h)
  | digestEntryTimeout => exact .of_keep (execDigestEntryTimeout_keep _ _ _ _ _ h)
  | unitError => exact execUnitError_kept _ _ _ _ h
  | healthDecay => exact .of_keep (execHealthDecay_keep _ _ _ h)
  | shadowActivation => exact .of_keep (execShadowActivation_keep _ _ _ h)
  | shadowImageTimeout => exact .of_keep (execShadowImageTimeout_keep _ _ _ h)
  | shadowNotice => exact .of_keep (execShadowNotice_keep _ _ _ h)
  | shadowRotate => exact .of_keep (execShadowRotate_keep _ _ _ h)
  | shadowCompareTimeout => exact .of_keep (execShadowCompareTimeout_keep _ _ _ _ _ _ h)
  | planReadResend => exact .of_keep (execPlanReadResend_keep _ _ _ _ h)
  | fusedQueryResend => exact .of_keep (execFusedQueryResend_keep _ _ _ h)
  | takeover => exact execTakeover_kept _ _ _ h
  | restoreReadResponse => exact execRestoreReadResponse_kept _ _ _ h
  | restoreReadResend => exact .of_keep (execRestoreReadResend_keep _ _ _ _ h)
  | buddyTimeout => exact execBuddyTimeout_kept _ _ _ h
  | armPoint => exact .of_keep (execArmPoint_keep _ _ _ h)
  | commit => exact execCommit_kept _ _ _ h
  | overlapEnd => exact .of_keep (execOverlapEnd_keep _ _ _ h)
  | stageReadResponse => exact execStageReadResponse_kept _ _ _ h
  | stageReadResend => exact .of_keep (execStageReadResend_keep _ _ _ _ h)
  | stageComplete => exact .of_keep (execStageComplete_keep _ _ _ h)
  | partStarted => exact .of_keep (execPartStarted_keep _ _ _ _ h)
  | partStopped => exact .of_keep (execPartStopped_keep _ _ _ _ h)
  | clusterStarted => exact .of_keep (execClusterStarted_keep _ _ _ _ h)
  | clusterStopped => exact .of_keep (execClusterStopped_keep _ _ _ _ h)
  | shadowStopped => exact .of_keep (execShadowStopped_keep _ _ _ h)
  | mbwr => exact execMbwr_kept _ _ _ h
  | mbrd => exact execMbrd_kept _ _ _ h
  | planStage => exact .of_keep (execPlanStage_keep _ _ _ _ h)
  | planCommit => exact execPlanCommit_kept _ _ _ _ h
  | planAbort => exact .of_keep (execPlanAbort_keep _ _ _ _ h)
  | partCreate => exact .of_keep (execPartCreate_keep _ _ _ _ h)
  | partDestroy => exact execPartDestroy_kept _ _ _ _ h
  | portEnable => exact .of_keep (execPortEnable_keep _ _ _ _ h)
  | portDisable => exact .of_keep (execPortDisable_keep _ _ _ _ h)
  | clusterEnable => exact .of_keep (execClusterEnable_keep _ _ _ _ h)
  | clusterDisable => exact .of_keep (execClusterDisable_keep _ _ _ _ h)
  | memRegionMap => exact .of_keep (execMemRegionMap_keep _ _ _ _ h)
  | shadowStart => exact .of_keep (execShadowStart_keep _ _ _ _ h)
  | shadowStop => exact .of_keep (execShadowStop_keep _ _ _ _ h)
  | reservePromote => exact .of_keep (execReservePromote_keep _ _ _ _ h)
  | snapshotTake => exact .of_keep (execSnapshotTake_keep _ _ _ _ h)
  | snapshotRestore => exact .of_keep (execSnapshotRestore_keep _ _ _ _ h)
  | snapshotExport => exact .of_keep (execSnapshotExport_keep _ _ _ _ h)
  | digestRead => exact .of_keep (execDigestRead_keep _ _ _ _ h)
  | counterRead => exact .of_keep (execCounterRead_keep _ _ _ _ h)
  | telemConfig => exact .of_keep (execTelemConfig_keep _ _ _ _ h)
  | sampleSet => exact .of_keep (execSampleSet_keep _ _ _ _ h)
  | healthRead => exact .of_keep (execHealthRead_keep _ _ _ _ h)
  | timeSet => exact .of_keep (execTimeSet_keep _ _ _ _ h)
  | powerStateSet => exact execPowerStateSet_kept _ _ _ _ h
  | attestGet => exact .of_keep (execAttestGet_keep _ _ _ _ h)
  | fwInfo => exact .of_keep (execFwInfo_keep _ _ _ _ h)
  | mpHeartbeat => exact .of_keep (execMpHeartbeat_keep _ _ _ h)
  | mpstop => exact .of_keep (execMpstop_keep _ _ _ h)
  | thermalLevelUp => exact .of_keep (execThermalLevelUp_keep _ _ _ _ h)
  | thermalLevelDown => exact .of_keep (execThermalLevelDown_keep _ _ _ _ h)
  | powerLevelUp => exact .of_keep (execPowerLevelUp_keep _ _ _ _ h)
  | powerLevelDown => exact .of_keep (execPowerLevelDown_keep _ _ _ _ h)
  | avsConfirm => exact .of_keep (execAvsConfirm_keep _ _ _ h)
  | avsConfirmTimeout => exact .of_keep (execAvsConfirmTimeout_keep _ _ _ h)
  | dramThrottleOn => exact .of_keep (execDramThrottleOn_keep _ _ _ _ _ h)
  | dramThrottleOff => exact .of_keep (execDramThrottleOff_keep _ _ _ _ _ h)
  | thermalTrip => exact .of_keep (execThermalTrip_keep _ _ _ _ _ h)
  | railFault => exact .of_keep (execRailFault_keep _ _ _ _ _ h)
  | refclkLoss => exact .of_keep (execRefclkLoss_keep _ _ _ _ h)
  | laserFault => exact .of_keep (execLaserFault_keep _ _ _ _ _ h)
  | laserClear => exact .of_keep (execLaserClear_keep _ _ _ _ _ h)
  | pllLock => exact .of_keep (execPllLock_keep _ _ _ _ h)
  | pllLockLoss => exact execPllLockLoss_kept _ _ _ _ h
  | powerTransitionDone => exact .of_keep (execPowerTransitionDone_keep _ _ _ h)
  | edgeWakeDetect => exact .of_keep (execEdgeWakeDetect_keep _ _ _ _ _ h)
  | roeWakeWrite => exact .of_keep (execRoeWakeWrite_keep _ _ _ _ h)
  | forcebypWrite => exact .of_keep (execForcebypWrite_keep _ _ _ _ h)
  | diagDataRead => exact .of_keep (execDiagDataRead_keep _ _ h)
  | i3cMailboxWrite => exact .of_keep (execI3cMailboxWrite_keep _ _ _ _ _ h)
  | registerWrite => exact .of_keep (execRegisterWrite_keep _ _ _ _ h)
  | entdaa => exact .of_keep (execEntdaa_keep _ _ _ h)
  | setdasa => exact .of_keep (execSetdasa_keep _ _ _ h)
  | setnewda => exact .of_keep (execSetnewda_keep _ _ _ h)
  | rstdaa => exact .of_keep (execRstdaa_keep _ _ h)
  | getpid => exact .of_keep (execGetpid_keep _ _ h)
  | getbcr => exact .of_keep (execGetbcr_keep _ _ h)
  | getdcr => exact .of_keep (execGetdcr_keep _ _ h)
  | getstatus => exact .of_keep (execGetstatus_keep _ _ h)
  | enec => exact .of_keep (execEnec_keep _ _ _ h)
  | disec => exact .of_keep (execDisec_keep _ _ _ h)
  | rstact => exact .of_keep (execRstact_keep _ _ _ h)
  | trailPktFrame => exact execTrailPktFrame_kept _ _ _ _ h
  | trailTsyncFrame => exact execTrailTsyncFrame_kept _ _ _ _ h
  | trailDigestFrame => exact execTrailDigestFrame_kept _ _ _ _ h
  | censusFrame => exact execCensusFrame_kept _ _ _ _ h
  | censusSend => exact .of_keep (execCensusSend_keep _ _ _ h)
  | memberAbsent => exact execMemberAbsent_kept _ _ _ _ h
  | wakeFrame => exact execWakeFrame_kept _ _ _ _ h
  | shadowEntry => exact execShadowEntry_kept _ _ _ _ h
  | shadowResult => exact execShadowResult_kept _ _ _ _ h
  | planRead => exact execPlanRead_kept _ _ _ _ h
  | planData => exact execPlanData_kept _ _ _ _ h
  | planNone => exact execPlanNone_kept _ _ _ _ h
  | fusedQuery => exact execFusedQuery_kept _ _ _ _ h
  | fusedStateRecord => exact .of_keep (execFusedStateRecord_keep _ _ _ h)
  | fusedState => exact execFusedState_kept _ _ _ _ h
  | bootRead => exact execBootRead_kept _ _ _ _ h
  | bootData => exact execBootData_kept _ _ _ _ h
  | bootNone => exact execBootNone_kept _ _ _ _ h
  | bootNoneRetry => exact .of_keep (execBootNoneRetry_keep _ _ _ h)
  | leadWaitTimeout => exact .of_keep (execLeadWaitTimeout_keep _ _ _ h)
  | trailInsert => exact .of_keep (execTrailInsert_keep _ _ _ h)
  | porstNAssert => exact execPorstNAssert_kept _ _ h
  | porstNRelease => exact execPorstNRelease_kept _ _ _ h
  | vddAonUp => exact execVddAonUp_kept _ _ h
  | bootFetchResponse => exact execBootFetchResponse_kept _ _ _ h
  | bootReadResend => exact .of_keep (execBootReadResend_keep _ _ _ _ h)
  | bootRetry => exact .of_keep (execBootRetry_keep _ _ _ h)
  | snapshotRestoreReadResend => exact .of_keep (execSnapshotRestoreReadResend_keep _ _ _ _ h)
  | bootTrainTimeout => exact .of_keep (execBootTrainTimeout_keep _ _ _ h)
  | vddAonDown => exact execVddAonDown_kept _ _ h
  | mpStopsExecuting => exact .of_keep (execMpStopsExecuting_keep _ _ h)
  | refreshRateDoubled => exact .of_keep (execRefreshRateDoubled_keep _ _ _ _ _ h)

/-- What a command that is well formed or not may answer: it completes, or it is not well formed and stops for want of its
unit. -/
def Answers (wf : Bool) (o : Out State) : Prop := Completes o ∨ wf = false ∧ o = .fault .noSuchUnit

/-- A command that names no unit completes. -/
theorem answers_next (wf : Bool) (s : State) : Answers wf (.next s) := .inl ⟨s, rfl⟩

/-- A command completes when its unit exists, which its being well formed must say. -/
theorem answers_onUnit {wf ok : Bool} {s : State} (h : wf = true → ok = true) : Answers wf (onUnit ok s) := by
  cases ok with
  | true => exact answers_next wf s
  | false => exact .inr ⟨Bool.eq_false_iff.mpr fun w => Bool.false_ne_true (h w), rfl⟩

/-- The checks of a pair of link and VC (Table ARC-1) agree. -/
theorem linkVc_exists {l v : Nat} (h : (Scope.linkVc l v).ok = true) : decide (l < Config.links ∧ v < 8) = true := by
  simpa [Scope.ok] using h

/-- A well-formed unit of an error exists. -/
theorem unitOk_of_wf (u : UnitRef) (h : u.wf = true) : unitOk u = true := by
  cases u with
  | core g | clusterCtl c | die d => exact h
  | bridge d e => simpa [UnitRef.wf, unitOk, and_assoc] using h

/-- A well-formed lane PLL names a link of the part. -/
theorem laneLink_exists {l : Nat} (n : Nat) (h : (PllRef.lane l n).wf = true) : decide (l < Config.links) = true := by
  simp_all [PllRef.wf]

/-- Every command answers as its being well formed says: the commands whose check is not their scope's own, then those that
name no unit. -/
theorem exec_answers (c : Instr) (s : State) : Answers c.wf (exec c s) := by
  cases c with
  | packetIngress | outputArbitration | holdCut | starve => exact answers_onUnit linkVc_exists
  | blockTx l parity t => exact answers_onUnit fun w => by simp_all [Instr.wf, Instr.scope, Scope.ok]
  | blockRx l b fec t => exact answers_onUnit fun w => by simp_all [Instr.wf, Instr.scope, Scope.ok]
  | unitError u t => exact answers_onUnit (unitOk_of_wf u)
  | pllLock u t =>
    cases u with
    | die d => exact answers_onUnit id
    | trail => exact answers_next _ _
    | lane l n => exact answers_onUnit (laneLink_exists n)
  | pllLockLoss u t =>
    cases u with
    | die d => exact answers_onUnit id
    | trail => exact answers_next _ _
    | lane l n => exact answers_onUnit (laneLink_exists n)
  | cmapTake t =>
    unfold exec execCmapTake
    dsimp only
    split
    · exact answers_next _ _
    · split <;> exact answers_next _ _
  | snapshotTakeDone | snapshotRestoreReadResp | exportWriteResponse | digestHeartbeat | packetAgeTimeout |
  routeSetDiscard | shaperRefill | holdoverEntry | holdoverExpiry | digestEntryTimeout | healthDecay |
  shadowActivation | shadowImageTimeout | shadowNotice | shadowRotate | shadowCompareTimeout | planReadResend |
  fusedQueryResend | takeover | restoreReadResponse | restoreReadResend | buddyTimeout | armPoint | commit |
  overlapEnd | stageReadResponse | stageReadResend | stageComplete | shadowStopped | mbwr | mbrd | mpHeartbeat |
  mpstop | thermalLevelUp | thermalLevelDown | powerLevelUp | powerLevelDown | avsConfirm | avsConfirmTimeout |
  thermalTrip | refclkLoss | powerTransitionDone | roeWakeWrite | forcebypWrite | diagDataRead | i3cMailboxWrite |
  registerWrite | entdaa | setdasa | setnewda | rstdaa | getpid | getbcr | getdcr | getstatus | enec | disec |
  rstact | trailPktFrame | trailTsyncFrame | trailDigestFrame | censusFrame | censusSend | wakeFrame | shadowEntry |
  shadowResult | planRead | planData | planNone | fusedQuery | fusedStateRecord | fusedState | bootRead | bootData |
  bootNone | bootNoneRetry | leadWaitTimeout | trailInsert | porstNAssert | porstNRelease | vddAonUp |
  bootFetchResponse | bootReadResend | bootRetry | snapshotRestoreReadResend | bootTrainTimeout | vddAonDown |
  mpStopsExecuting =>
    exact answers_next _ _
  -- Every other command names one unit, and its being well formed says just that the unit exists.
  | _ => exact answers_onUnit id

/-! ### The obligation -/

/-- Settles O57: a command's outcome is decided by the check of its unit alone (`exec_answers`), and none touches the queue
(`exec_kept`). -/
theorem everyWellFormedCommandCompletes : Obligations.EveryWellFormedCommandCompletes := by
  intro c s
  have pending : ∀ t, exec c s = .next t → t.pending = s.pending := fun t h => (exec_kept c s t h).1
  refine ⟨fun w => ?_, (exec_answers c s).imp_right And.right, pending⟩
  obtain ⟨t, h⟩ | ⟨ill, -⟩ := exec_answers c s
  · exact ⟨t, h, pending t h⟩
  · exact absurd w (by simp [ill])

end Sys2Proof.Machine

/-!
The faults that a context records and the watchdog of a handler (R103, R114, R137, R177, R184).
-/
namespace Sys2Proof.Machine

/-! ### Contexts of a core -/

/-- A search finds the entry that it found, changed, when what passes its test is changed and passes it still. -/
theorem find?_modWhere_same {α : Type} {p : α → Bool} {f : α → α} (hf : ∀ x, p x = true → p (f x) = true) (xs : List α) :
    (modWhere p f xs).find? p = (xs.find? p).map f := by
  induction xs with
  | nil => rfl
  | cons x xs ih =>
    cases hx : p x with
    | true => simp [modWhere, hx, hf x hx]
    | false => simpa [modWhere, hx] using ih

/-- A search finds what it found when only entries that fail its test are replaced, and by one that fails it. -/
theorem find?_modWhere_other {α : Type} {p q : α → Bool} {y : α} (hy : q y = false) (apart : ∀ x, p x = true → q x = false)
    (xs : List α) : (modWhere p (fun _ => y) xs).find? q = xs.find? q := by
  induction xs with
  | nil => rfl
  | cons x xs ih =>
    cases hx : p x with
    | true => simpa [modWhere, hx, hy, apart x hx] using ih
    | false =>
      cases hq : q x with
      | true => simp [modWhere, hx, hq]
      | false => simpa [modWhere, hx, hq] using ih

/-- A context that a core holds under an identity has it. -/
theorem Core.ctx_id {c : Core} {id : CtxId} {x : Ctx} (h : c.ctx id = some x) : x.id = id :=
  of_decide_eq_true (List.find?_some (p := fun y : Ctx => decide (y.id = id)) h)

/-- A context replaced is the one its identity names. -/
theorem Core.ctx_putCtx_same {c : Core} {x : Ctx} (h : (c.ctx x.id).isSome = true) : (c.putCtx x).ctx x.id = some x := by
  obtain ⟨y, hy⟩ := Option.isSome_iff_exists.mp h
  have put := find?_modWhere_same (p := fun z : Ctx => decide (z.id = x.id)) (f := fun _ => x) (fun _ _ => decide_eq_true rfl) c.ctxs
  rw [show c.ctxs.find? _ = some y from hy] at put
  exact put

/-- Every other identity names what it named. -/
theorem Core.ctx_putCtx_other {c : Core} {x : Ctx} {id : CtxId} (h : id ≠ x.id) : (c.putCtx x).ctx id = c.ctx id :=
  find?_modWhere_other (p := fun y : Ctx => decide (y.id = x.id)) (q := fun y : Ctx => decide (y.id = id)) 
    (decide_eq_false h.symm) (fun _ hz => decide_eq_false fun hq => h (hq.symm.trans (of_decide_eq_true hz))) c.ctxs

/-- Replacing a context leaves the run of its core alone. -/
@[simp] theorem Core.putCtx_run (c : Core) (x : Ctx) : (c.putCtx x).run = c.run := rfl

/-! ### A fault recorded (R137, R184) -/

/-- A context with one more fault: its first status stays, later faults are counted. -/
def Ctx.faulted (x : Ctx) (st : Nat) : Ctx :=
  if x.status ≠ 0 then { x with later := min 65535 (x.later + 1) } else { x with status := st }

@[simp] theorem Ctx.faulted_id (x : Ctx) (st : Nat) : (x.faulted st).id = x.id := by
  unfold Ctx.faulted; split <;> rfl

/-- What of the cores a recorded fault changes: the context that records it. -/
theorem State.recordFault_cores {s : State} {g : Nat} {id : CtxId} {x : Ctx} (h : (s.core g).ctx id = some x) (st : Nat) :
    (s.recordFault g id st).cores = s.cores.put g ((s.core g).putCtx (x.faulted st)) := by
  unfold State.recordFault Ctx.faulted
  simp only [h]
  split
  · rfl
  · split
    · rfl
    · split <;> rfl

/-- Without the context nothing is recorded. -/
theorem State.recordFault_none {s : State} {g : Nat} {id : CtxId} (h : (s.core g).ctx id = none) (st : Nat) :
    s.recordFault g id st = s := by
  unfold State.recordFault
  simp only [h]

/-- The core that records a fault. -/
theorem State.core_recordFault {s : State} {g : Nat} {id : CtxId} {x : Ctx} (h : (s.core g).ctx id = some x) (st : Nat) :
    (s.recordFault g id st).core g = (s.core g).putCtx (x.faulted st) := by
  unfold State.core
  rw [State.recordFault_cores h, AMap.at_put_same]
  rfl

/-- Every other core. -/
theorem State.core_recordFault_other (s : State) {g k : Nat} (n : k ≠ g) (id : CtxId) (st : Nat) :
    (s.recordFault g id st).core k = s.core k := by
  cases h : (s.core g).ctx id with
  | none => rw [State.recordFault_none h]
  | some x =>
    unfold State.core
    rw [State.recordFault_cores h, AMap.at_put_other _ n.symm]

/-- A recorded fault leaves every handler running or not as it was. -/
@[simp] theorem State.recordFault_run (s : State) (g : Nat) (id : CtxId) (st k : Nat) :
    ((s.recordFault g id st).core k).run = (s.core k).run := by
  by_cases n : k = g
  · subst n
    cases h : (s.core k).ctx id with
    | none => rw [State.recordFault_none h]
    | some x => rw [State.core_recordFault h, Core.putCtx_run]
  · rw [State.core_recordFault_other s n]

/-- The context that records a fault: its first status stays, and later ones are counted up to 65,535. -/
theorem State.recordFault_status {s : State} {g : Nat} {id : CtxId} {x : Ctx} (h : (s.core g).ctx id = some x) (st : Nat) :
    (((s.recordFault g id st).core g).ctx id).map (fun y => (y.status, y.later)) =
      some (if x.status = 0 then (st, x.later) else (x.status, min 65535 (x.later + 1))) := by
  have hid : (x.faulted st).id = id := (x.faulted_id st).trans (Core.ctx_id h)
  have found : ((s.core g).putCtx (x.faulted st)).ctx id = some (x.faulted st) := by
    rw [← hid]
    exact Core.ctx_putCtx_same (by rw [hid, h]; rfl)
  rw [State.core_recordFault h, found]
  by_cases zero : x.status = 0 <;> simp [Ctx.faulted, zero]

/-- Every other context of the core. -/
theorem State.recordFault_ctx_other {s : State} {g : Nat} {id k : CtxId} (n : k ≠ id) (st : Nat) :
    ((s.recordFault g id st).core g).ctx k = (s.core g).ctx k := by
  cases h : (s.core g).ctx id with
  | none => rw [State.recordFault_none h]
  | some x =>
    rw [State.core_recordFault h]
    exact Core.ctx_putCtx_other (by rwa [Ctx.faulted_id, Core.ctx_id h])

/-! ### The end of a handler starts none -/

/-- A core whose handler is replaced; every other core keeps its own. -/
theorem State.setCore_run_none {s : State} {k : Nat} (idle : (s.core k).run = none) {g : Nat} {c : Core}
    (h : g = k → c.run = none) : ((s.setCore g c).core k).run = none := by
  by_cases n : g = k
  · rw [← n, State.core_setCore]; exact h n
  · rwa [State.core_setCore_other s n]

/-- A core that drops its handler runs none. -/
theorem State.dropRun_run (s : State) (g : Nat) : ((s.dropRun g).core g).run = none := by
  unfold State.dropRun
  dsimp only
  split
  · assumption
  · rw [State.core_setCore]
    repeat' split
    all_goals rfl

/-- An idle core stays idle when another drops its handler. -/
theorem State.dropRun_run_none {s : State} {k : Nat} (idle : (s.core k).run = none) (g : Nat) :
    ((s.dropRun g).core k).run = none := by
  by_cases n : g = k
  · rw [← n]; exact State.dropRun_run s g
  · unfold State.dropRun
    dsimp only
    split
    · exact idle
    · rwa [State.core_setCore_other s n]

/-- Answering fetches starts no handler. -/
theorem State.answerFetches_run_none {s : State} {k : Nat} (idle : (s.core k).run = none) (g st : Nat) :
    ((s.answerFetches g st).core k).run = none := by
  unfold State.answerFetches State.modRun
  split
  next => exact idle
  next r hr => exact State.setCore_run_none idle fun n => by rw [n, idle] at hr; cases hr

/-- Cutting a wait starts no handler. -/
theorem State.cutWait_run_none {s : State} {k : Nat} (idle : (s.core k).run = none) (g : Nat) (id : CtxId) :
    ((s.cutWait g id).core k).run = none := by
  have answered := State.answerFetches_run_none idle g stTimeout
  unfold State.cutWait
  split
  · exact idle
  · split
    · dsimp only
      split
      · exact State.dropRun_run_none answered g
      · exact State.dropRun_run_none (by rwa [State.recordFault_run]) g
    · exact idle

/-- Cutting the WRITEs of a context leaves every handler alone. -/
theorem State.cutWrites_run (s : State) (g : Nat) (id : CtxId) (k : Nat) :
    ((s.cutWrites g id).core k).run = (s.core k).run := by
  have put : ∀ x, ((s.setCore g ((s.core g).putCtx x)).core k).run = (s.core k).run := fun x => by
    by_cases n : g = k
    · rw [n, State.core_setCore, Core.putCtx_run]
    · rw [State.core_setCore_other s n]
  unfold State.cutWrites
  dsimp only
  split
  · rfl
  · split
    · rfl
    · split
      · exact put _
      · rw [State.recordFault_run]; exact put _

/-- A fault of a context starts no handler. -/
theorem State.faultAt_run_none {s : State} {k : Nat} (idle : (s.core k).run = none) (g : Nat) (id : CtxId) (st : Nat) :
    ((s.faultAt g id st).core k).run = none := by
  have recorded : ((s.recordFault g id st).core k).run = none := by rwa [State.recordFault_run]
  unfold State.faultAt
  dsimp only
  split
  · refine List.foldlRecOn (motive := fun u : State => (u.core k).run = none) _ _ recorded fun u hu j _ => ?_
    rw [State.cutWrites_run]
    exact State.cutWait_run_none hu _ id
  · exact recorded

/-- A context that retires starts no handler. -/
theorem State.retire_run_none {s : State} {k : Nat} (idle : (s.core k).run = none) (g : Nat) (id : CtxId) :
    ((s.retire g id).core k).run = none := by
  unfold State.retire
  split
  · exact idle
  · split
    · split
      · exact idle
      · exact State.faultAt_run_none idle g id _
    · exact idle

/-- A core whose handler is over runs none. -/
theorem State.overRun_run (s : State) (g : Nat) : ((s.overRun g).core g).run = none := by
  unfold State.overRun
  split
  · assumption
  · dsimp only
    split
    · exact State.retire_run_none (State.dropRun_run s g) g _
    · exact State.dropRun_run s g

/-! ### The watchdog (R40, R103, R114, R177) -/

/-- A wait for room does not count. -/
theorem Run.spent_room {r : Run} (h : r.wait = .room) (q : ProgCfg) (waited : Nat) : r.spent q waited = r.cycles := by
  simp [Run.spent, h]

/-- The cycles of every other wait count. -/
theorem Run.spent_waiting {r : Run} (room : r.wait ≠ .room) (waits : r.wait ≠ .none) (q : ProgCfg) (waited : Nat) :
    r.spent q waited = r.cycles + waited := by
  simp [Run.spent, room, waits]

/-- The cycles that the next instruction waits for its registers count. -/
theorem Run.spent_next {r : Run} {q : ProgCfg} {w : Word} (h : r.wait = .none) (inside : r.pc < q.ninst)
    (hw : q.code[r.pc]? = some w) (waited : Nat) : r.spent q waited = r.issueAt (fld w 63 56) (wordFields w) := by
  simp [Run.spent, h, inside, hw]

section Watchdog
variable {s : State} {g : Nat} {r : Run} {x : Ctx} (hg : g < Config.cores) (hr : (s.core g).run = some r)
  (hx : (s.core g).ctx r.ctx = some x)
include hg hr hx

/-- WATCHDOG_TIMEOUT for a running handler: it has an effect in P0 alone, past the limit of its program. -/
theorem execWatchdogTimeout_of_run {p : Plan} {q : ProgCfg} (hq : s.ctxProg g x = some (p, q)) (waited : Nat) :
    exec (.watchdogTimeout g waited) s = .next (if s.roe.pstate = .p0 ∧ q.limit < r.spent q waited then
      ((s.setRun g (some { r with cycles := r.spent q waited })).faultAt g r.ctx 0x20).overRun g else s) := by
  simp only [exec, execWatchdogTimeout, onUnit, hg, hr, hx, hq, State.modRun, decide_true, if_true]
  rfl

/-- The cores run in P0 alone: elsewhere nothing times out. -/
theorem execWatchdogTimeout_asleep (asleep : s.roe.pstate ≠ .p0) (waited : Nat) :
    exec (.watchdogTimeout g waited) s = .next s := by
  cases hq : s.ctxProg g x with
  | none => simp only [exec, execWatchdogTimeout, onUnit, hg, hr, hx, hq, decide_true, if_true]
  | some pq => rw [execWatchdogTimeout_of_run hg hr hx hq, if_neg fun h => asleep h.1]

end Watchdog

/-! ### The obligation -/

/-- Settles O18: what a context records is `recordFault_status` with its frame, and a handler past its limit is over because
nothing that the fault does starts a handler (`overRun_run`). -/
theorem watchdogAndRecordedFaults : Obligations.WatchdogAndRecordedFaults := by
  intro s g waited r x hg hr hx
  refine ⟨fun p q hq => ?_, fun asleep => execWatchdogTimeout_asleep hg hr hx asleep waited, fun st => ?_⟩
  · have step := execWatchdogTimeout_of_run hg hr hx hq waited
    refine ⟨fun room => Run.spent_room room q waited, fun room waits => Run.spent_waiting room waits q waited,
      fun ready inside w hw => Run.spent_next ready inside hw waited, fun within => ?_, fun awake past => ?_⟩
    · rw [step, if_neg fun h => by omega]
    · rw [if_pos ⟨awake, past⟩] at step
      exact ⟨_, step, State.overRun_run _ g, rfl⟩
  · exact ⟨State.recordFault_status hx st, fun k n => State.recordFault_ctx_other n st,
      fun h n => State.core_recordFault_other s n r.ctx st, State.recordFault_run s g r.ctx st g⟩

end Sys2Proof.Machine

/-!
PACKET_INGRESS: the lookup of a whole packet, of a head whose packet is still being received, and a header that shows a
parity error (R22, R246, R382, R413, R486).
-/
namespace Sys2Proof.Machine

/-! ### The head of a packet still being received (R22, R246, R413) -/

section Head
variable (s : State) (l v : Nat) (p : RxPkt)

/-- The header that the flits received so far begin with. -/
def RxPkt.head : BitVec 256 := BitVec.ofNat 256 (ofLE ((p.flits.flatMap fun f => toLE 64 f.toNat).take 32))

/-- The packet as far as its flits have arrived. -/
def RxPkt.sofar : Packet :=
  { hdr := p.head, payload := ((p.flits.flatMap fun f => toLE 64 f.toNat).drop 32).take (hLen p.head) }

/-- The head may go on by cut-through: the lookup gives ports alone, and no hold waits for the tail. -/
def State.cutsThrough : Bool :=
  (s.ingressHits l v p.head).all (fun x => x.isPort || x.isDrop) && !s.holdsWhole l v p.head (s.ingressHits l v p.head)

/-- What becomes of the flits to come is settled. -/
def State.rxMode (m : RxMode) : State := s.setLink l { s.link l with rx := (s.link l).rx.put v { p with mode := m } }

/-- The receive buffer of the flits that have arrived is given back. -/
def State.rxFreed : State := s.freeCredits l v (s.poolOn l v p.head) p.flits.length

/-- The head arrives in the switch core. -/
def State.headArrives : State × Option Nat := arrive s (.link l) v p.total p.flits.length p.sofar false

variable {s l v p}

/-- A head that finds a place in the packet buffer goes on by cut-through under its buffer id. -/
theorem State.ingressHead_through (cut : s.cutsThrough l v p = true) {id : Nat} (placed : (s.headArrives l v p).2 = some id) :
    s.ingressHead l v p = (s.headArrives l v p).1.rxMode l v p (.through id) := by
  unfold State.ingressHead
  simp only [State.headArrives, RxPkt.sofar, State.cutsThrough, RxPkt.head] at cut placed ⊢
  rw [if_pos cut, placed]
  rfl

/-- A head that cut-through drops takes the flits to come with it. -/
theorem State.ingressHead_drop (cut : s.cutsThrough l v p = true) (gone : (s.headArrives l v p).2 = none) :
    s.ingressHead l v p = ((s.headArrives l v p).1.rxFreed l v p).rxMode l v p .drop := by
  unfold State.ingressHead
  simp only [State.headArrives, RxPkt.sofar, State.cutsThrough, RxPkt.head] at cut gone ⊢
  rw [if_pos cut, gone]
  rfl

/-- Any other head waits for its tail. -/
theorem State.ingressHead_gather (whole : s.cutsThrough l v p = false) :
    s.ingressHead l v p = (s.rxFreed l v p).rxMode l v p .gather := by
  unfold State.ingressHead
  simp only [State.cutsThrough, RxPkt.head] at whole
  rw [if_neg (by rw [whole]; exact Bool.false_ne_true)]
  rfl

end Head

/-- The header of a packet of which a flit has arrived is the low half of that flit. -/
theorem RxPkt.hdr_of_flits {p : RxPkt} (some_ : p.flits ≠ []) : p.hdr = BitVec.ofNat 256 (p.flits.headD 0).toNat := by
  unfold RxPkt.hdr
  split
  next none_ => exact absurd none_ some_
  next f fs cons_ => rw [cons_]; rfl

/-! ### PACKET_INGRESS (R382, R486) -/

section Ingress
variable {s : State} {l v t : Nat} (hl : l < Config.links) (hv : v < 8)
include hl hv

/-- A whole packet that waits is taken first. -/
theorem execPacketIngress_whole {x : Nat × Packet} {rest : List (Nat × Packet)}
    (first : takeFirst (fun x : Nat × Packet => decide (x.1 = v)) ((s.tick t).link l).rxq = some (x, rest)) (parity : Bool) :
    exec (.packetIngress l v parity t) s = .next (
      let u := (s.tick t).setLink l { (s.tick t).link l with rxq := rest }
      if parity then u.parityDrop l v (flitsOf x.2.payload.length) x.2.hdr else u.ingressWhole l v x.2 true) := by
  simp only [exec, execPacketIngress, onUnit, hl, hv, first, and_self, decide_true, if_true]

variable (first : takeFirst (fun x : Nat × Packet => decide (x.1 = v)) ((s.tick t).link l).rxq = none)
include first

/-- The head of one still being received comes next. -/
theorem execPacketIngress_head {p : RxPkt} (rx : ((s.tick t).link l).rx.find v = some p) (waits : p.mode = .waits)
    (flits : p.flits ≠ []) (parity : Bool) :
    exec (.packetIngress l v parity t) s = .next (
      let k := (s.tick t).link l
      if parity then ((s.tick t).setLink l { k with rx := k.rx.put v { p with mode := .drop } }).parityDrop l v p.flits.length p.hdr
      else (s.tick t).ingressHead l v p) := by
  simp only [exec, execPacketIngress, onUnit, hl, hv, first, rx, waits, flits, and_self, decide_true, if_true, ne_eq,
    not_false_eq_true]

/-- With nothing received on the VC nothing happens. -/
theorem execPacketIngress_nothing (rx : ((s.tick t).link l).rx.find v = none) (parity : Bool) :
    exec (.packetIngress l v parity t) s = .next (s.tick t) := by
  simp only [exec, execPacketIngress, onUnit, hl, hv, first, rx, and_self, decide_true, if_true]

end Ingress

/-! ### The obligation -/

/-- Settles O35: which packet PACKET_INGRESS takes, and for the head of one still being received the three ways it goes on. -/
theorem ingressLooksPacketsUp : Obligations.IngressLooksPacketsUp := by
  intro s l v t hl hv
  refine ⟨fun x rest first => execPacketIngress_whole hl hv first false, fun p first rx waits flits => ?_,
    fun x rest first => execPacketIngress_whole hl hv first true, fun p first rx waits flits => ?_,
    fun parity first rx => execPacketIngress_nothing hl hv first rx parity⟩
  · have head := execPacketIngress_head hl hv first rx waits flits false
    exact ⟨fun cut => ⟨fun id placed => head.trans (congrArg _ (State.ingressHead_through cut placed)),
      fun gone => head.trans (congrArg _ (State.ingressHead_drop cut gone))⟩,
      fun whole => head.trans (congrArg _ (State.ingressHead_gather whole))⟩
  · rw [execPacketIngress_head hl hv first rx waits flits true, RxPkt.hdr_of_flits flits]
    rfl

end Sys2Proof.Machine

/-!
What a packet on its way, a report of the MP and a link that goes DOWN leave alone: the Roe block, whether the MP executes,
the active, staged and armed plans, and the states of the links. `State.calm` is these pieces; a lemma `f_calm` says that
`f` changes none of them.
-/
namespace Sys2Proof.Machine

/-! ### The pieces -/

/-- The Roe block, whether the MP executes, the plans that are active, staged, armed and in overlap, and the state of each
link. -/
def State.calm (s : State) :
    Roe × Bool × (Option Plan × Option Plan × Option Arm × Option (Option Plan × Nat)) × (Nat → LState) :=
  (s.roe, s.mp.running, (s.plans.active, s.plans.staged, s.plans.arm, s.plans.prev), fun l => (s.link l).st)

/-- The pieces of a state written out. -/
@[simp] theorem calm_mk (q : List Instr) (f : Fuse) (bo : Boot) (ro : Roe) (ic : I3c) (tr : Trail) (ti : TimeSt) (pl : Plans)
    (mp : Mp) (fa : Fawn) (li : AMap Nat Link) (sw : Switch) (co : Coll) (cs : AMap Nat Core) (me : MemSt)
    (cn : AMap CKey Nat) (fr : Nat) :
    (State.mk q f bo ro ic tr ti pl mp fa li sw co cs me cn fr).calm =
      (ro, mp.running, (pl.active, pl.staged, pl.arm, pl.prev), fun l => (li.at l {}).st) := rfl

/-- The pieces put together again. -/
@[simp] theorem calm_fold (s : State) :
    (s.roe, s.mp.running, (s.plans.active, s.plans.staged, s.plans.arm, s.plans.prev), fun l => (s.links.at l {}).st) =
      s.calm := rfl

section
variable {s t : State} (h : t.calm = s.calm)
include h

theorem State.roe_of_calm : t.roe = s.roe := congrArg (·.1) h
theorem State.running_of_calm : t.mp.running = s.mp.running := congrArg (·.2.1) h
theorem State.active_of_calm : t.plans.active = s.plans.active := congrArg (·.2.2.1.1) h
theorem State.staged_of_calm : t.plans.staged = s.plans.staged := congrArg (·.2.2.1.2.1) h
theorem State.arm_of_calm : t.plans.arm = s.plans.arm := congrArg (·.2.2.1.2.2.1) h
theorem State.prev_of_calm : t.plans.prev = s.plans.prev := congrArg (·.2.2.1.2.2.2) h
theorem State.st_of_calm (l : Nat) : (t.link l).st = (s.link l).st := congrFun (congrArg (·.2.2.2) h) l

end

/-! ### Forms of programs -/

@[simp] theorem ite_calm {c : Prop} [Decidable c] (a b : State) : (if c then a else b).calm = if c then a.calm else b.calm :=
  apply_ite _ _ _ _

@[simp] theorem ite_calm_fst {β : Type} {c : Prop} [Decidable c] (a b : State × β) :
    (if c then a else b).1.calm = if c then a.1.calm else b.1.calm :=
  apply_ite (fun x : State × β => x.1.calm) _ _ _

theorem foldl_calm {α : Type} {f : State → α → State} (h : ∀ s x, (f s x).calm = s.calm) (l : List α) (s : State) :
    (l.foldl f s).calm = s.calm := by
  induction l generalizing s with
  | nil => rfl
  | cons a l ih => exact (ih (f s a)).trans (h s a)

theorem foldl_calm_fst {α β : Type} {f : State × β → α → State × β} (h : ∀ x a, (f x a).1.calm = x.1.calm) (l : List α)
    (x : State × β) : (l.foldl f x).1.calm = x.1.calm := by
  induction l generalizing x with
  | nil => rfl
  | cons a l ih => exact (ih (f x a)).trans (h x a)

/-! ### Counters, tables and links -/

@[simp] theorem State.countN_calm (s : State) (c : Ctr) (i j n : Nat) : (s.countN c i j n).calm = s.calm := rfl
@[simp] theorem State.count_calm (s : State) (c : Ctr) (i j : Nat) : (s.count c i j).calm = s.calm := rfl
@[simp] theorem State.setBox_calm (s : State) (m : Nat) (b : Mbox) : (s.setBox m b).calm = s.calm := rfl
@[simp] theorem State.setReg_calm (s : State) (e : Nat) (r : RegDyn) : (s.setReg e r).calm = s.calm := rfl
@[simp] theorem State.setChan_calm (s : State) (l v : Nat) (c : Chan) : (s.setChan l v c).calm = s.calm := rfl
@[simp] theorem State.setWfq_calm (s : State) (l : Nat) (w : Wfq) : (s.setWfq l w).calm = s.calm := rfl
@[simp] theorem State.setGate_calm (s : State) (l b : Nat) (g : BitVec 128 × List (BitVec 64)) :
    (s.setGate l b g).calm = s.calm := rfl
@[simp] theorem State.newTag_calm (s : State) : s.newTag.2.calm = s.calm := rfl
@[simp] theorem State.pruneOld_calm (s : State) : s.pruneOld.calm = s.calm := rfl
@[simp] theorem State.staleCells_calm (s : State) (l : Nat) : (s.staleCells l).calm = s.calm := rfl

/-- A link that is changed in its state alone. -/
theorem State.calm_setLink (s : State) (l : Nat) (k : Link) :
    (s.setLink l k).calm = (s.roe, s.mp.running, (s.plans.active, s.plans.staged, s.plans.arm, s.plans.prev),
      fun j => if j = l then k.st else (s.link j).st) := by
  refine Prod.ext rfl (Prod.ext rfl (Prod.ext rfl (funext fun j => ?_)))
  change ((s.setLink l k).link j).st = if j = l then k.st else (s.link j).st
  by_cases n : j = l
  · rw [n, State.link_setLink, if_pos rfl]
  · rw [State.link_setLink_other s (Ne.symm n), if_neg n]

/-- A link changed in anything but its state. -/
@[simp] theorem State.setLink_calm {s : State} {l : Nat} {k : Link} (h : k.st = (s.link l).st) :
    (s.setLink l k).calm = s.calm := by
  rw [State.calm_setLink]
  refine Prod.ext rfl (Prod.ext rfl (Prod.ext rfl (funext fun j => ?_)))
  change (if j = l then k.st else _) = _
  split
  next e => rw [h, e]; rfl
  next => rfl

@[simp] theorem State.freeCredits_calm (s : State) (l vc pool n : Nat) : (s.freeCredits l vc pool n).calm = s.calm := by
  simp [State.freeCredits]

@[simp] theorem release_calm (s : State) (b : BufPkt) (n : Nat) : (release s b n).calm = s.calm := by
  unfold release
  split <;> simp

/-! ### The packet buffer -/

@[simp] theorem State.beginRequests_calm (s : State) (l v : Nat) : (s.beginRequests l v).calm = s.calm := by
  unfold State.beginRequests
  exact foldl_calm (fun _ _ => by rfl) _ _

@[simp] theorem evict_calm (s : State) (b : BufPkt) : (evict s b).calm = s.calm :=
  (foldl_calm (fun _ _ => by simp) _ _).trans (by simp)

@[simp] theorem pushOut_calm (d n k : Nat) (s : State) : (pushOut d n k s).calm = s.calm := by
  induction k generalizing s with
  | zero => rfl
  | succ k ih =>
    rw [pushOut]
    split
    · rfl
    · split
      · rfl
      · rw [ih, evict_calm]

theorem makeRoom_calm {s t : State} {d vc n : Nat} {a : Acct} (h : makeRoom s d vc a n = some t) : t.calm = s.calm := by
  unfold makeRoom at h
  split at h
  · cases h
  · split at h
    · cases h; rfl
    · split at h
      · split at h
        · cases h; rfl
        · cases h
      · cases h; simp

@[simp] theorem State.noteDepth_calm (s : State) (l v : Nat) : (s.noteDepth l v).calm = s.calm := by
  simp [State.noteDepth]

@[simp] theorem State.putBuf_calm (s : State) (b : BufPkt) : (s.putBuf b).calm = s.calm :=
  (foldl_calm (fun _ _ => by simp) _ _).trans rfl

@[simp] theorem State.setBufPkt_calm (s : State) (old new : BufPkt) : (s.setBufPkt old new).calm = s.calm :=
  (foldl_calm (fun _ _ => by simp) _ _).trans (by simp)

@[simp] theorem State.endCopy_calm (s : State) (id k : Nat) (cause : Option Nat) : (s.endCopy id k cause).calm = s.calm := by
  unfold State.endCopy
  split
  · rfl
  · split
    · rfl
    · simp

@[simp] theorem State.endPacket_calm (s : State) (id cause : Nat) : (s.endPacket id cause).calm = s.calm := by
  have copies (n : Nat) : ((List.range n).foldl (fun s k => s.endCopy id k (some cause)) s).calm = s.calm :=
    foldl_calm (fun _ _ => by simp) _ _
  unfold State.endPacket
  split
  · rfl
  · dsimp only
    split <;> exact copies _

/-! ### Packets on their way -/

@[simp] theorem State.trailPut_calm (s : State) (f : Frame) : (s.trailPut f).calm = s.calm := by
  simp [State.trailPut]

@[simp] theorem State.trailSend_calm (s : State) (type plane : Nat) (p : List Byte) : (s.trailSend type plane p).calm = s.calm :=
  State.trailPut_calm _ _

@[simp] theorem State.wakeFirst_calm (s : State) (plane : Nat) : (s.wakeFirst plane).calm = s.calm := by
  have sent := s.trailSend_calm 7 plane []
  unfold State.wakeFirst
  split
  · rfl
  · split
    · exact sent
    · rfl

@[simp] theorem State.toTrail_calm (s : State) (i plane : Nat) (p : Packet) : (s.toTrail i plane p).calm = s.calm := by
  simp [State.toTrail]

@[simp] theorem deliverUnit_calm (s : State) (src : From) (vc : Nat) (p : Packet) (bad : Bool) (h : Hit) :
    (deliverUnit s src vc p bad h).calm = s.calm := by
  cases h with
  | trail plane => exact State.toTrail_calm _ _ _ _
  | drop _ | cluster _ | mp | port _ _ => rfl

@[simp] theorem portCopies_calm (s : State) (r : Option Route) (exempt : Bool) (hs : List (BitVec 256 × Hit)) (vc : Nat) :
    (portCopies s r exempt hs vc).1.calm = s.calm :=
  foldl_calm_fst (fun _ _ => by split <;> simp) _ _

@[simp] theorem State.noteCopies_calm (s : State) (i : Nat) (h : BitVec 256) (hs : List (BitVec 256 × Hit)) :
    (s.noteCopies i h hs).calm = s.calm := by
  simp [State.noteCopies]

@[simp] theorem State.releaseLate_calm (s : State) (h : BitVec 256) : (s.releaseLate h).calm = s.calm := by
  unfold State.releaseLate
  split
  · rfl
  · split <;> rfl

@[simp] theorem holdTbarrier_calm (s : State) (cps : List Copy) (p : Packet) : (holdTbarrier s cps p).1.calm = s.calm := by
  unfold holdTbarrier
  split
  · rfl
  · exact foldl_calm_fst (fun _ _ => by simp) _ _

theorem place_calm {s t : State} {o : OutPkt} (h : place s o = some t) : t.calm = s.calm := by
  have told (s : State) (ws : List (BitVec 256 × Hit)) (vc : Nat) :
      (ws.foldl (fun s x => deliverUnit s .inside vc { o.pkt with hdr := x.1 } false x.2) s).calm = s.calm :=
    foldl_calm (fun _ _ => deliverUnit_calm _ _ _ _ _ _) _ _
  unfold place at h
  dsimp only at h
  split at h
  all_goals
    split at h
    · cases h
      simp [told]
    · obtain ⟨u, room, rfl⟩ := Option.map_eq_some_iff.mp h
      simp [makeRoom_calm room, told]

@[simp] theorem originate_calm (s : State) (o : OutPkt) : (originate s o).calm = s.calm := by
  unfold originate
  dsimp only
  split
  · rfl
  · cases h : place s o with
    | none => rfl
    | some t => exact place_calm h

@[simp] theorem State.fromCluster_calm (s : State) (cl vc part : Nat) (p : Packet) (refusal : Bool) :
    (s.fromCluster cl vc part p refusal).calm = s.calm := originate_calm _ _

@[simp] theorem State.fromMp_calm (s : State) (vc part : Nat) (p : Packet) : (s.fromMp vc part p).calm = s.calm :=
  originate_calm _ _


/-! ### Reports of the MP -/

@[simp] theorem State.eventTo_calm (s : State) (m code status op seq detail : Nat) :
    (s.eventTo m code status op seq detail).calm = s.calm := by
  unfold State.eventTo
  dsimp only
  split <;> simp

@[simp] theorem State.event_calm (s : State) (code status detail : Nat) (parts : List Nat) :
    (s.event code status detail parts).calm = s.calm := by
  unfold State.event
  split
  · exact foldl_calm (fun _ _ => by simp) _ _
  · rfl

@[simp] theorem State.complete_calm (s : State) (r : Req) (status detail : Nat) :
    (s.complete r status detail).calm = s.calm := by
  unfold State.complete
  split
  · exact foldl_calm (fun _ _ => by simp) _ _
  · rfl

@[simp] theorem State.health_calm (s : State) (row n : Nat) : (s.health row n).calm = s.calm := by
  unfold State.health
  split <;> rfl

@[simp] theorem State.partDegraded_calm (s : State) (r : Route) (f : List Nat) : (s.partDegraded r f).calm = s.calm :=
  foldl_calm (fun _ _ => by simp) _ _

@[simp] theorem State.reevalF_calm (s : State) : s.reevalF.calm = s.calm := by
  unfold State.reevalF
  exact (foldl_calm (fun _ _ => by simp) _ _).trans rfl

/-! ### Packets that arrive -/

@[simp] theorem State.sample_calm (s : State) (l vc outcome : Nat) (p : Packet) : (s.sample l vc outcome p).calm = s.calm := by
  simp [State.sample]

@[simp] theorem State.sampleTick_calm (s : State) (l vc : Nat) (counts : Bool) (hs : List Hit) (p : Packet) :
    (s.sampleTick l vc counts hs p).calm = s.calm := by
  simp [State.sampleTick]

@[simp] theorem State.sampled_calm (s : State) (src : From) (vc : Nat) (counts : Bool) (hs : List Hit) (p : Packet) :
    (s.sampled src vc counts hs p).calm = s.calm := by
  unfold State.sampled
  split <;> simp

@[simp] theorem enter_calm (s : State) (src : From) (vin vc total got : Nat) (p : Packet) (bad : Bool) (r : Option Route)
    (hs : List (BitVec 256 × Hit)) : (enter s src vin vc total got p bad r hs).1.calm = s.calm := by
  have told : (hs.foldl (fun s x => deliverUnit s src vc { p with hdr := x.1 } bad x.2) s).calm = s.calm :=
    foldl_calm (fun _ _ => deliverUnit_calm _ _ _ _ _ _) _ _
  unfold enter
  dsimp only
  simp [told]

@[simp] theorem bootRefusal_calm (s : State) (p : Packet) : (bootRefusal s p).calm = s.calm := by
  simp [bootRefusal]

@[simp] theorem fawnArrive_calm (s : State) (l tp : Nat) (r : Route) (vc : Nat) (p : Packet) (bad : Bool) :
    (fawnArrive s l tp r vc p bad).calm = s.calm := by
  unfold fawnArrive
  split <;> simp

@[simp] theorem State.sendAnswer_calm (s : State) (cl vc part : Nat) (p : Packet) :
    (s.sendAnswer cl vc part p).calm = s.calm := by
  simp [State.sendAnswer]

@[simp] theorem answerUnknown_calm (s : State) (src : From) (hs : List (BitVec 256 × Hit)) :
    (answerUnknown s src hs).calm = s.calm :=
  foldl_calm (fun _ _ => by simp) _ _

@[simp] theorem arrive_calm (s : State) (src : From) (vc total got : Nat) (p : Packet) (bad : Bool) :
    (arrive s src vc total got p bad).1.calm = s.calm := by
  unfold arrive
  split
  · simp
  · split
    · simp
    · split <;> simp

/-! ### A link that goes DOWN -/

@[simp] theorem State.rehome_calm (s : State) (b : BufPkt) (k : Nat) (cp : Copy) : (s.rehome b k cp).calm = s.calm := by
  unfold State.rehome
  split
  · split <;> simp
  · simp

@[simp] theorem State.ingressAll_calm (s : State) (l : Nat) : (s.ingressAll l).calm = s.calm := by
  unfold State.ingressAll
  refine (foldl_calm (fun _ _ => ?_) _ _).trans (by simp)
  dsimp only
  split <;> simp

@[simp] theorem State.cutIngress_calm (s : State) (l cause : Nat) : (s.cutIngress l cause).calm = s.calm := by
  unfold State.cutIngress
  dsimp only
  rw [State.setLink_calm (by rfl)]
  refine foldl_calm (fun _ _ => ?_) _ _
  split <;> simp

@[simp] theorem State.setDisc_calm (s : State) (l : Nat) (d : Disc) : (s.setDisc l d).calm = s.calm := by
  unfold State.setDisc
  dsimp only
  split
  · simp
  · cases d <;> simp

@[simp] theorem State.linkEvent_calm (s : State) (l : Nat) : (s.linkEvent l).calm = s.calm := State.event_calm _ _ _ _ _

@[simp] theorem State.completeEnable_calm (s : State) (l status : Nat) : (s.completeEnable l status).calm = s.calm := by
  unfold State.completeEnable
  dsimp only
  split <;> simp

@[simp] theorem State.flushLink_calm (s : State) (l : Nat) (keep : Bool) : (s.flushLink l keep).calm = s.calm := by
  unfold State.flushLink
  dsimp only
  refine (foldl_calm (fun _ _ => foldl_calm (fun _ _ => ?_) _ _) _ _).trans ?_
  · repeat' split
    all_goals simp
  · rw [ite_calm, State.setWfq_calm, ite_self]
    refine foldl_calm (fun _ _ => ?_) _ _
    cases keep with
    | true =>
      simp only [if_true, State.setChan_calm]
      repeat' split
      all_goals simp
    | false =>
      simp only [Bool.false_eq_true, if_false, ite_calm, State.count_calm, State.setChan_calm, ite_self]
      repeat' split
      all_goals simp

/-- A link that enters a state. -/
theorem State.toState_calm {s t : State} (h : t.calm = s.calm) (l : Nat) (st : LState) (cause : Nat) :
    (t.toState l st cause).calm = (s.roe, s.mp.running, (s.plans.active, s.plans.staged, s.plans.arm, s.plans.prev),
      fun j => if j = l then st else (s.link j).st) := by
  unfold State.toState
  rw [State.calm_setLink, State.roe_of_calm h, State.running_of_calm h, State.active_of_calm h, State.staged_of_calm h,
    State.arm_of_calm h, State.prev_of_calm h]
  simp only [State.st_of_calm h]

/-- A link that goes DOWN: its own state alone differs. -/
theorem State.linkDown_calm (s : State) (l cause : Nat) :
    (s.linkDown l cause).calm = (s.roe, s.mp.running, (s.plans.active, s.plans.staged, s.plans.arm, s.plans.prev),
      fun j => if j = l then .down else (s.link j).st) := by
  unfold State.linkDown
  simp only [State.completeEnable_calm, State.linkEvent_calm, ite_calm, State.setDisc_calm, State.health_calm, ite_self,
    State.flushLink_calm]
  exact State.toState_calm (by simp) l .down cause

/-- Links that go DOWN one after the other: the Roe block and the MP go on as they were, and every one of the links is
DOWN, with those that were. -/
theorem State.linksDown_calm (cause : Nat) (ls : List Nat) (s : State) :
    let u := ls.foldl (fun s l => s.linkDown l cause) s
    u.roe = s.roe ∧ u.mp.running = s.mp.running ∧ ∀ l, l ∈ ls ∨ (s.link l).st = .down → (u.link l).st = .down := by
  induction ls generalizing s with
  | nil => exact ⟨rfl, rfl, fun l h => h.resolve_left List.not_mem_nil⟩
  | cons a ls ih =>
    obtain ⟨roe, running, down⟩ := ih (s.linkDown a cause)
    have one := s.linkDown_calm a cause
    refine ⟨roe.trans (congrArg (·.1) one), running.trans (congrArg (·.2.1) one), fun l h => down l ?_⟩
    have st : ((s.linkDown a cause).link l).st = if l = a then .down else (s.link l).st := congrFun (congrArg (·.2.2.2) one) l
    rw [st]
    by_cases same : l = a
    · exact .inr (if_pos same)
    · rw [if_neg same]
      exact h.imp_left fun mem => (List.mem_cons.mp mem).resolve_left same

end Sys2Proof.Machine

/-!
The commit of a staged plan: the arm point, the commit itself, the end of the overlap, and the READs of a stage (R32, R296,
R519, R520, R521, R547).
-/
namespace Sys2Proof.Machine

/-! ### The arm point (R519) -/

/-- A commit that is armed, and whose arm point is still to come, stays as it is until 500 µs before its FT. -/
theorem State.armPoint_early {s : State} {a : Arm} (arm : s.plans.arm = some a) (early : s.ftNow + 500000 < a.c) :
    s.armPoint = s := by
  simp [State.armPoint, arm, early]

/-- An arm point that has passed does not come again. -/
theorem State.armPoint_passed {s : State} {a : Arm} (arm : s.plans.arm = some a) (passed : a.passed = true) :
    s.armPoint = s := by
  simp [State.armPoint, arm, passed]

/-- The arm point of the commit `a` is due. -/
structure State.ArmDue (s : State) (a : Arm) : Prop where
  arm : s.plans.arm = some a
  ahead : a.passed = false
  serves : s.mpServes = true
  ftSet : s.ftSet = true
  due : a.c ≤ s.ftNow + 500000

section ArmPoint
variable {s : State} {a : Arm} (d : s.ArmDue a)
include d

/-- Without a staged plan the commit ends with NOT_STAGED. -/
theorem State.armPoint_unstaged (staged : s.plans.staged = none) : s.armPoint = s.disarm a 0x41 := by
  obtain ⟨arm, ahead, serves, ftSet, due⟩ := d
  unfold State.armPoint
  simp only [arm, ahead, serves, ftSet, staged, Nat.not_lt.mpr due, Bool.not_true, Bool.false_eq_true, or_self, if_false]

variable {p : Plan} (staged : s.plans.staged = some p)
include staged

/-- A staged plan decides an arm point that is due. -/
theorem State.armPoint_due : s.armPoint =
    if p.pepoch ≠ a.pepoch ∨ s.plans.stage.isSome then s.disarm a 0x41
    else if !a.promote ∧ s.promotionStaged then s.disarm a 0x43
    else if s.routeBusy p a.c then s.disarm a 0x24
    else { s with plans := { s.plans with arm := some { a with passed := true } } } := by
  obtain ⟨arm, ahead, serves, ftSet, due⟩ := d
  unfold State.armPoint
  simp only [arm, ahead, serves, ftSet, staged, Nat.not_lt.mpr due, Bool.not_true, Bool.false_eq_true, or_self, if_false]

/-- With another plan staged, or with a stage in progress, it ends with NOT_STAGED too. -/
theorem State.armPoint_other (other : p.pepoch ≠ a.pepoch ∨ s.plans.stage ≠ none) : s.armPoint = s.disarm a 0x41 := by
  have cond : p.pepoch ≠ a.pepoch ∨ s.plans.stage.isSome = true := other.imp_right Option.isSome_iff_ne_none.mpr
  rw [State.armPoint_due d staged, if_pos cond]

variable (same : p.pepoch = a.pepoch) (still : s.plans.stage = none)
include same still

/-- A promotion plan that PLAN_COMMIT armed is refused. -/
theorem State.armPoint_promotion (plain : a.promote = false) (promotion : s.promotionStaged = true) :
    s.armPoint = s.disarm a 0x43 := by
  rw [State.armPoint_due d staged]
  simp [same, still, plain, promotion]

variable (open_ : a.promote = true ∨ s.promotionStaged = false)
include open_

/-- A plan that may be committed is held up by R390 alone. -/
theorem State.armPoint_staged : s.armPoint = if s.routeBusy p a.c then s.disarm a 0x24
    else { s with plans := { s.plans with arm := some { a with passed := true } } } := by
  have may : ¬((!a.promote) = true ∧ s.promotionStaged = true) := by
    rintro ⟨plain, promotion⟩
    obtain h | h := open_
    · simp [h] at plain
    · simp [h] at promotion
  rw [State.armPoint_due d staged]
  simp only [same, still, may, ne_eq, not_true_eq_false, Option.isSome_none, Bool.false_eq_true, or_self, if_false]

end ArmPoint

/-! ### The commit (R32, R520) -/

/-- COMMIT of a plan whose arm point has passed: the MP carries it out at its FT. -/
theorem execCommit_passed {s : State} {t : Nat} {a : Arm} {p : Plan} (arm : (s.tick t).plans.arm = some a)
    (passed : a.passed = true) (staged : (s.tick t).plans.staged = some p) (ftSet : (s.tick t).ftSet = true)
    (plain : a.promote = false) :
    exec (.commit t) s = .next (if (s.tick t).mpServes = true ∧ a.c ≤ (s.tick t).ftNow
      then ((s.tick t).install p a.c (some a.o) false).complete a.req 0 0 else s.tick t) := by
  simp only [exec, execCommit, State.commitNow, State.armPoint_passed arm passed, arm, staged, passed, ftSet, plain,
    true_and, and_true]

@[simp] theorem State.enterTime_calm (s : State) (st : TState) : (s.enterTime st).calm = s.calm := by
  unfold State.enterTime
  cases st <;> simp

@[simp] theorem State.installTime_calm (s : State) (old : Option Plan) (p : Plan) : (s.installTime old p).calm = s.calm := by
  simp [State.installTime]

@[simp] theorem State.installRoute_calm (s : State) (r : Route) (at_ : Nat) : (s.installRoute r at_).calm = s.calm := by
  simp [State.installRoute]

@[simp] theorem State.installGate_calm (s : State) (old : Option Plan) (p : Plan) (c l : Nat) :
    (s.installGate old p c l).calm = s.calm := by
  unfold State.installGate
  dsimp only
  split
  · rfl
  · split <;> simp

@[simp] theorem State.awaitStart_calm (s : State) (l : Nat) : (s.awaitStart l).calm = s.calm := by
  simp [State.awaitStart]

@[simp] theorem State.failGrp_calm (s : State) (w : MirrorWr) : (s.failGrp w).calm = s.calm := by
  unfold State.failGrp
  dsimp only
  split
  · rfl
  · exact (State.fromCluster_calm _ _ _ _ _ _).trans rfl

@[simp] theorem State.failLater_calm (s : State) (e : Nat) : (s.failLater e).calm = s.calm :=
  foldl_calm State.failGrp_calm _ _

@[simp] theorem State.eccUncorr_calm (s : State) (cl n : Nat) : (s.eccUncorr cl n).calm = s.calm := by
  simp [State.eccUncorr]

@[simp] theorem State.goSolo_calm (s : State) (e : Nat) : (s.goSolo e).calm = s.calm :=
  (State.failLater_calm _ _).trans rfl

@[simp] theorem State.sendMirror_calm (s : State) (r : BitVec 256) (gs : List Nat) (w : MirrorWr) :
    (s.sendMirror r gs w).calm = s.calm := by
  unfold State.sendMirror
  exact foldl_calm (fun _ _ => by exact (State.fromCluster_calm _ _ _ _ _ _).trans rfl) _ _

@[simp] theorem State.resyncNext_calm (s : State) (e : Nat) : (s.resyncNext e).calm = s.calm := by
  unfold State.resyncNext
  dsimp only
  split <;> simp

@[simp] theorem State.installRegion_calm (s : State) (old : Option Plan) (promote : Bool) (e : Nat) (r : BitVec 256) :
    (s.installRegion old promote e r).calm = s.calm := by
  have cleared : (s.clearBacking r).calm = s.calm := rfl
  unfold State.installRegion
  dsimp only
  split
  · rfl
  · split
    · simp [cleared]
    · split
      · simp [cleared]
      · split <;> simp [cleared]

@[simp] theorem State.installRegions_calm (s : State) (old : Option Plan) (p : Plan) (promote : Bool) :
    (s.installRegions old p promote).calm = s.calm := by
  unfold State.installRegions
  exact (foldl_calm (fun _ _ => by simp) _ _).trans rfl

@[simp] theorem State.installSram_calm (s : State) (p : Plan) : (s.installSram p).calm = s.calm := by
  unfold State.installSram
  exact foldl_calm (fun _ _ => by rfl) _ _

/-- What an install does to the plans: the plan is active, none is staged or armed, and the overlap begins at the commit
FT. -/
theorem State.install_plans (s : State) (p : Plan) (c : Nat) (o : Option Nat) (promote : Bool) :
    (s.install p c o promote).calm = ({ s with plans := { s.plans with
      active := some p, staged := none, arm := none
      prev := o.map fun n => (s.plans.active, s.now - (s.ftNow - c) + n) } } : State).calm := by
  have gates (old : Option Plan) (ls : List Nat) (u : State) :
      (ls.foldl (fun s l => (s.installGate old p c l).awaitStart l) u).calm = u.calm :=
    foldl_calm (fun _ _ => by simp) _ _
  have cleared (u : State) (pick : Nat → Bool) : (u.clearRecords pick).calm = u.calm := rfl
  have chunks (u : State) (anew : List Nat) : (u.installChunks p anew).calm = u.calm := rfl
  have wfq (u : State) (w : AMap Nat Wfq) : ({ u with sw := { u.sw with wfq := w } } : State).calm = u.calm := rfl
  unfold State.install
  simp only [State.installSram_calm, State.installRegions_calm, ite_calm, cleared, chunks, ite_self, gates]
  rw [wfq, State.installTime_calm, State.installRoute_calm, State.pruneOld_calm]
  rfl

/-- The plans after a commit. -/
theorem State.install_complete_plans (s : State) (p : Plan) (c o : Nat) (r : Req) (status detail : Nat) :
    let v := (s.install p c (some o) false).complete r status detail
    v.plans.active = some p ∧ v.plans.staged = none ∧ v.plans.arm = none ∧
      v.plans.prev = some (s.plans.active, s.now - (s.ftNow - c) + o) := by
  have h := (State.complete_calm _ r status detail).trans (s.install_plans p c (some o) false)
  exact ⟨State.active_of_calm h, State.staged_of_calm h, State.arm_of_calm h, State.prev_of_calm h⟩

/-! ### The end of the overlap (R521) -/

/-- OVERLAP_END drops the previous plan at its FT, and keeps it for the contexts that still run it. -/
theorem execOverlapEnd_of_prev {s : State} {t : Nat} {p : Option Plan} {fin : Nat}
    (prev : (s.tick t).plans.prev = some (p, fin)) :
    exec (.overlapEnd t) s = .next (if (s.tick t).now < fin then s.tick t
      else ({ s.tick t with plans := { (s.tick t).plans with
        prev := none, old := p.toList ++ (s.tick t).plans.old } } : State).pruneOld) := by
  simp only [exec, execOverlapEnd, prev]

/-! ### The stage (R547) -/

/-- A request answered BUSY, found by its tag. -/
theorem find?_busyRead {rs : List BulkRead} {tag : Nat} {r : BulkRead}
    (h : (rs.find? fun y => decide (y.tag = tag)) = some r) (now : Nat) :
    ((busyRead rs tag now).find? fun y => decide (y.tag = tag)) = some { r with
      sentAt := now, held := true, wait := if r.wait = 0 then 1000 else min 64000 (2 * r.wait) } := by
  refine (find?_modWhere_same ?_ rs).trans ?_
  · exact fun _ hx => hx
  · rw [h]; rfl

section Stage
variable {s : State} {t : Nat} {g : StageOp} (stage : (s.tick t).plans.stage = some g)
include stage

/-- STAGE_COMPLETE once every unit holds the plan (R547 step 5). -/
theorem execStageComplete_held {p : Plan} (held : g.plan = some p) (serves : (s.tick t).mpServes = true) :
    exec (.stageComplete t) s = .next
      (({ s.tick t with plans := { (s.tick t).plans with staged := some p, stage := none } } : State).complete g.req 0 0) := by
  simp only [exec, execStageComplete, stage, held, serves, if_true]

/-- STAGE_COMPLETE before that. -/
theorem execStageComplete_partial (none_ : g.plan = none) : exec (.stageComplete t) s = .next (s.tick t) := by
  simp only [exec, execStageComplete, stage, none_]

section Resend
variable {tag : Nat} {r : BulkRead} (read : (g.reads.find? fun x => decide (x.tag = tag)) = some r)
  (serves : (s.tick t).mpServes = true)
include read serves

/-- STAGE_READ_RESEND of a READ without a response for 10 ms: sent again up to four times, and then the stage ends with
FETCH_FAIL. -/
theorem execStageReadResend_silent (unheld : r.held = false) (silent : r.sentAt + 10000000 ≤ (s.tick t).now) :
    exec (.stageReadResend tag t) s = .next (if r.resends < 4
      then ((s.tick t).setStage (some { g with reads := againRead g.reads tag (s.tick t).now true })).mpRead 0 g.src r
      else ((s.tick t).setStage none).complete g.req 0x74 0) := by
  have overdue : ¬(s.tick t).now < r.sentAt + resendNs := Nat.not_lt.mpr silent
  simp only [exec, execStageReadResend, stage, read, serves, unheld, overdue, State.endStage, Bool.not_true,
    Bool.false_eq_true, or_self, if_false]

/-- STAGE_READ_RESEND of a READ held after BUSY: every one whose wait is over is sent again. -/
theorem execStageReadResend_held (held : r.held = true) :
    exec (.stageReadResend tag t) s = .next ((g.reads.filter fun x => x.due (s.tick t).now).foldl (fun u x => u.mpRead 0 g.src x)
      ((s.tick t).setStage (some { g with reads := dueRead g.reads (s.tick t).now }))) := by
  simp only [exec, execStageReadResend, State.stageDue, stage, read, serves, held, Bool.not_true, Bool.false_eq_true,
    if_false, if_true]

end Resend

/-- The MP, which serves, takes the packet `x`, which leaves `s2`: an answer whose check holds, to the READ `r` of the
stage. -/
structure State.StageAnswer (s1 : State) (g : StageOp) (x : Steered) (s2 : State) (r : BulkRead) : Prop where
  taken : s1.takeMp (fun y => decide (hKind y.pkt.hdr = 6) && (g.reads.map fun r : BulkRead => r.tag).contains (hTag y.pkt.hdr)) =
    some (x, s2)
  serves : s2.mpServes = true
  check : hCheck x.pkt.hdr = checkOf x.pkt.payload
  stage : s2.plans.stage = some g
  read : (g.reads.find? fun y => decide (y.tag = hTag x.pkt.hdr)) = some r

/-- STAGE_READ_RESPONSE: BUSY holds the READ, OK with every byte asked for goes on, and anything else ends the stage with
FETCH_FAIL. -/
theorem execStageReadResponse_of_answer {x : Steered} {s2 : State} {r : BulkRead} (a : (s.tick t).StageAnswer g x s2 r) :
    exec (.stageReadResponse t) s = .next (
      if hStatus x.pkt.hdr = 0x24 then s2.setStage (some { g with reads := busyRead g.reads r.tag s2.now })
      else if hStatus x.pkt.hdr ≠ 0 ∨ x.pkt.payload.length ≠ r.len then (s2.setStage none).complete g.req 0x74 0
      else (s2.setStage (some { g with
        reads := dropRead g.reads r.tag, got := g.got ++ [(r.off, x.pkt.payload)] })).stagePump) := by
  obtain ⟨taken, serves, check, stage2, read⟩ := a
  simp only [exec, execStageReadResponse, stage, taken, serves, State.mpPacket_of_check _ _ check, stage2, read,
    State.endStage, Bool.not_true, Bool.false_eq_true, if_false]

end Stage

/-! ### The obligation -/

/-- Settles O40: the arm point by the staged plan (`armPoint_due`), the commit by what an install leaves of the plans
(`install_plans`), and the READs of a stage by their answers. -/
theorem plansAreStagedArmedAndCommitted : Obligations.PlansAreStagedArmedAndCommitted := by
  intro s t
  refine ⟨fun a arm ahead serves ftSet => ⟨fun due => ?_, fun early => ?_⟩,
    fun a p arm passed staged ftSet plain => ?_, fun p fin prev => ?_, fun g stage => ?_⟩
  · have d : (s.tick t).ArmDue a := ⟨arm, ahead, serves, ftSet, due⟩
    refine ⟨fun p staged same still plain promotion => congrArg _ (State.armPoint_promotion d staged same still plain promotion),
      fun p staged same still open_ => ?_, fun staged => congrArg _ (State.armPoint_unstaged d staged),
      fun p staged other => congrArg _ (State.armPoint_other d staged other)⟩
    have point := State.armPoint_staged d staged same still open_
    exact ⟨fun free => congrArg _ (point.trans (if_neg (by rw [free]; exact Bool.false_ne_true))),
      fun busy => congrArg _ (point.trans (if_pos busy))⟩
  · exact congrArg _ (State.armPoint_early arm early)
  · have commit := execCommit_passed arm passed staged ftSet plain
    refine ⟨fun stopped => ?_, fun due serves => ?_, fun early => ?_⟩
    · rw [commit, if_neg fun h => by rw [stopped] at h; exact Bool.false_ne_true h.1]
    · rw [if_pos ⟨serves, due⟩] at commit
      exact ⟨_, commit, rfl, State.install_complete_plans _ p a.c a.o a.req 0 0⟩
    · rw [commit, if_neg fun h => by omega]
  · have end_ := execOverlapEnd_of_prev prev
    exact ⟨fun past => by rw [end_, if_neg (Nat.not_lt.mpr past)], fun running => by rw [end_, if_pos running]⟩
  · refine ⟨fun p held serves => execStageComplete_held stage held serves, fun none_ => execStageComplete_partial stage none_,
      fun tag r read serves unheld silent => ?_, fun tag r read serves held => execStageReadResend_held stage read serves held,
      fun x s2 r taken serves check stage2 read => ?_⟩
    · have resend := execStageReadResend_silent stage read serves unheld silent
      exact ⟨fun few => by rw [resend, if_pos few], fun many => by rw [resend, if_neg (Nat.not_lt.mpr many)]⟩
    · have answer := execStageReadResponse_of_answer stage ⟨taken, serves, check, stage2, read⟩
      have tag : r.tag = hTag x.pkt.hdr := of_decide_eq_true (List.find?_some (p := fun y : BulkRead => decide (y.tag = _)) read)
      refine ⟨fun busy => ?_, fun ok whole => ?_, fun notBusy bad => ?_⟩
      · rw [if_pos busy] at answer
        exact ⟨_, answer, find?_busyRead (tag ▸ read) s2.now⟩
      · rw [answer, if_neg (by rw [ok]; decide), if_neg (by simp [ok, whole])]
      · rw [answer, if_neg notBusy, if_pos bad]

end Sys2Proof.Machine

/-!
What stops the part, what stops the MP alone, and what takes links DOWN (R32, R330, R475, R562, R564, R605).
-/
namespace Sys2Proof.Machine

/-! ### ROE_EVENT (Table MGT-18) -/

/-- A report of the Roe block changes ROE_EVENT and, of what the part is, nothing else. -/
theorem State.roeEvent_parts (s : State) (i : Nat) :
    (s.roeEvent i).roe = { s.roe with event := (s.roeEvent i).roe.event } ∧ (s.roeEvent i).links = s.links ∧
      (s.roeEvent i).mp = s.mp := by
  unfold State.roeEvent
  dsimp only
  split
  · exact ⟨rfl, rfl, rfl⟩
  · split <;> exact ⟨rfl, rfl, rfl⟩

/-- A clear bit of a 32-bit word is set by adding it. -/
theorem bit_add_two_pow {x i : Nat} (hi : i < 32) (clear : bit x i = false) :
    bit (BitVec.ofNat 32 (x + 2 ^ i)).toNat i = true := by
  unfold bit at clear ⊢
  rw [BitVec.toNat_ofNat, Nat.testBit_mod_two_pow, Nat.add_comm, Nat.testBit_two_pow_add_eq, clear]
  simp [hi]

/-- A report sets its bit. -/
theorem State.roeEvent_bit (s : State) {i : Nat} (hi : i < 32) : bit (s.roeEvent i).roe.event.toNat i = true := by
  unfold State.roeEvent
  split
  next set => exact set
  next clear =>
    have added := bit_add_two_pow hi (Bool.eq_false_iff.mpr clear)
    dsimp only
    split <;> exact added

/-! ### A class C6 stop (R475) -/

/-- The bypass changes TRAIL_BYP_N and when K28.5 began. -/
theorem State.bypass_parts (s old : State) :
    (s.bypass old).roe = { s.roe with bypN := (s.bypass old).roe.bypN, k28At := (s.bypass old).roe.k28At } ∧
      (s.bypass old).mp = s.mp := by
  unfold State.bypass
  split
  · exact ⟨rfl, rfl⟩
  · split
    · exact ⟨rfl, rfl⟩
    · split <;> exact ⟨rfl, rfl⟩

/-- The part stopped, its links still to fall. -/
def State.halted (s : State) : State :=
  { s with
    mp := { s.mp with running := false }
    roe := { s.roe with c6 := true, waking := false, trans := none }
    sw := { s.sw with wait := [], steer := [] }
    cores := s.cores.map fun x : Nat × Core => (x.1, { x.2 with run := none }) }

/-- The links that a C6 stop takes DOWN. -/
def State.started (s : State) : List Nat :=
  (s.links.filter fun x : Nat × Link => !decide (x.2.st = .disabled ∨ x.2.st = .down)).map fun x : Nat × Link => x.1

/-- The part stopped, every link DOWN. -/
def State.dark (s : State) : State := s.started.foldl (fun s l => s.linkDown l 0x50) s.halted

/-- The fall of the links changes neither the Roe block nor the MP. -/
theorem State.dark_parts (s : State) : s.dark.roe = s.halted.roe ∧ s.dark.mp.running = false := by
  obtain ⟨roe, running, -⟩ := State.linksDown_calm 0x50 s.started s.halted
  exact ⟨roe, running⟩

/-- A C6 stop of a part that runs. -/
theorem State.c6Stop_fresh {s : State} (fresh : s.roe.c6 = false) :
    s.c6Stop = ({ s.dark with sw := { s.dark.sw with buf := [] } } : State).bypass s := by
  unfold State.c6Stop
  rw [if_neg (by rw [fresh]; exact Bool.false_ne_true)]
  rfl

/-- After a C6 stop the part is stopped, with what ROE_EVENT shows, and the MP with it unless the part was stopped before. -/
theorem State.c6Stop_parts (s : State) :
    s.c6Stop.roe.c6 = true ∧ s.c6Stop.roe.event = s.roe.event ∧ (s.roe.c6 = false → s.c6Stop.mp.running = false) := by
  cases c6 : s.roe.c6 with
  | true =>
    have same : s.c6Stop = s := by unfold State.c6Stop; rw [if_pos c6]
    rw [same]
    exact ⟨c6, rfl, nofun⟩
  | false =>
    obtain ⟨roe, mp⟩ := State.bypass_parts ({ s.dark with sw := { s.dark.sw with buf := [] } }) s
    obtain ⟨darkRoe, darkRunning⟩ := s.dark_parts
    rw [State.c6Stop_fresh c6, roe, mp, darkRoe]
    exact ⟨rfl, rfl, fun _ => darkRunning⟩

/-- A command that ends in a C6 stop with bit `ev` of ROE_EVENT set. -/
theorem stops_of_c6Stop {cmd : Instr} {s s1 u : State} {ev : Nat} (step : exec cmd s = .next u.c6Stop)
    (kept : u.c6Stop.keep = s.keep) (c6 : u.roe.c6 = s1.roe.c6) (shown : bit u.roe.event.toNat ev = true) :
    ∃ v, exec cmd s = .next v ∧ v.roe.c6 = true ∧ bit v.roe.event.toNat ev = true ∧ v.keep = s.keep ∧
      (s1.roe.c6 = false → v.mp.running = false) := by
  obtain ⟨stopped, event, mp⟩ := u.c6Stop_parts
  exact ⟨_, step, stopped, by rwa [event], kept, fun fresh => mp (c6.trans fresh)⟩

/-! ### Links -/

/-- What a table holds at a key is listed there. -/
theorem AMap.mem_of_find {κ α : Type} [DecidableEq κ] {m : AMap κ α} {q : κ} {a : α} (h : AMap.find m q = some a) : (q, a) ∈ m := by
  induction m with
  | nil => cases h
  | cons x m ih =>
    obtain ⟨k, b⟩ := x
    rw [AMap.find] at h
    split at h
    next same => cases h; exact same ▸ List.mem_cons_self
    next => exact List.mem_cons_of_mem _ (ih h)

/-- A link that is not DISABLED stands in the table of links. -/
theorem State.link_mem {s : State} {l : Nat} (h : (s.link l).st ≠ .disabled) : (l, s.link l) ∈ s.links := by
  unfold State.link AMap.at at h ⊢
  cases found : AMap.find s.links l with
  | none => rw [found] at h; exact absurd rfl h
  | some k => exact AMap.mem_of_find found

/-- Links that a laser fault of engine `e` takes DOWN (R330). -/
def State.lit (s : State) (e : Nat) : List Nat :=
  (s.links.filter fun x : Nat × Link =>
    decide (engineOf x.1 = e) && !decide (x.2.st = .disabled ∨ x.2.st = .stopping ∨ x.2.st = .down)).map fun x : Nat × Link => x.1

/-- A link of the engine that carries light is one of them, or DOWN already. -/
theorem State.lit_or_down {s : State} {e l : Nat} (engine : engineOf l = e) (enabled : (s.link l).st ≠ .disabled)
    (stays : (s.link l).st ≠ .stopping) : l ∈ s.lit e ∨ (s.link l).st = .down := by
  by_cases down : (s.link l).st = .down
  · exact .inr down
  · refine .inl (List.mem_map.mpr ⟨(l, s.link l), List.mem_filter.mpr ⟨State.link_mem enabled, ?_⟩, rfl⟩)
    simp [engine, enabled, stays, down]

/-! ### What stops the part (R562) -/

section
variable {s : State} {t : Nat}

/-- THERMAL_TRIP with a sample below 115 °C. -/
theorem execThermalTrip_cold {r0 r1 : Nat} (cold : r0 < 460 ∨ r1 < 460) : exec (.thermalTrip r0 r1 t) s = .next (s.tick t) := by
  have notHot : ¬(460 ≤ r0 ∧ 460 ≤ r1) := by omega
  simp [exec, execThermalTrip, when_, notHot]

variable (judges : (s.tick t).roeJudges = true)
include judges

/-- THERMAL_TRIP at 115 °C in both samples. -/
theorem execThermalTrip_hot {r0 r1 : Nat} (h0 : 460 ≤ r0) (h1 : 460 ≤ r1) :
    exec (.thermalTrip r0 r1 t) s = .next
      ({ (s.tick t).roeEvent 1 with roe := { ((s.tick t).roeEvent 1).roe with thermtrip := true } } : State).c6Stop := by
  simp [exec, execThermalTrip, when_, judges, h0, h1]

/-- RAIL_FAULT, by the time that the rail has been out of range. -/
theorem execRailFault_judged {rail : Nat} (hr : rail < 7) (us : Nat) :
    exec (.railFault rail us t) s = .next (if 10 ≤ us then ((s.tick t).roeEvent 2).c6Stop else s.tick t) := by
  simp [exec, execRailFault, onUnit, when_, judges, hr]

/-- REFCLK_LOSS, by the time without an edge. -/
theorem execRefclkLoss_judged (ns : Nat) :
    exec (.refclkLoss ns t) s = .next (if 1000 ≤ ns then ((s.tick t).roeEvent 3).c6Stop else s.tick t) := by
  simp [exec, execRefclkLoss, when_, judges]

/-! ### Lasers (R330) -/

/-- LASER_FAULT of an engine that had none. -/
theorem execLaserFault_new {e n : Nat} (he : e < Config.clusters) (samples : 3 ≤ n)
    (clear : (s.tick t).roe.laser.contains e = false) :
    exec (.laserFault e n t) s = .next (
      let u : State := ({ s.tick t with roe := { (s.tick t).roe with laser := e :: (s.tick t).roe.laser } } : State).roeEvent 7
      (u.lit e).foldl (fun s l => s.linkDown l 0x56) u) := by
  simp only [exec, execLaserFault, onUnit, when_, judges, clear, he, samples, decide_true, Bool.not_false, Bool.and_self, if_true]
  rfl

/-- LASER_CLEAR. -/
theorem execLaserClear_judged {e n : Nat} (he : e < Config.clusters) (samples : 3 ≤ n) :
    exec (.laserClear e n t) s = .next
      { s.tick t with roe := { (s.tick t).roe with laser := listed false e (s.tick t).roe.laser } } := by
  simp only [exec, execLaserClear, onUnit, when_, judges, he, samples, decide_true, Bool.and_self, if_true]

/-- After a laser fault its links are DOWN. -/
theorem execLaserFault_darkens {e n : Nat} (he : e < Config.clusters) (samples : 3 ≤ n)
    (clear : (s.tick t).roe.laser.contains e = false) :
    ∃ v, exec (.laserFault e n t) s = .next v ∧ v.roe.laser.contains e = true ∧ bit v.roe.event.toNat 7 = true ∧
      v.keep = s.keep ∧ ∀ l, engineOf l = e → ((s.tick t).link l).st ≠ .disabled → ((s.tick t).link l).st ≠ .stopping →
        (v.link l).st = .down := by
  have step := execLaserFault_new judges he samples clear
  let w : State := { s.tick t with roe := { (s.tick t).roe with laser := e :: (s.tick t).roe.laser } }
  obtain ⟨eventRoe, eventLinks, -⟩ := w.roeEvent_parts 7
  obtain ⟨roe, -, down⟩ := State.linksDown_calm 0x56 ((w.roeEvent 7).lit e) (w.roeEvent 7)
  have link : ∀ l, (w.roeEvent 7).link l = (s.tick t).link l := fun l => by
    unfold State.link; rw [eventLinks]
  refine ⟨_, step, ?_, ?_, execLaserFault_keep _ _ _ _ _ step, fun l engine enabled stays => down l ?_⟩
  · rw [roe, eventRoe]
    simp [w]
  · rw [roe]
    exact State.roeEvent_bit w (by decide)
  · rw [← link l] at enabled stays
    exact State.lit_or_down engine enabled stays

/-! ### The MP (R32, R564) -/

/-- MPSTOP while the firmware should send its heartbeat. -/
theorem execMpstop_judged (lost : (s.tick t).roe.mpLost = false) (firmware : (s.tick t).boot.phase = .firmware)
    (awake : (s.tick t).roe.pstate ≠ .s3) :
    exec (.mpstop t) s = .next (if (s.tick t).roe.beatAt + 1000000000 ≤ (s.tick t).now then
      ({ s.tick t with roe := { (s.tick t).roe with mpLost := true }, mp := { (s.tick t).mp with running := false } } :
        State).logFault.roeEvent 4 else s.tick t) := by
  have due : decide ((s.tick t).boot.phase = .firmware ∧ (s.tick t).roe.pstate ≠ .s3 ∧
      (s.tick t).roe.beatAt + 1000000000 ≤ (s.tick t).now) = decide ((s.tick t).roe.beatAt + 1000000000 ≤ (s.tick t).now) :=
    decide_eq_decide.mpr ⟨fun h => h.2.2, fun h => ⟨firmware, awake, h⟩⟩
  simp only [exec, execMpstop, when_, judges, lost, due, Bool.not_false, Bool.and_self, Bool.true_and, decide_eq_true_eq]

/-- After MPSTOP the MP is stopped alone. -/
theorem execMpstop_stops (lost : (s.tick t).roe.mpLost = false) (firmware : (s.tick t).boot.phase = .firmware)
    (awake : (s.tick t).roe.pstate ≠ .s3) (silent : (s.tick t).roe.beatAt + 1000000000 ≤ (s.tick t).now) :
    ∃ v, exec (.mpstop t) s = .next v ∧ v.mp.running = false ∧ v.roe.mpLost = true ∧ bit v.roe.event.toNat 4 = true ∧
      v.keep = s.keep ∧ v.links = (s.tick t).links ∧ v.roe.c6 = (s.tick t).roe.c6 := by
  have step := execMpstop_judged judges lost firmware awake
  rw [if_pos silent] at step
  obtain ⟨roe, links, mp⟩ := State.roeEvent_parts (State.logFault
    { s.tick t with roe := { (s.tick t).roe with mpLost := true }, mp := { (s.tick t).mp with running := false } }) 4
  refine ⟨_, step, ?_, ?_, State.roeEvent_bit _ (by decide), execMpstop_keep _ _ _ step, links, ?_⟩
  · rw [mp]; rfl
  · rw [roe]; rfl
  · rw [roe]; rfl

/-! ### PLLs (R605) -/

variable {d : Nat} (hd : d < 4) (fresh : (s.tick t).roe.c6 = false)
include hd fresh

/-- PLL_LOCK of a die PLL. -/
theorem execPllLock_die (unlocked : (s.tick t).roe.diePll.contains d = false) :
    exec (.pllLock (.die d) t) s = .next (
      let u : State := { s.tick t with roe := { (s.tick t).roe with diePll := d :: (s.tick t).roe.diePll } }
      if (s.tick t).roe.diePll.length = 3 ∧ (s.tick t).boot.phase = .start ∧ (s.tick t).boot.attempts = 0 then u.romStart else u) := by
  simp only [exec, execPllLock, onUnit, judges, fresh, unlocked, hd, decide_true, Bool.not_true, Bool.or_self,
    Bool.false_eq_true, if_false, if_true, List.length_cons, Nat.reduceEqDiff]

/-- PLL_LOCK_LOSS of a die PLL. -/
theorem execPllLockLoss_die (locked : (s.tick t).roe.diePll.contains d = true) :
    exec (.pllLockLoss (.die d) t) s = .next (
      let u : State := { s.tick t with roe := { (s.tick t).roe with
        diePll := (s.tick t).roe.diePll.filter fun x => !decide (x = d) } }
      if d = 0 then u.c6Stop else u.unitError (.die d)) := by
  simp only [exec, execPllLockLoss, onUnit, judges, fresh, locked, hd, decide_true, Bool.not_true, Bool.or_self,
    Bool.false_eq_true, if_false, if_true]

end

/-- The PLLs of a lane that a link uses: a lock changes nothing, a loss fails the lane. -/
theorem execPll_lane {s : State} {t l lane : Nat} (hl : l < Config.links) (live : ((s.tick t).link l).live = true)
    (good : bit ((s.tick t).link l).good lane = true) :
    exec (.pllLock (.lane l lane) t) s = .next (s.tick t) ∧
      exec (.pllLockLoss (.lane l lane) t) s = .next ((s.tick t).laneFailed l lane) := by
  simp [exec, execPllLock, execPllLockLoss, onUnit, when_, hl, live, good]

/-! ### The obligation -/

/-- Settles O47: what a C6 stop leaves (`c6Stop_parts`), what a laser fault takes DOWN (`linksDown_calm`), and what stops the
MP alone. -/
theorem roeStopsThePart : Obligations.RoeStopsThePart := by
  intro s t
  have c6 (i : Nat) : ((s.tick t).roeEvent i).roe.c6 = (s.tick t).roe.c6 := by rw [(State.roeEvent_parts _ i).1]
  refine ⟨fun judges => ⟨fun r0 r1 h0 h1 => ?_, fun r0 r1 cold => execThermalTrip_cold cold, fun rail us hr => ?_, fun ns => ?_,
    fun e n he samples => ?_, fun lost firmware awake => ?_, fun d hd fresh => ?_⟩,
    fun l lane hl live good => execPll_lane hl live good, fun serves => ?_, rfl⟩
  · have step := execThermalTrip_hot judges h0 h1
    exact stops_of_c6Stop step (execThermalTrip_keep _ _ _ _ _ step) (c6 1) (State.roeEvent_bit _ (by decide))
  · have step := execRailFault_judged judges hr us
    refine ⟨fun long => ?_, fun short => by rw [step, if_neg (Nat.not_le.mpr short)]⟩
    rw [if_pos long] at step
    exact stops_of_c6Stop step (execRailFault_keep _ _ _ _ _ step) (c6 2) (State.roeEvent_bit _ (by decide))
  · have step := execRefclkLoss_judged judges ns
    refine ⟨fun long => ?_, fun short => by rw [step, if_neg (Nat.not_le.mpr short)]⟩
    rw [if_pos long] at step
    exact stops_of_c6Stop step (execRefclkLoss_keep _ _ _ _ step) (c6 3) (State.roeEvent_bit _ (by decide))
  · refine ⟨execLaserFault_darkens judges he samples, ?_⟩
    have step := execLaserClear_judged judges he samples
    exact ⟨_, step, by simp [listed], execLaserClear_keep _ _ _ _ _ step, rfl⟩
  · have step := execMpstop_judged judges lost firmware awake
    exact ⟨execMpstop_stops judges lost firmware awake, fun beats => by rw [step, if_neg (Nat.not_le.mpr beats)]⟩
  · refine ⟨fun unlocked => ?_, fun locked => ?_⟩
    · have step := execPllLock_die judges hd fresh unlocked
      refine ⟨fun fourth start first => step.trans (congrArg _ (if_pos ⟨fourth, start, first⟩)),
        fun other => step.trans (congrArg _ (if_neg ?_))⟩
      rintro ⟨fourth, start, first⟩
      exact other.elim (· fourth) fun rest => rest.elim (· start) (· first)
    · have step := execPllLockLoss_die judges hd fresh locked
      exact ⟨fun zero => by rw [step, if_pos zero], fun other => by rw [step, if_neg other]⟩
  · simp only [exec, execMpHeartbeat, when_, serves, if_true]

end Sys2Proof.Machine

/-!
Exact sums: what an operand adds to a lane commutes with what any other adds, and adds its own residue (R54, R56, R57,
R62, R88).
-/
namespace Sys2Proof.Machine

/-! ### The residue of an operand (R88) -/

/-- 2^61 is 1 modulo 2^61 − 1, so an alignment shift by 61 places leaves a residue as it is. -/
theorem two_pow_mod_resM (e : Nat) : 2 ^ e % resM = 2 ^ (e % 61) % resM := by
  have turn : 2 ^ 61 % resM = 1 := by decide
  calc 2 ^ e % resM = 2 ^ (e % 61) * (2 ^ 61) ^ (e / 61) % resM := by rw [← Nat.pow_mul, ← Nat.pow_add, Nat.mod_add_div]
    _ = 2 ^ (e % 61) * ((2 ^ 61 % resM) ^ (e / 61) % resM) % resM := by rw [← Nat.pow_mod, Nat.mul_mod_mod]
    _ = 2 ^ (e % 61) % resM := by rw [turn, Nat.one_pow, Nat.mul_mod_mod, Nat.mul_one]

/-- The residue of an integer of sign `neg` and magnitude `a`. -/
theorem resInt_signed (neg : Bool) (a : Nat) :
    resInt (signed neg a) = if neg then (resM - a % resM) % resM else a % resM := by
  cases neg <;> simp only [resInt, signed, resM, if_true, Bool.false_eq_true, if_false] <;> omega

/-- The residue formed from the significand and the bit position is the residue of the aligned integer. -/
theorem resOf_eq_resInt (neg : Bool) (m e : Nat) : resOf neg m e = resInt (signed neg (m <<< e)) := by
  have aligned : m * 2 ^ (e % 61) % resM = m <<< e % resM := by
    rw [Nat.shiftLeft_eq, Nat.mul_mod, ← two_pow_mod_resM, ← Nat.mul_mod]
  rw [resInt_signed, resOf, aligned]

/-- The residue of a sum is the sum of the residues. -/
theorem resInt_add (x y : Int) : resInt (x + y) = (resInt x + resInt y) % resM := by
  simp only [resInt, resM]
  omega

/-! ### What an operand does to a lane -/

/-- The lane with special flags set (R62). -/
def Lane.mark (l : Lane) (n p q : Bool) : Lane :=
  { l with nan := l.nan || n, pinf := l.pinf || p, ninf := l.ninf || q }

/-- The effects that one operand of an exact sum can have: it sets flags, or it adds an integer and that integer's
residue. -/
inductive Accumulates : (Lane → Lane) → Prop
  | mark (n p q : Bool) : Accumulates fun l => l.mark n p q
  | int (x : Int) : Accumulates fun l => l.addInt x (resInt x)

/-- A finite operand adds its integer on the grid, with the residue of that integer (R54, R56, R88). -/
theorem Lane.addFin_eq_addInt (w : Nat) (l : Lane) (neg : Bool) (m : Nat) (k : Int) :
    l.addFin w neg m k = l.addInt (signed neg (onGrid w m k)) (resInt (signed neg (onGrid w m k))) := by
  unfold Lane.addFin
  by_cases above : 0 ≤ k + w
  · simp only [above, if_true, resOf_eq_resInt, onGrid]
  · simp only [above, if_false, resOf_eq_resInt, Nat.shiftLeft_zero]

/-- Every value added to a lane accumulates. -/
theorem accumulates_add (w : Nat) (v : Val) : Accumulates fun l => l.add w v := by
  match v with
  | .nan => simpa only [Lane.mark, Lane.add, Bool.or_true, Bool.or_false] using Accumulates.mark true false false
  | .inf false => simpa only [Lane.mark, Lane.add, Bool.or_true, Bool.or_false] using Accumulates.mark false true false
  | .inf true => simpa only [Lane.mark, Lane.add, Bool.or_true, Bool.or_false] using Accumulates.mark false false true
  | .fin neg m k => simpa only [Lane.add, Lane.addFin_eq_addInt] using Accumulates.int (signed neg (onGrid w m k))

/-- Every product added to a lane accumulates: it is added as a value, or as an infinity from 2^280 on (R56). -/
theorem accumulates_addProd (v : Val) : Accumulates fun l => l.addProd v := by
  match v with
  | .nan => exact accumulates_add wXP .nan
  | .inf neg => exact accumulates_add wXP (.inf neg)
  | .fin neg m k =>
    by_cases large : m ≠ 0 ∧ (m.log2 : Int) + k ≥ 280
    · simpa only [Lane.addProd, if_pos large] using accumulates_add wXP (.inf neg)
    · simpa only [Lane.addProd, if_neg large] using accumulates_add wXP (.fin neg m k)

/-- Two accumulations commute. -/
theorem Accumulates.comm {f g : Lane → Lane} (hf : Accumulates f) (hg : Accumulates g) (l : Lane) :
    f (g l) = g (f l) := by
  cases hf with
  | mark n p q =>
    cases hg with
    | mark n' p' q' => simp only [Lane.mark, Bool.or_right_comm]
    | int y => rfl
  | int x =>
    cases hg with
    | mark n' p' q' => rfl
    | int y => simp only [Lane.addInt, Int.add_right_comm, Nat.mod_add_mod, Nat.add_right_comm]

/-- An accumulation keeps the residue with the integer (R88, R89). -/
theorem Accumulates.resOk {f : Lane → Lane} (hf : Accumulates f) {l : Lane} (ok : l.resOk = true) :
    (f l).resOk = true := by
  cases hf with
  | mark n p q => exact ok
  | int x =>
    have agree : resInt l.x = l.res := of_decide_eq_true ok
    exact decide_eq_true ((resInt_add l.x x).trans (by rw [agree]; rfl))

/-! ### Sums over a list of operands -/

section Sums
variable {add : Lane → Val → Lane} (acc : ∀ v, Accumulates fun l => add l v)
include acc

/-- Operands accumulated in any order give the same lane. -/
theorem foldl_accumulates_perm {vs us : List Val} (perm : vs.Perm us) (l : Lane) :
    vs.foldl add l = us.foldl add l :=
  perm.foldl_eq' (fun v _ u _ m => (acc u).comm (acc v) m) l

/-- The residue agrees with the integer after any number of accumulations. -/
theorem foldl_accumulates_resOk (vs : List Val) {l : Lane} (ok : l.resOk = true) : (vs.foldl add l).resOk = true := by
  induction vs generalizing l with
  | nil => exact ok
  | cons v vs ih => exact ih ((acc v).resOk ok)

end Sums

/-! ### The obligation -/

/-- Settles O59: values and products accumulate (`accumulates_add`, `accumulates_addProd`), and accumulations commute and
keep the residue. -/
theorem exactSumsDoNotDependOnOrder : Obligations.ExactSumsDoNotDependOnOrder := fun w _ vs _ perm =>
  ⟨foldl_accumulates_perm (accumulates_add w) perm _, foldl_accumulates_perm accumulates_addProd perm _, fun ok =>
    ⟨foldl_accumulates_resOk (accumulates_add w) vs ok, foldl_accumulates_resOk accumulates_addProd vs ok⟩⟩

end Sys2Proof.Machine

/-!
The exact carry: the encoding of a lane and its decoding are inverse (R85, R86, R87, R88).
-/
namespace Sys2Proof.Machine

/-! ### Little-endian byte strings (R5) -/

@[simp] theorem length_toLE (n x : Nat) : (toLE n x).length = n := by
  induction n generalizing x with
  | zero => rfl
  | succ n ih => rw [toLE, List.length_cons, ih]

/-- The first bytes of a string hold the low part of its number. -/
theorem take_toLE {k n : Nat} (h : k ≤ n) (x : Nat) : (toLE n x).take k = toLE k x := by
  induction k generalizing n x with
  | zero => rfl
  | succ k ih =>
    obtain ⟨n, rfl⟩ := Nat.exists_eq_add_of_le' (Nat.one_le_of_lt h)
    rw [toLE, List.take_succ_cons, ih (Nat.le_of_succ_le_succ h), toLE]

/-- The value of a string is its number, cut to the string's length. -/
theorem ofLE_toLE (n x : Nat) : ofLE (toLE n x) = x % 256 ^ n := by
  induction n generalizing x with
  | zero => rw [toLE, ofLE, Nat.pow_zero, Nat.mod_one]
  | succ n ih =>
    rw [toLE, ofLE, ih, BitVec.toNat_ofNat, Nat.pow_succ' (m := 256)]
    exact Nat.mod_mul.symm

/-- The first byte of a string whose number is a byte and a number above it. -/
theorem leAt_toLE_header {n h : Nat} (hn : 0 < n) (hh : h < 256) (v : Nat) : leAt (toLE n (h + 256 * v)) 0 1 = h := by
  rw [leAt, List.drop_zero, take_toLE hn, ofLE_toLE, Nat.pow_one]
  omega

/-- The `n` bytes after the first of a string whose number is a byte and a number of `8 n` bits above it. -/
theorem leAt_toLE_body {n m h v : Nat} (hm : m = 8 * n) (hh : h < 256) (hv : v < 2 ^ m) :
    leAt (toLE (n + 1) (h + 256 * v)) 1 n = v := by
  have above : (h + 256 * v) / 256 = v := by omega
  have fits : v < 256 ^ n := by rw [hm, Nat.pow_mul] at hv; exact hv
  rw [leAt, toLE, List.drop_succ_cons, List.drop_zero, above, take_toLE (Nat.le_refl n), ofLE_toLE, Nat.mod_eq_of_lt fits]

/-! ### Two's complement -/

/-- A two's complement pattern fits its width. -/
theorem wrap_lt (n : Nat) (x : Int) : wrap n x < 2 ^ n := by
  rw [wrap, ← BitVec.toNat_ofInt]
  exact BitVec.isLt _

/-- An integer in the range of a width is the signed value of its pattern. -/
theorem sext_wrap {n : Nat} {x : Int} (low : -(2 ^ n : Nat) ≤ x) (high : x < (2 ^ n : Nat)) :
    sext (n + 1) (wrap (n + 1) x) = x := by
  rw [Int.natCast_pow] at low high
  have pattern : wrap (n + 1) x = (BitVec.ofInt (n + 1) x).toNat := (BitVec.toNat_ofInt x).symm
  have sign : bit (BitVec.ofInt (n + 1) x).toNat n = (BitVec.ofInt (n + 1) x).msb := (BitVec.msb_eq_getLsbD_last _).symm
  rw [sext, Nat.add_sub_cancel, pattern, Nat.mod_eq_of_lt (BitVec.isLt _), sign, ← BitVec.toInt_eq_msb_cond,
    BitVec.toInt_ofInt_eq_self n.succ_pos low high]

/-! ### Trailing zeros -/

/-- An odd number has no trailing zero. -/
theorem tz_odd (a : Nat) : tz (2 * a + 1) = 0 := by
  have half : ((2 * a + 1) ^^^ (2 * a)) / 2 = 0 := by
    rw [Nat.xor_div_two, show (2 * a + 1) / 2 = 2 * a / 2 by omega, Nat.xor_self]
  rw [tz, Nat.add_sub_cancel, Nat.log2_def, if_neg (by omega)]

/-- Doubling a non-zero number adds a trailing zero. -/
theorem tz_two_mul {a : Nat} (h : a ≠ 0) : tz (2 * a) = tz a + 1 := by
  have half : (2 * a ^^^ (2 * a - 1)) / 2 = a ^^^ (a - 1) := by
    rw [Nat.xor_div_two, show 2 * a / 2 = a by omega, show (2 * a - 1) / 2 = a - 1 by omega]
  have change : a ^^^ (a - 1) ≠ 0 := fun same => by
    have equal : a = a - 1 := by
      rw [← Nat.zero_xor (a - 1), ← same, Nat.xor_assoc, Nat.xor_self, Nat.xor_zero]
    omega
  rw [tz, Nat.log2_def, if_pos (by omega), half, tz]

/-- The trailing zeros of a non-zero number count the powers of two that divide it. -/
theorem le_tz_iff {a : Nat} (h : a ≠ 0) (n : Nat) : n ≤ tz a ↔ 2 ^ n ∣ a := by
  induction n generalizing a with
  | zero => exact iff_of_true (Nat.zero_le _) (Nat.one_dvd a)
  | succ n ih =>
    rcases Nat.mod_two_eq_zero_or_one a with even | odd
    · have double : a = 2 * (a / 2) := by omega
      have ha : a / 2 ≠ 0 := by omega
      rw [double, tz_two_mul ha, Nat.add_le_add_iff_right, ih ha, Nat.pow_succ', Nat.mul_dvd_mul_iff_left (by decide)]
    · have double : a = 2 * (a / 2) + 1 := by omega
      have none : tz a = 0 := by rw [double, tz_odd]
      refine iff_of_false (by omega) fun d => ?_
      have two : 2 ∣ a := Nat.dvd_trans ⟨2 ^ n, Nat.pow_succ'⟩ d
      omega

/-! ### The window of a non-zero lane (R86) -/

/-- The window position of an integer. -/
def xcPos (x : Int) : Nat := min (tz x.natAbs / 8) 30

theorem xcPos_le (x : Int) : xcPos x ≤ 30 := Nat.min_le_right _ _

/-- The integer is a multiple of the weight of its window. -/
theorem xcPos_dvd {x : Int} (hx : x ≠ 0) : ((2 ^ (8 * xcPos x) : Nat) : Int) ∣ x := by
  have low : 8 * xcPos x ≤ tz x.natAbs := by rw [xcPos]; omega
  exact Int.ofNat_dvd_left.mpr ((le_tz_iff (Int.natAbs_ne_zero.mpr hx) _).mp low)

/-- The weight of a window is not zero. -/
theorem two_pow_cast_ne_zero (n : Nat) : ((2 ^ n : Nat) : Int) ≠ 0 :=
  Int.natCast_ne_zero.mpr (Nat.ne_of_gt (Nat.two_pow_pos n))

/-- The window of an integer is the highest byte position, up to 30, below which it has no bit. -/
theorem xcPos_eq {x w : Int} {p : Nat} (hx : x ≠ 0) (split : x = w * (2 ^ (8 * p) : Nat)) (hp : p ≤ 30)
    (top : p = 30 ∨ ¬ (256 : Int) ∣ w) : xcPos x = p := by
  have dvd_iff (n : Nat) : n ≤ tz x.natAbs ↔ ((2 ^ n : Nat) : Int) ∣ x :=
    (le_tz_iff (Int.natAbs_ne_zero.mpr hx) n).trans Int.ofNat_dvd_left.symm
  have low : 8 * p ≤ tz x.natAbs := (dvd_iff _).mpr (split ▸ Int.dvd_mul_left _ _)
  have high : p = 30 ∨ tz x.natAbs < 8 * p + 8 := top.imp_right fun narrow => by
    refine Nat.lt_of_not_ge fun above => narrow ?_
    have d := (dvd_iff _).mp above
    rw [split, Nat.pow_add, Nat.mul_comm (2 ^ (8 * p)), Int.natCast_mul] at d
    exact Int.dvd_of_mul_dvd_mul_right (two_pow_cast_ne_zero _) d
  rw [xcPos]
  omega

/-! ### Elements (R85, Tables ARI-8 and ARI-9) -/

/-- The flags of a lane as the low bits of a header. -/
def Lane.flagBits (l : Lane) : Nat := b2n l.nan + 2 * b2n l.pinf + 4 * b2n l.ninf

/-- An XC16 element of header flags, window position and window. -/
def xc16 (flags p : Nat) (w : Int) : List Byte := toLE 16 (flags + 8 * p + 256 * wrap 120 w)

/-- An XC48 element without flags. -/
def xc48 (x : Int) : List Byte := toLE 48 (8 * 31 + 256 * wrap 376 x)

theorem b2n_le_one (b : Bool) : b2n b ≤ 1 := by
  cases b <;> decide

theorem b2n_eq_zero_iff (b : Bool) : b2n b = 0 ↔ b = false := by
  cases b <;> decide

theorem Lane.flagBits_lt (l : Lane) : l.flagBits < 8 := by
  have n := b2n_le_one l.nan
  have p := b2n_le_one l.pinf
  have q := b2n_le_one l.ninf
  rw [Lane.flagBits]
  omega

/-- A lane has no flag bit exactly when no flag is set. -/
theorem Lane.flagBits_eq_zero_iff (l : Lane) : l.flagBits = 0 ↔ l.nan = false ∧ l.pinf = false ∧ l.ninf = false := by
  have n := b2n_eq_zero_iff l.nan
  have p := b2n_eq_zero_iff l.pinf
  have q := b2n_eq_zero_iff l.ninf
  rw [Lane.flagBits, ← n, ← p, ← q]
  omega

theorem Lane.flagged_eq_false_iff (l : Lane) : l.flagged = false ↔ l.flagBits = 0 := by
  simp only [Lane.flagBits_eq_zero_iff, Lane.flagged, Bool.or_eq_false_iff, and_assoc]

/-- A bit read as a number. -/
theorem bit_eq_of_b2n {x i : Nat} {b : Bool} (h : x / 2 ^ i % 2 = b2n b) : bit x i = b := by
  rw [bit, Nat.testBit_eq_decide_div_mod_eq, h]
  cases b <;> rfl

/-- The low header bits are the flags, whatever the window position above them. -/
theorem bit_flagBits (l : Lane) (p : Nat) :
    bit (l.flagBits + 8 * p) 0 = l.nan ∧ bit (l.flagBits + 8 * p) 1 = l.pinf ∧ bit (l.flagBits + 8 * p) 2 = l.ninf := by
  have n := b2n_le_one l.nan
  have p := b2n_le_one l.pinf
  have q := b2n_le_one l.ninf
  refine ⟨bit_eq_of_b2n ?_, bit_eq_of_b2n ?_, bit_eq_of_b2n ?_⟩ <;> rw [Lane.flagBits] <;> omega

/-- POS of a header (Table ARI-8). -/
theorem bits_pos {f p : Nat} (hf : f < 8) (hp : p < 32) : bits (f + 8 * p) 7 3 = p := by
  rw [bits, Nat.shiftRight_eq_div_pow]
  omega

/-! ### The encoding, case by case (R86) -/

theorem xcEnc_flagged {l : Lane} (flags : l.flagBits ≠ 0) : xcEnc l = xc16 l.flagBits 0 0 := by
  have flagged : l.flagged = true := eq_true_of_ne_false (mt l.flagged_eq_false_iff.mp flags)
  rw [xcEnc, if_pos flagged]
  rfl

theorem xcEnc_zero {l : Lane} (flags : l.flagBits = 0) (hx : l.x = 0) : xcEnc l = xc16 l.flagBits 0 0 := by
  rw [xcEnc, l.flagged_eq_false_iff.mpr flags, if_neg Bool.false_ne_true, if_pos hx, flags]
  rfl

/-- A lane without flags and not zero, by the window `w` at its position. -/
theorem xcEnc_nonzero {l : Lane} {w : Int} (flags : l.flagBits = 0) (hx : l.x ≠ 0)
    (split : l.x = w * (2 ^ (8 * xcPos l.x) : Nat)) :
    xcEnc l = if -(2 ^ 119 : Nat) ≤ w ∧ w < (2 ^ 119 : Nat) then xc16 l.flagBits (xcPos l.x) w else xc48 l.x := by
  have window : l.x / (2 ^ (8 * xcPos l.x) : Nat) = w := Int.ediv_eq_of_eq_mul_left (two_pow_cast_ne_zero _) split
  have header (p v : Nat) : p <<< 3 + v <<< 8 = 8 * p + 256 * v := by
    rw [Nat.shiftLeft_eq, Nat.shiftLeft_eq]; omega
  rw [xcEnc, l.flagged_eq_false_iff.mpr flags, if_neg Bool.false_ne_true, if_neg hx, flags, xc16, xc48, Nat.zero_add, ← header,
    ← header, ← window]
  rfl

/-! ### The decoding of an element (R85, R87, R88) -/

/-- Decoding an XC16 element that carries a lane's flags. -/
theorem xcDec_xc16 (l : Lane) {p : Nat} {w : Int} (hp : p ≤ 30) (low : -(2 ^ 119 : Nat) ≤ w)
    (high : w < (2 ^ 119 : Nat)) :
    xcDec (xc16 l.flagBits p w) =
      { l with x := w * (2 ^ (8 * p) : Nat), res := resInt (w * (2 ^ (8 * p) : Nat)) } := by
  have hh : l.flagBits + 8 * p < 256 := by have := l.flagBits_lt; omega
  have header : leAt (xc16 l.flagBits p w) 0 1 = l.flagBits + 8 * p := leAt_toLE_header (by omega) hh _
  have body : leAt (xc16 l.flagBits p w) 1 15 = wrap 120 w := leAt_toLE_body rfl hh (wrap_lt 120 w)
  obtain ⟨n, pi, q⟩ := bit_flagBits l p
  rw [xcDec, header, body, bits_pos l.flagBits_lt (by omega), if_neg (by omega), sext_wrap low high, n, pi, q]

/-- Decoding an XC48 element gives the integer of its body. -/
theorem xcDec_xc48 {l : Lane} (flags : l.flagBits = 0) (low : -(2 ^ 375 : Nat) ≤ l.x) (high : l.x < (2 ^ 375 : Nat)) :
    xcDec (xc48 l.x) = { l with res := resInt l.x } := by
  have header : leAt (xc48 l.x) 0 1 = 8 * 31 := leAt_toLE_header (by omega) (by omega) _
  have body : leAt (xc48 l.x) 1 47 = wrap 376 l.x := leAt_toLE_body (m := 376) rfl (by omega) (wrap_lt 376 l.x)
  obtain ⟨n, p, q⟩ := l.flagBits_eq_zero_iff.mp flags
  rw [xcDec, header, body, sext_wrap low high, n, p, q]
  rfl

/-- The header of an XC16 element gives its length. -/
theorem length_xc16 {f p : Nat} (hf : f < 8) (hp : p ≤ 30) (w : Int) :
    (xc16 f p w).length = xcLen (leAt (xc16 f p w) 0 1) := by
  rw [xc16, leAt_toLE_header (by omega) (by omega), length_toLE, xcLen, bits_pos hf (by omega), if_neg (by omega)]

/-- The header of an XC48 element gives its length. -/
theorem length_xc48 (x : Int) : (xc48 x).length = xcLen (leAt (xc48 x) 0 1) := by
  rw [xc48, leAt_toLE_header (by omega) (by omega), length_toLE]
  rfl

/-! ### The obligation -/

/-- The element of a lane: an XC16 element whose window holds the integer (0 when a flag is set), or an XC48 element when
no flag is set. -/
theorem xcEnc_forms (l : Lane) :
    (∃ (p : Nat) (w : Int), p ≤ 30 ∧ -(2 ^ 119 : Nat) ≤ w ∧ w < (2 ^ 119 : Nat) ∧
      xcEnc l = xc16 l.flagBits p w ∧ w * (2 ^ (8 * p) : Nat) = if l.flagBits = 0 then l.x else 0) ∨
    l.flagBits = 0 ∧ xcEnc l = xc48 l.x := by
  by_cases flags : l.flagBits = 0
  · by_cases hx : l.x = 0
    · exact .inl ⟨0, 0, by omega, by omega, by omega, xcEnc_zero flags hx, by rw [if_pos flags, hx, Int.zero_mul]⟩
    · obtain ⟨w, split⟩ := xcPos_dvd hx
      rw [Int.mul_comm] at split
      have form := xcEnc_nonzero flags hx split
      by_cases range : -(2 ^ 119 : Nat) ≤ w ∧ w < (2 ^ 119 : Nat)
      · rw [if_pos range] at form
        exact .inl ⟨xcPos l.x, w, xcPos_le l.x, range.1, range.2, form, by rw [if_pos flags, ← split]⟩
      · rw [if_neg range] at form
        exact .inr ⟨flags, form⟩
  · exact .inl ⟨0, 0, by omega, by omega, by omega, xcEnc_flagged flags, by rw [if_neg flags, Int.zero_mul]⟩

/-- The element of a lane of 376 bits has the length of its header and decodes to the lane: its flags, and its integer when
none is set. -/
theorem xcEnc_decodes (l : Lane) (low : -(2 ^ 375 : Nat) ≤ l.x) (high : l.x < (2 ^ 375 : Nat)) :
    (xcEnc l).length = xcLen (leAt (xcEnc l) 0 1) ∧
      xcDec (xcEnc l) = { l with x := if l.flagBits = 0 then l.x else 0,
                                 res := resInt (if l.flagBits = 0 then l.x else 0) } := by
  obtain ⟨p, w, hp, hlow, hhigh, form, value⟩ | ⟨flags, form⟩ := xcEnc_forms l
  · rw [form, ← value]
    exact ⟨length_xc16 l.flagBits_lt hp w, xcDec_xc16 l hp hlow hhigh⟩
  · rw [form, if_pos flags]
    exact ⟨length_xc48 l.x, xcDec_xc48 flags low high⟩

/-- Settles O58: the encoding case by case (`xcEnc_flagged`, `xcEnc_zero`, `xcEnc_nonzero` with the window position of
`xcPos_eq`), and its decoding (`xcEnc_decodes`). -/
theorem exactCarryRoundTrip : Obligations.ExactCarryRoundTrip := by
  intro l
  refine ⟨fun flags => xcEnc_flagged flags, fun flags hx => ?_, fun p w flags hx split hp top => ?_, fun low high => ?_⟩
  · rw [xcEnc_zero flags hx, show l.flagBits = 0 from flags]
    rfl
  · have pos : xcPos l.x = p := xcPos_eq hx split hp top
    have form := xcEnc_nonzero flags hx (pos.symm ▸ split)
    refine ⟨fun hlow hhigh => ?_, fun outside => ?_⟩
    · rw [form, if_pos ⟨hlow, hhigh⟩, pos, show l.flagBits = 0 from flags, xc16, Nat.zero_add]
      rfl
    · rw [form, if_neg (by omega)]
      rfl
  · obtain ⟨length, decoded⟩ := xcEnc_decodes l low high
    refine ⟨length, fun flags => ?_, fun flags => ?_⟩
    · rw [decoded, if_neg (c := l.flagBits = 0) flags]
      rfl
    · rw [decoded, if_pos (c := l.flagBits = 0) flags]

end Sys2Proof.Machine

/-!
PROOFS. The collective packets steered to a cluster and the ends of a chunk instance (R168, R197, R203, R205, R207, R219,
R220, R236, R259, R566): one equation for each command, then the two obligations.
-/
namespace Sys2Proof.Machine

/-! ### Laws of the shared operations -/

/-- A command of a cluster that exists completes. -/
theorem onUnit_cluster {cl : Nat} (hcl : cl < Config.clusters) (s : State) :
    onUnit (decide (cl < Config.clusters)) s = .next s := by
  rw [onUnit, if_pos (decide_eq_true hcl)]

/-- The effect of a command that waits for a condition of the manual, by the condition as a proposition. -/
theorem when_eq_ite {c : Bool} {p : Prop} [Decidable p] (h : c = true ↔ p) (s u : State) :
    when_ c s u = if p then u else s := by
  simp only [when_, h]

/-! ### Tests 1 to 3P (R197, R566) -/

section Decide
variable {s : State} {cl : Nat} {x : Steered} {own : CEnv → State → State}

/-- While the part leaves P0 the packet is refused with POWER_STATE. -/
theorem State.decide13_asleep (shut : s.collOpen = false) : s.decide13 cl x own = s.powerRefuse cl x.pkt.hdr := by
  simp [State.decide13, shut]

variable (opens : s.collOpen = true)
include opens

/-- A packet whose slot the plan does not have is answered with INDEX_FAULT. -/
theorem State.decide13_unknown (unknown : s.pktEnv cl x.pkt.hdr = none) : s.decide13 cl x own =
    (s.count .unknownColl x.link 0).sendAnswer cl 2 (hPart x.pkt.hdr) (answerPkt s x.pkt.hdr stIndex) := by
  simp [State.decide13, opens, unknown]

variable {e : CEnv} (env : s.pktEnv cl x.pkt.hdr = some e)
include env

/-- A packet that fails a test, after the timer of its chunk is judged, is refused with the status of that test. -/
theorem State.decide13_refused {st : Nat} {why : Ctr} (fails : tests13 (s.timed e) e x.vc x.pkt = some (st, why)) :
    s.decide13 cl x own =
      (if why = .check ∧ x.bad = false then (s.timed e).checkInt else s.timed e).refuse e x.pkt.hdr st why := by
  simp [State.decide13, opens, env, fails]

/-- A packet that passes has the effect of the command. -/
theorem State.decide13_passed (passes : tests13 (s.timed e) e x.vc x.pkt = none) :
    s.decide13 cl x own = own e (s.timed e) := by
  simp [State.decide13, opens, env, passes]

end Decide

/-- An outcome that tests 1 to 3P decide is one of four: outside P0, an unknown slot, a refusal, the command's own effect. -/
theorem decide13_outcomes {o : Out State} {s : State} {cl : Nat} {x : Steered} {own : CEnv → State → State}
    (run : o = .next (s.decide13 cl x own)) :
    (s.collOpen = false → o = .next (s.powerRefuse cl x.pkt.hdr)) ∧
    (s.collOpen = true → s.pktEnv cl x.pkt.hdr = none → o = .next
      ((s.count .unknownColl x.link 0).sendAnswer cl 2 (hPart x.pkt.hdr) (answerPkt s x.pkt.hdr stIndex))) ∧
    (∀ e st why, s.collOpen = true → s.pktEnv cl x.pkt.hdr = some e → tests13 (s.timed e) e x.vc x.pkt = some (st, why) →
      o = .next ((if why = .check ∧ x.bad = false then (s.timed e).checkInt else s.timed e).refuse e x.pkt.hdr st why)) ∧
    (∀ e, s.collOpen = true → s.pktEnv cl x.pkt.hdr = some e → tests13 (s.timed e) e x.vc x.pkt = none →
      o = .next (own e (s.timed e))) :=
  ⟨fun shut => run.trans (congrArg _ (State.decide13_asleep shut)),
   fun opens unknown => run.trans (congrArg _ (State.decide13_unknown opens unknown)),
   fun _ _ _ opens env fails => run.trans (congrArg _ (State.decide13_refused opens env fails)),
   fun _ opens env passes => run.trans (congrArg _ (State.decide13_passed opens env passes))⟩

/-! ### CONTRIB_RX, RESULT_RELAY and CSTAT_MEMBER_RX -/

/-- What CONTRIB_RX takes: an ANSWER, or a collective packet that is neither a member's CSTAT nor a packet of PARENT. -/
def State.takesContrib (s : State) (cl : Nat) (y : Steered) : Bool :=
  decide (hKind y.pkt.hdr = 3) ||
    (isCollKind (hKind y.pkt.hdr) && decide (s.steeredRole cl y ≠ .child ∧ s.steeredRole cl y ≠ .relay))

/-- What RESULT_RELAY takes: a RESULT or CSTAT of PARENT. -/
def State.takesRelay (s : State) (cl : Nat) (y : Steered) : Bool :=
  decide (hKind y.pkt.hdr = 2 ∨ hKind y.pkt.hdr = 4) && decide (s.steeredRole cl y = .relay)

/-- What CSTAT_MEMBER_RX takes: a member's CSTAT. -/
def State.takesMember (s : State) (cl : Nat) (y : Steered) : Bool :=
  decide (hKind y.pkt.hdr = 4) && decide (s.steeredRole cl y = .child)

/-- The effect of a member's CSTAT that passes tests 1 to 3P: an instance that has ended counts as LATE, the current one
fails with ABORTED for want of the sender and of every contributor not complete (R220), and a later one is left alone (log
entry 29). -/
def State.memberAborts (u : State) (e : CEnv) (p : Packet) : State :=
  let c := u.ch e
  let i := hInst p.hdr
  let d := (i + 65536 - (u.curInst e.cfg e.slot c).getD i) % 65536
  if 0x8000 ≤ d ∨ c.ended.contains i = true then u.count .late e.slot e.cl
  else if d = 0 then u.fail e i (hEtag p.hdr) stAborted
    (some (missingMask (hContrib p.hdr :: (match c.recOf i with
      | none => List.range e.cfg.g | some r => r.lacking e.cfg.g))))
  else u

section Taken
variable {s s2 : State} {cl t : Nat} {x : Steered} (hcl : cl < Config.clusters)
include hcl

/-- An ANSWER to a partial of the cluster is taken without effect. -/
theorem execContribRx_answer (taken : (s.tick t).takeSteered cl ((s.tick t).takesContrib cl) = some (x, s2))
    (answer : hKind x.pkt.hdr = 3) : exec (.contribRx cl t) s = .next s2 := by
  unfold State.takesContrib at taken
  simp only [exec, execContribRx, onUnit_cluster hcl, taken, answer, if_true]

/-- Any other packet that CONTRIB_RX takes is decided, and one that passes goes through tests 4 to 9. -/
theorem execContribRx_decides (taken : (s.tick t).takeSteered cl ((s.tick t).takesContrib cl) = some (x, s2))
    (packet : hKind x.pkt.hdr ≠ 3) :
    exec (.contribRx cl t) s = .next (s2.decide13 cl x fun e u => u.contribTests e x.pkt) := by
  unfold State.takesContrib at taken
  simp only [exec, execContribRx, onUnit_cluster hcl, taken, packet, if_false]

/-- A packet of PARENT is decided, and one that passes is relayed (R219). -/
theorem execResultRelay_decides (taken : (s.tick t).takeSteered cl ((s.tick t).takesRelay cl) = some (x, s2)) :
    exec (.resultRelay cl t) s = .next (s2.decide13 cl x fun e u => u.relay e x.pkt) := by
  unfold State.takesRelay at taken
  simp only [exec, execResultRelay, onUnit_cluster hcl, taken]

/-- A member's CSTAT is decided, and one that passes aborts the current instance (R220). -/
theorem execCstatMemberRx_decides (taken : (s.tick t).takeSteered cl ((s.tick t).takesMember cl) = some (x, s2)) :
    exec (.cstatMemberRx cl t) s = .next (s2.decide13 cl x fun e u => u.memberAborts e x.pkt) := by
  unfold State.takesMember at taken
  simp only [exec, execCstatMemberRx, onUnit_cluster hcl, taken]
  rfl

end Taken

/-- Settles O19: each of the three commands takes its first packet and gives it to tests 1 to 3P (`execContribRx_decides`,
`execResultRelay_decides`, `execCstatMemberRx_decides`), whose four outcomes are `decide13_outcomes`. -/
theorem collectivePacketsAreDecided : Obligations.CollectivePacketsAreDecided := by
  intro s cl t x s2 hcl
  refine ⟨fun taken => ⟨fun answer => ?_, fun packet => ?_⟩, fun taken => ?_, fun taken => ?_⟩
  · exact execContribRx_answer hcl taken answer
  · exact decide13_outcomes (execContribRx_decides hcl taken packet)
  · exact decide13_outcomes (execResultRelay_decides hcl taken)
  · exact decide13_outcomes (execCstatMemberRx_decides hcl taken)

/-! ### CHUNK_TIMEOUT (R205) -/

section Timer
variable {s : State} {e : CEnv} {t0 : Nat} (timer : (s.ch e).timer = some t0)
include timer

/-- At its deadline the current instance fails with TIMEOUT, unless it is complete or has failed. -/
theorem State.chunkTimer_due {i : Nat} {r : Rec} (current : s.curInst e.cfg e.slot (s.ch e) = some i)
    (due : t0 + e.cfg.timeout ≤ s.now) (held : (s.ch e).recOf i = some r) (filling : r.st ≠ .complete)
    (sound : r.failed = none) : s.chunkTimer e = s.fail e i r.etag stTimeout none := by
  simp [State.chunkTimer, timer, current, due, held, filling, sound]

/-- Before its deadline the timer does nothing. -/
theorem State.chunkTimer_early (early : s.now < t0 + e.cfg.timeout) : s.chunkTimer e = s := by
  cases current : s.curInst e.cfg e.slot (s.ch e) with
  | none => simp [State.chunkTimer, timer, current]
  | some i => simp [State.chunkTimer, timer, current, Nat.not_le.2 early]

end Timer

/-- CHUNK_TIMEOUT judges the timer of a chunk that the plan has. -/
theorem execChunkTimeout_of_env {s : State} {cl slot h t : Nat} {e : CEnv} (hcl : cl < Config.clusters)
    (env : (s.tick t).chunkEnv cl slot h = some e) :
    exec (.chunkTimeout cl slot h t) s = .next ((s.tick t).chunkTimer e) := by
  simp only [exec, execChunkTimeout, onUnit_cluster hcl, env]

/-! ### The ends of the current instance -/

section Current
variable {s : State} {cl slot inst h t : Nat} {e : CEnv} {r : Rec} (hcl : cl < Config.clusters)
  (cur : (s.tick t).current cl slot inst h = some (e, r))
include hcl cur

/-- CSTAT_SEND ends a failed instance once none of its handlers runs (R207). -/
theorem execCstatSend_of_failed {st : Nat} (failed : r.failed = some st) :
    exec (.cstatSend cl slot inst h t) s = .next
      (if (s.tick t).running e inst = false then (s.tick t).fail e inst r.etag st none else s.tick t) := by
  simp only [exec, execCstatSend, onUnit_cluster hcl, cur, failed]
  exact congrArg _ (when_eq_ite (by simp) _ _)

/-- CSTAT_SEND leaves alone an instance that has not failed. -/
theorem execCstatSend_of_sound (sound : r.failed = none) :
    exec (.cstatSend cl slot inst h t) s = .next (s.tick t) := by
  simp only [exec, execCstatSend, onUnit_cluster hcl, cur, sound]

/-- CHUNK_OUTPUT_FLUSH sends what is left of a complete instance once every context has retired and every slice is handled;
a fused instance and a barrier without a program have other results (R168). -/
theorem execChunkOutputFlush_of_current :
    exec (.chunkOutputFlush cl slot inst h t) s = .next
      (if r.st = .complete ∧ r.failed = none ∧ r.flushed = false ∧ e.cfg.fused = false ∧ e.plainBarrier = false ∧
          (s.tick t).allRetired e inst = true ∧ (s.tick t).decoded ⟨slot, inst, h⟩ = true ∧
          (s.tick t).drained e inst = true
        then (s.tick t).flush e r else s.tick t) := by
  simp only [exec, execChunkOutputFlush, onUnit_cluster hcl, cur]
  exact congrArg _ (when_eq_ite (by simp [and_assoc]) _ _)

/-- CHUNK_END ends a complete instance whose results have left; a sparse one writes its records first (R203, R259). -/
theorem execChunkEnd_of_current :
    exec (.chunkEnd cl slot inst h t) s = .next
      (if r.st = .complete ∧ r.failed = none ∧ r.flushed = true ∧ (s.tick t).allRetired e inst = true ∧
          (s.tick t).packetWaits e inst = false
        then ((if e.cfg.isSparse then (s.tick t).flagWrite e r else s.tick t).endOk e r).settled e else s.tick t) := by
  simp only [exec, execChunkEnd, onUnit_cluster hcl, cur]
  exact congrArg _ (when_eq_ite (by simp [and_assoc]) _ _)

/-- Q_PARTIAL_TIMEOUT fails a complete fused instance that lacks a peer's partial at its deadline (R236). -/
theorem execQPartialTimeout_of_current :
    exec (.qPartialTimeout cl slot inst h t) s = .next
      (if e.cfg.fused = true ∧ r.st = .complete ∧ r.failed = none ∧ r.flushed = false ∧
          (∃ x ∈ e.peers, ((s.tick t).ch e).parts.find (inst, x.2) = none) ∧ r.doneT + e.cfg.timeout ≤ (s.tick t).now
        then (s.tick t).fail e inst r.etag stTimeout (some 0) else s.tick t) := by
  simp only [exec, execQPartialTimeout, onUnit_cluster hcl, cur]
  exact congrArg _ (when_eq_ite (by simp only [Bool.and_eq_true, decide_eq_true_eq, Option.isNone_iff_eq_none,
    Bool.not_eq_true', List.any_eq_true, and_assoc]) _ _)

end Current

/-- Settles O20: the timer's two outcomes (`chunkTimer_due`, `chunkTimer_early`), and for a current instance the equation of
each command at the condition that the clause gives. -/
theorem chunkInstancesEnd : Obligations.ChunkInstancesEnd := by
  intro s cl slot inst h t e r hcl
  refine ⟨fun env => ⟨?due, ?early⟩, fun cur => ⟨?failed, ?leftAlone, ?flush, ?ended, ?partialLate⟩⟩
  case due =>
    intro t0 i timer current due held filling sound
    exact (execChunkTimeout_of_env hcl env).trans
      (congrArg _ (State.chunkTimer_due timer current due held filling sound))
  case early =>
    intro t0 timer early
    exact (execChunkTimeout_of_env hcl env).trans (congrArg _ (State.chunkTimer_early timer early))
  case failed =>
    intro st failed idle
    rw [execCstatSend_of_failed hcl cur failed, if_pos idle]
  case leftAlone =>
    intro why
    cases failed : r.failed with
    | none => exact execCstatSend_of_sound hcl cur failed
    | some st =>
      have runs := why.resolve_left (by simp [failed])
      rw [execCstatSend_of_failed hcl cur failed, if_neg (by simp [runs])]
  case flush =>
    intro complete sound unflushed plain program retired decoded drained
    rw [execChunkOutputFlush_of_current hcl cur,
      if_pos ⟨complete, sound, unflushed, plain, program, retired, decoded, drained⟩]
  case ended =>
    intro complete sound flushed retired left
    rw [execChunkEnd_of_current hcl cur, if_pos ⟨complete, sound, flushed, retired, left⟩]
  case partialLate =>
    intro complete sound unflushed fused lacks late
    exact (execQPartialTimeout_of_current hcl cur).trans
      (congrArg _ (if_pos ⟨fused, complete, sound, unflushed, lacks, late⟩))

end Sys2Proof.Machine

/-!
The bridge-set messages of a fused set (R234, R235): one equation for each of the two commands, then the obligation.
-/
namespace Sys2Proof.Machine

/-! ### Laws of the chunk -/

/-- The state of a chunk just written. -/
@[simp] theorem State.ch_setCh (s : State) (e : CEnv) (c : ChunkSt) : (s.setCh e c).ch e = c := State.chunk_setChunk ..

/-- Neither a chunk written nor the partials held there decide which instance is current. -/
@[simp] theorem State.curInst_setCh_parts (s : State) (e : CEnv) (c d : ChunkSt) (ps : AMap (Nat × Nat) Lane) (cfg : SlotCfg)
    (slot : Nat) : (s.setCh e c).curInst cfg slot { d with parts := ps } = s.curInst cfg slot d := rfl

/-- The epoch tag of an instance that a side abort ends: that of its record, or the active plan's where it has none. -/
def State.sideTag (s : State) (c : ChunkSt) (inst : Nat) : Nat :=
  match c.recOf inst with
  | none => s.activeTag
  | some r => r.etag

/-- The chunk with a peer's partial of Q kept. -/
def State.keepPart (s : State) (e : CEnv) (m : SideMsg) (p : Lane) : State :=
  s.setCh e { s.ch e with parts := (s.ch e).parts.put (m.inst, m.chunk) p }

/-- How far a message's instance lies beyond the current one, modulo 2^16 (R201). -/
def SideMsg.ahead (m : SideMsg) (i : Nat) : Nat := (m.inst + 65536 - i) % 65536

/-! ### Q_PARTIAL_RX and SIDE_ABORT_RX -/

section Taken
variable {s s2 : State} {cl t i : Nat} {m : SideMsg} {e : CEnv} (hcl : cl < Config.clusters)
  (env : s2.sideEnv cl m = some e) (current : s2.curInst e.cfg e.slot (s2.ch e) = some i)
include hcl env current

/-- A partial of an instance behind the current one is dropped; any other is kept, and one of the current instance may
complete the set (R234). -/
theorem execQPartialRx_of_env {p : Lane} (taken : (s.tick t).takeSide cl (fun x => x.part.isSome) = some (m, s2))
    (part : m.part = some p) : exec (.qPartialRx cl t) s = .next
      (if 0x8000 ≤ m.ahead i then s2
       else if i = m.inst then ((s2.keepPart e m p).fusedSend e m.inst).settled e
       else s2.keepPart e m p) := by
  simp [exec, execQPartialRx, onUnit_cluster hcl, taken, env, part, current, SideMsg.ahead, State.keepPart]
  rfl

/-- A side abort of an ended instance is dropped; one of the current instance, or of a complete one that waits behind it,
fails it; one of a later instance is kept once (R235). -/
theorem execSideAbortRx_of_env (taken : (s.tick t).takeSide cl (fun x => x.part.isNone) = some (m, s2)) :
    exec (.sideAbortRx cl t) s = .next
      (if 0x8000 ≤ m.ahead i ∨ (s2.ch e).ended.contains m.inst = true then s2
       else if m.ahead i = 0 ∨ (∃ r, (s2.ch e).recOf m.inst = some r ∧ r.st = .waiting) then
         s2.fail e m.inst (s2.sideTag (s2.ch e) m.inst) stAborted none
       else if (s2.ch e).kept.contains m.inst = true then s2
       else s2.setCh e { s2.ch e with kept := (s2.ch e).kept ++ [m.inst] }) := by
  simp only [exec, execSideAbortRx, onUnit_cluster hcl, taken, env, current, Option.any_eq_true, decide_eq_true_eq,
    SideMsg.ahead]
  rfl

end Taken

/-- Settles O21: each clause is one branch of the equation of its command (`execQPartialRx_of_env`,
`execSideAbortRx_of_env`). -/
theorem fusedSetMessages : Obligations.FusedSetMessages := by
  intro s cl t m s2 e i hcl c d env current
  have notDropped (near : d < 0x8000) (live : c.ended.contains m.inst = false) :
      ¬(0x8000 ≤ d ∨ c.ended.contains m.inst = true) :=
    not_or.2 ⟨Nat.not_le.2 near, Bool.eq_false_iff.1 live⟩
  refine ⟨fun p taken part => ⟨fun past => ?past, fun near other => ?later, fun near now _ => ?now⟩,
    fun taken => ⟨fun gone => ?gone, fun near live fails => ?fails, fun later near live free unkept => ?kept⟩⟩
  case past => exact (execQPartialRx_of_env hcl env current taken part).trans (congrArg _ (if_pos past))
  case later =>
    exact (execQPartialRx_of_env hcl env current taken part).trans
      (congrArg _ ((if_neg (Nat.not_le.2 near)).trans (if_neg (Ne.symm other))))
  case now =>
    exact (execQPartialRx_of_env hcl env current taken part).trans
      (congrArg _ ((if_neg (Nat.not_le.2 near)).trans (if_pos now.symm)))
  case gone => exact (execSideAbortRx_of_env hcl env current taken).trans (congrArg _ (if_pos gone))
  case fails =>
    exact (execSideAbortRx_of_env hcl env current taken).trans
      (congrArg _ ((if_neg (notDropped near live)).trans (if_pos fails)))
  case kept =>
    have notNow : ¬(d = 0 ∨ ∃ r, c.recOf m.inst = some r ∧ r.st = .waiting) := by simp [free, Nat.pos_iff_ne_zero.1 later]
    exact (execSideAbortRx_of_env hcl env current taken).trans (congrArg _ ((if_neg (notDropped near live)).trans
      ((if_neg notNow).trans (if_neg (Bool.eq_false_iff.1 unkept)))))

end Sys2Proof.Machine

/-!
TBARRIER_RELEASE, DIRECT_ACCUMULATE and SPARSE_RUN_DECODE (R230, R246, R269). The statement about the three is refuted by
a state whose next buffer id is that of a packet already buffered; what stands of it is proved first: the release wherever
buffer ids are fresh, the two other commands everywhere.
-/
namespace Sys2Proof.Machine

/-! ### Buffered packets by label -/

/-- What of a buffered packet no request that begins changes: its id, the packet, its VC and its account. -/
def BufPkt.label (b : BufPkt) : Nat × Packet × Nat × Acct := (b.id, b.pkt, b.vc, b.acct)

/-- The labels of the packet buffer, oldest first. -/
def State.labels (s : State) : List (Nat × Packet × Nat × Acct) := s.sw.buf.map BufPkt.label

/-- Buffer ids are fresh: no two packets share one, and the next id is beyond them all. -/
def State.FreshIds (s : State) : Prop := (s.labels.map (·.1)).Nodup ∧ ∀ x ∈ s.labels, x.1 < s.sw.id

/-- The links, the time and the next buffer id. -/
def State.apart (s : State) : AMap Nat Link × TimeSt × Nat := (s.links, s.time, s.sw.id)

/-- The labels without their ids. -/
theorem State.labels_snd (s : State) : s.labels.map (·.2) = s.sw.buf.map fun b => (b.pkt, b.vc, b.acct) :=
  List.map_map

/-- Where no two labels share an id, an id names one label. -/
theorem label_unique {ls : List (Nat × Packet × Nat × Acct)} (fresh : (ls.map (·.1)).Nodup)
    {x y : Nat × Packet × Nat × Acct} (hx : x ∈ ls) (hy : y ∈ ls) (id : x.1 = y.1) : x = y := by
  induction ls with
  | nil => exact absurd hx List.not_mem_nil
  | cons a ls ih =>
    obtain ⟨first, rest⟩ := List.nodup_cons.1 fresh
    obtain rfl | xIn := List.mem_cons.1 hx
    · obtain rfl | yIn := List.mem_cons.1 hy
      · rfl
      · exact absurd (List.mem_map.2 ⟨y, yIn, id.symm⟩) first
    · obtain rfl | yIn := List.mem_cons.1 hy
      · exact absurd (List.mem_map.2 ⟨x, xIn, id⟩) first
      · exact ih rest xIn yIn

/-- A packet replaced by one with the label of every packet that has its id. -/
theorem modWhere_labels {buf : List BufPkt} {b : BufPkt} (same : ∀ x ∈ buf, x.id = b.id → b.label = x.label) :
    (modWhere (fun x : BufPkt => decide (x.id = b.id)) (fun _ => b) buf).map BufPkt.label = buf.map BufPkt.label := by
  rw [modWhere, List.map_map]
  refine List.map_congr_left fun x hx => ?_
  by_cases h : x.id = b.id
  · simp [h, same x hx h]
  · simp [h]

/-! ### A packet put into the buffer -/

/-- Standing requests are those of buffered packets. -/
theorem State.heads_mem (s : State) (l v : Nat) : ∀ r ∈ s.heads l v, r.1 ∈ s.sw.buf := by
  refine List.foldlRecOn (motive := fun rs : List (BufPkt × Nat) => ∀ r ∈ rs, r.1 ∈ s.sw.buf) _ _ (by simp) ?_
  intro rs ih b hb
  split
  · exact ih
  · split
    · exact ih
    · intro r hr
      obtain hr | rfl := by simpa using hr
      · exact ih r hr
      · exact hb

/-- Requests that begin keep the labels where no two packets share an id. -/
theorem State.beginRequests_labels {s : State} (fresh : (s.labels.map (·.1)).Nodup) (l v : Nat) :
    (s.beginRequests l v).labels = s.labels := by
  refine List.foldlRecOn (motive := fun u : State => u.labels = s.labels) _ _ rfl ?_
  intro u ih r hr
  refine (modWhere_labels fun x hx id => ?_).trans ih
  have headed : r.1.label ∈ s.labels := List.mem_map_of_mem (s.heads_mem l v r hr)
  have held : x.label ∈ s.labels := ih ▸ List.mem_map_of_mem hx
  exact label_unique fresh headed held id.symm

@[simp] theorem State.beginRequests_apart (s : State) (l v : Nat) : (s.beginRequests l v).apart = s.apart :=
  List.foldlRecOn (motive := fun u : State => u.apart = s.apart) _ _ rfl fun _ ih _ _ => ih

@[simp] theorem State.noteDepth_labels (s : State) (l v : Nat) : (s.noteDepth l v).labels = s.labels := by
  unfold State.noteDepth
  dsimp only
  split <;> rfl

@[simp] theorem State.noteDepth_apart (s : State) (l v : Nat) : (s.noteDepth l v).apart = s.apart := by
  unfold State.noteDepth
  dsimp only
  split <;> rfl

@[simp] theorem State.releaseLate_labels (s : State) (h : BitVec 256) : (s.releaseLate h).labels = s.labels := by
  unfold State.releaseLate
  split
  · rfl
  · split <;> rfl

@[simp] theorem State.releaseLate_apart (s : State) (h : BitVec 256) : (s.releaseLate h).apart = s.apart := by
  unfold State.releaseLate
  split
  · rfl
  · split <;> rfl

/-- The part after reset buffers no packet. -/
theorem freshIds_reset : State.reset.FreshIds := ⟨List.nodup_nil, nofun⟩

/-- Ids stay fresh where labels and the next id do. -/
theorem State.freshIds_congr {s u : State} (labels : u.labels = s.labels) (apart : u.apart = s.apart) :
    u.FreshIds ↔ s.FreshIds := by
  have id : u.sw.id = s.sw.id := congrArg (·.2.2) apart
  rw [State.FreshIds, State.FreshIds, labels, id]

/-- A packet put into a buffer of fresh ids: it comes last under the next id, the ids stay fresh, and links and time are
left alone. -/
theorem State.putBuf_fresh {s : State} (fresh : s.FreshIds) (b : BufPkt) :
    (s.putBuf b).labels = s.labels ++ [(s.sw.id, b.pkt, b.vc, b.acct)] ∧ (s.putBuf b).FreshIds ∧
      (s.putBuf b).apart = (s.links, s.time, s.sw.id + 1) := by
  obtain ⟨distinct, below⟩ := fresh
  let u : State := { s with sw := { s.sw with buf := s.sw.buf ++ [{ b with id := s.sw.id }], id := s.sw.id + 1 } }
  have labels : u.labels = s.labels ++ [(s.sw.id, b.pkt, b.vc, b.acct)] := by simp [State.labels, u, BufPkt.label]
  have fresh : u.FreshIds := by
    rw [State.FreshIds, labels]
    constructor
    · rw [List.map_append, List.nodup_append]
      refine ⟨distinct, List.nodup_cons.2 ⟨List.not_mem_nil, List.nodup_nil⟩, fun i hi j hj => ?_⟩
      obtain ⟨x, hx, rfl⟩ := List.mem_map.1 hi
      obtain rfl : j = s.sw.id := by simpa using hj
      exact Nat.ne_of_lt (below x hx)
    · intro x hx
      obtain hx | rfl := by simpa using hx
      · exact Nat.lt_succ_of_lt (below x hx)
      · exact Nat.lt_succ_self _
  have kept : (s.putBuf b).labels = u.labels ∧ (s.putBuf b).apart = u.apart := by
    refine List.foldlRecOn (motive := fun w : State => w.labels = u.labels ∧ w.apart = u.apart) _ _ ⟨rfl, rfl⟩ ?_
    rintro w ⟨hl, ha⟩ k -
    have distinct := ((State.freshIds_congr hl ha).2 fresh).1
    exact ⟨by simp [State.beginRequests_labels distinct, hl], by simp [ha]⟩
  exact ⟨kept.1.trans labels, (State.freshIds_congr kept.1 kept.2).2 fresh, kept.2⟩

/-! ### TBARRIER_RELEASE (R246) -/

/-- A held result due at a reading of FT: every one is while FT is UNSET. -/
def State.holdDue (s : State) (x : Nat × Packet) : Bool := decide (s.ftSet = false ∨ x.1 ≤ s.ftNow)

/-- A held result of a link as a buffered packet: it goes on VC1 of that link. -/
def State.heldBuf (s : State) (l : Nat) (x : Nat × Packet) : BufPkt :=
  let n := flitsOf x.2.payload.length
  { id := 0, pkt := x.2, vc := 1, acct := .cluster (9 * dieOfLink l), die := dieOfLink l, at_ := s.now,
    got := n, flits := n, copies := [{ link := l, vc := 1, hdr := x.2.hdr, since := s.now }] }

/-- A held result put into the packet buffer, counted as late while FT is UNSET. -/
def State.releaseHeld (s : State) (l : Nat) (x : Nat × Packet) : State :=
  let s := if s.ftSet then s else s.releaseLate x.2.hdr
  s.putBuf (s.heldBuf l x)

/-- TBARRIER_RELEASE takes what is due out of the hold and puts it into the packet buffer. -/
theorem execTbarrierRelease_releases {s : State} {l t : Nat} (hl : l < Config.links) :
    let s1 := s.tick t
    let k := s1.link l
    exec (.tbarrierRelease l t) s = .next ((k.hold.filter s1.holdDue).foldl (fun u x => u.releaseHeld l x)
      (s1.setLink l { k with hold := k.hold.filter fun x => !s1.holdDue x })) := by
  rw [exec, execTbarrierRelease, onUnit, if_pos (decide_eq_true hl)]
  rfl

/-- Results released one after another into a buffer of fresh ids come last in their order; the links are left alone. -/
theorem State.releaseHeld_foldl (l : Nat) (xs : List (Nat × Packet)) {s : State} (fresh : s.FreshIds) :
    let u := xs.foldl (fun u x => u.releaseHeld l x) s
    u.links = s.links ∧ u.labels.map (·.2) = s.labels.map (·.2) ++ xs.map fun x => (x.2, 1, Acct.cluster (9 * dieOfLink l)) := by
  induction xs generalizing s with
  | nil => simp
  | cons x xs ih =>
    let w := if s.ftSet then s else s.releaseLate x.2.hdr
    have labels : w.labels = s.labels := by simp only [w]; split <;> simp
    have apart : w.apart = s.apart := by simp only [w]; split <;> simp
    obtain ⟨put, freshPut, apartPut⟩ :=
      State.putBuf_fresh ((State.freshIds_congr labels apart).2 fresh) (w.heldBuf l x)
    obtain ⟨links, rest⟩ := ih freshPut
    refine ⟨links.trans ((congrArg (·.1) apartPut).trans (congrArg (·.1) apart)), rest.trans ?_⟩
    rw [put, labels]
    simp [State.heldBuf]

/-- Where buffer ids are fresh, TBARRIER_RELEASE keeps the results that are not due and puts the others into the packet
buffer, in order (R246). -/
theorem tbarrierRelease_of_freshIds {s : State} (fresh : s.FreshIds) {l t : Nat} (hl : l < Config.links) :
    let s1 := s.tick t
    let k := s1.link l
    ∃ u, exec (.tbarrierRelease l t) s = .next u ∧ (u.link l).hold = k.hold.filter (fun x => !s1.holdDue x) ∧
      u.sw.buf.map (fun b => (b.pkt, b.vc, b.acct)) = s1.sw.buf.map (fun b => (b.pkt, b.vc, b.acct)) ++
        (k.hold.filter s1.holdDue).map fun x => (x.2, 1, Acct.cluster (9 * dieOfLink l)) := by
  intro s1 k
  let s2 := s1.setLink l { k with hold := k.hold.filter fun x => !s1.holdDue x }
  obtain ⟨links, labels⟩ := State.releaseHeld_foldl l (k.hold.filter s1.holdDue) (s := s2) fresh
  rw [State.labels_snd, State.labels_snd] at labels
  refine ⟨_, execTbarrierRelease_releases hl, ?_, labels⟩
  rw [State.link, links]
  exact congrArg Link.hold (State.link_setLink s1 l _)

/-! ### DIRECT_ACCUMULATE (R230) and SPARSE_RUN_DECODE (R269) -/

/-- A slice is first in the ring of an idle core, for a context whose INIT is done, without a fault, of an instance that
has not failed, in a chunk that accumulates without a handler. -/
structure State.DirectReady (s : State) (g : Nat) (sl : Slice) (rest : List Slice) (x : Ctx) (e : CEnv) (r : Rec) : Prop where
  ring : (s.core g).ring = sl :: rest
  idle : (s.core g).run = none
  ctx : (s.core g).ctx sl.ctx = some x
  env : s.cenv (clusterOf g) sl.ctx.slot sl.ctx.chunk x.etag = some e
  direct : e.cfg.direct = true
  initDone : x.initDone = true
  sound : x.status = 0
  held : (s.ch e).recOf sl.ctx.inst = some r
  live : r.failed = none

/-- Such a slice enters the lanes of its context, which is parked; one that ends within an XC element is a LENGTH fault. -/
theorem execDirectAccumulate_of_ready {s : State} {g : Nat} {sl : Slice} {rest : List Slice} {x : Ctx} {e : CEnv} {r : Rec}
    (hg : g < Config.cores) (ready : s.DirectReady g sl rest x e r) :
    let c := Core.parkAll { s.core g with ring := rest }
    let y := (c.ctx sl.ctx).getD x
    let fs := sliceAddends e.cfg sl.data
    let u := (s.parkOut g).setCore g (c.putCtx { y with xs := addLanes y.xs fs.1 })
    exec (.directAccumulate g) s = .next ((if fs.2 then u else u.faultAt g sl.ctx stLength).settled e) := by
  obtain ⟨ring, idle, ctx, env, direct, initDone, sound, held, live⟩ := ready
  simp only [exec, execDirectAccumulate, onUnit, hg, ring, idle, ctx, env, direct, initDone, sound, held, live,
    decide_true, Option.isNone_none, Bool.and_self, if_true]

/-- The first run queued at a core. -/
def State.runTaken (s : State) (g : Nat) (rest : List SRun) : State :=
  { s with coll := { s.coll with runs := s.coll.runs.put g rest } }

section Decode
variable {s : State} {g : Nat} {q : SRun} {rest : List SRun} (hg : g < Config.cores) (queued : s.coll.runs.at g [] = q :: rest)
include hg queued

/-- A run of an instance without a record is removed. -/
theorem execSparseRunDecode_of_no_record (gone : (s.chunk (clusterOf g) q.ctx.slot q.ctx.chunk).recOf q.ctx.inst = none) :
    exec (.sparseRunDecode g) s = .next (s.runTaken g rest) := by
  have gone : ((s.runTaken g rest).chunk (clusterOf g) q.ctx.slot q.ctx.chunk).recOf q.ctx.inst = none := gone
  unfold State.runTaken at gone ⊢
  simp only [exec, execSparseRunDecode, onUnit, hg, queued, gone, decide_true, if_true]

/-- The entries of a run are added to its record, one after another. -/
theorem execSparseRunDecode_of_record {r : Rec} {e : CEnv}
    (held : (s.chunk (clusterOf g) q.ctx.slot q.ctx.chunk).recOf q.ctx.inst = some r)
    (env : s.cenv (clusterOf g) q.ctx.slot q.ctx.chunk r.etag = some e) :
    exec (.sparseRunDecode g) s = .next ((s.runTaken g rest).setCh e
      ((s.chunk (clusterOf g) q.ctx.slot q.ctx.chunk).putRec
        { r with sparse := q.ents.foldl (fun sp x => sp.entry e.cfg q.contrib q.tile x) r.sparse })) := by
  have held : ((s.runTaken g rest).chunk (clusterOf g) q.ctx.slot q.ctx.chunk).recOf q.ctx.inst = some r := held
  have env : (s.runTaken g rest).cenv (clusterOf g) q.ctx.slot q.ctx.chunk r.etag = some e := env
  unfold State.runTaken at held env ⊢
  simp only [exec, execSparseRunDecode, onUnit, hg, queued, held, env, decide_true, if_true]
  rfl

end Decode

/-! ### The obligation -/

/-- A part whose link 0 holds one result that is due, and whose buffer has one packet, under the id that is next. -/
def clashingIds : State :=
  { State.reset with
    time := { State.reset.time with st := .locked }
    links := [(0, { hold := [(0, { hdr := 0, payload := [] })] })]
    sw := { buf := [{ id := 0, pkt := { hdr := 1, payload := [] }, vc := 1, acct := .mp, die := 0, at_ := 0, got := 1,
                      flits := 1, copies := [] }], id := 0 } }

/-- Refutes O22: where the next buffer id is that of a packet already buffered, the request that begins for a released
result is stamped on both packets, and the older one is lost (`clashingIds`). Where buffer ids are fresh the release is as
stated (`tbarrierRelease_of_freshIds`), and the other two commands are everywhere (`execDirectAccumulate_of_ready`,
`execSparseRunDecode_of_record`, `execSparseRunDecode_of_no_record`). -/
theorem not_holdsAndDirectAccumulation : ¬ Obligations.HoldsAndDirectAccumulation := by
  intro h
  obtain ⟨u, run, -, buffered⟩ := (h clashingIds).1 0 0 (by decide)
  rw [execTbarrierRelease_releases (by decide)] at run
  cases run
  exact absurd (buffered (by decide)) (by decide)

end Sys2Proof.Machine

/-!
PROOFS. Admission of the first memory request steered to a cluster (R273, R278, R292, R304, R306, R323): what a pass of
admission does, which command decides which request, and the obligation.
-/
namespace Sys2Proof.Machine

/-! ### The request and its tests -/

/-- A request belongs to the cluster it was steered to. -/
theorem State.cl_of_takeReq {s s2 : State} {cl : Nat} {mop : Nat → Bool} {q : MReq}
    (taken : s.takeReq cl mop = some (q, s2)) : q.cl = cl := by
  obtain ⟨x, -, rfl, -⟩ := by simpa [State.takeReq] using taken
  rfl

/-- A request that passes Table MEM-8 passes every test of what it addresses. -/
theorem addressTests_of_memTests {s : State} {q : MReq} {a : Target} (passes : memTests s q = .inr a) :
    ∃ sig, ∀ x ∈ addressTests s q a sig, x.1 = false := by
  unfold memTests at passes
  dsimp only at passes
  repeat' split at passes
  all_goals cases passes
  have noneFails := List.find?_eq_none.1 ‹List.find? _ _ = none›
  exact ⟨_, fun x mem => eq_false_of_ne_true (noneFails x (List.mem_append_left _ mem))⟩

/-- Only a READ passes at a dense-view window (R273). -/
theorem hMop_of_memTests_window {s : State} {q : MReq} {i : Nat} {w : BitVec 256}
    (passes : memTests s q = .inr (.window i w)) : hMop q.hdr = 0 := by
  obtain ⟨sig, pass⟩ := addressTests_of_memTests passes
  have rights := pass (_, stDenied) (.tail _ (.tail _ (.tail _ (.head _))))
  exact Decidable.not_not.1 (of_decide_eq_false (Bool.or_eq_false_iff.1 rights).1)

/-! ### One pass of admission (R26, R292, R306, R483) -/

section Decide
variable {s : State} {q : MReq} {ups : List (Nat × Nat)} {own : Target → State → State}

/-- While the part leaves P0 the request is refused with POWER_STATE. -/
theorem State.decideMem_asleep (shut : (s.msgTimers q.cl).memOpen = false) :
    s.decideMem q ups own = (s.msgTimers q.cl).refuseMem q.cl q.hdr 0x72 := by
  simp [State.decideMem, shut]

variable (opens : (s.msgTimers q.cl).memOpen = true)
include opens

/-- A request that fails a test is refused with its status, which a live message records. -/
theorem State.decideMem_refused {st : Nat} (fails : memTests (s.msgTimers q.cl) q = .inl st) :
    s.decideMem q ups own =
      ((if hCheck q.hdr ≠ checkOf q.pay ∧ q.bad = false then (s.msgTimers q.cl).checkInt
        else s.msgTimers q.cl).noteMsg q st).refuseMem q.cl q.hdr st := by
  simp [State.decideMem, opens, fails]

/-- A request that passes has the effect of its row, after the errors that its reads find. -/
theorem State.decideMem_passed {a : Target} (passes : memTests (s.msgTimers q.cl) q = .inr a) :
    s.decideMem q ups own = own a ((s.msgTimers q.cl).readErrors q a ups) := by
  simp [State.decideMem, opens, passes]

end Decide

/-- An outcome that admission decides is one of three: outside P0 and P1, a refusal, the row's own effect. -/
theorem decideMem_outcomes {o : Out State} {s : State} {cl : Nat} {q : MReq} {ups : List (Nat × Nat)}
    {own : Target → State → State} (hq : q.cl = cl) (run : o = .next (s.decideMem q ups own)) :
    let u := s.msgTimers cl
    (u.memOpen = false → o = .next (u.refuseMem cl q.hdr 0x72)) ∧
    (∀ st, u.memOpen = true → memTests u q = .inl st → o = .next
      (((if hCheck q.hdr ≠ checkOf q.pay ∧ q.bad = false then u.checkInt else u).noteMsg q st).refuseMem cl q.hdr st)) ∧
    (∀ a, u.memOpen = true → memTests u q = .inr a → o = .next (own a (u.readErrors q a ups))) := by
  subst hq
  exact ⟨fun shut => run.trans (congrArg _ (State.decideMem_asleep shut)),
    fun _ opens fails => run.trans (congrArg _ (State.decideMem_refused opens fails)),
    fun _ opens passes => run.trans (congrArg _ (State.decideMem_passed opens passes))⟩

/-! ### The effects of the rows

Each is the effect on a request that has passed, by the region it is in. No row but READ has one at a window. -/

/-- An effect in a region: entry and descriptor. -/
def Target.inRegion (f : Nat → BitVec 256 → State → State) (a : Target) (v : State) : State :=
  match a with
  | .region e r => f e r v
  | .window _ _ => v

/-- Admission by a row without an effect at windows. -/
theorem State.decideMem_inRegion {s : State} {q : MReq} {ups : List (Nat × Nat)} {own : Target → State → State}
    {f : Nat → BitVec 256 → State → State} (window : ∀ i w v, own (.window i w) v = v)
    (region : ∀ e r v, own (.region e r) v = f e r v) :
    s.decideMem q ups own = s.decideMem q ups (Target.inRegion f) := by
  have same : own = Target.inRegion f := by
    funext a v
    cases a with
    | region e r => exact region e r v
    | window i w => exact window i w v
  rw [same]

/-- READ: the lanes of an XACC region, stored bytes, or the elements of a dense view. -/
def State.readAt (q : MReq) (a : Target) (v : State) : State :=
  match a with
  | .region _ r => if reType r = 1 then v.xaccRead q r else v.plainRead q
  | .window i w => v.viewRead q i w

/-- WRITE: lanes are set in an XACC region, and bytes in any other. -/
def State.writeIn (cl : Nat) (q : MReq) (e : Nat) (r : BitVec 256) (v : State) : State :=
  let v := v.count .writes cl 0
  if reType r = 1 then (v.xaccWrite cl r (elem0 r q.hdr) q.pay).respond cl q.hdr 0 []
  else
    let x := v.dramPut cl q.addr q.pay
    x.1.settleWrite cl e r (v.changed q.addr (hMlen q.hdr)) (mrsp x.1 q.hdr (if x.2 then 0 else stCheck) (hPkt q.hdr) false none [])

/-- WRITE_SIGNAL: a packet of a message, its bytes written. -/
def State.writeSignalIn (cl : Nat) (q : MReq) (e : Nat) (r : BitVec 256) (v : State) : State :=
  let x := (v.count .writes cl 0).dramPut cl q.addr q.data
  x.1.absorbMsg q e r x.2 (v.changed q.addr (hMlen q.hdr))

/-- ATOMIC: the new value is written and the old one answered, unless the granule fails its check. -/
def State.atomicIn (cl : Nat) (q : MReq) (e : Nat) (r : BitVec 256) (v : State) : State :=
  let v := v.count .atomics cl 0
  let n := hMlen q.hdr
  let old := leAt (v.dramGet q.addr n) 0 n
  if v.badGran (q.addr / 64) then (v.eccUncorr cl 1).respond cl q.hdr stCheck []
  else
    let w := (v.dramPut cl q.addr (toLE n (atomicOp (hAop q.hdr) n old (leAt q.pay 0 8) (leAt q.pay 8 8)))).1
    w.settleWrite cl e r [q.addr / 64] (mrsp w q.hdr 0 (hPkt q.hdr) false none (toLE 8 old))

/-- The lanes that an ACCUM or ACCUM_SIGNAL adds to, and whether each passed its check. -/
def State.accumIn (cl : Nat) (q : MReq) (r : BitVec 256) (v : State) : State × Bool :=
  (v.count .accums cl 0).accumulate cl r (elem0 r q.hdr) (accumAddends (hFmt q.hdr) q.data)

/-! ### The commands -/

section Taken
variable {s s2 : State} {cl t : Nat} {ups : List (Nat × Nat)} {q : MReq} (hcl : cl < Config.clusters)
include hcl

/-- READ decides the first request of a READ or of a reserved MOP. -/
theorem execRead_decides (taken : (s.tick t).takeReq cl (fun m => decide (m = 0 ∨ 5 < m)) = some (q, s2)) :
    exec (.read cl ⟨t, ups⟩) s = .next (s2.decideMem q ups (State.readAt q)) := by
  simp only [exec, execRead, onUnit_cluster hcl, taken]
  rfl

/-- WRITE decides the first WRITE. -/
theorem execWrite_decides (taken : (s.tick t).takeReq cl (fun m => decide (m = 1)) = some (q, s2)) :
    exec (.write cl ⟨t, ups⟩) s = .next (s2.decideMem q ups (Target.inRegion (State.writeIn cl q))) := by
  simp only [exec, execWrite, onUnit_cluster hcl, taken]
  exact congrArg _ (State.decideMem_inRegion (fun _ _ _ => rfl) fun _ _ _ => rfl)

/-- WRITE_SIGNAL decides the first packet of a WRITE_SIGNAL. -/
theorem execWriteSignal_decides (taken : (s.tick t).takeReq cl (fun m => decide (m = 2)) = some (q, s2)) :
    exec (.writeSignal cl ⟨t, ups⟩) s = .next (s2.decideMem q ups (Target.inRegion (State.writeSignalIn cl q))) := by
  simp only [exec, execWriteSignal, onUnit_cluster hcl, taken]
  exact congrArg _ (State.decideMem_inRegion (fun _ _ _ => rfl) fun _ _ _ => rfl)

/-- ATOMIC decides the first ATOMIC. -/
theorem execAtomic_decides (taken : (s.tick t).takeReq cl (fun m => decide (m = 3)) = some (q, s2)) :
    exec (.atomic cl ⟨t, ups⟩) s = .next (s2.decideMem q ups (Target.inRegion (State.atomicIn cl q))) := by
  simp only [exec, execAtomic, onUnit_cluster hcl, taken]
  exact congrArg _ (State.decideMem_inRegion (fun _ _ _ => rfl) fun _ _ _ => rfl)

/-- ACCUM decides the first ACCUM, which is answered. -/
theorem execAccum_decides (taken : (s.tick t).takeReq cl (fun m => decide (m = 4)) = some (q, s2)) :
    exec (.accum cl ⟨t, ups⟩) s = .next (s2.decideMem q ups (Target.inRegion fun _ r v =>
      (v.accumIn cl q r).1.respond cl q.hdr (if (v.accumIn cl q r).2 then 0 else stCheck) [])) := by
  simp only [exec, execAccum, onUnit_cluster hcl, taken]
  exact congrArg _ (State.decideMem_inRegion (fun _ _ _ => rfl) fun _ _ _ => rfl)

/-- ACCUM_SIGNAL decides the first packet of an ACCUM_SIGNAL, which is absorbed. -/
theorem execAccumSignal_decides (taken : (s.tick t).takeReq cl (fun m => decide (m = 5)) = some (q, s2)) :
    exec (.accumSignal cl ⟨t, ups⟩) s = .next (s2.decideMem q ups (Target.inRegion fun e r v =>
      (v.accumIn cl q r).1.absorbMsg q e r (v.accumIn cl q r).2 [])) := by
  simp only [exec, execAccumSignal, onUnit_cluster hcl, taken]
  exact congrArg _ (State.decideMem_inRegion (fun _ _ _ => rfl) fun _ _ _ => rfl)

end Taken

/-- Settles O23: each of the six commands gives the first request it takes to admission (`execRead_decides` and the like),
whose three outcomes are `decideMem_outcomes`; at a window the test of the rights lets only a READ through
(`hMop_of_memTests_window`). -/
theorem memoryRequestsAreDecided : Obligations.MemoryRequestsAreDecided := by
  unfold Obligations.MemoryRequestsAreDecided
  intro s cl t ups q s2 hcl
  exact ⟨fun _ _ => hMop_of_memTests_window,
    fun taken => decideMem_outcomes (State.cl_of_takeReq taken) (execRead_decides hcl taken),
    fun taken => decideMem_outcomes (State.cl_of_takeReq taken) (execWrite_decides hcl taken),
    fun taken => decideMem_outcomes (State.cl_of_takeReq taken) (execWriteSignal_decides hcl taken),
    fun taken => decideMem_outcomes (State.cl_of_takeReq taken) (execAtomic_decides hcl taken),
    fun taken => decideMem_outcomes (State.cl_of_takeReq taken) (execAccum_decides hcl taken),
    fun taken => decideMem_outcomes (State.cl_of_takeReq taken) (execAccumSignal_decides hcl taken)⟩

end Sys2Proof.Machine

/-!
PROOFS. The Trail and the boot ROM by the clock (R296, R511, R547, R553, R559, R579, R580, R582): one equation for each
command, then the obligation.
-/
namespace Sys2Proof.Machine

/-! ### Outcomes by a condition -/

section
variable {o : Out State} {p : Prop} [Decidable p] {u v : State} (run : o = .next (if p then u else v))
include run

/-- An outcome by a condition that holds. -/
theorem outcome_of_pos (h : p) : o = .next u := run.trans (congrArg _ (if_pos h))

/-- An outcome by a condition that does not hold. -/
theorem outcome_of_neg (h : ¬p) : o = .next v := run.trans (congrArg _ (if_neg h))

end

/-! ### What waits for a time (R553, R578, R580, R582) -/

section Clock
variable (s : State) (t : Nat)

/-- CENSUS_SEND in the ring, awake, 10 µs after the last (R553). -/
theorem execCensusSend_judged :
    let s1 := s.tick t
    exec (.censusSend t) s = .next (
      if s1.roe.bypN = some true ∧ s1.roe.pstate ≠ .off ∧ s1.trail.censusAt + 10000 ≤ s1.now
      then ({ s1 with trail := { s1.trail with censusAt := s1.now } } : State).trailCast 4 (toLE 16 s1.censusWord) else s1) := by
  simp only [exec, execCensusSend]
  exact congrArg _ (when_eq_ite (by simp only [State.inRing, Bool.and_eq_true, decide_eq_true_eq]) _ _)

/-- LEAD_WAIT_TIMEOUT 1 s after the fetch began, while no lead has been seen (R580). -/
theorem execLeadWaitTimeout_judged :
    let s1 := s.tick t
    exec (.leadWaitTimeout t) s = .next (
      if s1.fetching true = true ∧ s1.boot.lead = none ∧ s1.boot.since + 1000000000 ≤ s1.now
      then s1.bootFail 1 else s1) := by
  simp only [exec, execLeadWaitTimeout]
  exact congrArg _ (when_eq_ite (by simp only [Bool.and_eq_true, decide_eq_true_eq]) _ _)

/-- BOOT_TRAIN_TIMEOUT 1 s after the fetch began, while nothing has been read (R578). -/
theorem execBootTrainTimeout_judged :
    let s1 := s.tick t
    exec (.bootTrainTimeout t) s = .next (
      if s1.fetching false = true ∧ s1.boot.next = 0 ∧ s1.boot.since + 1000000000 ≤ s1.now then s1.fetchEnd 1 else s1) := by
  simp only [exec, execBootTrainTimeout]
  exact congrArg _ (when_eq_ite (by simp only [Bool.and_eq_true, decide_eq_true_eq]) _ _)

/-- BOOT_NONE_RETRY 100 ms after BOOT_NONE (R580). -/
theorem execBootNoneRetry_judged :
    let s1 := s.tick t
    exec (.bootNoneRetry t) s = .next (
      if s1.fetching true = true ∧ s1.boot.none_ = true ∧ s1.boot.since + 100000000 ≤ s1.now
      then ({ s1 with boot := { s1.boot with none_ := false, since := s1.now } } : State).bootIssue else s1) := by
  simp only [exec, execBootNoneRetry]
  exact congrArg _ (when_eq_ite (by simp only [Bool.and_eq_true, decide_eq_true_eq, and_assoc]) _ _)

/-- BOOT_RETRY 1 s after a failed attempt (R582). -/
theorem execBootRetry_judged :
    let s1 := s.tick t
    exec (.bootRetry t) s = .next (
      if s1.boot.retry = true ∧ s1.roe.c6 = false ∧ s1.boot.phase = .start ∧ s1.boot.since + 1000000000 ≤ s1.now
      then s1.bootFrom (decide (s1.fuse.straps.bootSel.toNat = 1)) else s1) := by
  simp only [exec, execBootRetry]
  exact congrArg _ (when_eq_ite (by simp only [Bool.and_eq_true, Bool.not_eq_true', decide_eq_true_eq, and_assoc]) _ _)

/-- MEMBER_ABSENT of a member that was present, 100 µs after its last CENSUS: a restore from it has lost its buddy (R553). -/
theorem execMemberAbsent_silent {n : Nat} (hn : n < 32) (present : ((s.tick t).member n).present = true)
    (silent : ((s.tick t).member n).at_ + 100000 ≤ (s.tick t).now) :
    let s1 := s.tick t
    let u := s1.setMember n { s1.member n with present := false }
    exec (.memberAbsent n t) s = .next
      (if (s1.mem.regs.any fun x => x.2.restores && decide (cPlane (reBuddy (s1.regionEnt x.1)) = n)) = true
        then u.buddyFail else u) := by
  simp only [exec, execMemberAbsent, onUnit, hn, decide_true, if_true]
  rw [if_pos ⟨present, silent⟩]
  rfl

/-- FUSED_STATE_RECORD answers every query whose A has come, while FT is set and the MP serves (R559). -/
theorem execFusedStateRecord_judged :
    let s1 := s.tick t
    exec (.fusedStateRecord t) s = .next (
      if s1.ftSet = true ∧ s1.mpServes = true
      then (s1.fawn.asked.filter fun q => decide (q.2 ≤ s1.ftNow)).foldl State.recordFused s1 else s1) := rfl

/-- MEMBER_ABSENT of a member that is ABSENT already, or has sent a CENSUS within 100 µs. -/
theorem execMemberAbsent_heard {n : Nat} (hn : n < 32)
    (heard : ((s.tick t).member n).present = false ∨ (s.tick t).now < ((s.tick t).member n).at_ + 100000) :
    exec (.memberAbsent n t) s = .next (s.tick t) := by
  have notSilent : ¬(((s.tick t).member n).present = true ∧ ((s.tick t).member n).at_ + 100000 ≤ (s.tick t).now) := by
    rintro ⟨present, silent⟩
    obtain absent | recent := heard
    · exact Bool.false_ne_true (absent.symm.trans present)
    · omega
  simp only [exec, execMemberAbsent, onUnit, hn, decide_true, if_true, if_neg notSilent]

end Clock

/-! ### READs of the boot ROM (R579, R580) -/

/-- The rule of R547 read off an outcome: within 10 ms nothing, then a resend, and after four resends the end. -/
theorem resent_by_silence {o : Out State} {now sentAt resends : Nat} {waits again ends : State}
    (run : o = .next (if now < sentAt + resendNs then waits else if resends < 4 then again else ends)) :
    (now < sentAt + 10000000 → o = .next waits) ∧
    (sentAt + 10000000 ≤ now → resends < 4 → o = .next again) ∧
    (sentAt + 10000000 ≤ now → 4 ≤ resends → o = .next ends) := by
  refine ⟨outcome_of_pos run, fun silent few => ?_, fun silent many => ?_⟩
  all_goals have late := outcome_of_neg run (Nat.not_lt.mpr silent)
  · exact outcome_of_pos late few
  · exact outcome_of_neg late (Nat.not_lt.mpr many)

section Reads
variable {s : State} {t : Nat}

/-- BOOT_READ_RESEND of a READ in progress: one held after BUSY goes out with every other whose wait is over; one without
an answer for 10 ms is sent again up to four times, and then the fetch ends (R296, R580). -/
theorem execBootReadResend_of_read {n : Nat} {r : BulkRead}
    (fetching : (s.tick t).fetching false = true ∨ (s.tick t).fetching true = true)
    (read : ((s.tick t).boot.reads.find? fun r : BulkRead => decide (r.off = n)) = some r) :
    let s1 := s.tick t
    exec (.bootReadResend n t) s = .next (
      if r.held = true then (s1.boot.reads.filter fun x => x.due s1.now).foldl (fun u x => u.bootSend x)
        { s1 with boot := { s1.boot with reads := dueRead s1.boot.reads s1.now } }
      else if s1.now < r.sentAt + resendNs then s1
      else if r.resends < 4 then
        ({ s1 with boot := { s1.boot with reads := againRead s1.boot.reads r.tag s1.now true } } : State).bootSend r
      else s1.fetchEnd 2) := by
  have runs : (!((s.tick t).fetching false || (s.tick t).fetching true)) = false := by
    rw [Bool.or_eq_true _ _ |>.mpr fetching]; rfl
  simp only [exec, execBootReadResend, State.bootDue, read, runs, Bool.false_eq_true, if_false]

/-- The ROM fetches from its edge port and takes the packet `x`, which leaves `s2`: an answer whose check holds, to the READ
`r`. -/
structure State.BootAnswer (s1 : State) (x : Steered) (s2 : State) (r : BulkRead) : Prop where
  fetching : s1.fetching false = true
  taken : s1.takeMp (fun y => decide (hKind y.pkt.hdr = 6) &&
    (s1.boot.reads.map fun r : BulkRead => r.tag).contains (hTag y.pkt.hdr)) = some (x, s2)
  check : hCheck x.pkt.hdr = checkOf x.pkt.payload
  read : (s2.boot.reads.find? fun y : BulkRead => decide (y.tag = hTag x.pkt.hdr)) = some r

/-- BOOT_FETCH_RESPONSE gives the answer to its READ (R579). -/
theorem execBootFetchResponse_of_answer {x : Steered} {s2 : State} {r : BulkRead} (a : (s.tick t).BootAnswer x s2 r) :
    exec (.bootFetchResponse t) s = .next (s2.bootAnswer r (hStatus x.pkt.hdr) x.pkt.payload) := by
  obtain ⟨fetching, taken, check, read⟩ := a
  simp only [exec, execBootFetchResponse, fetching, taken, State.mpPacket_of_check _ _ check, read, Bool.not_true,
    Bool.false_eq_true, if_false]

/-- BUSY holds the READ, and each further BUSY twice as long, up to 64 µs (R202, R296). -/
theorem State.bootAnswer_busy {r : BulkRead} {tag : Nat} (data : List Byte)
    (read : (s.boot.reads.find? fun y : BulkRead => decide (y.tag = tag)) = some r) :
    ∃ rs, s.bootAnswer r 0x24 data = { s with boot := { s.boot with reads := rs } } ∧
      (rs.find? fun y => decide (y.tag = r.tag)) = some { r with
        sentAt := s.now, held := true, wait := if r.wait = 0 then 1000 else min 64000 (2 * r.wait) } := by
  have same : r.tag = tag := of_decide_eq_true (List.find?_some (p := fun y : BulkRead => decide (y.tag = tag)) read)
  exact ⟨_, rfl, find?_busyRead (same ▸ read) s.now⟩

/-- Any other status than OK and BUSY, or OK with another number of bytes than asked for, ends the fetch (R580). -/
theorem State.bootAnswer_failed {r : BulkRead} {status : Nat} {data : List Byte} (notBusy : status ≠ 0x24)
    (bad : status ≠ 0 ∨ data.length ≠ r.len) : s.bootAnswer r status data = s.fetchEnd 2 := by
  rw [State.bootAnswer, if_neg notBusy, if_pos bad]

/-- OK with every byte asked for: they are kept (R579). -/
theorem State.bootAnswer_ok {r : BulkRead} {data : List Byte} (whole : data.length = r.len) :
    s.bootAnswer r 0 data = ({ s with boot := { s.boot with
      reads := dropRead s.boot.reads r.tag, got := s.boot.got ++ [(r.off, data)] } } : State).bootLanded := by
  rw [State.bootAnswer, if_neg (by decide), if_neg (by simp [whole])]

/-- SNAPSHOT_RESTORE_READ_RESEND of a READ not held: one without an answer for 10 ms is sent again up to four times, and
then the restore fails (R547). -/
theorem execSnapshotRestoreReadResend_unheld {n : Nat} {o : SnapOp} {w : BulkRead}
    (cmd : (s.tick t).snapTag opRestore n = some o) (read : (o.reads.find? fun r => decide (r.tag = n)) = some w)
    (serves : (s.tick t).mpServes = true) (unheld : w.held = false) :
    let s1 := s.tick t
    exec (.snapshotRestoreReadResend n t) s = .next (
      if s1.now < w.sentAt + resendNs then s1
      else if w.resends < 4 then
        (s1.setSnap { o with reads := againRead o.reads n s1.now true }).mpRead (rePart (s1.regionEnt o.entry)) o.arg w
      else s1.failRestore o 0x74 0) := by
  simp only [exec, execSnapshotRestoreReadResend, cmd, read, serves, unheld, Bool.not_true, Bool.false_eq_true, false_or,
    if_false]

end Reads

/-! ### The obligation -/

/-- Settles O51: each clause is one branch of the equation of its command (`execCensusSend_judged` and the like); the reads
that MEMBER_ABSENT looks for are those that the model finds by search. -/
theorem trailAndBootByTheClock : Obligations.TrailAndBootByTheClock := by
  unfold Obligations.TrailAndBootByTheClock
  intro s t n
  have census := execCensusSend_judged s t
  have fused := execFusedStateRecord_judged s t
  have lead := execLeadWaitTimeout_judged s t
  have train := execBootTrainTimeout_judged s t
  have none_ := execBootNoneRetry_judged s t
  have retry := execBootRetry_judged s t
  refine ⟨fun ring awake due => outcome_of_pos census ⟨ring, awake, due⟩,
    fun idle => outcome_of_neg census fun ⟨ring, awake, due⟩ => idle.elim (· ring) (·.elim awake (Nat.not_lt.mpr due)),
    ?absent, fun ftSet serves => outcome_of_pos fused ⟨ftSet, serves⟩,
    fun idle => outcome_of_neg fused fun ⟨ftSet, serves⟩ => by simp [ftSet, serves] at idle,
    fun fetching noLead => ⟨fun due => outcome_of_pos lead ⟨fetching, noLead, due⟩,
      fun early => outcome_of_neg lead fun ⟨_, _, due⟩ => Nat.not_lt.mpr due early⟩,
    fun fetching unread => ⟨fun due => outcome_of_pos train ⟨fetching, unread, due⟩,
      fun early => outcome_of_neg train fun ⟨_, _, due⟩ => Nat.not_lt.mpr due early⟩,
    rfl, rfl, rfl, fun both edge => if_pos ⟨both, edge⟩,
    fun last => if_neg fun ⟨both, edge⟩ => last.elim (· both) fun trail => Bool.false_ne_true (edge.symm.trans trail),
    fun fetching waits => ⟨fun due => outcome_of_pos none_ ⟨fetching, waits, due⟩,
      fun early => outcome_of_neg none_ fun ⟨_, _, due⟩ => Nat.not_lt.mpr due early⟩,
    fun failed start cool => ⟨fun due => outcome_of_pos retry ⟨failed, cool, start, due⟩,
      fun early => outcome_of_neg retry fun ⟨_, _, _, due⟩ => Nat.not_lt.mpr due early⟩,
    ?resend, ?answer, ?restore⟩
  case absent =>
    intro hn
    refine ⟨fun present silent => ?_, execMemberAbsent_heard s t hn⟩
    have run := execMemberAbsent_silent s t hn present silent
    exact ⟨fun reads => outcome_of_pos run (by simpa using reads), fun reads => outcome_of_neg run (by simpa using reads)⟩
  case resend =>
    intro fetching r read
    have run := execBootReadResend_of_read fetching read
    exact ⟨outcome_of_pos run, fun unheld => resent_by_silence (outcome_of_neg run (Bool.eq_false_iff.1 unheld))⟩
  case answer =>
    intro x s2 r fetching taken check read
    have run := execBootFetchResponse_of_answer ⟨fetching, taken, check, read⟩
    refine ⟨fun busy => ?_, fun notBusy bad => run.trans (congrArg _ (State.bootAnswer_failed notBusy bad)),
      fun ok whole => ?_⟩
    · obtain ⟨rs, kept, found⟩ := s2.bootAnswer_busy x.pkt.payload read
      exact ⟨rs, run.trans (by rw [busy, kept]), found⟩
    · exact run.trans (by rw [ok, State.bootAnswer_ok whole])
  case restore =>
    intro o w cmd read serves unheld
    exact resent_by_silence (execSnapshotRestoreReadResend_unheld cmd read serves unheld)

end Sys2Proof.Machine

/-!
SUPPORT. The laws of DRAM writes (R278 to R280): a write of granules that pass their check is one write of its bytes, and
what the additions to accumulators leave at each backing granule.
-/
namespace Sys2Proof.Machine

/-! ### Byte strings in memory and as numbers -/

/-- A byte string written is its first part and then the rest. -/
theorem memWrite_append (m : List Host.Cell) (a : Nat) (xs ys : List Byte) :
    memWrite m a (xs ++ ys) = memWrite (memWrite m a xs) (a + xs.length) ys := by
  induction xs generalizing m a with
  | nil => rfl
  | cons x xs ih => rw [List.cons_append, memWrite, memWrite, ih, List.length_cons, Nat.add_assoc, Nat.add_comm 1]

/-- A read depends on the bytes of its range alone. -/
theorem memRead_congr {m m' : List Host.Cell} {a n : Nat} (h : ∀ b, a ≤ b → b < a + n → memGet m b = memGet m' b) :
    memRead m a n = memRead m' a n := by
  induction n generalizing a with
  | zero => rfl
  | succ n ih => rw [memRead, memRead, h a (Nat.le_refl _) (by omega), ih fun b lo hi => h b (by omega) (by omega)]

/-- The number in the low bytes of a string. -/
theorem ofLE_take (bs : List Byte) (n : Nat) : ofLE (bs.take n) = ofLE bs % 256 ^ n := by
  induction bs generalizing n with
  | nil => simp [ofLE]
  | cons b bs ih =>
    cases n with
    | zero => simp [ofLE, Nat.mod_one]
    | succ n =>
      have hb := b.isLt
      rw [List.take_succ_cons, ofLE, ofLE, ih, Nat.pow_succ']
      rw [Nat.mod_mul, Nat.add_mul_mod_self_left, Nat.mod_eq_of_lt hb, Nat.add_mul_div_left _ _ (by decide),
        Nat.div_eq_of_lt hb, Nat.zero_add]

/-- The low bytes of a field of a string. -/
theorem leAt_mod {n k : Nat} (h : n ≤ k) (bs : List Byte) (off : Nat) : leAt bs off k % 2 ^ (8 * n) = leAt bs off n := by
  rw [Nat.pow_mul, leAt, leAt, show 2 ^ 8 = 256 from rfl, ← ofLE_take, List.take_take, Nat.min_eq_left h]

/-! ### Writes that find no failing granule -/

/-- The state with another DRAM. -/
def State.withDram (s : State) (m : List Host.Cell) : State := { s with mem := { s.mem with dram := m } }

@[simp] theorem State.withDram_dram (s : State) (m : List Host.Cell) : (s.withDram m).mem.dram = m := rfl

/-- A part of a granule that passes its check is written. -/
theorem State.granPut_of_sound {s : State} {g : Nat} (sound : s.badGran g = false) (cl off : Nat) (bs : List Byte) :
    s.granPut cl g off bs = (s.withDram (memWrite s.mem.dram (64 * g + off) bs), true) := by
  have unlisted : s.mem.bad.filter (fun x => !decide (x = g)) = s.mem.bad := by
    refine List.filter_eq_self.2 fun x hx => ?_
    have : x ≠ g := fun e => by simp [State.badGran, ← e, hx] at sound
    simp [this]
  rw [State.granPut, if_neg (by simp [sound]), unlisted]
  rfl

/-- The granules of a range that is not empty. -/
theorem granules_of_pos {a n : Nat} (h : 0 < n) :
    granules a n = (List.range ((a + n - 1) / 64 + 1 - a / 64)).map (a / 64 + ·) := by
  rw [granules, if_neg (by omega)]

/-- No granule of a range fails its check. -/
theorem State.badIn_eq_nil {s : State} {a n : Nat} : s.badIn a n = [] ↔ ∀ g ∈ granules a n, s.badGran g = false := by
  simp [State.badIn, List.filter_eq_nil_iff]

/-- After `k` granules that pass their checks, a write has written its bytes up to the end of the last of them. -/
theorem dramPut_fold_of_sound {s : State} (cl a : Nat) (bs : List Byte) (k : Nat)
    (inside : ∀ i < k, 64 * (a / 64 + i) < a + bs.length) (sound : ∀ i < k, s.badGran (a / 64 + i) = false) :
    ((List.range k).map (a / 64 + ·)).foldl (fun acc g =>
      let lo := max a (64 * g)
      let hi := min (a + bs.length) (64 * g + 64)
      let r := acc.1.granPut cl g (lo - 64 * g) ((bs.drop (lo - a)).take (hi - lo))
      (r.1, acc.2 && r.2)) (s, true) = (s.withDram (memWrite s.mem.dram a (bs.take (64 * (a / 64 + k) - a))), true) := by
  induction k with
  | zero =>
    rw [show 64 * (a / 64 + 0) - a = 0 by omega, List.take_zero]
    rfl
  | succ k ih =>
    rw [List.range_succ, List.map_append, List.foldl_append, ih (fun i hi => inside i (by omega)) fun i hi => sound i (by omega)]
    have here := inside k (by omega)
    generalize hc : 64 * (a / 64 + k) - a = c
    have place : 64 * (a / 64 + k) + (max a (64 * (a / 64 + k)) - 64 * (a / 64 + k)) = a + (bs.take c).length := by
      rw [List.length_take]; omega
    have start : max a (64 * (a / 64 + k)) - a = c := by omega
    have piece : (bs.drop c).take (min (a + bs.length) (64 * (a / 64 + k) + 64) - max a (64 * (a / 64 + k))) =
        (bs.drop c).take (64 * (a / 64 + (k + 1)) - a - c) := by
      rw [List.take_eq_take_iff, List.length_drop]; omega
    have upTo : 64 * (a / 64 + (k + 1)) - a = c + (64 * (a / 64 + (k + 1)) - a - c) := by omega
    have whole : bs.take (64 * (a / 64 + (k + 1)) - a) = bs.take c ++ (bs.drop c).take (64 * (a / 64 + (k + 1)) - a - c) :=
      (congrArg bs.take upTo).trans List.take_add
    simp only [List.map_cons, List.map_nil, List.foldl_cons, List.foldl_nil]
    rw [State.granPut_of_sound (by exact sound k (by omega)), State.withDram_dram, place, start, piece, ← memWrite_append,
      ← whole]
    rfl

/-- A write that finds no failing granule writes its bytes and changes nothing else. -/
theorem State.dramPut_of_sound {s : State} {a : Nat} {bs : List Byte} (sound : s.badIn a bs.length = []) (cl : Nat) :
    s.dramPut cl a bs = (s.withDram (memWrite s.mem.dram a bs), true) := by
  obtain none_ | some_ := Nat.eq_zero_or_pos bs.length
  · rw [List.length_eq_zero_iff.1 none_]
    rfl
  · rw [State.badIn_eq_nil, granules_of_pos some_] at sound
    rw [State.dramPut, granules_of_pos some_]
    refine (dramPut_fold_of_sound cl a bs _ (fun i hi => by omega) fun i hi => ?_).trans ?_
    · exact sound _ (List.mem_map.2 ⟨i, List.mem_range.2 hi, rfl⟩)
    · rw [List.take_of_length_le (by omega)]

/-- A range within one granule: its only granule. -/
theorem granules_within {a n : Nat} (some_ : 0 < n) (fits : a % 64 + n ≤ 64) : granules a n = [a / 64] := by
  rw [granules_of_pos some_, show (a + n - 1) / 64 + 1 - a / 64 = 1 by omega]
  rfl

/-- A write within one granule that passes its check. -/
theorem State.dramPut_within {s : State} {a : Nat} {bs : List Byte} (some_ : 0 < bs.length) (fits : a % 64 + bs.length ≤ 64)
    (sound : s.badGran (a / 64) = false) (cl : Nat) :
    s.dramPut cl a bs = (s.withDram (memWrite s.mem.dram a bs), true) := by
  refine State.dramPut_of_sound ?_ cl
  rw [State.badIn_eq_nil, granules_within some_ fits]
  simpa using sound

/-! ### Additions to accumulators (R280, R310) -/

/-- A backing granule has 64 bytes. -/
@[simp] theorem length_laneBytes (l : Lane) : (laneBytes l).length = 64 := length_toLE 64 _

/-- The lane of a backing granule changed. -/
def laneMod (m : List Host.Cell) (g : Nat) (f : Lane → Lane) : List Host.Cell :=
  memWrite m (64 * g) (laneBytes (f (laneOf (memRead m (64 * g) 64))))

/-- The lanes of consecutive backing granules changed. -/
def lanesMod (m : List Host.Cell) (g : Nat) : List (Lane → Lane) → List Host.Cell
  | [] => m
  | f :: fs => lanesMod (laneMod m g f) (g + 1) fs

/-- A lane changed keeps the canonical form. -/
theorem laneMod_wf {m : List Host.Cell} (w : Memory.wf m = true) (g : Nat) (f : Lane → Lane) :
    Memory.wf (laneMod m g f) = true := memWrite_wf w _ _

/-- A lane changed leaves the bytes of every other granule. -/
theorem memGet_laneMod {m : List Host.Cell} (w : Memory.wf m = true) (g : Nat) (f : Lane → Lane) {b : Nat}
    (out : b < 64 * g ∨ 64 * g + 64 ≤ b) : memGet (laneMod m g f) b = memGet m b :=
  memGet_memWrite_other w _ _ _ (by rwa [length_laneBytes])

/-- A lane changed is read back. -/
theorem memRead_laneMod {m : List Host.Cell} (w : Memory.wf m = true) (g : Nat) (f : Lane → Lane) :
    memRead (laneMod m g f) (64 * g) 64 = laneBytes (f (laneOf (memRead m (64 * g) 64))) := by
  have back := memRead_memWrite w (64 * g) (laneBytes (f (laneOf (memRead m (64 * g) 64))))
  rwa [length_laneBytes] at back

/-- Lanes changed leave the bytes of every other granule. -/
theorem memGet_lanesMod {m : List Host.Cell} (w : Memory.wf m = true) (g : Nat) (fs : List (Lane → Lane)) {b : Nat}
    (out : b < 64 * g ∨ 64 * g + 64 * fs.length ≤ b) : memGet (lanesMod m g fs) b = memGet m b := by
  induction fs generalizing m g with
  | nil => rfl
  | cons f fs ih =>
    rw [List.length_cons] at out
    rw [lanesMod, ih (laneMod_wf w g f) (g + 1) (by omega), memGet_laneMod w g f (by omega)]

/-- Each lane changed is what its own function makes of what it was. -/
theorem memRead_lanesMod {m : List Host.Cell} (w : Memory.wf m = true) (g : Nat) (fs : List (Lane → Lane)) {k : Nat}
    (hk : k < fs.length) :
    memRead (lanesMod m g fs) (64 * (g + k)) 64 = laneBytes (fs[k] (laneOf (memRead m (64 * (g + k)) 64))) := by
  induction fs generalizing m g k with
  | nil => exact absurd hk (Nat.not_lt_zero k)
  | cons f fs ih =>
    have w' := laneMod_wf w g f
    cases k with
    | zero =>
      rw [lanesMod, memRead_congr fun b lo hi => memGet_lanesMod w' (g + 1) fs (by omega)]
      exact memRead_laneMod w g f
    | succ k =>
      rw [lanesMod, ← Nat.add_assoc, Nat.add_right_comm, ih w' (g + 1) (Nat.lt_of_succ_lt_succ hk),
        memRead_congr fun b lo hi => memGet_laneMod w g f (by omega)]
      rfl

/-- Values added to accumulators whose granules all pass their checks. -/
theorem accumulate_fold_of_sound {s : State} (cl g0 : Nat) (fs : List (Lane → Lane)) (i : Nat)
    (sound : ∀ k < fs.length, s.badGran (g0 + (i + k)) = false) :
    (fs.zipIdx i).foldl (fun acc f =>
      let g := g0 + f.2
      if acc.1.badGran g then (acc.1.eccUncorr cl 1, false)
      else ((acc.1.dramPut cl (64 * g) (laneBytes (f.1 (laneOf (acc.1.dramGet (64 * g) 64))))).1, acc.2)) (s, true) =
      (s.withDram (lanesMod s.mem.dram (g0 + i) fs), true) := by
  induction fs generalizing s i with
  | nil => rfl
  | cons f fs ih =>
    have here : s.badGran (g0 + i) = false := sound 0 (Nat.succ_pos _)
    have put : s.dramPut cl (64 * (g0 + i)) (laneBytes (f (laneOf (s.dramGet (64 * (g0 + i)) 64)))) =
        (s.withDram (laneMod s.mem.dram (g0 + i) f), true) :=
      State.dramPut_within (by simp) (by simp) (by simpa using here) cl
    rw [List.zipIdx_cons, List.foldl_cons]
    simp only [here, put, Bool.false_eq_true, if_false]
    refine (ih (i + 1) fun k hk => ?_).trans rfl
    have later := sound (k + 1) (Nat.succ_lt_succ hk)
    rwa [← Nat.add_assoc i, Nat.add_right_comm i] at later

/-- Values added to the accumulators of a region when every backing granule passes its check. -/
theorem State.accumulate_of_sound {s : State} {r : BitVec 256} {e0 : Nat} {fs : List (Lane → Lane)}
    (sound : ∀ k < fs.length, s.badGran (rePbase r + e0 + k) = false) (cl : Nat) :
    s.accumulate cl r e0 fs = (s.withDram (lanesMod s.mem.dram (rePbase r + e0) fs), true) :=
  accumulate_fold_of_sound cl (rePbase r + e0) fs 0 (by simpa using sound)

end Sys2Proof.Machine

/-!
PROOFS. What an absorbed WRITE, ATOMIC or ACCUM does to the DRAM (R289, R307, R310): what admission says of a request, the
memory that each leaves, and the obligation.
-/
namespace Sys2Proof.Machine

/-! ### What is known of an absorbed request -/

/-- The first of a list that passes a test passes it. -/
theorem takeFirst_passes {α : Type} {p : α → Bool} {xs ys : List α} {y : α} (h : takeFirst p xs = some (y, ys)) :
    p y = true := by
  induction xs generalizing ys with
  | nil => cases h
  | cons x xs ih =>
    rw [takeFirst] at h
    split at h
    · cases h; assumption
    · split at h
      · cases h
      next found => cases h; exact ih found

/-- The MOP of a request passes the test by which it was taken. -/
theorem State.mop_of_takeReq {s s2 : State} {cl : Nat} {mop : Nat → Bool} {q : MReq}
    (taken : s.takeReq cl mop = some (q, s2)) : mop (hMop q.hdr) = true := by
  simp only [State.takeReq, State.takeMem, Option.map_map, Option.map_eq_some_iff, Function.comp_apply, Prod.mk.injEq] at taken
  obtain ⟨⟨x, rest⟩, found, rfl, -⟩ := taken
  have passes := takeFirst_passes found
  simp only [Bool.and_eq_true] at passes
  exact passes.2.2

/-- What the tests of Table MEM-8 that look at length, alignment and the message say of a request that passes them. -/
structure MReq.Sound (s : State) (q : MReq) (a : Target) : Prop where
  length : lengthOk q = true
  align : alignOk q a = true
  hasLead : q.isMsg = true → 16 ≤ q.pay.length
  word : ∀ l, q.lead = some l → leadByte l % 8 = 0
  live : q.isMsg = true → ∀ m, s.msgOf q.cl (hSrc q.hdr) (hTag q.hdr) = some m → m.ended = none ∧ m.lead = q.pay.take 16

/-- A request that passes Table MEM-8 is sound. -/
theorem sound_of_memTests {s : State} {q : MReq} {a : Target} (passes : memTests s q = .inr a) : q.Sound s a := by
  unfold memTests at passes
  dsimp only at passes
  repeat' split at passes
  all_goals cases passes
  rename_i sg leads _ _ noneFails
  have passes x mem := eq_false_of_ne_true (List.find?_eq_none.1 noneFails x (List.mem_append_right _ mem))
  obtain ⟨lengths, -⟩ := Bool.or_eq_false_iff.1 (passes (_, stLength) (.head _))
  obtain ⟨aligned, words⟩ := Bool.or_eq_false_iff.1 (passes (_, stAlign) (.tail _ (.head _)))
  have notLate := passes (_, stLate) (.tail _ (.tail _ (.tail _ (.head _))))
  have noMismatch := passes (_, stMismatch) (.tail _ (.tail _ (.tail _ (.tail _ (.head _)))))
  obtain ⟨length, lead⟩ := Bool.or_eq_false_iff.1 lengths
  refine ⟨by simpa using length, by simpa using aligned, fun msg => ?_, fun l hl => ?_, fun msg m hm => ?_⟩
  · simpa [msg] using lead
  · obtain ⟨x, -, rfl⟩ : ∃ x, _ ∧ some (x, l) = sg := by simpa [hl] using leads
    simpa using words
  · simp only [msg, if_true, hm] at notLate noMismatch
    exact ⟨by simpa using notLate, by simpa using noMismatch⟩

section Length
variable {s : State} {q : MReq} {a : Target} (sound : q.Sound s a)
include sound

/-- A WRITE or ACCUM carries the data that its length says. -/
theorem MReq.Sound.data_length (mop : hMop q.hdr = 1 ∨ hMop q.hdr = 4) : q.data = q.pay ∧ q.pay.length = hMlen q.hdr := by
  have plain : q.isMsg = false := by rcases mop with h | h <;> simp [MReq.isMsg, h]
  have lengths := sound.length
  simp only [lengthOk, plain, Bool.and_eq_true, decide_eq_true_eq] at lengths
  obtain ⟨⟨⟨-, pay⟩, -⟩, -⟩ := lengths
  refine ⟨by simp [MReq.data, plain], ?_⟩
  rcases mop with h | h <;> simpa [h] using pay

/-- An ATOMIC covers 4 or 8 bytes within one granule. -/
theorem MReq.Sound.atomic_within (mop : hMop q.hdr = 3) :
    (hMlen q.hdr = 4 ∨ hMlen q.hdr = 8) ∧ q.addr % 64 + hMlen q.hdr ≤ 64 := by
  have aligned := sound.align
  simp only [alignOk, mop, if_true, Bool.and_eq_true, decide_eq_true_eq] at aligned
  obtain ⟨⟨⟨len, offset⟩, -⟩, -⟩ := aligned
  refine ⟨len, ?_⟩
  unfold MReq.addr
  rcases len with h | h <;> rw [h] at offset ⊢ <;> omega

end Length

/-! ### The four kept pieces after a change -/

/-- The four pieces of a state with another DRAM. -/
theorem State.keep_withDram (s : State) (m : List Host.Cell) : (s.withDram m).keep = (s.pending, s.fuse, s.coll.sram, m) := rfl

/-- States with the same pieces have the same pieces with another DRAM. -/
theorem State.keep_withDram_congr {s v : State} (h : v.keep = s.keep) (m : List Host.Cell) :
    (v.withDram m).keep = (s.withDram m).keep := by
  simp only [State.keep, Prod.mk.injEq] at h
  obtain ⟨pending, fuse, sram, -⟩ := h
  rw [State.keep_withDram, State.keep_withDram, pending, fuse, sram]

/-- The DRAM by the four pieces. -/
theorem State.dram_of_keep {s v : State} (h : v.keep = s.keep) : v.mem.dram = s.mem.dram := congrArg (·.2.2.2) h

/-- A request taken and its errors found leave the four pieces as they were. -/
theorem State.keep_absorbed {s s2 : State} {cl t : Nat} {mop : Nat → Bool} {q : MReq}
    (taken : (s.tick t).takeReq cl mop = some (q, s2)) (a : Target) (ups : List (Nat × Nat)) :
    ((s2.msgTimers cl).readErrors q a ups).keep = s.keep := by
  rw [State.readErrors_keep, State.msgTimers_keep, State.takeReq_keep _ _ _ _ taken, State.tick_keep]

/-! ### The memory that each change leaves -/

section Changes
variable {v : State} {cl e : Nat} {r : BitVec 256} {q : MReq}

/-- A WRITE outside an XACC region: its data at its address (R289). -/
theorem State.writeIn_keep (plain : reType r ≠ 1) (sound : v.badIn q.addr q.pay.length = []) :
    (State.writeIn cl q e r v).keep = (v.withDram (memWrite v.mem.dram q.addr q.pay)).keep := by
  have put := State.dramPut_of_sound (s := v.count .writes cl 0) sound cl
  rw [State.writeIn]
  dsimp only
  rw [if_neg plain, State.settleWrite_keep, put]
  rfl

/-- The number that an ATOMIC leaves (Table MEM-6). -/
def MReq.atomicNew (q : MReq) (m : List Host.Cell) : Nat :=
  atomicOp (hAop q.hdr) (hMlen q.hdr) (leAt (memRead m q.addr (hMlen q.hdr)) 0 (hMlen q.hdr)) (leAt q.pay 0 8) (leAt q.pay 8 8)

/-- An ATOMIC within a granule that passes its check: its new value (R307). -/
theorem State.atomicIn_keep (some_ : 0 < hMlen q.hdr) (fits : q.addr % 64 + hMlen q.hdr ≤ 64)
    (sound : v.badGran (q.addr / 64) = false) :
    (State.atomicIn cl q e r v).keep =
      (v.withDram (memWrite v.mem.dram q.addr (toLE (hMlen q.hdr) (q.atomicNew v.mem.dram)))).keep := by
  have put := State.dramPut_within (s := v.count .atomics cl 0) (bs := toLE (hMlen q.hdr) (q.atomicNew v.mem.dram))
    (by rwa [length_toLE]) (by rwa [length_toLE]) sound cl
  rw [State.atomicIn]
  dsimp only
  rw [if_neg (by rw [State.badGran_count, sound]; exact Bool.false_ne_true), State.settleWrite_keep]
  exact congrArg (fun x => x.1.keep) put

/-- An ACCUM whose backing granules all pass their checks: each lane with its value added (R310). -/
theorem State.accumIn_keep (sound : ∀ k < (accumAddends (hFmt q.hdr) q.data).length,
      v.badGran (rePbase r + elem0 r q.hdr + k) = false) :
    (State.accumIn cl q r v).1.keep = (v.withDram
      (lanesMod v.mem.dram (rePbase r + elem0 r q.hdr) (accumAddends (hFmt q.hdr) q.data))).keep :=
  congrArg (·.1.keep) (State.accumulate_of_sound (s := v.count .accums cl 0) sound cl)

end Changes

/-- The addends of an ACCUM of FP32 values. -/
theorem accumAddends_fp32 (bs : List Byte) :
    accumAddends 0 bs = (List.range (bs.length / 4)).map fun k l => l.add wXS (elemVal 0 (leAt bs (4 * k) 4)) := rfl

/-- Table MEM-6: the low bytes of the operands alone count. -/
theorem atomicOp_low {n : Nat} (h : n ≤ 8) (aop old : Nat) (bs : List Byte) :
    atomicOp aop n old (leAt bs 0 8) (leAt bs 8 8) =
      let x := leAt bs 0 n
      match aop with
      | 0 => (old + x) % 2 ^ (8 * n)
      | 1 => if old = x then leAt bs 8 n else old
      | 2 => x
      | 3 => if sext (8 * n) old < sext (8 * n) x then x else old
      | 4 => if sext (8 * n) x < sext (8 * n) old then x else old
      | 5 => max old x
      | _ => min old x := by
  rw [← leAt_mod h bs 0, ← leAt_mod h bs 8]
  rfl

/-! ### The commands -/

/-- The outcome is a state with the DRAM `m` and the queue, the fuses and the data SRAMs of `s`. -/
def State.Leaves (s : State) (o : Out State) (m : List Host.Cell) : Prop :=
  ∃ v, o = .next v ∧ v.mem.dram = m ∧ v.pending = s.pending ∧ v.fuse = s.fuse ∧ v.coll.sram = s.coll.sram

section Commands
variable {s s2 : State} {cl t e : Nat} {ups : List (Nat × Nat)} {q : MReq} {r : BitVec 256}


/-- The outcome of an absorbed request is its row's effect, after the errors that its reads find. -/
theorem absorbed_by_row {o : Out State} {f : Nat → BitVec 256 → State → State} (hq : q.cl = cl)
    (run : o = .next (s2.decideMem q ups (Target.inRegion f))) (opens : (s2.msgTimers cl).memOpen = true)
    (passes : memTests (s2.msgTimers cl) q = .inr (.region e r)) :
    o = .next (f e r ((s2.msgTimers cl).readErrors q (.region e r) ups)) :=
  (decideMem_outcomes hq run).2.2 _ opens passes

/-- What an absorbed request leaves, by the four pieces of its row's effect. -/
theorem leaves_of_keep {mop : Nat → Bool} {o : Out State} {v : State} {m : List Host.Cell}
    (taken : (s.tick t).takeReq cl mop = some (q, s2)) (run : o = .next v)
    (keep : v.keep = (((s2.msgTimers cl).readErrors q (.region e r) ups).withDram m).keep) : s.Leaves o m := by
  rw [State.keep_withDram_congr (State.keep_absorbed taken _ ups), State.keep_withDram] at keep
  simp only [State.keep, Prod.mk.injEq] at keep
  obtain ⟨pending, fuse, sram, dram⟩ := keep
  exact ⟨v, run, dram, pending, fuse, sram⟩

variable (hcl : cl < Config.clusters) (opens : (s2.msgTimers cl).memOpen = true)
  (passes : memTests (s2.msgTimers cl) q = .inr (.region e r))
include hcl opens passes

/-- A WRITE outside an XACC region leaves its data at its address (R289). -/
theorem execWrite_leaves (taken : (s.tick t).takeReq cl (fun m => decide (m = 1)) = some (q, s2)) (plain : reType r ≠ 1)
    (good : ((s2.msgTimers cl).readErrors q (.region e r) ups).badIn q.addr q.pay.length = []) :
    s.Leaves (exec (.write cl ⟨t, ups⟩) s) (memWrite s.mem.dram q.addr q.pay) := by
  rw [← State.dram_of_keep (State.keep_absorbed taken (.region e r) ups)]
  exact leaves_of_keep taken (absorbed_by_row (State.cl_of_takeReq taken) (execWrite_decides hcl taken) opens passes)
    (State.writeIn_keep plain good)

/-- An ATOMIC leaves its new value at its address (R307). -/
theorem execAtomic_leaves (taken : (s.tick t).takeReq cl (fun m => decide (m = 3)) = some (q, s2))
    (good : ((s2.msgTimers cl).readErrors q (.region e r) ups).badGran (q.addr / 64) = false) :
    s.Leaves (exec (.atomic cl ⟨t, ups⟩) s) (memWrite s.mem.dram q.addr (toLE (hMlen q.hdr) (q.atomicNew s.mem.dram))) := by
  obtain ⟨len, fits⟩ := (sound_of_memTests passes).atomic_within (of_decide_eq_true (State.mop_of_takeReq taken))
  rw [← State.dram_of_keep (State.keep_absorbed taken (.region e r) ups)]
  exact leaves_of_keep taken (absorbed_by_row (State.cl_of_takeReq taken) (execAtomic_decides hcl taken) opens passes)
    (State.atomicIn_keep (by omega) fits good)

/-- An ACCUM leaves each lane with its value added (R310). -/
theorem execAccum_leaves (taken : (s.tick t).takeReq cl (fun m => decide (m = 4)) = some (q, s2))
    (good : ∀ k < (accumAddends (hFmt q.hdr) q.data).length,
      ((s2.msgTimers cl).readErrors q (.region e r) ups).badGran (rePbase r + elem0 r q.hdr + k) = false) :
    s.Leaves (exec (.accum cl ⟨t, ups⟩) s)
      (lanesMod s.mem.dram (rePbase r + elem0 r q.hdr) (accumAddends (hFmt q.hdr) q.data)) := by
  rw [← State.dram_of_keep (State.keep_absorbed taken (.region e r) ups)]
  have keep := State.accumIn_keep (cl := cl) good
  exact leaves_of_keep taken (absorbed_by_row (State.cl_of_takeReq taken) (execAccum_decides hcl taken) opens passes)
    ((State.respond_keep _ _ _ _ _).trans keep)

end Commands

/-! ### The obligation -/

/-- Settles O24: the request passes, so its lengths and its alignment are right (`sound_of_memTests`); its change is one
write of the DRAM (`execWrite_leaves`, `execAtomic_leaves`) or of consecutive lanes (`execAccum_leaves`), of which the laws
of the memory say what each byte reads. -/
theorem memoryChangesTheNamedBytesOnly : Obligations.MemoryChangesTheNamedBytesOnly := by
  unfold Obligations.MemoryChangesTheNamedBytesOnly
  intro s cl t ups q s2 e r hcl wf u v0 n m others outside opens passes
  have sound := sound_of_memTests passes
  refine ⟨?write, ?atomic, ?accum⟩
  case write =>
    intro taken plain good
    obtain ⟨-, len⟩ := sound.data_length (.inl (of_decide_eq_true (State.mop_of_takeReq taken)))
    replace len : q.pay.length = n := len
    obtain ⟨v, run, dram, same⟩ := execWrite_leaves (ups := ups) hcl opens passes taken plain (by rw [len]; exact good)
    refine ⟨v, run, ?_, fun b out => ?_, same⟩
    · rw [dram, ← len, memRead_memWrite wf]
    · rw [dram, memGet_memWrite_other wf _ _ _ (by rwa [len])]
  case atomic =>
    intro taken good old x new
    obtain ⟨len, -⟩ := sound.atomic_within (of_decide_eq_true (State.mop_of_takeReq taken))
    obtain ⟨v, run, dram, same⟩ := execAtomic_leaves (ups := ups) hcl opens passes taken good
    have value : q.atomicNew m = new := atomicOp_low (by omega) _ _ _
    replace dram : v.mem.dram = memWrite m q.addr (toLE n new) := value ▸ dram
    refine ⟨v, run, ?_, fun b out => ?_, same⟩
    · have back := memRead_memWrite wf q.addr (toLE n new)
      rwa [length_toLE, ← dram] at back
    · rw [dram, memGet_memWrite_other wf _ _ _ (by rwa [length_toLE])]
  case accum =>
    intro taken fp32 g0 good
    obtain ⟨data, len⟩ := sound.data_length (.inr (of_decide_eq_true (State.mop_of_takeReq taken)))
    let fs := (List.range (n / 4)).map fun k (l : Lane) => l.add wXS (elemVal 0 (leAt q.pay (4 * k) 4))
    have addends : accumAddends (hFmt q.hdr) q.data = fs := by rw [fp32, data, accumAddends_fp32, len]
    have count : fs.length = n / 4 := by simp [fs]
    obtain ⟨v, run, dram, same⟩ := execAccum_leaves (ups := ups) hcl opens passes taken (by rwa [addends, count])
    rw [addends] at dram
    refine ⟨v, run, fun k hk => ?_, fun b out => ?_, same⟩
    · rw [dram, memRead_lanesMod wf _ _ (by rwa [count])]
      simp only [fs, List.getElem_map, List.getElem_range]
      rfl
    · rw [dram, memGet_lanesMod wf _ _ (by rwa [count])]

end Sys2Proof.Machine

/-!
SUPPORT. What a packet that the part sends leaves alone (R22, R384, R405 to R418): everything but the links, the switch core,
the Trail and the counters.
-/
namespace Sys2Proof.Machine

/-! ### The state beside its traffic -/

/-- The state without what a packet on its way can change: the links, the switch core, the Trail and the counters. -/
def State.still (s : State) : State := { s with links := [], sw := {}, trail := {}, cnt := [] }

section
variable {s t : State} (h : t.still = s.still)
include h

theorem State.mem_of_still : t.mem = s.mem := (congrArg State.mem h :)
theorem State.time_of_still : t.time = s.time := (congrArg State.time h :)

end

theorem foldl_still {α : Type} {f : State → α → State} (h : ∀ s x, (f s x).still = s.still) (l : List α) (s : State) :
    (l.foldl f s).still = s.still := by
  induction l generalizing s with
  | nil => rfl
  | cons a l ih => exact (ih (f s a)).trans (h s a)

theorem foldl_still_fst {α β : Type} {f : State × β → α → State × β} (h : ∀ x a, (f x a).1.still = x.1.still)
    (l : List α) (x : State × β) : (l.foldl f x).1.still = x.1.still := by
  induction l generalizing x with
  | nil => rfl
  | cons a l ih => exact (ih (f x a)).trans (h x a)

/-! ### Counters -/

@[simp] theorem State.count_still (s : State) (c : Ctr) (i j : Nat) : (s.count c i j).still = s.still := rfl

/-! ### The packet buffer -/

@[simp] theorem State.freeCredits_still (s : State) (l vc pool n : Nat) : (s.freeCredits l vc pool n).still = s.still := by
  unfold State.freeCredits
  split <;> rfl

@[simp] theorem release_still (s : State) (b : BufPkt) (n : Nat) : (release s b n).still = s.still := by
  unfold release
  split
  · split
    · rfl
    · exact s.freeCredits_still _ _ _ _
  · rfl

@[simp] theorem State.beginRequests_still (s : State) (l v : Nat) : (s.beginRequests l v).still = s.still := by
  unfold State.beginRequests
  exact foldl_still (fun _ _ => by rfl) _ _

@[simp] theorem State.noteDepth_still (s : State) (l v : Nat) : (s.noteDepth l v).still = s.still := by
  unfold State.noteDepth
  dsimp only
  split <;> rfl

@[simp] theorem evict_still (s : State) (b : BufPkt) : (evict s b).still = s.still :=
  (foldl_still (fun _ _ => by simp) _ _).trans (release_still _ _ _)

@[simp] theorem pushOut_still (d n k : Nat) (s : State) : (pushOut d n k s).still = s.still := by
  induction k generalizing s with
  | zero => rfl
  | succ k ih =>
    rw [pushOut]
    split
    · rfl
    · split
      · rfl
      · rw [ih, evict_still]

theorem makeRoom_still {s t : State} {d vc n : Nat} {a : Acct} (h : makeRoom s d vc a n = some t) : t.still = s.still := by
  unfold makeRoom at h
  split at h
  · cases h
  · split at h
    · cases h; rfl
    · split at h
      · split at h
        · cases h; rfl
        · cases h
      · cases h; exact pushOut_still _ _ _ _

@[simp] theorem State.putBuf_still (s : State) (b : BufPkt) : (s.putBuf b).still = s.still :=
  foldl_still (fun _ _ => (State.noteDepth_still _ _ _).trans (State.beginRequests_still _ _ _)) _ _

/-! ### Packets on their way -/

@[simp] theorem State.toTrail_still (s : State) (i plane : Nat) (p : Packet) : (s.toTrail i plane p).still = s.still := by
  have sent (f : Frame) : (s.trailPut f).still = s.still := by
    unfold State.trailPut
    split <;> rfl
  have woken : (s.wakeFirst plane).still = s.still := by
    unfold State.wakeFirst
    split
    · rfl
    · split
      · exact sent _
      · rfl
  unfold State.toTrail
  dsimp only
  split <;> exact woken

@[simp] theorem deliverUnit_still (s : State) (src : From) (vc : Nat) (p : Packet) (bad : Bool) (h : Hit) :
    (deliverUnit s src vc p bad h).still = s.still := by
  cases h with
  | trail plane => exact State.toTrail_still _ _ _ _
  | drop _ | cluster _ | mp | port _ _ => rfl

@[simp] theorem portCopies_still (s : State) (r : Option Route) (exempt : Bool) (hs : List (BitVec 256 × Hit)) (vc : Nat) :
    (portCopies s r exempt hs vc).1.still = s.still := by
  refine foldl_still_fst (fun _ _ => ?_) _ _
  split
  · dsimp only
    split <;> split <;> rfl
  · rfl

@[simp] theorem State.noteCopies_still (s : State) (i : Nat) (h : BitVec 256) (hs : List (BitVec 256 × Hit)) :
    (s.noteCopies i h hs).still = s.still := by
  unfold State.noteCopies
  dsimp only
  split <;> rfl

@[simp] theorem State.releaseLate_still (s : State) (h : BitVec 256) : (s.releaseLate h).still = s.still := by
  unfold State.releaseLate
  split
  · rfl
  · split <;> rfl

@[simp] theorem holdTbarrier_still (s : State) (cps : List Copy) (p : Packet) : (holdTbarrier s cps p).1.still = s.still := by
  unfold holdTbarrier
  split
  · rfl
  · refine foldl_still_fst (fun _ _ => ?_) _ _
    split
    · dsimp only
      split
      · rfl
      · exact State.releaseLate_still _ _
    · rfl

theorem place_still {s t : State} {o : OutPkt} (h : place s o = some t) : t.still = s.still := by
  have told (s : State) (ws : List (BitVec 256 × Hit)) (vc : Nat) :
      (ws.foldl (fun s x => deliverUnit s .inside vc { o.pkt with hdr := x.1 } false x.2) s).still = s.still :=
    foldl_still (fun _ _ => deliverUnit_still _ _ _ _ _ _) _ _
  unfold place at h
  dsimp only at h
  split at h
  all_goals
    split at h
    · cases h
      simp [told]
    · obtain ⟨u, room, rfl⟩ := Option.map_eq_some_iff.mp h
      simp [makeRoom_still room, told]

/-- A packet that a unit of the part originates changes nothing beside the traffic. -/
@[simp] theorem originate_still (s : State) (o : OutPkt) : (originate s o).still = s.still := by
  unfold originate
  dsimp only
  split
  · rfl
  · cases h : place s o with
    | none => rfl
    | some t => exact place_still h

/-- A packet of a cluster changes nothing beside the traffic. -/
@[simp] theorem State.fromCluster_still (s : State) (cl vc part : Nat) (p : Packet) (refusal : Bool) :
    (s.fromCluster cl vc part p refusal).still = s.still := originate_still _ _

/-- A response changes nothing beside the traffic. -/
@[simp] theorem State.sendRsp_still (s : State) (cl : Nat) (p : Packet) (refusal : Bool) :
    (s.sendRsp cl p refusal).still = s.still := originate_still _ _

/-! ### What the memory units read after a packet or an error -/

@[simp] theorem State.sendRsp_mem (s : State) (cl : Nat) (p : Packet) (refusal : Bool) : (s.sendRsp cl p refusal).mem = s.mem :=
  State.mem_of_still (State.sendRsp_still _ _ _ _)

@[simp] theorem State.sendRsp_now (s : State) (cl : Nat) (p : Packet) (refusal : Bool) : (s.sendRsp cl p refusal).now = s.now :=
  congrArg TimeSt.ft (State.time_of_still (State.sendRsp_still _ _ _ _))

@[simp] theorem State.fromCluster_mem (s : State) (cl vc part : Nat) (p : Packet) (refusal : Bool) :
    (s.fromCluster cl vc part p refusal).mem = s.mem :=
  State.mem_of_still (State.fromCluster_still _ _ _ _ _ _)

@[simp] theorem State.count_mem (s : State) (c : Ctr) (i j : Nat) : (s.count c i j).mem = s.mem := rfl

@[simp] theorem State.health_mem (s : State) (row n : Nat) : (s.health row n).mem = s.mem := by
  unfold State.health
  split <;> rfl

@[simp] theorem State.health_now (s : State) (row n : Nat) : (s.health row n).now = s.now := by
  unfold State.health
  split <;> rfl

@[simp] theorem State.eccUncorr_mem (s : State) (cl n : Nat) : (s.eccUncorr cl n).mem = s.mem := by
  unfold State.eccUncorr
  split
  · rfl
  · exact State.health_mem _ _ _

@[simp] theorem State.eccUncorr_now (s : State) (cl n : Nat) : (s.eccUncorr cl n).now = s.now := by
  unfold State.eccUncorr
  split
  · rfl
  · exact State.health_now _ _ _

end Sys2Proof.Machine

/-!
PROOFS. The signal of a message (R303, R304): what the memory units leave in the region and message entries, what an absorbed
packet of a message does, when its signal is applied, and the obligation.
-/
namespace Sys2Proof.Machine

/-! ### Region and message entries -/

/-- The region entries and the message entries. -/
def MemSt.tables (m : MemSt) : AMap Nat RegDyn × List Msg := (m.regs, m.msgs)

/-- A message entry is found among the message entries alone. -/
theorem State.msgOf_congr {s t : State} (h : s.mem.tables = t.mem.tables) (cl src tag : Nat) :
    s.msgOf cl src tag = t.msgOf cl src tag := by
  rw [State.msgOf, State.msgOf, show s.mem.msgs = t.mem.msgs from congrArg Prod.snd h]

/-- An entry put is found. -/
@[simp] theorem State.msgOf_putMsg (s : State) (m : Msg) : (s.putMsg m).msgOf m.cl m.src m.tag = some m := by
  unfold State.msgOf State.putMsg
  have others : ((s.mem.msgs.filter fun x => !decide (x.cl = m.cl ∧ x.src = m.src ∧ x.tag = m.tag)).find? fun x =>
      decide (x.cl = m.cl ∧ x.src = m.src ∧ x.tag = m.tag)) = none := by
    refine List.find?_eq_none.2 fun x hx same => ?_
    rw [List.mem_filter, same] at hx
    exact Bool.false_ne_true hx.2
  rw [List.find?_append, others]
  simp

@[simp] theorem State.putMsg_dram (s : State) (m : Msg) : (s.putMsg m).mem.dram = s.mem.dram := rfl

/-- Entries put into states with the same memory leave the same memory. -/
theorem State.putMsg_mem_congr {s t : State} (h : s.mem = t.mem) (m : Msg) : (s.putMsg m).mem = (t.putMsg m).mem := by
  rw [State.putMsg, State.putMsg, h]

@[simp] theorem State.granPut_tables (s : State) (cl g off : Nat) (bs : List Byte) :
    (s.granPut cl g off bs).1.mem.tables = s.mem.tables := by
  unfold State.granPut
  split
  · rw [State.eccUncorr_mem]
  · rfl

@[simp] theorem State.dramPut_tables (s : State) (cl a : Nat) (bs : List Byte) :
    (s.dramPut cl a bs).1.mem.tables = s.mem.tables := by
  unfold State.dramPut
  exact List.foldlRecOn (motive := fun x : State × Bool => x.1.mem.tables = s.mem.tables) _ _ rfl
    fun x hx g _ => (State.granPut_tables _ _ _ _ _).trans hx

@[simp] theorem State.accumulate_tables (s : State) (cl : Nat) (r : BitVec 256) (e0 : Nat) (fs : List (Lane → Lane)) :
    (s.accumulate cl r e0 fs).1.mem.tables = s.mem.tables := by
  unfold State.accumulate
  refine List.foldlRecOn (motive := fun x : State × Bool => x.1.mem.tables = s.mem.tables) _ _ rfl fun x hx f _ => ?_
  dsimp only
  split
  · rw [State.eccUncorr_mem, hx]
  · rw [State.dramPut_tables, hx]

@[simp] theorem State.granError_tables (s : State) (cl g n : Nat) : (s.granError cl g n).mem.tables = s.mem.tables := by
  unfold State.granError
  split
  · rfl
  · split <;> rfl

@[simp] theorem State.readErrors_tables (s : State) (q : MReq) (a : Target) (ups : List (Nat × Nat)) :
    (s.readErrors q a ups).mem.tables = s.mem.tables := by
  unfold State.readErrors
  refine List.foldlRecOn (motive := fun x : State => x.mem.tables = s.mem.tables) _ _ rfl fun x hx g _ => ?_
  split
  · exact hx
  · rw [State.granError_tables, hx]

@[simp] theorem State.sendMirror_tables (s : State) (r : BitVec 256) (grans : List Nat) (w : MirrorWr) :
    (s.sendMirror r grans w).mem.tables = s.mem.tables := by
  unfold State.sendMirror
  refine List.foldlRecOn (motive := fun x : State => x.mem.tables = s.mem.tables) _ _ rfl fun x hx g _ => ?_
  dsimp only
  rw [State.fromCluster_mem]
  exact hx

@[simp] theorem State.mirrorChange_tables (s : State) (cl entry : Nat) (r : BitVec 256) (grans : List Nat) (resp : Packet)
    (last : Bool) (msg : Option (Nat × Nat)) : (s.mirrorChange cl entry r grans resp last msg).mem.tables = s.mem.tables := by
  unfold State.mirrorChange
  dsimp only
  rw [State.sendMirror_tables]
  split <;> rfl

/-! ### The end of a message -/

/-- A message that has ended now. -/
def Msg.endedAt (m : Msg) (now : Nat) : Msg := { m with ended := some now, held := none }

/-- A message that fails leaves its entry ended, and nothing else in the memory changes (R304). -/
theorem State.failMsg_mem (s : State) (m : Msg) (st : Nat) : (s.failMsg m st).mem = (s.putMsg (m.endedAt s.now)).mem := by
  unfold State.failMsg
  cases m.held with
  | none => simp [Msg.endedAt]
  | some p =>
    simp only [State.count_mem, State.sendRsp_mem, State.sendRsp_now]
    exact State.putMsg_mem_congr (State.sendRsp_mem _ _ _ _) _

/-- A message whose every packet is visible, in time, and whose signal word has no mirror write outstanding (R304, R315). -/
structure Msg.Ready (s : State) (m : Msg) : Prop where
  held : m.held.isSome = true
  live : m.ended = none
  sound : m.fail = none
  confirmed : m.mirrors = 0
  inTime : s.now < m.since + m.sigto
  settled : (s.mem.mirrors.any fun w => w.grans.contains (leadAddr m.lead / 64)) = false

/-- The word that a signal leaves (Table MEM-7). -/
def Msg.newWord (m : Msg) (mem : List Host.Cell) : Nat :=
  if leadOp m.lead = 1 then leadVal m.lead else leAt (memRead mem (leadAddr m.lead) 8) 0 8 + leadVal m.lead

/-- The signal of a message applied: its word written and its entry ended (R304). -/
def State.signalled (s : State) (m : Msg) : State :=
  let u := (s.dramPut m.cl (leadAddr m.lead) (toLE 8 (m.newWord s.mem.dram))).1
  (u.putMsg (m.endedAt u.now)).count .msgApplied m.cl 0

/-- The answer to the packet that completed a message, once the signal is applied: it leaves, or waits for the buddy
(R315, R316). -/
def State.signalAnswer (s : State) (m : Msg) (p : Packet) : State :=
  match s.plans.active.bind fun pl => pl.regionAt (leadAddr m.lead / 64) with
  | none => s.sendRsp m.cl p
  | some e =>
    if !rePrimary e.2 then s.sendRsp m.cl p
    else if s.soloNow e.1 then s.sendRsp m.cl { p with hdr := setFld p.hdr 220 213 stMirror }
    else s.mirrorChange m.cl e.1 e.2 [leadAddr m.lead / 64] p false none

/-- The answer touches neither the DRAM nor the entries. -/
theorem State.signalAnswer_mem (s : State) (m : Msg) (p : Packet) :
    (s.signalAnswer m p).mem.dram = s.mem.dram ∧ (s.signalAnswer m p).mem.tables = s.mem.tables := by
  have told (p : Packet) : (s.sendRsp m.cl p).mem.dram = s.mem.dram ∧ (s.sendRsp m.cl p).mem.tables = s.mem.tables := by
    rw [State.sendRsp_mem]
    exact ⟨rfl, rfl⟩
  unfold State.signalAnswer
  split
  · exact told _
  · split
    · exact told _
    · split
      · exact told _
      · exact ⟨State.dram_of_keep (State.mirrorChange_keep _ _ _ _ _ _ _ _), State.mirrorChange_tables _ _ _ _ _ _ _ _⟩

section Signal
variable {s : State} {m : Msg} (ready : m.Ready s)
include ready

/-- A signal word that cannot be read: the message fails with CHECK_FAIL. -/
theorem State.trySignal_unread (bad : s.badGran (leadAddr m.lead / 64) = true) :
    s.trySignal m = (s.eccUncorr (servingCluster (leadAddr m.lead / 64)) 1).failMsg m stCheck := by
  obtain ⟨held, live, sound, confirmed, inTime, settled⟩ := ready
  obtain ⟨p, held⟩ := Option.isSome_iff_exists.1 held
  unfold State.trySignal
  simp only [held]
  rw [if_neg (by rw [live, sound, confirmed, settled]; simpa using inTime), if_pos bad]

/-- A signal word that can be read: the signal is applied, and the packet that completed the message is answered. -/
theorem State.trySignal_applied (good : s.badGran (leadAddr m.lead / 64) = false) :
    ∃ p, s.trySignal m = (s.signalled m).signalAnswer m p := by
  obtain ⟨held, live, sound, confirmed, inTime, settled⟩ := ready
  obtain ⟨p, held⟩ := Option.isSome_iff_exists.1 held
  refine ⟨{ p with hdr := setFld p.hdr 221 221 1 }, ?_⟩
  unfold State.trySignal
  simp only [held]
  rw [if_neg (by rw [live, sound, confirmed, settled]; simpa using inTime), if_neg (by simp [good])]
  rfl

end Signal
/-- What applying a signal does, when its word lies in one granule: the word takes its new value and the message ends. -/
theorem State.signalled_mem {s : State} {m : Msg} (wf : Memory.wf s.mem.dram = true) (aligned : leadAddr m.lead % 64 + 8 ≤ 64)
    (good : s.badGran (leadAddr m.lead / 64) = false) :
    (s.signalled m).msgOf m.cl m.src m.tag = some (m.endedAt s.now) ∧
    memRead (s.signalled m).mem.dram (leadAddr m.lead) 8 = toLE 8 (m.newWord s.mem.dram) ∧
    ∀ b, b < leadAddr m.lead ∨ leadAddr m.lead + 8 ≤ b → memGet (s.signalled m).mem.dram b = memGet s.mem.dram b := by
  let w := toLE 8 (m.newWord s.mem.dram)
  have len : w.length = 8 := length_toLE _ _
  have put := State.dramPut_within (bs := w) (by rw [len]; decide) (by rwa [len]) good m.cl
  have dram : (s.signalled m).mem.dram = memWrite s.mem.dram (leadAddr m.lead) w := congrArg (·.1.mem.dram) put
  have now : (s.dramPut m.cl (leadAddr m.lead) w).1.now = s.now := congrArg (·.1.now) put
  refine ⟨?_, ?_, fun b out => ?_⟩
  · exact (State.msgOf_putMsg _ (m.endedAt _)).trans (by rw [now])
  · have back := memRead_memWrite wf (leadAddr m.lead) w
    rwa [len, ← dram] at back
  · rw [dram, memGet_memWrite_other wf _ _ _ (by rwa [len])]

/-! ### A packet of a message absorbed (R303) -/

/-- The entry of the message of a packet: the live one, or a new one. -/
def State.msgFor (s : State) (q : MReq) (e : Nat) (r : BitVec 256) : Msg :=
  (s.msgOf q.cl (hSrc q.hdr) (hTag q.hdr)).getD
    { cl := q.cl, src := hSrc q.hdr, tag := hTag q.hdr, lead := q.pay.take 16, since := s.now, sigto := reSigto r, entry := e,
      hdr := q.hdr }

/-- A message with one more packet absorbed. -/
def Msg.absorb (m : Msg) (h : BitVec 256) : Msg :=
  { m with got := m.got ++ [hPkt h], count := if hLast h then some (hCount h) else m.count }

/-- The OK response to a packet of a message. -/
def State.packetOk (s : State) (h : BitVec 256) : Packet := mrsp s h 0 (hPkt h) false none []

section Absorb
variable {s : State} {q : MReq} {e : Nat} {r : BitVec 256} (plain : rePrimary r = false) (gs : List Nat)
include plain

/-- A packet of which a granule could not be written: its message has failed, and it is answered CHECK_FAIL. -/
theorem State.absorbMsg_unwritten : s.absorbMsg q e r false gs =
    (s.putMsg { s.msgFor q e r with fail := some ((s.msgFor q e r).fail.getD stCheck) }).sendRsp q.cl
      (mrsp s q.hdr stCheck (hPkt q.hdr) false none []) := by
  simp [State.absorbMsg, State.settleWrite, plain, State.msgFor]

/-- A packet written: the one that completes a message which has not failed waits for the signal, any other is answered. -/
theorem State.absorbMsg_written : s.absorbMsg q e r true gs =
    let m := (s.msgFor q e r).absorb q.hdr
    if m.full = true ∧ (s.msgFor q e r).fail = none then
      let held := { m with held := some (s.packetOk q.hdr) }
      (s.putMsg held).trySignal held
    else (s.putMsg m).sendRsp q.cl (s.packetOk q.hdr) := by
  simp only [State.absorbMsg, plain, Bool.not_true, Bool.not_false, Bool.false_eq_true, if_false, if_true, Bool.and_eq_true,
    Option.isNone_iff_eq_none]
  rfl

end Absorb

/-- The entry of the message of a sound packet: its identity, its lead, and that it has not ended. -/
theorem State.msgFor_spec {u v : State} {q : MReq} {a : Target} (sound : q.Sound u a) (msg : q.isMsg = true)
    (same : v.mem.tables = u.mem.tables) (e : Nat) (r : BitVec 256) :
    let m := v.msgFor q e r
    m.cl = q.cl ∧ m.src = hSrc q.hdr ∧ m.tag = hTag q.hdr ∧ m.ended = none ∧ m.lead = q.pay.take 16 := by
  cases found : v.msgOf q.cl (hSrc q.hdr) (hTag q.hdr) with
  | none => simp [State.msgFor, found]
  | some m =>
    have key : m.cl = q.cl ∧ m.src = hSrc q.hdr ∧ m.tag = hTag q.hdr := by
      simpa using List.find?_some found
    obtain ⟨live, lead⟩ := sound.live msg m (by rw [← State.msgOf_congr same, found])
    simpa [State.msgFor, found, live, lead] using key

/-- The signal word of a sound packet lies in one granule. -/
theorem MReq.Sound.word_within {s : State} {q : MReq} {a : Target} (sound : q.Sound s a) (msg : q.isMsg = true) :
    leadAddr (q.pay.take 16) % 64 + 8 ≤ 64 := by
  have aligned := sound.word (q.pay.take 16) (by simp [MReq.lead, msg, sound.hasLead msg])
  unfold leadAddr
  omega

/-! ### The commands -/

/-- Whatever is written of a byte string, the DRAM keeps its canonical form. -/
theorem State.dramPut_wf {s : State} (wf : Memory.wf s.mem.dram = true) (cl a : Nat) (bs : List Byte) :
    Memory.wf (s.dramPut cl a bs).1.mem.dram = true := by
  obtain ⟨-, -, -, -, dram⟩ := State.dramPut_kept s cl a bs
  exact dram wf

/-- Whatever is added to accumulators, the DRAM keeps its canonical form. -/
theorem State.accumulate_wf {s : State} (wf : Memory.wf s.mem.dram = true) (cl : Nat) (r : BitVec 256) (e0 : Nat)
    (fs : List (Lane → Lane)) : Memory.wf (s.accumulate cl r e0 fs).1.mem.dram = true := by
  obtain ⟨-, -, -, -, dram⟩ := State.accumulate_kept s cl r e0 fs
  exact dram wf

/-- The command `cmd` takes the request `q`, a packet of a message, absorbs it at the state `u` and comes to `x` by writing
its data: the state, and whether every granule was written. -/
structure AbsorbsPacket (s u : State) (cmd : Instr) (cl : Nat) (q : MReq) (e : Nat) (r : BitVec 256) (x : State × Bool) :
    Prop where
  cluster : q.cl = cl
  msg : q.isMsg = true
  run : ∃ gs, exec cmd s = .next (x.1.absorbMsg q e r x.2 gs)
  tables : x.1.mem.tables = u.mem.tables
  wf : Memory.wf x.1.mem.dram = true

section Commands
variable {s s2 : State} {cl t e : Nat} {q : MReq} {r : BitVec 256} (ups : List (Nat × Nat)) (hcl : cl < Config.clusters)
  (wf : Memory.wf s.mem.dram = true) (opens : (s2.msgTimers cl).memOpen = true)
  (passes : memTests (s2.msgTimers cl) q = .inr (.region e r))
include hcl wf opens passes

/-- WRITE_SIGNAL writes the data of its packet. -/
theorem execWriteSignal_absorbs (taken : (s.tick t).takeReq cl (fun m => decide (m = 2)) = some (q, s2)) :
    AbsorbsPacket s (s2.msgTimers cl) (.writeSignal cl ⟨t, ups⟩) cl q e r
      ((((s2.msgTimers cl).readErrors q (.region e r) ups).count .writes cl 0).dramPut cl q.addr q.data) where
  cluster := State.cl_of_takeReq taken
  msg := by simp [MReq.isMsg, of_decide_eq_true (State.mop_of_takeReq taken)]
  run := ⟨_, absorbed_by_row (State.cl_of_takeReq taken) (execWriteSignal_decides hcl taken) opens passes⟩
  tables := by rw [State.dramPut_tables, State.count_mem, State.readErrors_tables]
  wf := State.dramPut_wf (by
    rw [State.count_mem, State.dram_of_keep (State.keep_absorbed taken (.region e r) ups)]
    exact wf) _ _ _

/-- ACCUM_SIGNAL adds the values of its packet. -/
theorem execAccumSignal_absorbs (taken : (s.tick t).takeReq cl (fun m => decide (m = 5)) = some (q, s2)) :
    AbsorbsPacket s (s2.msgTimers cl) (.accumSignal cl ⟨t, ups⟩) cl q e r
      ((((s2.msgTimers cl).readErrors q (.region e r) ups).count .accums cl 0).accumulate cl r (elem0 r q.hdr)
        (accumAddends (hFmt q.hdr) q.data)) where
  cluster := State.cl_of_takeReq taken
  msg := by simp [MReq.isMsg, of_decide_eq_true (State.mop_of_takeReq taken)]
  run := ⟨_, absorbed_by_row (State.cl_of_takeReq taken) (execAccumSignal_decides hcl taken) opens passes⟩
  tables := by rw [State.accumulate_tables, State.count_mem, State.readErrors_tables]
  wf := State.accumulate_wf (by
    rw [State.count_mem, State.dram_of_keep (State.keep_absorbed taken (.region e r) ups)]
    exact wf) _ _ _ _

end Commands

/-! ### The obligation -/

/-- Settles O25: either command absorbs its packet after its data is written (`execWriteSignal_absorbs`,
`execAccumSignal_absorbs`); the packet is answered (`absorbMsg_unwritten`, `absorbMsg_written`), or completes the message,
whose signal is then tried: it fails (`trySignal_unread`) or is applied (`trySignal_applied`, `signalled_mem`). -/
theorem signalsFollowTheirData : Obligations.SignalsFollowTheirData := by
  unfold Obligations.SignalsFollowTheirData
  intro s cl t ups q s2 e r cmd x hcl wf plain u v0 h opens passes command v m m' a
  have sound := sound_of_memTests passes
  obtain ⟨cluster, msg, ⟨gs, run⟩, tables, wfv⟩ : AbsorbsPacket s u cmd cl q e r x := by
    rcases command with ⟨rfl, taken, rfl⟩ | ⟨rfl, taken, rfl⟩
    · exact execWriteSignal_absorbs ups hcl wf opens passes taken
    · exact execAccumSignal_absorbs ups hcl wf opens passes taken
  subst cluster
  obtain ⟨mcl, msrc, mtag, live, lead⟩ := State.msgFor_spec sound msg tables e r
  refine ⟨fun unwritten => ?_, fun written waits => ?_, fun written full unfailed confirmed inTime settled => ?_⟩
  · rw [run, unwritten, State.absorbMsg_unwritten plain]
    rfl
  · rw [run, written, State.absorbMsg_written plain]
    exact congrArg _ (if_neg fun ⟨full, unfailed⟩ =>
      waits.elim (fun partial_ => Bool.false_ne_true (partial_.symm.trans full)) (· unfailed))
  · let held : Msg := { m' with held := some (v.packetOk h) }
    have tried : exec cmd s = .next ((v.putMsg held).trySignal held) := by
      rw [run, written, State.absorbMsg_written plain]
      exact congrArg _ (if_pos ⟨full, unfailed⟩)
    have ready : held.Ready (v.putMsg held) := ⟨rfl, live, unfailed, confirmed, inTime, settled⟩
    have aligned : leadAddr held.lead % 64 + 8 ≤ 64 := lead ▸ sound.word_within msg
    have found {w : State} {n : Nat} (h : w.msgOf held.cl held.src held.tag = some (held.endedAt n)) :
        (w.msgOf q.cl (hSrc q.hdr) (hTag q.hdr)).bind (·.ended) = some n := by
      rw [← mcl, ← msrc, ← mtag]
      exact congrArg (·.bind (·.ended)) h
    refine ⟨fun bad => ⟨_, tried, ?_⟩, fun good => ⟨_, tried, ?_⟩⟩
    · rw [State.trySignal_unread ready bad]
      have mem := State.failMsg_mem ((v.putMsg held).eccUncorr (servingCluster (leadAddr held.lead / 64)) 1) held stCheck
      rw [State.eccUncorr_now] at mem
      refine ⟨?_, found ?_⟩
      · rw [mem, State.putMsg_dram, State.eccUncorr_mem, State.putMsg_dram]
      · exact (State.msgOf_congr (congrArg MemSt.tables mem) _ _ _).trans (State.msgOf_putMsg _ (held.endedAt _))
    · obtain ⟨p, applied⟩ := State.trySignal_applied ready good
      obtain ⟨dram, entries⟩ := State.signalAnswer_mem ((v.putMsg held).signalled held) held p
      obtain ⟨ended, word, others⟩ := State.signalled_mem (s := v.putMsg held) wfv aligned good
      rw [applied, dram]
      exact ⟨found ((State.msgOf_congr entries _ _ _).trans ended), word, others⟩

end Sys2Proof.Machine

/-!
PROOFS. The timers of messages, the hold of their entries, and the answers to mirror writes (R304, R305, R315, R316).
-/
namespace Sys2Proof.Machine

/-! ### Message timers and entries (R304, R305) -/

section Message
variable {s : State} {cl src tag t : Nat} {m : Msg} (hcl : cl < Config.clusters) (entry : (s.tick t).msgOf cl src tag = some m)
include hcl entry

/-- MESSAGE_TIMEOUT of a message that has not ended, at its deadline. -/
theorem execMessageTimeout_judged :
    let s1 := s.tick t
    exec (.messageTimeout cl src tag t) s = .next
      (if m.ended = none ∧ m.since + m.sigto ≤ s1.now then s1.failMsg m m.timeoutStatus else s1) := by
  simp only [exec, execMessageTimeout, onUnit_cluster hcl, entry]
  exact congrArg _ (when_eq_ite (by simp only [Bool.and_eq_true, Option.isNone_iff_eq_none, decide_eq_true_eq]) _ _)

/-- MESSAGE_ENTRY_FREE of a message whose hold has passed. -/
theorem execMessageEntryFree_judged {f : Nat} (ended : m.ended = some f) :
    let s1 := s.tick t
    exec (.messageEntryFree cl src tag t) s = .next (if f + m.sigto ≤ s1.now then
      { s1 with mem := { s1.mem with msgs := s1.mem.msgs.filter fun x => !decide (x.cl = cl ∧ x.src = src ∧ x.tag = tag) } }
      else s1) := by
  simp only [exec, execMessageEntryFree, onUnit_cluster hcl, entry]
  exact congrArg _ (when_eq_ite (by simp only [ended, Option.any_some, decide_eq_true_eq]) _ _)

end Message

/-- A message that fails: what waited for its signal is answered, its entry ends, and the further response leaves (R304). -/
theorem State.failMsg_eq (s : State) (m : Msg) (st : Nat) : s.failMsg m st =
    let u := match m.held with | none => s | some p => s.sendRsp m.cl p
    let v := u.putMsg (m.endedAt s.now)
    (v.sendRsp m.cl (mrsp v m.hdr st 0 true none [])).count .msgFailed m.cl 0 := by
  unfold State.failMsg
  cases m.held with
  | none => rfl
  | some p =>
    dsimp only
    rw [State.sendRsp_now]
    rfl

/-- An entry freed is no longer found, and every other is as before. -/
theorem State.msgOf_freed (s : State) (cl src tag : Nat) :
    let v : State := { s with mem := { s.mem with
      msgs := s.mem.msgs.filter fun x => !decide (x.cl = cl ∧ x.src = src ∧ x.tag = tag) } }
    v.msgOf cl src tag = none ∧
    ∀ cl' src' tag', (cl', src', tag') ≠ (cl, src, tag) → v.msgOf cl' src' tag' = s.msgOf cl' src' tag' := by
  refine ⟨List.find?_eq_none.2 fun x hx same => ?_, fun cl' src' tag' other => ?_⟩
  · rw [List.mem_filter, same] at hx
    exact Bool.false_ne_true hx.2
  · unfold State.msgOf
    rw [List.find?_filter]
    refine congrArg (s.mem.msgs.find? ·) (funext fun x => ?_)
    have apart : (x.cl = cl' ∧ x.src = src' ∧ x.tag = tag') → ¬(x.cl = cl ∧ x.src = src ∧ x.tag = tag) := by
      rintro ⟨rfl, rfl, rfl⟩ ⟨rfl, rfl, rfl⟩
      exact other rfl
    rw [Bool.eq_iff_iff]
    simp only [Bool.not_eq_true', decide_eq_true_eq, decide_eq_false_iff_not]
    exact ⟨And.right, fun same => ⟨apart same, same⟩⟩

/-! ### Mirror writes (R315, R316) -/

/-- MIRROR_RESPONSE: due message timers fire, and then the answer counts by its status and its time. -/
theorem execMirrorResponse_of_answer {s s2 : State} {cl t : Nat} {x : Steered} {w : MirrorWr} (hcl : cl < Config.clusters)
    (taken : (s.tick t).takeMem cl (fun y => decide (hKind y.pkt.hdr = 6) && ((s.tick t).mirrorOf cl (hTag y.pkt.hdr)).isSome) =
      some (x, s2)) (write : s2.mirrorOf cl (hTag x.pkt.hdr) = some w) :
    let u := s2.msgTimers cl
    exec (.mirrorResponse cl t) s = .next
      (if answerOf x.pkt = 0 ∧ u.now < w.sentAt + reMirto (u.regionEnt w.entry) then u.mirrorOk w else u.mirrorFail w) := by
  simp only [exec, execMirrorResponse, onUnit_cluster hcl, taken, write, State.mirrorLate, decide_eq_false_iff_not, Nat.not_le]

/-- MIRROR_TIMEOUT: a write without an answer within MIRTO has failed. -/
theorem execMirrorTimeout_judged {s : State} {cl tag t : Nat} {w : MirrorWr} (hcl : cl < Config.clusters)
    (write : (s.tick t).mirrorOf cl tag = some w) :
    let s1 := s.tick t
    exec (.mirrorTimeout cl tag t) s = .next
      (if w.sentAt + reMirto (s1.regionEnt w.entry) ≤ s1.now then s1.mirrorFail w else s1) := by
  simp only [exec, execMirrorTimeout, onUnit_cluster hcl, write]
  exact congrArg _ (when_eq_ite (by simp only [State.mirrorLate, decide_eq_true_eq]) _ _)

/-! ### A failed mirror write -/

/-- The region and message entries, and cluster and tag of each mirror write. -/
def MemSt.entries (m : MemSt) : (AMap Nat RegDyn × List Msg) × List (Nat × Nat) :=
  (m.tables, m.mirrors.map fun w => (w.cl, w.tag))

/-- No mirror write of a cluster has a tag that is not among theirs. -/
theorem State.mirrorOf_eq_none {s : State} {cl tag : Nat} : s.mirrorOf cl tag = none ↔ (cl, tag) ∉ s.mem.entries.2 := by
  simp only [State.mirrorOf, List.find?_eq_none, decide_eq_true_eq, MemSt.entries, List.mem_map, Prod.mk.injEq, not_exists,
    not_and]

/-- Telling the requester leaves the entries. -/
theorem State.failGrp_entries (s : State) (w : MirrorWr) : (s.failGrp w).mem.entries = s.mem.entries := by
  have keys (p : MirrorWr → Bool) (l : List MirrorWr) :
      (modWhere p (fun x => { x with resp := none, msg := none }) l).map (fun w => (w.cl, w.tag)) =
        l.map fun w => (w.cl, w.tag) := by
    rw [modWhere, List.map_map]
    refine List.map_congr_left fun x _ => ?_
    dsimp only [Function.comp_apply]
    split <;> rfl
  unfold State.failGrp
  dsimp only
  split
  · exact Prod.ext rfl (keys _ _)
  · rw [State.sendRsp_mem]
    exact Prod.ext rfl (keys _ _)

/-- A region that goes to SOLO: its entry says so, and no other entry of the memory changes. -/
theorem State.goSolo_entries (s : State) (e : Nat) : ∃ d : RegDyn, d.solo = true ∧
    (s.goSolo e).mem.entries = (s.setReg e d).mem.entries := by
  refine ⟨{ s.reg e with solo := true, phase := match (s.reg e).phase with | .resync _ => .normal | p => p }, rfl, ?_⟩
  unfold State.goSolo State.failLater
  exact List.foldlRecOn (motive := fun u : State => u.mem.entries = _) _ _ rfl
    fun u hu w _ => (State.failGrp_entries u w).trans hu

/-- Before the signals that waited for it are tried, a failed mirror write has put its region into SOLO and is no longer
outstanding (R316). -/
theorem State.mirrorFail_entries (s : State) (w : MirrorWr) :
    ∃ (u : State) (d : RegDyn), s.mirrorFail w = u.trySignals ∧ d.solo = true ∧
      u.mem.entries = ((s.dropMirror w.tag).setReg w.entry d).mem.entries := by
  obtain ⟨d, solo, entries⟩ := (((s.dropMirror w.tag).count .mirrorFail w.cl 0).health hMirror 1).goSolo_entries w.entry
  refine ⟨_, d, rfl, solo, (State.failGrp_entries _ _).trans (entries.trans ?_)⟩
  rw [State.setReg_mem_eq, State.health_mem, State.count_mem]
  rfl

/-! ### Signals tried -/

/-- A signal that may not be applied yet changes nothing. -/
theorem State.trySignal_waits {s : State} {m : Msg} (waits : ¬m.Ready s) : s.trySignal m = s := by
  unfold State.trySignal
  split
  · rfl
  next p held =>
    dsimp only
    split
    · rfl
    next open_ =>
      simp only [Bool.not_eq_true, Bool.or_eq_false_iff, decide_eq_false_iff_not, Nat.not_le, Decidable.not_not, ne_eq] at open_
      obtain ⟨⟨⟨⟨live, sound⟩, confirmed⟩, inTime⟩, settled⟩ := open_
      exact absurd ⟨by rw [held]; rfl, by simpa using live, by simpa using sound, confirmed, inTime, settled⟩ waits

/-- A signal that is tried leaves the region entries. -/
theorem State.trySignal_regs (s : State) (m : Msg) : (s.trySignal m).mem.regs = s.mem.regs := by
  by_cases ready : m.Ready s
  · cases good : s.badGran (leadAddr m.lead / 64) with
    | true =>
      rw [State.trySignal_unread ready good, State.failMsg_mem, State.putMsg_mem_congr (State.eccUncorr_mem _ _ _)]
      rfl
    | false =>
      obtain ⟨p, applied⟩ := State.trySignal_applied ready good
      rw [applied]
      have answered := congrArg Prod.fst ((s.signalled m).signalAnswer_mem m p).2
      exact answered.trans (congrArg Prod.fst (State.dramPut_tables s _ _ _))
  · rw [State.trySignal_waits ready]

/-- The region entries outlast every signal that is tried. -/
theorem State.trySignals_regs (s : State) : s.trySignals.mem.regs = s.mem.regs := by
  unfold State.trySignals
  exact List.foldlRecOn (motive := fun u : State => u.mem.regs = s.mem.regs) _ _ rfl
    fun u hu m _ => (State.trySignal_regs u m).trans hu

/-- Without a packet that waits for its signal no signal is applied. -/
theorem State.trySignals_idle {s : State} (idle : ∀ m ∈ s.mem.msgs, m.held = none) : s.trySignals = s := by
  unfold State.trySignals
  refine List.foldlRecOn (motive := fun u => u = s) _ _ rfl fun u hu m hm => ?_
  rw [hu]
  exact State.trySignal_waits fun ready => by simpa [idle m hm] using ready.held

/-- After a mirror write has failed its region is in SOLO. -/
theorem State.mirrorFail_solo (s : State) (w : MirrorWr) : ((s.mirrorFail w).reg w.entry).solo = true := by
  obtain ⟨u, d, run, solo, entries⟩ := s.mirrorFail_entries w
  have regs : u.mem.regs = ((s.dropMirror w.tag).setReg w.entry d).mem.regs := congrArg (·.1.1) entries
  rw [run, State.reg, State.trySignals_regs, regs]
  exact (congrArg RegDyn.solo (State.reg_setReg _ _ d)).trans solo

/-- After a mirror write has failed, and while no packet waits for its signal, it is no longer outstanding. -/
theorem State.mirrorFail_dropped {s : State} {w : MirrorWr} (idle : ∀ m ∈ s.mem.msgs, m.held = none) (cl : Nat) :
    (s.mirrorFail w).mirrorOf cl w.tag = none := by
  obtain ⟨u, d, run, -, entries⟩ := s.mirrorFail_entries w
  have msgs : u.mem.msgs = s.mem.msgs := congrArg (·.1.2) entries
  rw [run, State.trySignals_idle (by rwa [msgs]), State.mirrorOf_eq_none, entries]
  intro key
  obtain ⟨x, dropped, same⟩ := List.mem_map.1 key
  have kept : x.tag ≠ w.tag := by simpa using (List.mem_filter.1 dropped).2
  exact kept (Prod.mk.inj same).2

/-! ### The obligation -/

/-- Settles O26: a message ends failed at its deadline and its entry is freed after its hold (`execMessageTimeout_judged`,
`execMessageEntryFree_judged`); an answer to a mirror write counts by its status and its time, and after a failure the region
is in SOLO (`mirrorFail_solo`). -/
theorem messageTimersAndMirrorAnswers : Obligations.MessageTimersAndMirrorAnswers := by
  unfold Obligations.MessageTimersAndMirrorAnswers
  intro s cl src tag t hcl s1
  refine ⟨?message, ?answer, ?timeout⟩
  case message =>
    intro m entry
    have timeout := execMessageTimeout_judged hcl entry
    refine ⟨fun live due => ?_, fun waits => ?_, fun f ended past => ?_, fun f ended held => ?_⟩
    · rw [outcome_of_pos timeout ⟨live, due⟩, State.failMsg_eq]
      rfl
    · exact outcome_of_neg timeout fun ⟨live, due⟩ => waits.elim (· live) (Nat.not_lt.mpr due)
    · obtain ⟨freed, others⟩ := s1.msgOf_freed cl src tag
      exact ⟨_, outcome_of_pos (execMessageEntryFree_judged hcl entry ended) past, freed, rfl, others⟩
    · exact outcome_of_neg (execMessageEntryFree_judged hcl entry ended) (Nat.not_le.mpr held)
  case answer =>
    intro x s2 w taken write
    have run := execMirrorResponse_of_answer hcl taken write
    exact ⟨fun ok inTime => outcome_of_pos run ⟨ok, inTime⟩,
      fun failed => outcome_of_neg run fun ⟨ok, inTime⟩ => failed.elim (· ok) (Nat.not_le.mpr inTime)⟩
  case timeout =>
    intro w write
    have run := execMirrorTimeout_judged hcl write
    refine ⟨fun late => ⟨outcome_of_pos run late, s1.mirrorFail_solo w, fun idle => ?_⟩,
      fun early => outcome_of_neg run (Nat.not_le.mpr early)⟩
    have key : w.cl = cl ∧ w.tag = tag := by simpa using List.find?_some write
    exact key.2 ▸ State.mirrorFail_dropped idle cl

end Sys2Proof.Machine

/-!
PROOFS. The commands of the links: what each waits for, then failed lanes and the degrade (R349, R351 to R353).
-/
namespace Sys2Proof.Machine

/-! ### A link command -/

/-- A link command by its condition as a proposition. -/
theorem onLink_judged {s : State} {l t : Nat} (hl : l < Config.links) {ok : State → Link → Bool} {p : Prop} [Decidable p]
    (h : ok (s.tick t) ((s.tick t).link l) = true ↔ p) (f : State → State) :
    onLink l t s ok f = .next (if p then f (s.tick t) else s.tick t) := by
  rw [onLink, when_eq_ite h, onUnit, if_pos (decide_eq_true hl)]

/-- The lanes of a link hang on the split of its port alone. -/
@[simp] theorem State.fullLanes_setLink (s : State) (l j : Nat) (k : Link) : (s.setLink l k).fullLanes j = s.fullLanes j := rfl

/-! ### A failed lane (R350 to R353) -/

section Lane
variable (s : State) (l lane : Nat)

/-- A link without one of its good lanes. -/
def State.dropLane : State := s.setLink l { s.link l with good := (s.link l).good - ((s.link l).good &&& 2 ^ lane) }

@[simp] theorem State.link_dropLane :
    (s.dropLane l lane).link l = { s.link l with good := (s.link l).good - ((s.link l).good &&& 2 ^ lane) } :=
  State.link_setLink _ _ _

/-- The first lane set left, no wider than the one in use (R352, R354). -/
def State.narrower : Option Nat := chooseSet (s.fullLanes l) (popcount 8 (s.link l).lanes) ((s.dropLane l lane).link l).good

variable {s l lane}

/-- A lane that carries nothing, or of a link in STOPPING or RETRAIN, is noted alone. -/
theorem State.laneFailed_noted
    (h : bit (s.link l).lanes lane = false ∨ (s.link l).st = .stopping ∨ (s.link l).st = .retrain) :
    s.laneFailed l lane = s.dropLane l lane := by
  unfold State.laneFailed
  exact if_pos (by simpa using h)

variable (active : bit (s.link l).lanes lane = true) (stays : (s.link l).st ≠ .stopping) (trained : (s.link l).st ≠ .retrain)
include active stays trained

/-- An active lane whose loss leaves no lane set takes the link DOWN. -/
theorem State.laneFailed_down (none_ : s.narrower l lane = none) :
    s.laneFailed l lane = (s.dropLane l lane).linkDown l 0x50 := by
  rw [State.narrower, State.link_dropLane] at none_
  unfold State.laneFailed
  simp only [active, stays, trained, State.fullLanes_setLink, none_]
  rfl

/-- An active lane whose loss leaves a lane set makes the link ask for it. -/
theorem State.laneFailed_asks {set : Nat} (some_ : s.narrower l lane = some set) :
    s.laneFailed l lane = (s.dropLane l lane).askDegrade l (match (s.link l).degrade with | none => s.now | some x => x.1) := by
  rw [State.narrower, State.link_dropLane] at some_
  unfold State.laneFailed
  simp only [active, stays, trained, State.fullLanes_setLink, some_]
  rfl

end Lane

/-! ### LANE_FAIL, DEGRADE_REPEAT and DEGRADE_TIMEOUT -/

section Commands
variable {s : State} {l t : Nat} (hl : l < Config.links)
include hl

/-- LANE_FAIL of a good lane that meets a condition of R351. -/
theorem execLaneFail_judged (lane : Nat) (why : LaneWhy) :
    let k := (s.tick t).link l
    exec (.laneFail l ⟨lane, why⟩ t) s = .next
      (if k.live = true ∧ bit k.good lane = true ∧ laneFails why = true then (s.tick t).laneFailed l lane else s.tick t) := by
  simp only [exec, execLaneFail]
  exact onLink_judged hl (by simp only [Bool.and_eq_true, and_assoc]) _

variable {x : Nat × Nat} (asked : ((s.tick t).link l).degrade = some x)
include asked

/-- DEGRADE_REPEAT 1 µs after the last request, within 100 µs of the first (R349). -/
theorem execDegradeRepeat_judged :
    exec (.degradeRepeat l t) s = .next
      (if x.2 + 1000 ≤ (s.tick t).now ∧ (s.tick t).now < x.1 + 100000 then (s.tick t).askDegrade l x.1 else s.tick t) := by
  simp only [exec, execDegradeRepeat]
  exact (onLink_judged hl (p := x.2 + 1000 ≤ (s.tick t).now ∧ (s.tick t).now < x.1 + 100000)
    (by simp only [asked, decide_eq_true_eq]) _).trans (by simp only [asked])

/-- DEGRADE_TIMEOUT 100 µs after the first request (R353). -/
theorem execDegradeTimeout_judged :
    exec (.degradeTimeout l t) s = .next
      (if x.1 + 100000 ≤ (s.tick t).now then (s.tick t).enterRetrain l 0x57 true else s.tick t) := by
  simp only [exec, execDegradeTimeout]
  exact onLink_judged hl (by simp only [asked, decide_eq_true_eq]) _

end Commands

/-! ### The obligation -/

/-- Settles O33: the three ways a failed lane ends (`State.laneFailed_noted`, `State.laneFailed_down`,
`State.laneFailed_asks`), and the two clocks of an unanswered request. -/
theorem failedLanesDegradeALink : Obligations.FailedLanesDegradeALink := by
  unfold Obligations.FailedLanesDegradeALink
  intro s l t hl s1 k ask fails
  have judged (why : LaneWhy) : laneFails why = true ↔ fails why := by
    cases why <;> simp [fails, laneFails]
  have narrower (lane : Nat) : s1.narrower l lane =
      chooseSet (s1.fullLanes l) (popcount 8 k.lanes) (k.good - (k.good &&& 2 ^ lane)) := by
    rw [State.narrower, State.link_dropLane]
  refine ⟨fun lane why live good failed => ?failed, fun lane why sound => ?sound, fun x asked => ?clock⟩
  case failed =>
    have run := outcome_of_pos (execLaneFail_judged hl lane why) ⟨live, good, (judged why).2 failed⟩
    exact ⟨fun idle => run.trans (congrArg _ (State.laneFailed_noted idle)), fun active stays trained =>
      ⟨fun none_ => run.trans (congrArg _ (State.laneFailed_down active stays trained ((narrower lane).trans none_))),
        fun _ some_ => run.trans (congrArg _ (State.laneFailed_asks active stays trained ((narrower lane).trans some_)))⟩⟩
  case sound =>
    refine outcome_of_neg (execLaneFail_judged hl lane why) fun ⟨_, good, failed⟩ => ?_
    exact sound.elim (fun lost => Bool.false_ne_true (lost.symm.trans good)) fun holds => holds ((judged why).1 failed)
  case clock =>
    have again := execDegradeRepeat_judged hl asked
    have ends := execDegradeTimeout_judged hl asked
    exact ⟨fun due inTime => outcome_of_pos again ⟨due, inTime⟩,
      fun early => outcome_of_neg again fun ⟨due, _⟩ => Nat.not_le.mpr early due,
      fun late => outcome_of_pos ends late, fun inTime => outcome_of_neg ends (Nat.not_le.mpr inTime)⟩

end Sys2Proof.Machine

/-!
PROOFS. BLOCK_RX: what a receiver does with a block, by the state of the link, the verdict and the sequence number (R332,
R334, R337, R348, R364).
-/
namespace Sys2Proof.Machine

/-! ### The states that hear a block (R364) -/

/-- The states in which a link takes blocks. -/
theorem LState.takes_iff (st : LState) : st.takes = true ↔ st = .discover ∨ st = .init ∨ st = .up ∨ st = .stopping := by
  simp only [LState.takes, decide_eq_true_eq]

/-- A link hears blocks where it takes them, and in RETRAIN. -/
theorem Link.live_iff (k : Link) : k.live = true ↔ k.st.takes = true ∨ k.st = .retrain := by
  simp only [Link.live, decide_eq_true_eq, LState.takes_iff, or_assoc]

/-- The test of the receiver for a link that hears. -/
theorem Link.hears_eq_live (k : Link) : (k.st.takes || decide (k.st = .retrain)) = k.live := by
  rw [Bool.eq_iff_iff, Link.live_iff, Bool.or_eq_true, decide_eq_true_eq]

section Receiver
variable {s : State} {l t : Nat} {b : Block} {fec : FecReport}

/-- Any other link does nothing with a block. -/
theorem State.blockRx_deaf (deaf : (s.link l).live = false) : s.blockRx l t b fec = s := by
  unfold State.blockRx
  rw [Link.hears_eq_live, deaf]
  rfl

/-- BLOCK_RX is the receiver's own decision, which does nothing on a link that does not hear. -/
theorem execBlockRx_eq (hl : l < Config.links) (s : State) (t : Nat) (b : Block) (fec : FecReport) :
    exec (.blockRx l b fec t) s = .next ((s.tick t).blockRx l t b fec) := by
  have run : exec (.blockRx l b fec t) s = .next
      (if ((s.tick t).link l).live = true then (s.tick t).blockRx l t b fec else s.tick t) := by
    simp only [exec, execBlockRx]
    exact onLink_judged hl Iff.rfl _
  cases live : ((s.tick t).link l).live with
  | true => exact outcome_of_pos run live
  | false => rw [State.blockRx_deaf live]; exact outcome_of_neg run (Bool.eq_false_iff.1 live)

/-! ### A bad block (R332, R334) -/

/-- What the FEC decoders report of a bad block, and the block itself, are counted. -/
def State.notedBad (s : State) (l : Nat) (fec : FecReport) : State := (s.fecNote l fec).count .badBlocks l 0

section Bad
variable (hears : (s.link l).live = true) (bad : fec.bad = true ∨ blockGood b = false)
include hears bad

/-- A bad block is counted; a link that still takes blocks asks for a replay once. -/
theorem State.blockRx_bad : s.blockRx l t b fec =
    if ((s.notedBad l fec).link l).st.takes = true ∧ ((s.notedBad l fec).link l).rxWait = false
    then (s.notedBad l fec).askReplay l else s.notedBad l fec := by
  have verdict : (fec.bad || !blockGood b) = true := by simpa using bad
  unfold State.blockRx
  simp only [Link.hears_eq_live, hears, verdict, if_true, Bool.not_true, Bool.false_eq_true, if_false]
  change (if (!((s.notedBad l fec).link l).st.takes) = true then s.notedBad l fec
    else if ((s.notedBad l fec).link l).rxWait = true then s.notedBad l fec else (s.notedBad l fec).askReplay l) = _
  cases ((s.notedBad l fec).link l).st.takes <;> cases ((s.notedBad l fec).link l).rxWait <;> rfl

end Bad

/-! ### A good block (R337, R348) -/

/-- What the trailer of a good block says of the link's own blocks and credits is used. -/
def State.trailerRx (s : State) (l : Nat) (b : Block) : State :=
  ((s.ackRx l (fld b.trailer 59 46) (bit b.trailer.toNat 94)).creditRx l (fld b.trailer 62 60) (fld b.trailer 66 63)
    (fld b.trailer 76 67)).creditRx l (fld b.trailer 79 77) (fld b.trailer 83 80) (fld b.trailer 93 84)

/-- A good block is taken by a link that still takes blocks after the FEC report. -/
theorem State.blockRx_good (hears : (s.link l).live = true) (clean : fec.bad = false) (good : blockGood b = true) :
    s.blockRx l t b fec =
      if ((s.fecNote l fec).link l).st.takes = true then (s.fecNote l fec).goodBlock l t b else s.fecNote l fec := by
  unfold State.blockRx
  simp only [Link.hears_eq_live, hears, clean, good, Bool.false_or, Bool.not_true, Bool.false_eq_true, if_false,
    Bool.not_false, if_true]
  cases ((s.fecNote l fec).link l).st.takes <;> rfl

section Good
variable {a : State} (trailer : s.trailerRx l b = a)
include trailer

/-- The sequenced block that is expected advances the receiver and ends WAIT. -/
theorem State.goodBlock_expected (next : fld b.trailer 45 32 = (a.link l).rxExp) (seqd : blockSeqd b = true) :
    s.goodBlock l t b = ((a.setLink l { a.link l with rxExp := (fld b.trailer 45 32 + 1) % 16384, rxWait := false }).count
      .blocksRx l 0).passFlits l t b := by
  subst trailer
  unfold State.goodBlock
  exact (if_pos next).trans (if_pos seqd)

/-- A block without sequenced content at the expected number is passed on alone. -/
theorem State.goodBlock_unsequenced (next : fld b.trailer 45 32 = (a.link l).rxExp) (seqd : blockSeqd b = false) :
    s.goodBlock l t b = a.passFlits l t b := by
  subst trailer
  unfold State.goodBlock
  exact (if_pos next).trans (if_neg (Bool.eq_false_iff.1 seqd))

/-- A sequenced block behind the expected one is a duplicate. -/
theorem State.goodBlock_duplicate (other : fld b.trailer 45 32 ≠ (a.link l).rxExp) (seqd : blockSeqd b = true)
    (behind : 8192 ≤ (fld b.trailer 45 32 + 16384 - (a.link l).rxExp) % 16384) :
    s.goodBlock l t b = a.count .dupBlocks l 0 := by
  subst trailer
  unfold State.goodBlock
  exact (if_neg other).trans (if_pos (by rw [seqd, Bool.true_and]; exact decide_eq_true behind))

/-- Any other block is discarded, and a receiver that does not wait asks for a replay. -/
theorem State.goodBlock_discarded (other : fld b.trailer 45 32 ≠ (a.link l).rxExp)
    (ahead : blockSeqd b = false ∨ (fld b.trailer 45 32 + 16384 - (a.link l).rxExp) % 16384 < 8192) :
    s.goodBlock l t b = if (a.link l).rxWait = true then a else a.askReplay l := by
  subst trailer
  have passes : ¬(blockSeqd b &&
      decide (8192 ≤ (fld b.trailer 45 32 + 16384 - ((s.trailerRx l b).link l).rxExp) % 16384)) = true := by
    rw [Bool.and_eq_true, decide_eq_true_eq]
    exact fun ⟨seqd, behind⟩ =>
      ahead.elim (fun plain => Bool.false_ne_true (plain.symm.trans seqd)) (Nat.not_lt.mpr behind)
  unfold State.goodBlock
  exact (if_neg other).trans (if_neg passes)

end Good
end Receiver

/-! ### The obligation -/

/-- Settles O31: what BLOCK_RX does by the state of the link, then by the verdict (`State.blockRx_bad`,
`State.blockRx_good`), then by the sequence number of a good block. -/
theorem receiverReplayStates : Obligations.ReceiverReplayStates := by
  unfold Obligations.ReceiverReplayStates
  intro s l t b fec hl s1 k takes bad u n kn a ka q ahead
  have takes_iff (st : LState) : st.takes = true ↔ takes st := st.takes_iff
  have run := execBlockRx_eq hl s t b fec
  have waitsNot {u : State} (waits : (u.link l).rxWait = true) : ¬((u.link l).st.takes = true ∧ (u.link l).rxWait = false) :=
    fun ⟨_, asks⟩ => Bool.false_ne_true (asks.symm.trans waits)
  have deafIn {st : LState} (retrain : st = .retrain) : ¬st.takes = true := fun h =>
    Bool.false_ne_true ((congrArg LState.takes retrain).symm.trans h)
  refine ⟨fun hears => ?takes, fun hears => ?retrain, fun deaf idle => ?deaf⟩
  case takes =>
    have live : k.live = true := (Link.live_iff _).2 (.inl ((takes_iff _).2 hears))
    refine ⟨fun wrong _ waits => ?_, fun wrong still asks => ?_, fun clean good still => ?_⟩
    · exact outcome_of_neg (run.trans (congrArg _ (State.blockRx_bad live wrong))) (waitsNot waits)
    · exact outcome_of_pos (run.trans (congrArg _ (State.blockRx_bad live wrong))) ⟨(takes_iff _).2 still, asks⟩
    · have taken := outcome_of_pos (run.trans (congrArg _ (State.blockRx_good live clean good))) ((takes_iff _).2 still)
      refine ⟨fun next seqd => taken.trans (congrArg _ (State.goodBlock_expected rfl next seqd)),
        fun next seqd => taken.trans (congrArg _ (State.goodBlock_unsequenced rfl next seqd)),
        fun other seqd behind => taken.trans (congrArg _ (State.goodBlock_duplicate rfl other seqd behind)), fun other early => ?_⟩
      have dropped := taken.trans (congrArg _ (State.goodBlock_discarded rfl other early))
      exact ⟨fun waits => outcome_of_pos dropped waits, fun asks => outcome_of_neg dropped (Bool.eq_false_iff.1 asks)⟩
  case retrain =>
    have live : k.live = true := (Link.live_iff _).2 (.inr hears)
    exact ⟨fun wrong still =>
        outcome_of_neg (run.trans (congrArg _ (State.blockRx_bad live wrong))) fun ⟨takes, _⟩ => deafIn still takes,
      fun clean good still => outcome_of_neg (run.trans (congrArg _ (State.blockRx_good live clean good))) (deafIn still)⟩
  case deaf =>
    refine run.trans (congrArg _ (State.blockRx_deaf (Bool.eq_false_iff.2 fun live => ?_)))
    exact ((Link.live_iff _).1 live).elim (fun h => deaf ((takes_iff _).1 h)) idle

end Sys2Proof.Machine

/-!
PROOFS. The sender's side of replay: its timers, the end of a retrain, and the block that goes next (R327, R336, R345, R347,
R348, R350, R359, R392, R486).
-/
namespace Sys2Proof.Machine

/-! ### REPLAY_TIMEOUT (R347, R359) -/

/-- COUNT of the replay that begins when the sender has waited for T_REPLAY (Table LNK-5). -/
def Link.nextReplay (k : Link) : Nat := if k.replay = 0 ∨ k.replayAt < k.ackAt then 1 else k.replay + 1

section Replay
variable {s : State} {l count : Nat} (holds : (s.link l).held ≠ [])
include holds

/-- A replay resends every held block; a link in STOPPING never runs out of replays. -/
theorem State.startReplay_resends (h : count < 9 ∨ (s.link l).st = .stopping) :
    s.startReplay l count = (s.setLink l { s.link l with resend := (s.link l).held, replay := count, replayAt := s.now }).count
      .replays l 0 := by
  have few : ¬(9 ≤ count ∧ (s.link l).st ≠ .stopping) := fun ⟨many, runs⟩ =>
    h.elim (fun lt => Nat.not_le.mpr lt many) runs
  unfold State.startReplay
  exact (if_neg (by simpa using holds)).trans (if_neg few)

/-- The ninth replay goes to RETRAIN. -/
theorem State.startReplay_retrains (many : 9 ≤ count) (runs : (s.link l).st ≠ .stopping) :
    s.startReplay l count = s.enterRetrain l 0x55 true := by
  unfold State.startReplay
  exact (if_neg (by simpa using holds)).trans (if_pos ⟨many, runs⟩)

end Replay

section Timers
variable {s : State} {l t : Nat} (hl : l < Config.links)
include hl

/-- REPLAY_TIMEOUT of held blocks without progress for T_REPLAY (R347). -/
theorem execReplayTimeout_judged :
    let s1 := s.tick t
    let k := s1.link l
    exec (.replayTimeout l t) s = .next
      (if (k.st = .up ∨ k.st = .stopping) ∧ k.held ≠ [] ∧ k.progressAt + k.tReplay ≤ s1.now
        then s1.startReplay l k.nextReplay else s1) := by
  simp only [exec, execReplayTimeout]
  exact onLink_judged hl decide_eq_true_iff _

/-- NAK_REPEAT T_REPLAY after the last NAK of a receiver in WAIT (R348). -/
theorem execNakRepeat_judged :
    let s1 := s.tick t
    let k := s1.link l
    exec (.nakRepeat l t) s = .next
      (if k.live = true ∧ k.rxWait = true ∧ k.nakAt + k.tReplay ≤ s1.now then s1.askReplay l else s1) := by
  simp only [exec, execNakRepeat]
  exact onLink_judged hl (by simp only [Bool.and_eq_true, decide_eq_true_eq, and_assoc]) _

/-- REPLAY_AGE_TIMEOUT looks at the oldest held block (R392). -/
theorem execReplayAgeTimeout_judged {h : HeldBlock} {rest : List HeldBlock} (held : ((s.tick t).link l).held = h :: rest) :
    let s1 := s.tick t
    let k := s1.link l
    exec (.replayAgeTimeout l t) s = .next
      (if (k.st = .up ∨ k.st = .retrain) ∧ h.at_ + 2000000 ≤ s1.now then s1.linkDown l 0x55 else s1) := by
  simp only [exec, execReplayAgeTimeout]
  exact onLink_judged hl (by simp only [held, Bool.and_eq_true, decide_eq_true_eq]) _

end Timers

/-! ### RETRAIN_DONE (R327, R350) -/

section Retrain
variable {s : State} {l t : Nat} (hl : l < Config.links) {x : Retrained} {ack : Nat}
include hl

/-- A link that is not in RETRAIN ignores the end of a retrain. -/
theorem execRetrainDone_elsewhere (other : ((s.tick t).link l).st ≠ .retrain) :
    exec (.retrainDone l x ack t) s = .next (s.tick t) := by
  simp only [exec, execRetrainDone]
  exact outcome_of_neg (onLink_judged hl decide_eq_true_iff _) other

variable (retrain : ((s.tick t).link l).st = .retrain)
include retrain

/-- More than 64 ns of skew takes it DOWN. -/
theorem execRetrainDone_skewed (skewed : 64 < x.skew) :
    exec (.retrainDone l x ack t) s = .next ((s.tick t).linkDown l 0x51) := by
  simp only [exec, execRetrainDone]
  exact (outcome_of_pos (onLink_judged hl decide_eq_true_iff _) retrain).trans (congrArg _ (if_pos skewed))

variable (aligned : ¬64 < x.skew)
include aligned

/-- Without a lane set, or without a HELLO of the partner that the link had, it goes DOWN. -/
theorem execRetrainDone_lost
    (lost : ((s.tick t).link l).retrainSet ((s.tick t).fullLanes l) (x.good &&& ((s.tick t).link l).good) = none ∨
      ∀ h old, x.hello = some h → ((s.tick t).link l).hello = some old → samePartner h old = false) :
    exec (.retrainDone l x ack t) s = .next ((s.tick t).linkDown l 0x50) := by
  simp only [exec, execRetrainDone]
  refine (outcome_of_pos (onLink_judged hl decide_eq_true_iff _) retrain).trans (congrArg _ ((if_neg aligned).trans ?_))
  split
  next set h old found came had =>
    obtain none_ | differs := lost
    · exact nomatch none_.symm.trans found
    · exact if_neg fun ⟨same, _⟩ => Bool.false_ne_true ((differs h old came had).symm.trans same)
  next => rfl

/-- With a lane set and the partner that it had it resends from the ACK reported, and is UP (R327, R350). -/
theorem execRetrainDone_resumes {set : Nat} {h old : BitVec 512}
    (found : ((s.tick t).link l).retrainSet ((s.tick t).fullLanes l) (x.good &&& ((s.tick t).link l).good) = some set)
    (came : x.hello = some h) (had : ((s.tick t).link l).hello = some old) (same : samePartner h old = true)
    (sent : ((s.tick t).link l).readySent = true) (ready : ((s.tick t).link l).ready.isSome = true) :
    let k := (s.tick t).link l
    let u := ((s.tick t).setLink l { k with good := x.good &&& k.good, lanes := set, unit := 0, hello := some h }).ackRx l
      (ack % 16384) false
    let w := u.setLink l { u.link l with
      resend := (u.link l).held, replay := if (u.link l).held.isEmpty then 0 else 1, replayAt := u.now }
    exec (.retrainDone l x ack t) s = .next
      ((w.toState l .up (if (u.link l).lanes = u.fullLanes l then 0 else 0x57)).linkEvent l) := by
  simp only [exec, execRetrainDone]
  refine (outcome_of_pos (onLink_judged hl decide_eq_true_iff _) retrain).trans (congrArg _ ((if_neg aligned).trans ?_))
  simp only [found, came, had]
  exact if_pos ⟨same, sent, ready⟩

end Retrain

/-! ### BLOCK_TX (R336, R345, R347, R486) -/

/-- BLOCK_TX of a link that sends blocks; a header parity error comes first (R486). -/
theorem execBlockTx_judged {s : State} {l t : Nat} (hl : l < Config.links) (parity : Option Nat) :
    let s1 := s.tick t
    exec (.blockTx l parity t) s = .next
      (if (s1.link l).live = true
        then drainWait ((match parity with | none => s1 | some v => if v < 8 then s1.headerParity l v else s1).blockTx l)
        else s1) := by
  simp only [exec, execBlockTx]
  exact onLink_judged hl Iff.rfl _

section Block
variable {s : State} {l : Nat}

/-- With a full replay buffer and no word waiting the block is empty. -/
theorem State.blockTx_full (fresh : (s.link l).resend = []) (silent : (s.link l).uctl = [])
    (full : s.replayCap l ≤ (s.link l).held.length) : s.blockTx l = s.sendBlock l [] 0 false none := by
  unfold State.blockTx
  simp only [fresh, silent, Nat.not_lt.mpr full, List.isEmpty_nil, Bool.not_true, Bool.false_and, Bool.and_false,
    decide_false, Bool.false_eq_true, if_false]

variable (traffic : (s.link l).st = .up ∨ (s.link l).st = .stopping)
include traffic

/-- A link that carries traffic sends and receives blocks. -/
theorem Link.live_of_traffic : (s.link l).live = true := by
  obtain st | st := traffic <;> simp [Link.live, st]

/-- A block to be resent goes before any new one. -/
theorem State.blockTx_resends {h : HeldBlock} {rest : List HeldBlock} (old : (s.link l).resend = h :: rest) :
    s.blockTx l = s.sendOld l h rest := by
  unfold State.blockTx
  simp only [old, traffic, decide_true]

end Block

/-! ### The obligation -/

/-- Settles O32: the three timers of a sender, the three ends of a retrain, and what BLOCK_TX sends first. -/
theorem senderReplayStates : Obligations.SenderReplayStates := by
  unfold Obligations.SenderReplayStates
  intro s l t hl s1 k tReplay traffic count
  refine ⟨fun moves holds due => ?replay, fun early => ?early, fun live waits due => ?nak, fun h rest st held => ?age,
    fun retrain good skew ack => ?retrained,
    fun other good skew hello ack => execRetrainDone_elsewhere hl other,
    fun moves h rest old => ?old, fun moves fresh silent full => ?full, fun moves v hv => ?parity, fun parity dead => ?dead⟩
  case replay =>
    have run := outcome_of_pos (execReplayTimeout_judged hl) ⟨moves, holds, due⟩
    exact ⟨fun few => run.trans (congrArg _ (State.startReplay_resends holds few)),
      fun many up => run.trans (congrArg _ (State.startReplay_retrains holds many fun stops => nomatch up.symm.trans stops))⟩
  case early =>
    exact outcome_of_neg (execReplayTimeout_judged hl) fun ⟨_, holds, due⟩ =>
      early.elim holds fun lt => Nat.not_le.mpr lt due
  case nak => exact outcome_of_pos (execNakRepeat_judged hl) ⟨live, waits, due⟩
  case age =>
    have run := execReplayAgeTimeout_judged hl held
    exact ⟨fun old => outcome_of_pos run ⟨st, old⟩, fun young => outcome_of_neg run fun ⟨_, old⟩ => Nat.not_le.mpr young old⟩
  case retrained =>
    intro g lanes same
    have differ {h old : BitVec 512} (other : ¬same h old) : samePartner h old = false := decide_eq_false other
    refine ⟨fun skewed hello => execRetrainDone_skewed hl retrain skewed, fun le => ?_⟩
    have aligned : ¬64 < skew := Nat.not_lt.mpr le
    refine ⟨fun set h old found had partner sent ready => ?_, fun h old had other => ?_, fun none_ hello => ?_, ?_⟩
    · have run := execRetrainDone_resumes hl (x := ⟨good, skew, some h⟩) (ack := ack) retrain aligned found rfl had
        (decide_eq_true partner) sent ready
      simpa only [List.isEmpty_iff] using run
    · refine execRetrainDone_lost hl retrain aligned (.inr fun h' old' came had' => ?_)
      cases came
      cases had.symm.trans had'
      exact differ other
    · exact execRetrainDone_lost hl retrain aligned (.inl none_)
    · exact execRetrainDone_lost hl retrain aligned (.inr fun h _ came => (Option.some_ne_none h came.symm).elim)
  case old =>
    exact (outcome_of_pos (execBlockTx_judged hl none) (Link.live_of_traffic moves)).trans
      (congrArg _ (congrArg drainWait (State.blockTx_resends moves old)))
  case full =>
    exact (outcome_of_pos (execBlockTx_judged hl none) (Link.live_of_traffic moves)).trans
      (congrArg _ (congrArg drainWait (State.blockTx_full fresh silent full)))
  case parity =>
    exact (outcome_of_pos (execBlockTx_judged hl (some v)) (Link.live_of_traffic moves)).trans
      (congrArg _ (congrArg (fun u : State => drainWait (u.blockTx l)) (if_pos hv)))
  case dead => exact outcome_of_neg (execBlockTx_judged hl parity) (Bool.eq_false_iff.1 dead)

end Sys2Proof.Machine

/-!
PROOFS. One selection on a channel and its limits: OUTPUT_ARBITRATION, HOLD_CUT, STARVE and PACKET_AGE_TIMEOUT (R344, R355,
R392, R401, R418, R424, R425, R435).
-/
namespace Sys2Proof.Machine

section Channel
variable {s : State} {l v t : Nat} (hl : l < Config.links) (hv : v < 8)
include hl hv

/-- A command of a channel that exists completes. -/
theorem onUnit_chan (u : State) : onUnit (decide (l < Config.links ∧ v < 8)) u = .next u := by
  rw [onUnit, if_pos (decide_eq_true ⟨hl, hv⟩)]

/-! ### OUTPUT_ARBITRATION (R344, R401, R419, R435) -/

/-- What becomes of a channel by its link: it keeps what is in progress, gives its packets up, drops what its VC waits for,
or takes its next packet. -/
theorem execOutputArbitration_judged :
    let s1 := s.tick t
    let k := s1.link l
    exec (.outputArbitration l v t) s = .next (drainWait (
      if k.st = .stopping then s1.flushLink l true
      else if ¬(k.st = .up ∨ k.st = .retrain) ∨ k.disc ≠ .used then s1.flushLink l false
      else if bit (k.ready.getD 0) v = false then s1.dropVc l v
      else fillPre l v 300 (s1.arbitrate l v))) := by
  simp only [exec, execOutputArbitration, onUnit_chan hl hv, apply_ite drainWait, Bool.not_eq_true', decide_eq_false_iff_not]

/-! ### HOLD_CUT (R355, R424) -/

/-- The owner of a channel cut at the hold limit, counted and reported; the arbiter then selects. -/
def State.cutOwner (s : State) (l v : Nat) (o : Nat × Nat) : State :=
  let u := (s.endCopy o.1 o.2 (some (s.cutCause o.1))).count .holdCuts l 0
  drainWait (((u.event evHoldCut 0 (l + v <<< 16) (u.linkParts l)).health hHoldCut 1).arbitrate l v)

/-- HOLD_CUT of an owner: it is cut once the limit is reached with room in the prefetch and flits left. -/
theorem execHoldCut_judged {o : Nat × Nat} (owner : ((s.tick t).chan l v).owner = some o) (cycles : Nat) :
    let s1 := s.tick t
    exec (.holdCut l v cycles t) s = .next
      (if s1.holdUs l * 1100 ≤ cycles ∧ (s1.chan l v).pre.length < preCap v ∧ s1.leftToMove o ≠ 0
        then s1.cutOwner l v o else s1) := by
  simp only [exec, execHoldCut, onUnit_chan hl hv, owner, Bool.and_eq_true, decide_eq_true_eq, and_assoc]
  rfl

/-- A channel without an owner has nothing to cut. -/
theorem execHoldCut_free (free : ((s.tick t).chan l v).owner = none) (cycles : Nat) :
    exec (.holdCut l v cycles t) s = .next (s.tick t) := by
  simp only [exec, execHoldCut, onUnit_chan hl hv, free]

/-! ### STARVE (R425) -/

/-- The copy `i` of a packet noted as starved and counted. -/
def State.starved (s : State) (l v : Nat) (b : BufPkt) (i : Nat) : State :=
  (s.setBufPkt b (b.modCopy i fun x => { x with starved := true })).count .starveEvents l v

/-- The flag of a channel set and reported, unless it is set already. -/
def State.starveOnce (u : State) (l v : Nat) : State :=
  if (u.chan l v).starve = true then u
  else (u.setChan l v { u.chan l v with starve := true }).event evStarve 0 (l + v <<< 16)
    ((u.setChan l v { u.chan l v with starve := true }).linkParts l)

/-- STARVE of a standing request: it is counted once, when it has waited beyond the threshold. -/
theorem execStarve_judged {id i : Nat} {b : BufPkt} {cp : Copy} (buf : (s.tick t).bufOf id = some b)
    (first : (b.copies.findIdx? fun x => decide (x.link = l ∧ x.vc = v) && !x.started) = some i) (copy : b.copies[i]? = some cp)
    (stands : (((s.tick t).requests l v).any fun r => decide (r.id = id)) = true) :
    let s1 := s.tick t
    exec (.starve l v id t) s = .next
      (if (cp.since.any fun x => decide (x + s1.starveNs l < s1.now)) = true ∧ cp.starved = false
        then (s1.starved l v b i).starveOnce l v else s1) := by
  simp only [exec, execStarve, onUnit_chan hl hv, buf, first, copy, stands, Bool.and_eq_true, Bool.not_eq_true', and_true]
  rfl

end Channel

/-! ### PACKET_AGE_TIMEOUT (R392) -/

section Age
variable {s : State} {id : Nat}

/-- A packet of which no prefetch holds a flit is old in the buffer alone. -/
theorem State.ageChans_absent (absent : ∀ x ∈ s.sw.chans, ∀ f ∈ x.2.pre, f.id ≠ id) :
    s.sw.chans.foldl (fun u x => u.ageChan id x) s = s := by
  refine List.foldlRecOn (motive := fun u => u = s) _ _ rfl fun u hu x hx => ?_
  have none_ : ¬((x.2.pre.any fun f => f.head && decide (f.id = id ∧ f.n ≠ 0 ∧ f.at_ + 7000000 ≤ u.now)) &&
      !(x.2.pre.any fun f => decide (f.id = id ∧ f.n = 0))) = true := by
    simp only [Bool.and_eq_true, List.any_eq_true, decide_eq_true_eq, not_and]
    rintro ⟨f, hf, -, same, -⟩
    exact absurd same (absent x hx f hf)
  unfold State.ageChan
  exact (if_neg none_).trans hu

/-- The one copy of a packet, still whole in the buffer, ends 7 ms after its head was accepted. -/
theorem State.ageBuf_single {b : BufPkt} {cp : Copy} (buf : s.bufOf id = some b) (single : b.copies = [cp])
    (whole : cp.moved = 0) (idx : Nat) :
    s.ageBuf id idx = if b.at_ + 7000000 ≤ s.now then (s.endCopy id 0 none).count .aged idx 0 else s := by
  simp only [State.ageBuf, buf, single, List.zipIdx_cons, List.zipIdx_nil, List.foldl_cons, List.foldl_nil, whole, if_true]

/-- PACKET_AGE_TIMEOUT of a packet with one copy, whose head has not left the buffer. -/
theorem execPacketAgeTimeout_single {t : Nat} {b : BufPkt} {cp : Copy} (buf : (s.tick t).bufOf id = some b)
    (single : b.copies = [cp]) (whole : cp.moved = 0) (absent : ∀ x ∈ (s.tick t).sw.chans, ∀ f ∈ x.2.pre, f.id ≠ id) :
    let s1 := s.tick t
    exec (.packetAgeTimeout id t) s = .next (drainWait
      (if b.at_ + 7000000 ≤ s1.now then (s1.endCopy id 0 none).count .aged b.acct.idx 0 else s1)) := by
  simp only [exec, execPacketAgeTimeout, State.ageChans_absent absent, buf, State.ageBuf_single buf single whole]

end Age

/-! ### The obligation -/

/-- Settles O36: the four outcomes of a selection, and the three limits of a channel and its packets. -/
theorem channelsSelectAndLimit : Obligations.ChannelsSelectAndLimit := by
  unfold Obligations.ChannelsSelectAndLimit
  intro s l v t hl hv s1 k c carries
  have selects := execOutputArbitration_judged (s := s) (t := t) hl hv
  have runs (h : carries) : k.st ≠ .stopping := fun stops => by
    obtain up | retrain := h
    · exact nomatch up.symm.trans stops
    · exact nomatch retrain.symm.trans stops
  have opens (ready : bit (k.ready.getD 0) v = true) : ¬bit (k.ready.getD 0) v = false := fun shut =>
    Bool.false_ne_true (shut.symm.trans ready)
  have planned (h : carries) (used : k.disc = .used) : ¬(¬carries ∨ k.disc ≠ .used) := fun bad => bad.elim (· h) (· used)
  refine ⟨fun stops => ?stops, fun stays dead => ?dead, fun live used absent => ?absent, fun live used ready => ?ready,
    fun o cycles owner => ?hold, fun cycles free => execHoldCut_free hl hv free cycles,
    fun id b i cp buf first copy stands => ?starve, fun id b cp buf single whole absent => ?age⟩
  case stops => exact selects.trans (congrArg _ (congrArg drainWait (if_pos stops)))
  case dead => exact selects.trans (congrArg _ (congrArg drainWait ((if_neg stays).trans (if_pos dead))))
  case absent =>
    exact selects.trans (congrArg _ (congrArg drainWait
      ((if_neg (runs live)).trans ((if_neg (planned live used)).trans (if_pos absent)))))
  case ready =>
    exact selects.trans (congrArg _ (congrArg drainWait
      ((if_neg (runs live)).trans ((if_neg (planned live used)).trans (if_neg (opens ready))))))
  case hold =>
    have run := execHoldCut_judged hl hv owner cycles
    exact ⟨fun late room left => outcome_of_pos run ⟨late, room, left⟩,
      fun early => outcome_of_neg run fun ⟨late, _⟩ => Nat.not_le.mpr early late⟩
  case starve =>
    have run := execStarve_judged hl hv buf first copy stands
    refine ⟨fun a since waited fresh => ?_, fun rests => outcome_of_neg run fun ⟨waited, fresh⟩ => ?_⟩
    · have counted := outcome_of_pos run ⟨by simpa [since] using waited, fresh⟩
      exact ⟨fun flagged => counted.trans (congrArg _ (if_pos flagged)),
        fun clear => counted.trans (congrArg _ (if_neg (Bool.eq_false_iff.1 clear)))⟩
    · obtain inTime | noted := rests
      · obtain ⟨a, since, late⟩ := (Option.any_eq_true _ _).1 waited
        exact Nat.not_lt.mpr (inTime a since) (of_decide_eq_true late)
      · exact Bool.false_ne_true (fresh.symm.trans noted)
  case age =>
    have run := execPacketAgeTimeout_single buf single whole absent
    exact ⟨fun old => run.trans (congrArg _ (congrArg drainWait (if_pos old))),
      fun young => run.trans (congrArg _ (congrArg drainWait (if_neg (Nat.not_le.mpr young))))⟩

end Sys2Proof.Machine

/-!
SUPPORT. What the traffic through the part and the reports of the MP leave alone of the links: everything but the packets being
received, the credits to be returned, the hold, the sample count and the discovery state (R246, R342, R401, R436). A lemma
`f_wires` says that `f` changes nothing else of any link.
-/
namespace Sys2Proof.Machine

/-! ### The links beside their traffic -/

/-- A link without what its traffic and its neighbour's discovery write. -/
def Link.wire (k : Link) : Link :=
  { k with rx := [], rxq := [], freed := [], dirty := [], hold := [], sampCnt := 0, disc := .used }

/-- Every link, as far as traffic and reports leave it alone. -/
def State.wires (s : State) : Nat → Link := fun l => (s.link l).wire

theorem State.wire_of_wires {s t : State} (h : t.wires = s.wires) (l : Nat) : (t.link l).wire = (s.link l).wire := congrFun h l

/-- A link changed in what traffic may change. -/
theorem State.setLink_wires {s : State} {l : Nat} {k : Link} (h : k.wire = (s.link l).wire) :
    (s.setLink l k).wires = s.wires := by
  funext j
  unfold State.wires
  by_cases n : l = j
  · rw [← n, State.link_setLink, h]
  · rw [State.link_setLink_other s n]

@[simp] theorem ite_wires {c : Prop} [Decidable c] (a b : State) : (if c then a else b).wires = if c then a.wires else b.wires :=
  apply_ite _ _ _ _

@[simp] theorem ite_wires_fst {β : Type} {c : Prop} [Decidable c] (a b : State × β) :
    (if c then a else b).1.wires = if c then a.1.wires else b.1.wires :=
  apply_ite (fun x : State × β => x.1.wires) _ _ _

theorem foldl_wires {α : Type} {f : State → α → State} (h : ∀ s x, (f s x).wires = s.wires) (xs : List α) (s : State) :
    (xs.foldl f s).wires = s.wires :=
  List.foldlRecOn (motive := fun u => u.wires = s.wires) xs f rfl fun u hu x _ => (h u x).trans hu

theorem foldl_wires_fst {α β : Type} {f : State × β → α → State × β} (h : ∀ x a, (f x a).1.wires = x.1.wires) (xs : List α)
    (x : State × β) : (xs.foldl f x).1.wires = x.1.wires :=
  List.foldlRecOn (motive := fun u => u.1.wires = x.1.wires) xs f rfl fun u hu a _ => (h u a).trans hu

/-! ### The packet buffer -/

@[simp] theorem State.count_wires (s : State) (c : Ctr) (i j : Nat) : (s.count c i j).wires = s.wires := rfl
@[simp] theorem State.setChan_wires (s : State) (l v : Nat) (c : Chan) : (s.setChan l v c).wires = s.wires := rfl
@[simp] theorem State.setWfq_wires (s : State) (l : Nat) (w : Wfq) : (s.setWfq l w).wires = s.wires := rfl

@[simp] theorem State.freeCredits_wires (s : State) (l vc pool n : Nat) : (s.freeCredits l vc pool n).wires = s.wires := by
  unfold State.freeCredits
  split
  · rfl
  · exact State.setLink_wires rfl

@[simp] theorem release_wires (s : State) (b : BufPkt) (n : Nat) : (release s b n).wires = s.wires := by
  unfold release
  split
  · split
    · rfl
    · exact s.freeCredits_wires _ _ _ _
  · rfl

@[simp] theorem State.beginRequests_wires (s : State) (l v : Nat) : (s.beginRequests l v).wires = s.wires := by
  unfold State.beginRequests
  exact foldl_wires (fun _ _ => by rfl) _ _

@[simp] theorem State.noteDepth_wires (s : State) (l v : Nat) : (s.noteDepth l v).wires = s.wires := by
  unfold State.noteDepth
  dsimp only
  split <;> rfl

@[simp] theorem evict_wires (s : State) (b : BufPkt) : (evict s b).wires = s.wires :=
  (foldl_wires (fun _ _ => by rw [State.beginRequests_wires, State.count_wires]) _ _).trans (release_wires _ _ _)

@[simp] theorem pushOut_wires (d n k : Nat) (s : State) : (pushOut d n k s).wires = s.wires := by
  induction k generalizing s with
  | zero => rfl
  | succ k ih =>
    rw [pushOut]
    split
    · rfl
    · split
      · rfl
      · rw [ih, evict_wires]

theorem makeRoom_wires {s t : State} {d vc n : Nat} {a : Acct} (h : makeRoom s d vc a n = some t) : t.wires = s.wires := by
  unfold makeRoom at h
  split at h
  · cases h
  · split at h
    · cases h; rfl
    · split at h
      · split at h
        · cases h; rfl
        · cases h
      · cases h; exact pushOut_wires _ _ _ _

@[simp] theorem State.putBuf_wires (s : State) (b : BufPkt) : (s.putBuf b).wires = s.wires :=
  foldl_wires (fun _ _ => (State.noteDepth_wires _ _ _).trans (State.beginRequests_wires _ _ _)) _ _

@[simp] theorem State.setBufPkt_wires (s : State) (old new : BufPkt) : (s.setBufPkt old new).wires = s.wires :=
  (foldl_wires (fun _ _ => State.beginRequests_wires _ _ _) _ _).trans (release_wires _ _ _)

@[simp] theorem State.endCopy_wires (s : State) (id k : Nat) (cause : Option Nat) : (s.endCopy id k cause).wires = s.wires := by
  unfold State.endCopy
  split
  · rfl
  · split
    · rfl
    · dsimp only
      split
      · rfl
      · exact State.setBufPkt_wires _ _ _

@[simp] theorem State.endPacket_wires (s : State) (id cause : Nat) : (s.endPacket id cause).wires = s.wires := by
  have copies (n : Nat) : ((List.range n).foldl (fun s k => s.endCopy id k (some cause)) s).wires = s.wires :=
    foldl_wires (fun _ _ => by simp) _ _
  unfold State.endPacket
  split
  · rfl
  · dsimp only
    split <;> exact copies _

/-! ### Packets on their way -/

@[simp] theorem State.toTrail_wires (s : State) (i plane : Nat) (p : Packet) : (s.toTrail i plane p).wires = s.wires := by
  have sent (f : Frame) : (s.trailPut f).wires = s.wires := by
    unfold State.trailPut
    split <;> rfl
  have woken : (s.wakeFirst plane).wires = s.wires := by
    unfold State.wakeFirst
    split
    · rfl
    · split
      · exact sent _
      · rfl
  unfold State.toTrail
  dsimp only
  split <;> exact woken

@[simp] theorem deliverUnit_wires (s : State) (src : From) (vc : Nat) (p : Packet) (bad : Bool) (h : Hit) :
    (deliverUnit s src vc p bad h).wires = s.wires := by
  cases h with
  | trail plane => exact State.toTrail_wires _ _ _ _
  | drop _ | cluster _ | mp | port _ _ => rfl

@[simp] theorem portCopies_wires (s : State) (r : Option Route) (exempt : Bool) (hs : List (BitVec 256 × Hit)) (vc : Nat) :
    (portCopies s r exempt hs vc).1.wires = s.wires :=
  foldl_wires_fst (fun _ _ => by
    split
    · dsimp only
      split <;> split <;> rfl
    · rfl) _ _

@[simp] theorem State.noteCopies_wires (s : State) (i : Nat) (h : BitVec 256) (hs : List (BitVec 256 × Hit)) :
    (s.noteCopies i h hs).wires = s.wires := by
  unfold State.noteCopies
  dsimp only
  split <;> rfl

@[simp] theorem State.releaseLate_wires (s : State) (h : BitVec 256) : (s.releaseLate h).wires = s.wires := by
  unfold State.releaseLate
  split
  · rfl
  · split <;> rfl

@[simp] theorem holdTbarrier_wires (s : State) (cps : List Copy) (p : Packet) : (holdTbarrier s cps p).1.wires = s.wires := by
  unfold holdTbarrier
  split
  · rfl
  · refine foldl_wires_fst (fun x k => ?_) _ _
    dsimp only
    split
    · split
      · exact State.setLink_wires rfl
      · exact x.1.releaseLate_wires _
    · rfl

theorem place_wires {s t : State} {o : OutPkt} (h : place s o = some t) : t.wires = s.wires := by
  have told (u : State) (hs : List (BitVec 256 × Hit)) (vc : Nat) :
      (hs.foldl (fun u x => deliverUnit u .inside vc { o.pkt with hdr := x.1 } false x.2) u).wires = u.wires :=
    foldl_wires (fun _ _ => deliverUnit_wires _ _ _ _ _ _) _ _
  unfold place at h
  dsimp only at h
  split at h
  all_goals
    split at h
    · cases h
      exact (holdTbarrier_wires _ _ _).trans ((portCopies_wires _ _ _ _ _).trans ((State.noteCopies_wires _ _ _ _).trans
        (told _ _ _)))
    · obtain ⟨u, room, rfl⟩ := Option.map_eq_some_iff.mp h
      exact (State.putBuf_wires _ _).trans ((makeRoom_wires room).trans ((holdTbarrier_wires _ _ _).trans
        ((portCopies_wires _ _ _ _ _).trans ((State.noteCopies_wires _ _ _ _).trans (told _ _ _)))))

@[simp] theorem originate_wires (s : State) (o : OutPkt) : (originate s o).wires = s.wires := by
  unfold originate
  dsimp only
  split
  · rfl
  · cases h : place s o with
    | none => rfl
    | some t => exact place_wires h

@[simp] theorem State.fromMp_wires (s : State) (vc part : Nat) (p : Packet) : (s.fromMp vc part p).wires = s.wires :=
  originate_wires _ _

@[simp] theorem State.fromCluster_wires (s : State) (cl vc part : Nat) (p : Packet) (refusal : Bool) :
    (s.fromCluster cl vc part p refusal).wires = s.wires := originate_wires _ _

/-! ### Packets that arrive -/

@[simp] theorem State.sampled_wires (s : State) (src : From) (vc : Nat) (counts : Bool) (hs : List Hit) (p : Packet) :
    (s.sampled src vc counts hs p).wires = s.wires := by
  have sample (u : State) (l o : Nat) : (u.sample l vc o p).wires = u.wires := by
    unfold State.sample
    split <;> rfl
  have tick (l : Nat) : (s.sampleTick l vc counts hs p).wires = s.wires := by
    unfold State.sampleTick
    dsimp only
    split
    · rfl
    · split
      · exact State.setLink_wires rfl
      · rw [sample]; exact State.setLink_wires rfl
  cases src with
  | link l => exact tick l
  | trail | inside => rfl

@[simp] theorem enter_wires (s : State) (src : From) (vin vc total got : Nat) (p : Packet) (bad : Bool) (r : Option Route)
    (hs : List (BitVec 256 × Hit)) : (enter s src vin vc total got p bad r hs).1.wires = s.wires := by
  have told : (hs.foldl (fun s x => deliverUnit s src vc { p with hdr := x.1 } bad x.2) s).wires = s.wires :=
    foldl_wires (fun _ _ => deliverUnit_wires _ _ _ _ _ _) _ _
  unfold enter
  dsimp only
  repeat' split
  all_goals simp [told]

@[simp] theorem bootRefusal_wires (s : State) (p : Packet) : (bootRefusal s p).wires = s.wires := by
  unfold bootRefusal
  split <;> simp

@[simp] theorem fawnArrive_wires (s : State) (l tp : Nat) (r : Route) (vc : Nat) (p : Packet) (bad : Bool) :
    (fawnArrive s l tp r vc p bad).wires = s.wires := by
  unfold fawnArrive
  split <;> simp

@[simp] theorem answerUnknown_wires (s : State) (src : From) (hs : List (BitVec 256 × Hit)) :
    (answerUnknown s src hs).wires = s.wires := by
  have answered (u : State) (cl vc part : Nat) (p : Packet) : (u.sendAnswer cl vc part p).wires = u.wires := by
    unfold State.sendAnswer
    split <;> simp
  refine foldl_wires (fun _ _ => ?_) _ _
  split
  · exact answered _ _ _ _ _
  · rfl

@[simp] theorem arrive_wires (s : State) (src : From) (vc total got : Nat) (p : Packet) (bad : Bool) :
    (arrive s src vc total got p bad).1.wires = s.wires := by
  unfold arrive
  split
  · simp
  · split
    · simp
    · split <;> simp

/-! ### Reports of the MP -/

@[simp] theorem State.eventTo_wires (s : State) (m code status op seq detail : Nat) :
    (s.eventTo m code status op seq detail).wires = s.wires := by
  unfold State.eventTo
  dsimp only
  split
  · exact State.fromMp_wires _ _ _ _
  · split <;> rfl

@[simp] theorem State.event_wires (s : State) (code status detail : Nat) (parts : List Nat) :
    (s.event code status detail parts).wires = s.wires := by
  unfold State.event
  split
  · exact foldl_wires (fun _ _ => State.eventTo_wires _ _ _ _ _ _ _) _ _
  · rfl

@[simp] theorem State.complete_wires (s : State) (r : Req) (status detail : Nat) :
    (s.complete r status detail).wires = s.wires := by
  unfold State.complete
  split
  · exact foldl_wires (fun _ _ => State.eventTo_wires _ _ _ _ _ _ _) _ _
  · rfl

@[simp] theorem State.health_wires (s : State) (row n : Nat) : (s.health row n).wires = s.wires := by
  unfold State.health
  split <;> rfl

@[simp] theorem State.reevalF_wires (s : State) : s.reevalF.wires = s.wires := by
  have degraded (u : State) (r : Route) (f : List Nat) : (u.partDegraded r f).wires = u.wires :=
    foldl_wires (fun _ _ => by
      split
      · exact (State.health_wires _ _ _).trans (State.event_wires _ _ _ _ _)
      · rfl) _ _
  unfold State.reevalF
  refine (foldl_wires (fun _ _ => ?_) _ _).trans rfl
  dsimp only
  split
  · rfl
  · exact degraded _ _ _

/-! ### What a link that stops does beside its own fields -/

@[simp] theorem State.setDisc_wires (s : State) (l : Nat) (d : Disc) : (s.setDisc l d).wires = s.wires := by
  have noted : (s.setLink l { s.link l with disc := d }).wires = s.wires := State.setLink_wires rfl
  unfold State.setDisc
  dsimp only
  split
  · exact noted
  · rw [State.reevalF_wires]
    cases d with
    | used => exact noted
    | extra => exact (State.event_wires _ _ _ _ _).trans noted
    | wrong | missing => exact (State.health_wires _ _ _).trans ((State.event_wires _ _ _ _ _).trans noted)

@[simp] theorem State.linkEvent_wires (s : State) (l : Nat) : (s.linkEvent l).wires = s.wires := State.event_wires _ _ _ _ _

@[simp] theorem State.rehome_wires (s : State) (b : BufPkt) (k : Nat) (cp : Copy) : (s.rehome b k cp).wires = s.wires := by
  unfold State.rehome
  split
  · split
    · rw [State.setBufPkt_wires]; rfl
    · simp
  · simp

@[simp] theorem State.ingressAll_wires (s : State) (l : Nat) : (s.ingressAll l).wires = s.wires := by
  unfold State.ingressAll
  refine (foldl_wires (fun _ _ => ?_) _ _).trans (State.setLink_wires rfl)
  dsimp only
  split <;> simp

@[simp] theorem State.cutIngress_wires (s : State) (l cause : Nat) : (s.cutIngress l cause).wires = s.wires := by
  unfold State.cutIngress
  dsimp only
  rw [State.setLink_wires (by rfl)]
  refine foldl_wires (fun _ _ => ?_) _ _
  split <;> simp

@[simp] theorem State.staleCells_wires (s : State) (l : Nat) : (s.staleCells l).wires = s.wires := rfl

@[simp] theorem State.flushLink_wires (s : State) (l : Nat) (keep : Bool) : (s.flushLink l keep).wires = s.wires := by
  unfold State.flushLink
  dsimp only
  refine (foldl_wires (fun _ _ => foldl_wires (fun _ _ => ?_) _ _) _ _).trans ?_
  · repeat' split
    all_goals simp
  · rw [ite_wires, State.setWfq_wires, ite_self]
    refine foldl_wires (fun _ _ => ?_) _ _
    cases keep with
    | true =>
      simp only [if_true, State.setChan_wires]
      repeat' split
      all_goals simp
    | false =>
      simp only [Bool.false_eq_true, if_false, ite_wires, State.count_wires, State.setChan_wires, ite_self]
      repeat' split
      all_goals simp

end Sys2Proof.Machine

/-!
PROOFS. A link that stops and a link that goes DOWN: STOPPING_ABORT_TIMEOUT, STOPPING_DONE, and what is left of the link (R355,
R358, R359).
-/
namespace Sys2Proof.Machine

/-! ### What is left of a link -/

/-- A link that goes DOWN forgets the blocks that it holds, its credits and what it was about to send (R358). -/
def Link.forget (k : Link) : Link :=
  { k with held := [], resend := [], replay := 0, cred := [], freed := [], dirty := [], ctl := [], uctl := [],
           degrade := none, awaited := none }

/-- The link just moved to a state. -/
@[simp] theorem State.link_toState (s : State) (l : Nat) (st : LState) (cause : Nat) :
    (s.toState l st cause).link l = { s.link l with st := st, cause := cause, since := s.now } := State.link_setLink _ _ _

/-- The COMPLETION of a PORT_ENABLE changes the lifecycle of a link alone. -/
theorem State.completeEnable_wire (s : State) (l status : Nat) :
    ∃ f : Fn, ((s.completeEnable l status).link l).wire = { (s.link l).wire with fn := f } := by
  unfold State.completeEnable
  dsimp only
  split
  · exact ⟨_, rfl⟩
  · exact ⟨_, (State.wire_of_wires (State.complete_wires _ _ _ _) l).trans (by rw [State.link_setLink]; rfl)⟩

/-- A link that goes DOWN is moved there with its books forgotten; what comes after only reports it. -/
theorem State.linkDown_eq (s : State) (l cause : Nat) : ∃ u v : State,
    v.wires = ((u.setLink l (u.link l).forget).toState l .down cause).wires ∧ s.linkDown l cause = v.completeEnable l cause := by
  refine ⟨(((s.ingressAll l).cutIngress l 0x50).staleCells l).countN .lostBlocks l 0 (s.link l).held.length, _, ?_, rfl⟩
  simp only [State.linkEvent_wires, ite_wires, State.setDisc_wires, State.health_wires, ite_self, State.flushLink_wires]
  rfl

/-- A link that goes DOWN has forgotten its replay buffer and its credits. -/
theorem State.linkDown_link (s : State) (l cause : Nat) :
    let k := (s.linkDown l cause).link l
    k.st = .down ∧ k.cause = cause ∧ k.held = [] ∧ k.cred = [] := by
  obtain ⟨u, v, same, run⟩ := s.linkDown_eq l cause
  obtain ⟨f, wire⟩ := v.completeEnable_wire l cause
  rw [State.wire_of_wires same, State.link_toState, State.link_setLink] at wire
  rw [run]
  exact ⟨(congrArg Link.st wire :), (congrArg Link.cause wire :), (congrArg Link.held wire :), (congrArg Link.cred wire :)⟩

/-- A link that enters DISABLED without a start that waits for it is fresh. -/
theorem State.linkOff_link {s : State} {l : Nat} (alone : (s.link l).fn.queued = none) (stays : (s.link l).restart = false) :
    ((s.linkOff l).link l).st = .disabled ∧ ((s.linkOff l).link l).held = [] := by
  have before : ((((s.ingressAll l).cutIngress l 0x5A).staleCells l).link l).wire = (s.link l).wire :=
    State.wire_of_wires (by simp) l
  have queued : ((((s.ingressAll l).cutIngress l 0x5A).staleCells l).link l).fn.queued = none :=
    (congrArg (fun k : Link => k.fn.queued) before :).trans alone
  have restart : ((((s.ingressAll l).cutIngress l 0x5A).staleCells l).link l).restart = false :=
    (congrArg Link.restart before :).trans stays
  have same : ∃ u : State, (s.linkOff l).wires = (u.setLink l
      { (u.link l).fresh with st := .disabled, since := u.now, fn := {}, restart := false }).wires := by
    refine ⟨((s.ingressAll l).cutIngress l 0x5A).staleCells l, ?_⟩
    unfold State.linkOff
    simp only [queued, restart, Bool.false_eq_true, if_false]
    exact (State.linkEvent_wires _ _).trans ((foldl_wires (fun _ _ => State.complete_wires _ _ _ _) _ _).trans
      ((State.setDisc_wires _ _ _).trans ((State.flushLink_wires _ _ _).trans rfl)))
  obtain ⟨u, same⟩ := same
  have wire := State.wire_of_wires same l
  rw [State.link_setLink] at wire
  exact ⟨(congrArg Link.st wire :), (congrArg Link.held wire :)⟩

/-! ### The commands (R355, R359) -/

section Commands
variable {s : State} {l t : Nat} (hl : l < Config.links)
include hl

/-- STOPPING_ABORT_TIMEOUT 10 µs after STOPPING began (R359). -/
theorem execStoppingAbortTimeout_judged :
    let s1 := s.tick t
    let k := s1.link l
    exec (.stoppingAbortTimeout l t) s = .next
      (if k.st = .stopping ∧ k.since + 10000 ≤ s1.now then (List.range 8).foldl (fun u v => u.abortChan l v) s1 else s1) := by
  simp only [exec, execStoppingAbortTimeout]
  exact onLink_judged hl decide_eq_true_iff _

/-- STOPPING_DONE of an idle link whose blocks are acknowledged, or T_REPLAY after the last new one (R359). -/
theorem execStoppingDone_judged :
    let s1 := s.tick t
    let k := s1.link l
    exec (.stoppingDone l t) s = .next
      (if k.st = .stopping ∧ s1.linkIdle l = true ∧ (k.held = [] ∨ k.lastSent + k.tReplay ≤ s1.now)
        then s1.linkOff l else s1) := by
  simp only [exec, execStoppingDone]
  exact onLink_judged hl (by simp only [Bool.and_eq_true, Bool.or_eq_true, decide_eq_true_eq, List.isEmpty_iff, and_assoc]) _

end Commands

/-! ### The obligation -/

/-- Settles O30: what a link in STOPPING waits for, and what is left of a link that goes DOWN or enters DISABLED
(`State.linkDown_link`, `State.linkOff_link`). -/
theorem linksStopAndGoDown : Obligations.LinksStopAndGoDown := by
  unfold Obligations.LinksStopAndGoDown
  intro s l t hl s1 k
  have done := execStoppingDone_judged (s := s) (t := t) hl
  refine ⟨fun stops => ⟨fun due => ?_, fun early => ?_, fun idle sent => ?_, fun busy => ?_⟩, fun runs => ?_,
    fun cause => s1.linkDown_link l cause, fun alone stays => State.linkOff_link alone stays⟩
  · exact outcome_of_pos (execStoppingAbortTimeout_judged hl) ⟨stops, due⟩
  · exact outcome_of_neg (execStoppingAbortTimeout_judged hl) fun ⟨_, due⟩ => Nat.not_le.mpr early due
  · exact outcome_of_pos done ⟨stops, idle, sent⟩
  · exact outcome_of_neg done fun ⟨_, idle, _⟩ => Bool.false_ne_true (busy.symm.trans idle)
  · exact outcome_of_neg done fun ⟨stops, _⟩ => runs stops

end Sys2Proof.Machine

/-!
PROOFS. The training of a link, state by state (R327, R349, R352, R359): what each command of the training waits for, then
the obligation.
-/
namespace Sys2Proof.Machine

/-! ### The links after a step of the training -/

/-- A link moved to a state leaves the others alone. -/
theorem State.link_toState_other (s : State) {l j : Nat} (n : j ≠ l) (st : LState) (cause : Nat) :
    (s.toState l st cause).link j = s.link j := State.link_setLink_other s (Ne.symm n) _

/-- The link that queues a HELLO. -/
@[simp] theorem State.link_sendHello (s : State) (l : Nat) :
    (s.sendHello l).link l = { s.link l with uctl := (s.link l).uctl ++ [s.helloFlit l], helloAt := s.now } :=
  State.link_setLink _ _ _

/-- The link that queues a TSYNC. -/
@[simp] theorem State.link_queueTsync (s : State) (l : Nat) :
    (s.queueTsync l).link l = { s.link l with uctl := (s.link l).uctl ++ [0x20], tsAt := s.now } := State.link_setLink _ _ _

/-- HELLO and TSYNC queued on a link leave the others alone. -/
theorem State.link_greet_other (s : State) {l j : Nat} (n : j ≠ l) : ((s.sendHello l).queueTsync l).link j = s.link j :=
  (State.link_setLink_other _ (Ne.symm n) _).trans (State.link_setLink_other s (Ne.symm n) _)

/-! ### Lanes judged (R327, R352, R359) -/

/-- The lanes of a link judged: it is in the next state on a lane set, and no other link is touched. -/
structure State.Trained (s v : State) (l good : Nat) (next : LState) (set : Nat) : Prop where
  st : (v.link l).st = next
  lanes : (v.link l).lanes = set
  good : (v.link l).good = good &&& s.fullLanes l
  since : (v.link l).since = s.now
  others : ∀ j, j ≠ l → v.link j = s.link j

section Judge
variable {s : State} {l good : Nat} {next : LState}

/-- Without a lane set the training fails. -/
theorem State.judgeLanes_none (none_ : chooseSet (s.fullLanes l) 8 (good &&& s.fullLanes l) = none) :
    s.judgeLanes l good next = s.linkDown l 0x51 := by
  simp only [State.judgeLanes, none_]

/-- With a lane set the training goes on. -/
theorem State.judgeLanes_some {set : Nat} (some_ : chooseSet (s.fullLanes l) 8 (good &&& s.fullLanes l) = some set) :
    s.Trained (s.judgeLanes l good next) l good next set := by
  simp only [State.judgeLanes, some_]
  constructor
  case others =>
    intro j n
    rw [State.link_toState_other _ n, State.link_setLink_other s (Ne.symm n)]
  all_goals rw [State.link_toState, State.link_setLink]
  rfl

/-- DISCOVER entered: HELLO and TSYNC begin (R359). -/
def State.discoverLanes (s : State) (l good : Nat) : State :=
  let u := s.judgeLanes l good .discover
  if (u.link l).st = .discover then (u.sendHello l).queueTsync l else u

/-- Without a lane set DISCOVER is not entered. -/
theorem State.discoverLanes_none (none_ : chooseSet (s.fullLanes l) 8 (good &&& s.fullLanes l) = none) :
    s.discoverLanes l good = s.linkDown l 0x51 := by
  have down : ((s.linkDown l 0x51).link l).st = .down := (s.linkDown_link l 0x51).1
  simp only [State.discoverLanes, State.judgeLanes_none none_, down]
  rfl

/-- With a lane set the link is in DISCOVER. -/
theorem State.discoverLanes_some {set : Nat} (some_ : chooseSet (s.fullLanes l) 8 (good &&& s.fullLanes l) = some set) :
    s.Trained (s.discoverLanes l good) l good .discover set := by
  have judged := State.judgeLanes_some (next := .discover) some_
  unfold State.discoverLanes
  simp only [judged.st, if_true]
  constructor
  case others => exact fun j n => (State.link_greet_other _ n).trans (judged.others j n)
  all_goals rw [State.link_queueTsync, State.link_sendHello]
  · exact judged.st
  · exact judged.lanes
  · exact judged.good
  · exact judged.since

end Judge

/-! ### A link that starts (R349, R359) -/

/-- A link that starts in a running part, on an engine that has light, is fresh and in SIGNAL. -/
theorem State.startLink_signal {s : State} {l : Nat} (runs : s.roe.c6 = false) (light : s.roe.laser.contains (engineOf l) = false) :
    ((s.startLink l).link l).st = .signal ∧ ((s.startLink l).link l).good = 0 := by
  have start : s.startLink l = s.enterSignal l := by
    unfold State.startLink
    exact (if_neg (Bool.eq_false_iff.1 runs)).trans (if_neg (Bool.eq_false_iff.1 light))
  rw [start, State.enterSignal, State.link_toState, State.link_setLink]
  exact ⟨rfl, rfl⟩

/-! ### The commands -/

section Commands
variable {s : State} {l t : Nat} (hl : l < Config.links)
include hl

/-- SIGNAL_DETECT in SIGNAL (R359). -/
theorem execSignalDetect_judged :
    let s1 := s.tick t
    let k := s1.link l
    exec (.signalDetect l t) s = .next (if k.st = .signal then s1.toState l .equalise k.cause else s1) := by
  simp only [exec, execSignalDetect]
  exact onLink_judged hl decide_eq_true_iff _

/-- EQUALISE_DONE in EQUALISE (R351, R352). -/
theorem execEqualiseDone_judged (good : Nat) :
    let s1 := s.tick t
    exec (.equaliseDone l good t) s = .next (if (s1.link l).st = .equalise then s1.judgeLanes l good .fecLock else s1) := by
  simp only [exec, execEqualiseDone]
  exact onLink_judged hl decide_eq_true_iff _

/-- EQUALISE_TIMEOUT 20 ms after EQUALISE began (R359). -/
theorem execEqualiseTimeout_judged (good : Nat) :
    let s1 := s.tick t
    let k := s1.link l
    exec (.equaliseTimeout l good t) s = .next
      (if k.st = .equalise ∧ k.since + 20000000 ≤ s1.now then s1.judgeLanes l good .fecLock else s1) := by
  simp only [exec, execEqualiseTimeout]
  exact onLink_judged hl decide_eq_true_iff _

/-- FEC_LOCK_DONE in FEC_LOCK: more than 64 ns of skew fails the training (R327). -/
theorem execFecLockDone_judged (good skew : Nat) :
    let s1 := s.tick t
    let k := s1.link l
    exec (.fecLockDone l ⟨good, skew⟩ t) s = .next
      (if k.st = .fecLock then (if 64 < skew then s1.linkDown l 0x51 else s1.discoverLanes l (good &&& k.good)) else s1) := by
  simp only [exec, execFecLockDone]
  exact onLink_judged hl decide_eq_true_iff _

/-- FEC_LOCK_TIMEOUT at 1 ms (R359). -/
theorem execFecLockTimeout_judged :
    let s1 := s.tick t
    let k := s1.link l
    exec (.fecLockTimeout l t) s = .next
      (if k.st = .fecLock ∧ k.since + 1000000 ≤ s1.now then s1.linkDown l 0x51 else s1) := by
  simp only [exec, execFecLockTimeout]
  exact onLink_judged hl decide_eq_true_iff _

/-- DISCOVER_TIMEOUT at 1 ms (R359). -/
theorem execDiscoverTimeout_judged :
    let s1 := s.tick t
    let k := s1.link l
    exec (.discoverTimeout l t) s = .next
      (if k.st = .discover ∧ k.since + 1000000 ≤ s1.now then s1.linkDown l 0x51 else s1) := by
  simp only [exec, execDiscoverTimeout]
  exact onLink_judged hl decide_eq_true_iff _

/-- INIT_TIMEOUT at 100 µs (R359). -/
theorem execInitTimeout_judged :
    let s1 := s.tick t
    let k := s1.link l
    exec (.initTimeout l t) s = .next
      (if k.st = .init ∧ k.since + 100000 ≤ s1.now then s1.linkDown l 0x51 else s1) := by
  simp only [exec, execInitTimeout]
  exact onLink_judged hl decide_eq_true_iff _

/-- LINK_RESTART of a link that has been DOWN for 1 s, in a part that has not stopped (R349, R475). -/
theorem execLinkRestart_judged :
    let s1 := s.tick t
    let k := s1.link l
    exec (.linkRestart l t) s = .next
      (if (k.st = .down ∧ k.since + 1000000000 ≤ s1.now) ∧ s1.roe.c6 = false then s1.startLink l else s1) := by
  simp only [exec, execLinkRestart]
  exact onLink_judged hl (by simp only [Bool.and_eq_true, Bool.not_eq_true', decide_eq_true_eq]) _

/-- HELLO_REPEAT, with a TSYNC while DISCOVER has not measured the loop (R346, R349). -/
theorem execHelloRepeat_judged :
    let s1 := s.tick t
    let k := s1.link l
    exec (.helloRepeat l t) s = .next
      (if (k.st = .discover ∨ k.st = .retrain) ∧ k.helloAt + 10000 ≤ s1.now
        then (if k.st = .discover ∧ k.looped = false then (s1.sendHello l).queueTsync l else s1.sendHello l) else s1) := by
  simp only [exec, execHelloRepeat]
  exact (onLink_judged hl decide_eq_true_iff _).trans (by simp only [State.link_sendHello])

end Commands

/-! ### Clauses of the obligation -/

/-- A command that judges the lanes ends with TRAIN_FAIL or goes on, as the lane set of R352 decides. -/
theorem trains_or_fails {o : Out State} {s v : State} {l good : Nat} {next : LState} (run : o = .next v)
    (fails : chooseSet (s.fullLanes l) 8 (good &&& s.fullLanes l) = none → v = s.linkDown l 0x51)
    (goesOn : ∀ {set}, chooseSet (s.fullLanes l) 8 (good &&& s.fullLanes l) = some set → s.Trained v l good next set) :
    (chooseSet (s.fullLanes l) 8 (good &&& s.fullLanes l) = none → o = .next (s.linkDown l 0x51)) ∧
    (∀ set, chooseSet (s.fullLanes l) 8 (good &&& s.fullLanes l) = some set → ∃ v, o = .next v ∧ (v.link l).st = next ∧
      (v.link l).lanes = set ∧ (v.link l).good = good &&& s.fullLanes l ∧ (v.link l).since = s.now ∧
      ∀ j, j ≠ l → v.link j = s.link j) :=
  ⟨fun none_ => run.trans (congrArg _ (fails none_)), fun _ some_ =>
    have trained := goesOn some_
    ⟨v, run, trained.st, trained.lanes, trained.good, trained.since, trained.others⟩⟩

/-- A state of the training ends at its time limit. -/
theorem ends_at_limit {o : Out State} {u s : State} {p : Prop} [Decidable p] {limit : Nat}
    (run : o = .next (if p ∧ limit ≤ s.now then u else s)) (h : p) :
    (limit ≤ s.now → o = .next u) ∧ (s.now < limit → o = .next s) :=
  ⟨fun late => outcome_of_pos run ⟨h, late⟩, fun early => outcome_of_neg run fun ⟨_, late⟩ => Nat.not_le.mpr early late⟩

/-! ### The obligation -/

/-- Settles O29: the lanes judged in EQUALISE and FEC_LOCK (`trains_or_fails`), the time limits (`ends_at_limit`), the restart
and the repeated HELLO. -/
theorem linksTrainStateByState : Obligations.LinksTrainStateByState := by
  unfold Obligations.LinksTrainStateByState
  intro s l good t hl s1 k full judged same
  have detect := execSignalDetect_judged (s := s) (t := t) hl
  have lock := execFecLockDone_judged (s := s) (t := t) hl
  have restart := execLinkRestart_judged (s := s) (t := t) hl
  have hello := execHelloRepeat_judged (s := s) (t := t) hl
  refine ⟨fun st => ?detect, fun st => ?equalise, fun st late => ?timeout, fun st skew => ?lock, ?limits,
    fun st late runs => ?restart, fun st due => ?hello, fun discover retrain => ?silent,
    fun other => outcome_of_neg detect other, fun other => outcome_of_neg (execEqualiseDone_judged hl good) other,
    fun other skew => outcome_of_neg (lock good skew) other, fun other => outcome_of_neg restart fun ⟨⟨st, _⟩, _⟩ => other st⟩
  case detect =>
    exact ⟨_, outcome_of_pos detect st, congrArg Link.st (State.link_toState _ _ _ _), fun j n => State.link_toState_other _ n _ _⟩
  case equalise =>
    exact trains_or_fails (outcome_of_pos (execEqualiseDone_judged hl good) st) State.judgeLanes_none State.judgeLanes_some
  case timeout =>
    exact trains_or_fails (outcome_of_pos (execEqualiseTimeout_judged hl good) ⟨st, late⟩) State.judgeLanes_none
      State.judgeLanes_some
  case lock =>
    have run := outcome_of_pos (lock good skew) st
    exact ⟨fun skewed => outcome_of_pos run skewed, fun aligned =>
      trains_or_fails (outcome_of_neg run (Nat.not_lt.mpr aligned)) State.discoverLanes_none State.discoverLanes_some⟩
  case limits =>
    refine List.forall_mem_cons.2 ⟨fun st => ?_, List.forall_mem_cons.2 ⟨fun st => ?_, List.forall_mem_singleton.2 fun st => ?_⟩⟩
    · exact ends_at_limit (execFecLockTimeout_judged hl) st
    · exact ends_at_limit (execDiscoverTimeout_judged hl) st
    · exact ends_at_limit (execInitTimeout_judged hl) st
  case restart =>
    exact ⟨outcome_of_pos restart ⟨⟨st, late⟩, runs⟩, fun light => State.startLink_signal runs light⟩
  case hello =>
    have run := outcome_of_pos hello ⟨st, due⟩
    refine ⟨fun settled => outcome_of_neg run fun ⟨discover, unmeasured⟩ => ?_, fun unmeasured discover => ?_⟩
    · obtain measured | retrain := settled
      · exact Bool.false_ne_true (unmeasured.symm.trans measured)
      · exact nomatch discover.symm.trans retrain
    · refine ⟨_, outcome_of_pos run ⟨discover, unmeasured⟩, ?_, ?_, ?_, fun j n => State.link_greet_other _ n⟩
      all_goals rw [State.link_queueTsync, State.link_sendHello]
      · exact List.append_assoc _ _ _
      · rfl
  case silent => exact outcome_of_neg hello fun ⟨st, _⟩ => st.elim discover retrain

end Sys2Proof.Machine

/-!
PROOFS. What a link sends and watches on its own: TSYNC, the DIGEST word, and the two silences that it reports (R401, R452, R472,
R473).
-/
namespace Sys2Proof.Machine

/-! ### Choices by equivalent conditions -/

/-- Two choices agree when their conditions and their branches do. -/
theorem ite_of_iff {α : Type} {p q : Prop} [Decidable p] [Decidable q] {a b u v : α} (h : p ↔ q) (yes : a = u) (no : b = v) :
    (if p then a else b) = if q then u else v :=
  ite_congr (propext h) (fun _ => yes) fun _ => no

/-! ### The commands of one link -/

/-- The newest route map is no link's. -/
@[simp] theorem State.newest_setLink (s : State) (l : Nat) (k : Link) : (s.setLink l k).newest = s.newest := rfl

section OneLink
variable {s : State} {l t : Nat} (hl : l < Config.links)
include hl

/-- TSYNC_SEND on a link that is UP, 16 µs after its last TSYNC; a grandmaster's Trail source is served either way (R452). -/
theorem execTsyncSend_judged :
    let s1 := s.tick t
    let k := s1.link l
    exec (.tsyncSend l t) s = .next
      (if k.st = .up ∧ k.tsAt + 16000 ≤ s1.now then s1.queueTsync l else s1).trailTsyncTick := by
  simp only [exec, execTsyncSend, onUnit, hl, decide_true, if_true]
  exact congrArg _ (congrArg State.trailTsyncTick (when_eq_ite decide_eq_true_iff _ _))

/-- DIGEST_MISSING on a link that is UP and USED, two heartbeats after its last DIGEST word (R473). -/
theorem execDigestMissing_judged :
    let s1 := s.tick t
    let k := s1.link l
    exec (.digestMissing l t) s = .next (
      if k.st = .up ∧ k.disc = .used ∧ max k.since (k.digAt.getD 0) + 2000000 ≤ s1.now then
        ((s1.setLink l { k with digAt := some s1.now, digCmp := 4, digLasting := false }).count .digestMissing l 0).event
          evDigestMissing 0 l (s1.linkParts l)
      else s1) := by
  simp only [exec, execDigestMissing]
  exact onLink_judged hl decide_eq_true_iff _

/-- NEIGHBOUR_MISSING_TIMEOUT 1 s after a PORT_ENABLE whose end is awaited, on a link where the newest route map expects a
neighbour: the link is MISSING (R401). -/
theorem execNeighbourMissingTimeout_expected {a : Nat} {r : Route} (awaited : ((s.tick t).link l).awaited = some a)
    (newest : (s.tick t).newest = some r) (expected : fld (r.nbr l) 39 32 ≠ 0xFF) :
    let s1 := s.tick t
    exec (.neighbourMissingTimeout l t) s = .next (
      if a + 1000000000 ≤ s1.now then (s1.setLink l { s1.link l with awaited := none }).setDisc l .missing else s1) := by
  simp only [exec, execNeighbourMissingTimeout]
  refine (onLink_judged hl (by simp only [awaited, decide_eq_true_eq]) _).trans (congrArg _ (ite_of_iff Iff.rfl ?_ rfl))
  simp only [State.newest_setLink, newest, if_neg expected]

/-- Without a PORT_ENABLE that is awaited no neighbour is missed. -/
theorem execNeighbourMissingTimeout_settled (settled : ((s.tick t).link l).awaited = none) :
    exec (.neighbourMissingTimeout l t) s = .next (s.tick t) := by
  simp only [exec, execNeighbourMissingTimeout]
  exact (onLink_judged hl (by simp only [settled]) _).trans (congrArg _ (if_neg Bool.false_ne_true))

end OneLink

/-! ### The heartbeat (R472) -/

section Heartbeat
variable (s : State)

/-- A broadcast frame goes into the Trail's transmit queue: the links and the time stay. -/
@[simp] theorem State.trailCast_links (type : Nat) (payload : List Byte) : (s.trailCast type payload).links = s.links := by
  rw [State.trailCast, State.trailPut, apply_ite State.links]
  exact ite_self _

@[simp] theorem State.trailCast_time (type : Nat) (payload : List Byte) : (s.trailCast type payload).time = s.time := by
  rw [State.trailCast, State.trailPut, apply_ite State.time]
  exact ite_self _

/-- FT hangs on the part's time alone. -/
theorem State.ftNow_of_time {s u : State} (h : u.time = s.time) : u.ftNow = s.ftNow := by
  simp only [State.ftNow, State.ftAt, State.now, h]

/-- The DIGEST word `w` queued on a link. -/
def State.queueDigest (w : BitVec 128) (s : State) (l : Nat) : State :=
  s.setLink l { s.link l with uctl := (s.link l).uctl ++ [BitVec.ofNat 512 w.toNat] }

/-- The part's DIGEST word queued on every UP link. -/
def State.linksBeat : State :=
  ((s.links.filter fun p => decide (p.2.st = .up)).map (·.1)).foldl (State.queueDigest s.digestWord) s

/-- The part's DIGEST word on every UP link and over the Trail. -/
def State.beats : State := s.linksBeat.trailCast 3 (toLE 16 s.digestWord.toNat)

@[simp] theorem State.beats_links : s.beats.links = s.linksBeat.links := State.trailCast_links _ _ _

@[simp] theorem State.beats_time : s.beats.time = s.time :=
  (State.trailCast_time _ _ _).trans
    (List.foldlRecOn (motive := fun u : State => u.time = s.time) _ _ rfl fun _ same _ _ => same)

/-- DIGEST_HEARTBEAT once in each millisecond of FT. -/
theorem execDigestHeartbeat_judged (t : Nat) :
    let s1 := s.tick t
    exec (.digestHeartbeat t) s = .next (
      if s1.ftNow / 1000000 ≠ s1.mp.digAt / 1000000
      then { s1.beats with mp := { s1.beats.mp with digAt := s1.beats.ftNow } } else s1) := by
  simp only [exec, execDigestHeartbeat]
  exact congrArg _ (when_eq_ite decide_eq_true_iff _ _)

end Heartbeat

/-! ### The obligation -/

/-- Settles O34: each clause is one branch of the equation of its command; a heartbeat changes the links by the words it queues
alone (`State.beats_links`). -/
theorem linkHeartbeats : Obligations.LinkHeartbeats := by
  unfold Obligations.LinkHeartbeats
  intro s l t s1 k
  have beat := execDigestHeartbeat_judged s t
  refine ⟨fun hl => ⟨?due, ?idle, ?silent, ?unwatched, ?missing, ?found⟩,
    fun same => outcome_of_neg beat (not_not_intro same), fun next => ?beat⟩
  case due =>
    exact fun up late => (execTsyncSend_judged hl).trans
      (congrArg _ (congrArg State.trailTsyncTick (if_pos ⟨up, late⟩)))
  case idle =>
    exact fun idle => (execTsyncSend_judged hl).trans
      (congrArg _ (congrArg State.trailTsyncTick (if_neg fun ⟨up, late⟩ => idle.elim (· up) (Nat.not_lt.mpr late))))
  case silent => exact fun up used late => outcome_of_pos (execDigestMissing_judged hl) ⟨up, used, late⟩
  case unwatched =>
    exact fun off => outcome_of_neg (execDigestMissing_judged hl) fun ⟨up, used, _⟩ => off.elim (· up) (· used)
  case missing =>
    exact fun a r awaited newest late expected =>
      outcome_of_pos (execNeighbourMissingTimeout_expected hl awaited newest expected) late
  case found => exact execNeighbourMissingTimeout_settled hl
  case beat =>
    have run := outcome_of_pos beat next
    exact ⟨_, run, State.ftNow_of_time s1.beats_time, execDigestHeartbeat_keep t s _ run, s1.beats_links⟩

end Sys2Proof.Machine

/-!
PROOFS. What the switch does by its clock: superseded routing sets, shapers, gate lists, the depth copies of a die and congestion
maps (R386, R389, R430, R431, R434, R439).
-/
namespace Sys2Proof.Machine

/-! ### Shapers (R430, R431) -/

section Shapers
variable (s : State)

/-- The output channel just written. -/
@[simp] theorem State.chan_setChan (l v : Nat) (c : Chan) : (s.setChan l v c).chan l v = c := AMap.at_put_same _ _ _ _

/-- The tokens of a channel after its refill under an enabled entry. -/
theorem State.refill_tokens (l v n : Nat) {e : BitVec 64} (enabled : shEn e = true) :
    ((s.refill l v n e).chan l v).tokens = some (min (shBurst e : Int)
      (if shEn (s.shaper l v) = true then (s.chan l v).tokens.getD (shBurst (s.shaper l v)) + n * shRate e else shBurst e)) := by
  simp only [State.refill, enabled, Bool.not_true, Bool.false_eq_true, if_false, State.chan_setChan]

/-- A refill writes its output channel alone. -/
theorem State.refill_eq (l v n : Nat) (e : BitVec 64) :
    ∃ chans, s.refill l v n e = { s with sw := { s.sw with chans := chans } } := by
  unfold State.refill
  dsimp only
  split
  · split
    · exact ⟨_, rfl⟩
    · exact ⟨_, rfl⟩
  · exact ⟨_, rfl⟩

/-- The refills of a plan's entries leave the time, the links and the packet buffer alone. -/
theorem State.refills_frame (n : Nat) (ents : List ((Nat × Nat) × BitVec 64)) :
    let u := ents.foldl (fun u x => u.refill x.1.1 x.1.2 n x.2) s
    u.time = s.time ∧ u.links = s.links ∧ u.sw.buf = s.sw.buf := by
  refine List.foldlRecOn (motive := fun u : State => u.time = s.time ∧ u.links = s.links ∧ u.sw.buf = s.sw.buf) _ _
    ⟨rfl, rfl, rfl⟩ fun u same x _ => ?_
  obtain ⟨chans, refilled⟩ := u.refill_eq x.1.1 x.1.2 n x.2
  rw [refilled]
  exact same

/-- SHAPER_REFILL once in each 256 ns: it notes its time and leaves the links and the packet buffer alone. -/
theorem execShaperRefill_due {t : Nat} (due : (s.tick t).ftNow / 256 ≠ (s.tick t).sw.refillAt / 256) :
    let s1 := s.tick t
    ∃ v, exec (.shaperRefill t) s = .next v ∧ v.sw.refillAt = s1.ftNow ∧ v.keep = s.keep ∧ v.links = s1.links ∧
      v.sw.buf = s1.sw.buf := by
  have run : exec (.shaperRefill t) s = .next _ := congrArg Host.Outcome.next (if_pos (decide_eq_true due))
  have frame := (s.tick t).refills_frame (max 1 ((s.tick t).ftNow / 256 - (s.tick t).sw.refillAt / 256))
  exact ⟨_, run, State.ftNow_of_time (frame _).1, execShaperRefill_keep t s _ run, (frame _).2.1, (frame _).2.2⟩

/-- SHAPER_REFILL twice in the same 256 ns. -/
theorem execShaperRefill_done {t : Nat} (done : (s.tick t).ftNow / 256 = (s.tick t).sw.refillAt / 256) :
    exec (.shaperRefill t) s = .next (s.tick t) :=
  congrArg Host.Outcome.next (if_neg (mt of_decide_eq_true (not_not_intro done)))

end Shapers

/-! ### Gate lists (R434) -/

/-- GATE_TAKEOVER of a committed list: from its TAKEOVER on it is in force. -/
theorem execGateTakeover_judged {s : State} {l t : Nat} (hl : l < Config.links) {g : BitVec 128 × List (BitVec 64)}
    (next : (s.tick t).sw.gateNext.find l = some g) (set : (s.tick t).ftSet = true) :
    let s1 := s.tick t
    exec (.gateTakeover l t) s = .next (if fld g.1 63 0 ≤ s1.ftNow then s1.setGate l (fld g.1 63 0) g else s1) := by
  simp only [exec, execGateTakeover, onUnit, hl, decide_true, if_true, next, set, true_and]

/-- A list with entries that is put into force is the one that its link then runs. -/
theorem State.setGate_gates {s : State} {l base : Nat} {g : BitVec 128 × List (BitVec 64)} (some_ : (gateRun base g).ents ≠ []) :
    (s.setGate l base g).sw.gates.find l = some (gateRun base g) := by
  have nonempty : ¬(gateRun base g).ents.isEmpty = true := mt List.isEmpty_iff.1 some_
  simp only [State.setGate, if_neg nonempty, AMap.find_put, if_true]

/-! ### Depth copies (R386) -/

/-- A table filled from a list of distinct keys holds at each the value put there. -/
theorem foldl_put_at {ι κ α : Type} [DecidableEq ι] [DecidableEq κ] {key : ι → κ} (inj : ∀ x y, key x = key y → x = y)
    (val : ι → α) (d : α) {x : ι} (xs : List ι) (m : AMap κ α) (h : x ∈ xs ∨ m.at (key x) d = val x) :
    (xs.foldl (fun m y => m.put (key y) (val y)) m).at (key x) d = val x := by
  induction xs generalizing m with
  | nil => exact h.resolve_left List.not_mem_nil
  | cons y ys ih =>
    refine ih _ ?_
    by_cases same : y = x
    · exact .inr (by rw [same, AMap.at_put_same])
    · refine h.imp (fun mem => (List.mem_cons.1 mem).resolve_left (Ne.symm same)) fun held => ?_
      rw [AMap.at_put_other _ (mt (inj y x) same), held]

section Depths
variable (s : State) (r : Route) (d : Nat)

/-- The up-links with their VCs. -/
def upChannels : List (Nat × Nat) := (List.range 32).flatMap fun u => (List.range 8).map fun v => (u, v)

theorem mem_upChannels {u v : Nat} (hu : u < 32) (hv : v < 8) : (u, v) ∈ upChannels :=
  List.mem_flatMap.2 ⟨u, List.mem_range.2 hu, List.mem_map.2 ⟨v, List.mem_range.2 hv, rfl⟩⟩

/-- The depth copies of a die with every up-link's present depth. -/
def State.depthTable : AMap (Nat × Nat × Nat) Nat :=
  upChannels.foldl (fun q x => q.put (d, x.1, x.2) (s.voq (r.upLink x.1) x.2)) s.sw.q

/-- The copies are those of the up-links' depths. -/
theorem State.depthTable_at {u v : Nat} (hu : u < 32) (hv : v < 8) :
    (s.depthTable r d).at (d, u, v) 0 = s.voq (r.upLink u) v :=
  foldl_put_at (key := fun x : Nat × Nat => (d, x.1, x.2)) (fun _ _ same => (Prod.mk.inj same).2)
    (fun x => s.voq (r.upLink x.1) x.2) 0 (x := (u, v)) upChannels _ (.inl (mem_upChannels hu hv))

/-- The depth copies replaced. -/
def State.setCopies (q : AMap (Nat × Nat × Nat) Nat) : State := { s with sw := { s.sw with q := q } }

@[simp] theorem State.setCopies_links (q : AMap (Nat × Nat × Nat) Nat) : (s.setCopies q).links = s.links := rfl

@[simp] theorem State.setCopies_q (q : AMap (Nat × Nat × Nat) Nat) : (s.setCopies q).sw.q = q := rfl

/-- QU_REFRESH fills the copies of the die: no put reads another. -/
theorem execQuRefresh_of_route (hd : d < 4) (newest : s.newest = some r) :
    exec (.quRefresh d) s = .next (s.setCopies (s.depthTable r d)) := by
  simp only [exec, execQuRefresh, onUnit, hd, decide_true, if_true, newest]
  rw [State.depthTable, upChannels, List.foldl_flatMap]
  simp only [List.foldl_map]
  exact congrArg _ (List.foldl_hom s.setCopies fun _ _ => List.foldl_hom s.setCopies fun _ _ => rfl)

end Depths

/-! ### Congestion maps (R439) -/

section Cmap
variable {s : State} {t : Nat}

/-- CMAP_TAKE when the maps stop and none waits: they reach OFF. -/
theorem execCmapTake_stopping (stops : (drainWait (s.tick t)).mp.telem.fn.st = .stopping)
    (sent : (drainWait (s.tick t)).sw.wait.any isCmap = false) :
    exec (.cmapTake t) s = .next (drainWait (s.tick t)).telemOff := by
  simp only [exec, execCmapTake, stops, sent, when_, if_true, Bool.not_false]

/-- CMAP_TAKE without a destination. -/
theorem execCmapTake_off (runs : (drainWait (s.tick t)).mp.telem.fn.st ≠ .stopping)
    (none_ : (drainWait (s.tick t)).mp.telem.dest = none) : exec (.cmapTake t) s = .next (drainWait (s.tick t)) := by
  simp only [exec, execCmapTake, if_neg runs, none_]

/-- A congestion map of the time `ft` taken and sent on VC7. -/
def State.sendCmap (u : State) (dst ft : Nat) : State :=
  let tel := u.mp.telem
  (({ u with mp := { u.mp with telem := { tel with seq := (tel.seq + 1) % 2 ^ 32, at_ := some u.ftNow } } } : State).fromMp 7
    tel.part (mkPkt (mkHdr [⟨31, 0, dst⟩, ⟨99, 96, 8⟩]) (u.cmap ft))).count .cmapSent 0 0

/-- The MP runs, its maps are ON with a destination and no enable to complete, an interval has begun in which none was taken,
and the last one has left. -/
structure State.CmapDue (u : State) (dst : Nat) : Prop where
  dest : u.mp.telem.dest = some dst
  on : u.mp.telem.fn.st = .on
  begun : u.mp.telem.fn.start = none
  runs : u.mp.running = true
  whole : u.mp.telem.interval * 1000 ≤ u.ftNow
  fresh : ∀ a, u.mp.telem.at_ = some a → u.ftNow / (u.mp.telem.interval * 1000) ≠ a / (u.mp.telem.interval * 1000)
  sent : u.sw.wait.any isCmap = false

/-- CMAP_TAKE of a map that is due, of the FT at which its interval began. -/
theorem execCmapTake_due {dst : Nat} (due : (drainWait (s.tick t)).CmapDue dst) :
    let u := drainWait (s.tick t)
    let step := u.mp.telem.interval * 1000
    exec (.cmapTake t) s = .next (u.sendCmap dst (u.ftNow / step * step)) := by
  simp only [exec, execCmapTake]
  generalize drainWait (s.tick t) = u at due
  obtain ⟨dest, on, begun, runs, whole, fresh, sent⟩ := due
  have stays : ({ u.mp.telem.fn with st := .on, start := none } : Fn) = u.mp.telem.fn := by rw [← on, ← begun]
  have awake : u.mp.telem.fn.st ≠ .stopping := by rw [on]; decide
  have enabled : u.mp.telem.fn.st ≠ .off := by rw [on]; decide
  rw [if_neg awake, stays, sent]
  simp only [State.sendCmap, dest, begun, runs, Bool.false_eq_true, if_false, Bool.true_and]
  refine congrArg _ (if_pos (Bool.and_eq_true_iff.2 ⟨?_, decide_eq_true ⟨whole, enabled⟩⟩))
  cases at_ : u.mp.telem.at_ with
  | none => rfl
  | some a => exact decide_eq_true (fresh a at_)

end Cmap


/-! ### The obligation -/

/-- Settles O37: SHAPER_REFILL and its tokens, the list that takes over, the copies of a die put by put (`depthTable_at`), and the
three outcomes of CMAP_TAKE. -/
theorem switchClockedWork : Obligations.SwitchClockedWork := by
  unfold Obligations.SwitchClockedWork
  intro s t s1
  refine ⟨rfl, execShaperRefill_done s, execShaperRefill_due s, fun l v n e enabled => ?refill, fun l g hl next set => ?gate,
    fun d r hd newest => ?copies, execCmapTake_stopping, execCmapTake_off, ?map⟩
  case refill =>
    have tokens := s1.refill_tokens l v n enabled
    exact ⟨fun shaped => tokens.trans (by rw [if_pos shaped]), fun fresh => tokens.trans
      (by rw [if_neg (Bool.eq_false_iff.1 fresh), Int.min_self])⟩
  case gate =>
    have run := execGateTakeover_judged hl next set
    refine ⟨fun due => ?_, fun early => outcome_of_neg run (Nat.not_le.mpr early)⟩
    have taken := outcome_of_pos run due
    exact ⟨_, taken, rfl, execGateTakeover_keep l t s _ taken, State.setGate_gates⟩
  case copies =>
    have run := execQuRefresh_of_route s r d hd newest
    refine ⟨s.setCopies (s.depthTable r d), run, execQuRefresh_keep d s _ run, s.setCopies_links _, fun u vc hu hvc => ?_⟩
    rw [State.setCopies_q, State.depthTable_at s r d hu hvc]
  case map =>
    exact fun dst dest on begun runs whole fresh sent => execCmapTake_due ⟨dest, on, begun, runs, whole, fresh, sent⟩

end Sys2Proof.Machine

/-!
PROOFS. The frames of the Trail: what becomes of a frame that reaches a member in the ring, whatever command brings it, then what
each TYPE and SUB does once taken (R384, R457, R473, R494, R499, R551 to R553, R555, R557, R559, R560, R580).
-/
namespace Sys2Proof.Machine

/-- A refusal of a Bool as a negation. -/
theorem not_true_iff (b : Bool) : (!b) = true ↔ ¬b = true := by rw [Bool.not_eq_true', Bool.not_eq_true]

/-! ### A frame received (R551, R552, R557) -/

/-- What the member's checks ask of a frame, as a proposition (R551). -/
theorem frGood_iff (f : Frame) : frGood f = true ↔
    f.crc = BitVec.ofNat 32 (crc32c (toLE 8 f.hdr.toNat ++ f.payload)) ∧ frLen f = f.payload.length ∧
      f.payload.length ≤ 4128 ∧ 1 ≤ frType f ∧ frType f ≤ 7 := by
  rw [frGood, decide_eq_true_iff]
  refine and_congr_right fun _ => and_congr_right fun len => ?_
  rw [len]

/-- Forwarding touches the forward queue and a counter: the power state stays. -/
@[simp] theorem State.forward_roe (s : State) (f : Frame) : (s.forward f).roe = s.roe := by
  rw [State.forward, apply_ite State.roe]
  exact ite_self _

/-- A member in the ring that receives: its receiver is locked. -/
def State.hears (s : State) : State := { s with trail := { s.trail with rxlock := true } }

@[simp] theorem State.hears_roe (s : State) : s.hears.roe = s.roe := rfl

section Received
variable {s : State} {f : Frame} {mine : Bool} {take : State → State}

/-- Out of the ring nothing is received. -/
theorem State.trailRx_bypassed (out : s.roe.bypN ≠ some true) : s.trailRx f mine take = s :=
  if_pos (by rw [State.inRing, decide_eq_false out]; rfl)

/-- In the ring a frame meets the checks in this order: its form, its sender, its HOPS, and whom it is for. -/
theorem State.trailRx_inRing (ring : s.roe.bypN = some true) :
    s.trailRx f mine take =
      if ¬frGood f = true then s.hears.count .trailBad 0 0
      else if frSplane f = s.plane then (if frBcast f = true then s.hears else s.hears.count .trailNodest 0 0)
      else if frHops f = 31 then s.hears.count .trailLoop 0 0
      else if frBcast f = true then (s.hears.forward f).takeFrame f fun v => if mine then take v else v
      else if frDplane f = s.plane then s.hears.takeFrame f fun v => if mine then take v else v
      else s.hears.forward f := by
  have inRing : ¬(!s.inRing) = true := by
    simp only [State.inRing, ring, decide_true, Bool.not_true, Bool.false_eq_true, not_false_eq_true]
  rw [State.trailRx, if_neg inRing]
  exact ite_of_iff (not_true_iff _) rfl rfl

/-- A member that sleeps takes WAKE alone: a broadcast passes by, and any other frame is counted. -/
theorem State.takeFrame_asleep (dozes : s.roe.pstate = .s3 ∧ frType f ≠ 7) :
    s.takeFrame f take = if frBcast f = true then s else s.count .trailSleepDrop 0 0 :=
  if_pos ⟨decide_eq_true dozes.1, dozes.2⟩

/-- A member that is awake takes its frames, and one that sleeps takes WAKE. -/
theorem State.takeFrame_awake (awake : ¬(s.roe.pstate = .s3 ∧ frType f ≠ 7)) : s.takeFrame f take = take s :=
  if_neg fun ⟨sleeps, type⟩ => awake ⟨of_decide_eq_true sleeps, type⟩

end Received

/-- A command whose meaning is the common reception routes its frame, and a frame of its kind has the effect `eff`. -/
theorem State.routed_of_trailRx {s : State} {f : Frame} {t : Nat} {cmd : Instr} {kind : Prop} {mine : Bool}
    {take eff : State → State} (run : exec cmd s = .next ((s.tick t).trailRx f mine take)) (kinds : mine = true ↔ kind)
    (takes : ∀ v, take v = eff v) : s.Routed f t cmd kind eff := by
  obtain rfl : take = eff := funext takes
  refine ⟨fun out => run.trans (congrArg _ (State.trailRx_bypassed out)), fun ring => ?_⟩
  replace run := run.trans (congrArg _ (State.trailRx_inRing ring))
  refine ⟨fun bad => outcome_of_pos run (mt (frGood_iff f).1 bad), fun good => ?_⟩
  replace run := outcome_of_neg run (not_not_intro ((frGood_iff f).2 good))
  refine ⟨fun own => ?own, fun other => outcome_of_pos (outcome_of_neg run other), fun other hops => ?_⟩
  case own => exact ⟨outcome_of_pos (outcome_of_pos run own), outcome_of_neg (outcome_of_pos run own)⟩
  replace run := outcome_of_neg (outcome_of_neg run other) hops
  refine ⟨?away, ?broadcastAsleep, ?broadcast, ?asleep, ?taken⟩
  case away => exact fun single away => outcome_of_neg (outcome_of_neg run single) away
  case broadcastAsleep =>
    exact fun bcast dozes => (outcome_of_pos run bcast).trans
      (congrArg _ ((State.takeFrame_asleep (by rwa [State.forward_roe])).trans (if_pos bcast)))
  case broadcast =>
    intro bcast awake
    have taken := (outcome_of_pos run bcast).trans (congrArg _ (State.takeFrame_awake (by rwa [State.forward_roe])))
    exact ⟨fun h => outcome_of_pos taken (kinds.2 h), fun h => outcome_of_neg taken (mt kinds.1 h)⟩
  case asleep =>
    exact fun single here dozes => (outcome_of_pos (outcome_of_neg run single) here).trans
      (congrArg _ ((State.takeFrame_asleep (s := (s.tick t).hears) dozes).trans (if_neg single)))
  case taken =>
    intro single here awake
    have taken := (outcome_of_pos (outcome_of_neg run single) here).trans (congrArg _ (State.takeFrame_awake awake))
    exact ⟨fun h => outcome_of_pos taken (kinds.2 h), fun h => outcome_of_neg taken (mt kinds.1 h)⟩

/-- A command of a service of the MP routes its frame; one taken has its effect while the MP serves (R29, R32). -/
theorem State.routed_of_trailMp {s : State} {f : Frame} {t type sub : Nat} {cmd : Instr} {take eff : State → State}
    (run : exec cmd s = .next ((s.tick t).trailMp f type (some sub) take)) (takes : ∀ v, take v = eff v) :
    s.Routed f t cmd (frType f = type ∧ frSub f = sub) fun v => if v.mpServes = true then eff v else v :=
  State.routed_of_trailRx run (by simp only [Option.all_some, Bool.and_eq_true, decide_eq_true_eq]) fun v => by rw [takes]

/-! ### What the taken frames do -/

/-- A choice written with its refusal first. -/
theorem ite_refused {p q : Prop} [Decidable p] [Decidable q] (h : p ↔ ¬q) (u v : State) :
    (if p then u else v) = if q then v else u :=
  (ite_of_iff h rfl rfl).trans (ite_not _ _ _)

/-- A step taken under both conditions, and a further one under the first. -/
theorem ite_first_of_both (a b : Bool) (u v : State) (further : State → State) :
    (if a then further (if a && b then u else v) else if a && b then u else v) =
      if a = true then further (if b = true then u else v) else v := by
  cases a <;> rfl

section Taken
variable (v : State) (f : Frame)

/-- A WAKE frame for one member wakes it from S3 unless a class C6 stop holds it (R557, R568). -/
theorem State.wakeFrame_taken :
    (if frBcast f then v else v.wakeUp) =
      if frBcast f = true ∨ v.roe.pstate ≠ .s3 ∨ v.roe.c6 = true then v
      else { v with roe := { v.roe with waking := true } } := by
  by_cases bcast : frBcast f = true
  · rw [if_pos bcast, if_pos (.inl bcast)]
  · rw [if_neg bcast, State.wakeUp]
    exact ite_refused (by simp only [bcast, Bool.false_eq_true, ne_eq, false_or, not_or, Decidable.not_not, Bool.not_eq_true]) _ _

/-- Fawn mode does not fetch its image from plane `p` (R494). -/
theorem State.refusesShadow_iff (p : Nat) :
    (!v.fetchingShadow) = true ∨ v.fawn.target ≠ some p ↔ ¬(v.fetchingShadow = true ∧ v.fawn.target = some p) := by
  rw [not_true_iff]
  exact Classical.not_and_iff_not_or_not.symm

/-- The ROM fetches over the Trail from the lead at plane `p`, which has not said that it has no image (R580). -/
theorem State.fetchesFrom_iff (p : Nat) :
    (v.fetching true && decide (v.boot.lead = some p) && !v.boot.none_) = true ↔
      v.fetching true = true ∧ v.boot.lead = some p ∧ v.boot.none_ = false := by
  simp only [Bool.and_eq_true, Bool.not_eq_true', decide_eq_true_eq, and_assoc]

end Taken

/-! ### The obligation -/

/-- Settles O50: every command of a frame is the common reception (`State.routed_of_trailRx`) with its own kind and effect; what is
left of each case is that the effect is the one named. -/
theorem trailFramesAreTakenOrForwarded : Obligations.TrailFramesAreTakenOrForwarded := by
  unfold Obligations.TrailFramesAreTakenOrForwarded
  intro s f t s1 u type src bcast routed sub off len word ofMp image watched
  refine ⟨fun room => congrArg (fun v : State => v.trail.fwd) (if_pos room), fun full => if_neg (Nat.not_le.mpr full),
    ?wake, ?packet, ?tsync, ?digest, ?census, ?entry, ?result, ?planRead, ?planData, ?planNone, ?query, ?fused, ?bootRead,
    ?bootData, ?bootNone⟩
  case wake => exact State.routed_of_trailRx rfl decide_eq_true_iff fun v => v.wakeFrame_taken f
  case packet =>
    refine State.routed_of_trailRx rfl decide_eq_true_iff fun v => ite_of_iff Iff.rfl rfl ?_
    split
    next good => simp only [good, ne_eq, not_true_eq_false, decide_false, Bool.false_eq_true, if_false]
    next bad => simp only [bad, ne_eq, not_false_eq_true, decide_true, if_true]
  case tsync =>
    refine State.routed_of_trailRx rfl decide_eq_true_iff fun v => ?_
    dsimp only
    cases v.timeEnt with
    | none => rfl
    | some e => exact ite_of_iff (by simp only [Bool.and_eq_true, decide_eq_true_eq, and_assoc]; rfl) rfl rfl
  case digest => exact State.routed_of_trailRx rfl decide_eq_true_iff fun v => rfl
  case census =>
    exact State.routed_of_trailRx rfl decide_eq_true_iff fun v =>
      ite_first_of_both _ _ _ _ fun u => u.bootLead src
  case entry => exact State.routed_of_trailMp rfl fun v => rfl
  case result => exact State.routed_of_trailMp rfl fun v => rfl
  case planRead => exact State.routed_of_trailMp rfl fun v => rfl
  case planData => exact State.routed_of_trailMp rfl fun v => rfl
  case planNone =>
    exact State.routed_of_trailMp rfl fun v => ite_refused (v.refusesShadow_iff src) _ _
  case query => exact State.routed_of_trailMp rfl fun v => rfl
  case fused =>
    exact State.routed_of_trailMp rfl fun v => ite_of_iff
      (or_congr_right (or_congr_right (by simp only [Bool.not_eq_true', decide_eq_false_iff_not, not_or, ne_eq]))) rfl rfl
  case bootRead =>
    refine State.routed_of_trailRx rfl decide_eq_true_iff fun v =>
      ite_of_iff (by rw [Bool.not_eq_true']) rfl (ite_of_iff Iff.rfl ?runs (ite_of_iff ?lacks rfl rfl))
    case runs => simp only [decide_eq_true_eq]; rfl
    case lacks => rw [Bool.and_eq_true, List.isEmpty_iff, decide_eq_true_eq]
  case bootData =>
    exact State.routed_of_trailRx rfl decide_eq_true_iff fun v =>
      ite_refused ((not_true_iff _).trans (not_congr (v.fetchesFrom_iff src))) _ _
  case bootNone =>
    exact State.routed_of_trailRx rfl decide_eq_true_iff fun v => ite_of_iff (v.fetchesFrom_iff src) rfl rfl

end Sys2Proof.Machine

/-!
PROOFS. One step of the block, the state after reset, and what every step keeps (R444, R548, R552, R554, R556, R572, R589).
-/
namespace Sys2Proof.Machine

/-! ### The front of the queue (R552) -/

/-- A step on a queue that is not empty is its front's effect on the state with the rest. -/
theorem step_of_cons {s : State} {c : Instr} {q : List Instr} (front : s.pending = c :: q) :
    step s = exec c { s with pending := q } := by
  rw [step, front]

/-- A step on an empty queue. -/
theorem step_of_nil {s : State} (empty : s.pending = []) : step s = .next s.idle := by
  rw [step, empty]

/-- Settles O52: the two cases of a step (`step_of_cons`, `step_of_nil`). -/
theorem stepTakesTheFront : Obligations.StepTakesTheFront := by
  unfold Obligations.StepTakesTheFront
  exact fun s c q => ⟨step_of_cons, step_of_cons rfl, step_of_nil⟩

/-! ### The state after reset (R444, R548, R554, R556, R589) -/

/-- The state of a link after reset: the edge ports are in SIGNAL, every other link is DISABLED. -/
theorem State.link_reset (l : Nat) :
    (State.reset.link l).st = if 576 ≤ l ∧ l < 580 then .signal else .disabled := by
  by_cases edge : 576 ≤ l ∧ l < 580
  · have ports : l = 576 ∨ l = 577 ∨ l = 578 ∨ l = 579 := by omega
    rw [if_pos edge]
    rcases ports with rfl | rfl | rfl | rfl <;> rfl
  · have other : ∀ k, 576 ≤ k → k < 580 → k ≠ l := fun k lo hi h => edge ⟨h ▸ lo, h ▸ hi⟩
    rw [if_neg edge]
    simp [State.link, State.reset, AMap.at, AMap.find, other]

/-- Settles O53: the fields of `State.reset`, and its links by `State.link_reset`. -/
theorem stateAfterReset : Obligations.StateAfterReset := by
  refine ⟨rfl, rfl, rfl, rfl, rfl, rfl, rfl, rfl, rfl, fun l lo hi => ?_, fun l full => ?_, rfl, rfl, rfl, rfl, rfl, rfl, rfl,
    rfl, rfl, rfl, rfl, rfl, fun _ => rfl, fun _ => rfl, rfl, rfl, rfl⟩
  · rw [State.link_reset, if_pos ⟨lo, hi⟩]
  · rw [State.link_reset, if_neg fun h => by omega]

/-- Settles O54: both memories are empty, and no fuse of the two thermometers is set. -/
theorem resetMeetsTheInvariant : Obligations.ResetMeetsTheInvariant :=
  ⟨⟨rfl, rfl⟩, Nat.zero_le _, Nat.zero_le _⟩

/-! ### What every step keeps (R572) -/

/-- A change that only lets the fuses grow and keeps the form of the memories keeps the invariant. -/
theorem State.Inv.of_kept {s t : State} (inv : s.Inv) (kept : KeptK s.keep t.keep) : t.Inv := by
  obtain ⟨⟨sram, dram⟩, fuses⟩ := inv
  obtain ⟨-, -, bounds, sramKept, dramKept⟩ := kept
  exact ⟨⟨sramKept sram, dramKept dram⟩, bounds fuses⟩

/-- A step of the state is a change of the state with the queue's rest that `KeptK` allows. -/
theorem step_kept {s t : State} (h : step s = .next t) :
    KeptK ({ s with pending := s.pending.tail } : State).keep t.keep := by
  cases queue : s.pending with
  | nil =>
    rw [step_of_nil queue, Host.Outcome.next.injEq] at h
    rw [← h, State.idle_keep, List.tail_nil, ← queue]
    exact .refl _
  | cons c q => exact exec_kept c _ _ (step_of_cons queue ▸ h)

/-- Settles O55: the invariant does not look at the queue, and a step keeps the rest (`step_kept`). -/
theorem everyStepKeepsTheInvariant : Obligations.EveryStepKeepsTheInvariant :=
  fun s _ inv h => State.Inv.of_kept (s := { s with pending := s.pending.tail }) inv (step_kept h)

end Sys2Proof.Machine

/-!
PROOFS. Fawn mode by the clock (R494, R495, R500, R515, R559, Table RES-5): one equation for each command, then the obligation.
-/
namespace Sys2Proof.Machine

section Clock
variable {s : State} {t : Nat} (serves : (s.tick t).mpServes = true)
include serves

/-- SHADOW_ACTIVATION of an image that waits for its activation FT (R494, R515). -/
theorem execShadowActivation_judged (on : (s.tick t).fawn.fn.st = .starting ∨ (s.tick t).fawn.fn.st = .on) {p : Plan}
    (plan : (s.tick t).fawn.plan = some p) (waits : (s.tick t).fawn.live = false) (ftSet : (s.tick t).ftSet = true) {a : Nat}
    (act : (s.tick t).fawn.act = some a) :
    let s1 := s.tick t
    let f := s1.fawn
    let u : State := { s1 with fawn := { f with live := true, since := s1.now, fn := { f.fn with st := .on, start := none } } }
    exec (.shadowActivation t) s = .next (if a ≤ s1.ftNow then f.fn.start.elim u fun r => u.complete r 0 0 else s1) := by
  simp only [exec, execShadowActivation, on, plan, waits, ftSet, act, serves]
  cases (s.tick t).fawn.fn.start <;> simp

/-- SHADOW_IMAGE_TIMEOUT while the image is fetched, 1 s after its target was chosen (R494). -/
theorem execShadowImageTimeout_judged (fetches : (s.tick t).fetchingShadow = true) :
    let s1 := s.tick t
    exec (.shadowImageTimeout t) s = .next (if s1.fawn.since + 1000000000 ≤ s1.now then s1.fawnOff 0x20 else s1) := by
  simp only [exec, execShadowImageTimeout]
  exact congrArg _ (when_eq_ite (by rw [fetches, serves, Bool.true_and, Bool.true_and, decide_eq_true_eq]) _ _)

/-- PLAN_READ_RESEND of a PLAN_READ of the image: within 10 ms nothing, then a resend, and after four resends Fawn mode ends
(R559). -/
theorem execPlanReadResend_of_read (fetches : (s.tick t).fetchingShadow = true) {off : Nat} {r : BulkRead}
    (read : ((s.tick t).fawn.reads.find? fun x : BulkRead => decide (x.off = off)) = some r) :
    let s1 := s.tick t
    let again := fun x : BulkRead => ({ x with sentAt := s1.now, resends := x.resends + 1 } : BulkRead)
    let rs := modWhere (fun x : BulkRead => decide (x.off = off)) again s1.fawn.reads
    exec (.planReadResend off t) s = .next (
      if s1.now < r.sentAt + resendNs then s1
      else if r.resends < 4 then ({ s1 with fawn := { s1.fawn with reads := rs } } : State).planReadSend r.off r.len
      else s1.fawnOff 0x20) := by
  simp only [exec, execPlanReadResend, fetches, serves, read, Bool.not_true, Bool.false_eq_true, or_self, if_false]

/-- SHADOW_NOTICE 100 ms after the last notice (R495). -/
theorem execShadowNotice_due (on : (s.tick t).fawn.fn.st = .on)
    (due : (s.tick t).fawn.noticeAt + 100000000 ≤ (s.tick t).now) {p q x : Nat} (target : (s.tick t).fawn.target = some p)
    (notice : (s.tick t).fawn.notice = some (x, q)) :
    let s1 := s.tick t
    exec (.shadowNotice t) s = .next (
      if s1.fawn.live = true ∧ p ≠ q ∧ s1.promoting = false then s1.announce (s1.ftNow + 1000000) p else s1.sendNotice) := by
  simp only [exec, execShadowNotice, on, serves, due, target, notice, Bool.not_eq_true', true_and, if_true]

/-- SHADOW_ROTATE while a target is shadowed: without PIN the next one follows after DWELL (R500). -/
theorem execShadowRotate_judged {p : Nat} (target : (s.tick t).fawn.target = some p) (on : (s.tick t).fawn.fn.st = .on)
    (live : (s.tick t).fawn.live = true) (stays : (s.tick t).promoting = false) :
    let s1 := s.tick t
    exec (.shadowRotate t) s = .next (
      if s1.fawn.pin = false ∧ s1.fawn.since + s1.shDwell ≤ s1.now then s1.beginTarget (nextPlane s1.shPlanes p) else s1) := by
  simp only [exec, execShadowRotate, target, on, live, stays, serves, Bool.not_eq_true', Bool.not_false, true_and]

/-- FUSED_QUERY_RESEND while entries are lacking 10 ms after A: resent up to four times, then Fawn mode ends (R559). -/
theorem execFusedQueryResend_due {n at_ a p : Nat} (query : (s.tick t).fawn.query = some (n, at_))
    (act : (s.tick t).fawn.act = some a) (target : (s.tick t).fawn.target = some p)
    (on : (s.tick t).fawn.fn.st = .starting ∨ (s.tick t).fawn.fn.st = .on)
    (lacks : ((s.tick t).fawn.fusedAll.all fun k => decide ((s.tick t).fawn.fused.length < k)) = true)
    (past : a + 10000000 ≤ (s.tick t).ftNow) (silent : at_ + 10000000 ≤ (s.tick t).now) :
    let s1 := s.tick t
    exec (.fusedQueryResend t) s = .next (
      if n < 4 then ({ s1 with fawn := { s1.fawn with query := some (n + 1, s1.now) } } : State).sendImage p 0x30 0 0 0 8 (toLE 8 a)
      else s1.fawnOff 0x20) := by
  simp only [exec, execFusedQueryResend, query, act, target]
  exact congrArg _ (if_pos ⟨on, lacks, serves, past, silent⟩)

/-- SHADOW_STOPPED of a stop: the final notice applies and nothing waits to be compared (R515). -/
theorem execShadowStopped_judged (stops : (s.tick t).fawn.fn.st = .stopping) :
    let s1 := s.tick t
    exec (.shadowStopped t) s = .next (
      if (s1.fawn.finalAt.all fun x => decide (x ≤ s1.ftNow)) = true ∧ s1.fawn.cmp = [] then s1.fawnOff 0x25 else s1) := by
  simp only [exec, execShadowStopped]
  exact congrArg _ (when_eq_ite
    (by simp only [stops, serves, decide_true, Bool.and_true, Bool.true_and, Bool.and_eq_true, List.isEmpty_iff]) _ _)

end Clock

/-- Settles O39: each clause is one branch of the equation of its command (`execShadowActivation_judged` and the like). -/
theorem shadowModeByTheClock : Obligations.ShadowModeByTheClock := by
  unfold Obligations.ShadowModeByTheClock
  intro s t s1 f on serves
  refine ⟨fun a p runs plan waits ftSet act => ?activation, fun fetches => ⟨?_, ?_, fun off r read => ?resend⟩,
    fun p q x runs due target notice => ?notice, fun p target runs live stays => ?rotate, fun cid inst pe late => ?compare,
    fun n at_ a p query act target runs lacks past silent => ?query, fun stops => ?stopped⟩
  case activation =>
    have run := execShadowActivation_judged serves runs plan waits ftSet act
    refine ⟨fun due => ?_, fun early => outcome_of_neg run (Nat.not_le.mpr early)⟩
    have begun := outcome_of_pos run due
    exact ⟨fun r start => begun.trans (by rw [start]; rfl), fun none_ => begun.trans (by rw [none_]; rfl)⟩
  · exact outcome_of_pos (execShadowImageTimeout_judged serves fetches)
  · exact fun early => outcome_of_neg (execShadowImageTimeout_judged serves fetches) (Nat.not_le.mpr early)
  case resend =>
    obtain ⟨waits, again, ends⟩ := resent_by_silence (execPlanReadResend_of_read serves fetches read)
    exact ⟨waits, ends, again⟩
  case notice =>
    have run := execShadowNotice_due serves runs due target notice
    refine ⟨fun same => outcome_of_neg run fun ⟨live, other, free⟩ => ?_,
      fun other live free => outcome_of_pos run ⟨live, other, free⟩⟩
    exact same.elim other fun h => h.elim (fun dead => Bool.false_ne_true (dead.symm.trans live))
      fun busy => Bool.false_ne_true (free.symm.trans busy)
  case rotate =>
    have run := execShadowRotate_judged serves target runs live stays
    exact ⟨fun free due => outcome_of_pos run ⟨free, due⟩,
      fun held => outcome_of_neg run fun ⟨free, due⟩ => held.elim
        (fun pin => Bool.false_ne_true (free.symm.trans pin)) (Nat.not_lt.mpr due)⟩
  case compare =>
    simp only [exec, execShadowCompareTimeout]
    exact congrArg _ (if_pos ⟨late, serves⟩)
  case query =>
    have run := execFusedQueryResend_due serves query act target runs lacks past silent
    exact ⟨outcome_of_pos run, fun many => outcome_of_neg run (Nat.not_lt.mpr many)⟩
  case stopped =>
    have run := execShadowStopped_judged serves stops
    exact ⟨fun final done => outcome_of_pos run ⟨final, done⟩, fun some_ => outcome_of_neg run fun ⟨_, done⟩ => some_ done⟩

end Sys2Proof.Machine

/-!
PROOFS. The mailboxes: packets for the MP (R527, R529, R530, R532), then the commands of Table MGT-5 (R531, R533, R534, R536,
R540).
-/
namespace Sys2Proof.Machine

/-! ### Who may use a mailbox (R527, R532, R535) -/

/-- The packet `x` may use the mailbox that it names. -/
def State.mbxRight (s : State) (x : Steered) : Prop :=
  bit (s.rights (hMbx x.pkt.hdr)) (s.srcClass x.link) = true ∧
    (hMbx x.pkt.hdr = 0 ∨ (s.box (hMbx x.pkt.hdr)).part = some (hPart x.pkt.hdr))

section Refused
variable {s : State} {x : Steered}

/-- Without the right a packet is refused with DENIED. -/
theorem State.mbxRefuses_denied (no : ¬s.mbxRight x) : s.mbxRefuses (hMbx x.pkt.hdr) x = some 0x43 := by
  refine if_pos ?_
  by_contra h
  refine no ⟨?_, ?_⟩ <;> grind

/-- With the right it is refused with BUSY while the mailbox executes, and not otherwise. -/
theorem State.mbxRefuses_right (right : s.mbxRight x) :
    s.mbxRefuses (hMbx x.pkt.hdr) x = if (s.box (hMbx x.pkt.hdr)).busy = true then some 0x24 else none := by
  obtain ⟨class_, part⟩ := right
  refine if_neg ?_
  rw [class_]
  rintro (h | ⟨other, foreign⟩)
  · exact Bool.false_ne_true h
  · exact part.elim other foreign

end Refused

/-! ### MBWR and MBRD (R527, R529, R530, R532) -/

section Packets
variable {s s2 : State} {t : Nat} {x : Steered} (serves : s2.mpServes = true) (check : hCheck x.pkt.hdr = checkOf x.pkt.payload)
include serves check

/-- MBWR takes the first MBWR steered to the MP. -/
theorem execMbwr_taken (taken : (s.tick t).takeMp (fun y => decide (hKind y.pkt.hdr = 0xA)) = some (x, s2)) :
    exec (.mbwr t) s = .next (s2.mbwr x) := by
  simp only [exec, execMbwr, taken, serves, if_true, State.mpPacket_of_check _ _ check]

/-- MBRD takes the first MBRD steered to the MP. -/
theorem execMbrd_taken (taken : (s.tick t).takeMp (fun y => decide (hKind y.pkt.hdr = 0xB)) = some (x, s2)) :
    exec (.mbrd t) s = .next (s2.mbrd x) := by
  simp only [exec, execMbrd, taken, serves, if_true, State.mpPacket_of_check _ _ check]

end Packets

section Effects
variable {s : State} {x : Steered}

/-- A packet that is refused is answered and writes nothing. -/
theorem State.mbx_refused {st : Nat} (refused : s.mbxRefuses (hMbx x.pkt.hdr) x = some st) :
    s.mbwr x = s.mbdata x.pkt.hdr (hMbx x.pkt.hdr) (hAoff x.pkt.hdr) st [] ∧
      s.mbrd x = s.mbdata x.pkt.hdr (hMbx x.pkt.hdr) (hAoff x.pkt.hdr) st [] := by
  simp only [State.mbwr, State.mbrd, refused, and_self]

/-- An MBWR that is not refused writes its payload, when that fits the request area. -/
theorem State.mbwr_passed (passes : s.mbxRefuses (hMbx x.pkt.hdr) x = none) :
    s.mbwr x = if x.pkt.payload.length % 8 ≠ 0 ∨ 4096 < hAoff x.pkt.hdr + x.pkt.payload.length
      then s.mbdata x.pkt.hdr (hMbx x.pkt.hdr) (hAoff x.pkt.hdr) 0x12 []
      else s.writeReq (hMbx x.pkt.hdr) (hAoff x.pkt.hdr) x.pkt.payload (some x.pkt.hdr) := by
  simp only [State.mbwr, passes]

/-- An MBRD that is not refused is answered with the bytes, when they lie in the response area. -/
theorem State.mbrd_passed (passes : s.mbxRefuses (hMbx x.pkt.hdr) x = none) :
    s.mbrd x = if 4096 < hAoff x.pkt.hdr + hRlen x.pkt.hdr
      then s.mbdata x.pkt.hdr (hMbx x.pkt.hdr) (hAoff x.pkt.hdr) 0x12 []
      else s.mbdata x.pkt.hdr (hMbx x.pkt.hdr) (hAoff x.pkt.hdr) 0
        (memRead (s.box (hMbx x.pkt.hdr)).rsp (hAoff x.pkt.hdr) (hRlen x.pkt.hdr)) := by
  simp only [State.mbrd, passes]

end Effects

section Trigger
variable (s : State) (m : Nat) (data : List Byte) (src : Option (BitVec 256))

/-- Bytes that do not cover byte 0 are written and trigger nothing (R529). -/
theorem State.writeReq_apart {off : Nat} (apart : off ≠ 0) :
    s.writeReq m off data src = s.setBox m { s.box m with req := memWrite (s.box m).req off data } :=
  if_neg fun h => apart h.1

/-- A request with the OPCODE and SEQ of the held response has that response sent again (R530). -/
theorem State.trigger_held (same : memRead (s.box m).req 0 4 = memRead (s.box m).rsp 0 4) :
    s.trigger m src = s.sendHeld m src := if_pos same

/-- A request of Table MGT-5 that nothing waits before is at the head of the order and waits for its decision (R531). -/
theorem State.trigger_first (new : memRead (s.box m).req 0 4 ≠ memRead (s.box m).rsp 0 4) (first : s.mp.triggers = [])
    (known : knownOps.contains (s.box m).reqOp = true) :
    s.trigger m src = { s.setBox m { s.box m with busy := true, from_ := src } with
      mp := { (s.setBox m { s.box m with busy := true, from_ := src }).mp with triggers := [m] } } := by
  have box : ((s.setBox m { s.box m with busy := true, from_ := src }).box m).reqOp = (s.box m).reqOp := by
    rw [State.box_setBox]; rfl
  have order : (s.setBox m { s.box m with busy := true, from_ := src }).mp.triggers = [] := first
  simp only [State.trigger, if_neg new, order, List.nil_append]
  exact if_pos (box ▸ known)

end Trigger

/-- Settles O43. -/
theorem mailboxPacketsAreAnswered : Obligations.MailboxPacketsAreAnswered := by
  unfold Obligations.MailboxPacketsAreAnswered
  intro s t x s2 h m a d b right serves check
  refine ⟨fun taken => ?write, fun taken => ?read⟩
  case write =>
    have run := execMbwr_taken serves check taken
    refine ⟨fun no => ?_, fun yes busy => ?_, fun yes idle bad => ?_, fun yes idle whole fits => ?_⟩
    · rw [run, (State.mbx_refused (State.mbxRefuses_denied no)).1]
    · rw [run, (State.mbx_refused ((State.mbxRefuses_right yes).trans (if_pos busy))).1]
    all_goals
      have passes := (State.mbxRefuses_right yes).trans (if_neg (Bool.eq_false_iff.1 idle))
    · rw [run, State.mbwr_passed passes, if_pos bad]
    · rw [State.mbwr_passed passes, if_neg (not_or.mpr ⟨not_not_intro whole, Nat.not_lt.mpr fits⟩)] at run
      have written : ∀ z : a = 0, d ≠ [] → exec (.mbwr t) s =
          .next ((s2.setBox m { b with req := memWrite b.req a d }).trigger m (some h)) := fun z some_ =>
        run.trans (congrArg _ (if_pos ⟨z, some_⟩))
      have held : (s2.setBox m { b with req := memWrite b.req a d }).box m = { b with req := memWrite b.req a d } :=
        State.box_setBox ..
      refine ⟨fun apart => ?_, fun zero some_ same => ?_, fun zero some_ new first known => ?_⟩
      · rw [run, State.writeReq_apart _ _ _ _ apart]
      · have same' : memRead (((s2.setBox m { b with req := memWrite b.req a d }).box m).req) 0 4 =
            memRead (((s2.setBox m { b with req := memWrite b.req a d }).box m).rsp) 0 4 := held.symm ▸ same
        exact (written zero some_).trans (congrArg _ (State.trigger_held _ _ _ same'))
      · have order := State.trigger_first (s2.setBox m { b with req := memWrite b.req a d }) m (some h) (by rw [held]; exact new) first
          (by rw [held]; exact known)
        rw [held] at order
        exact (written zero some_).trans (congrArg _ order)
  case read =>
    have run := execMbrd_taken serves check taken
    refine ⟨fun no => ?_, fun yes busy => ?_, fun yes idle out => ?_, fun yes idle within => ?_⟩
    · rw [run, (State.mbx_refused (State.mbxRefuses_denied no)).2]
    · rw [run, (State.mbx_refused ((State.mbxRefuses_right yes).trans (if_pos busy))).2]
    all_goals
      have passes := (State.mbxRefuses_right yes).trans (if_neg (Bool.eq_false_iff.1 idle))
    · rw [run, State.mbrd_passed passes, if_pos out]
    · rw [run, State.mbrd_passed passes, if_neg (Nat.not_lt.mpr within)]

/-! ### The commands of Table MGT-5 (R531, R533, R534, R536, R540) -/

/-- What refuses the request of a command before its own rules, or what the command decides. -/
def CmdRule.verdict (k : CmdRule) (m : Nat) (f : Call → State → Verdict) (c : Call) (s : State) : Verdict :=
  let b := s.box m
  if b.reqAlen ≠ k.alen then refuseCmd s 0x71
  else if m ≠ 0 ∧ (k.admin ∨ b.part = none) then refuseCmd s 0x43
  else if s.plans.active.isNone ∧ !k.noPlan then refuseCmd s 0x75
  else if k.p0 ∧ (s.roe.pstate = .p1 ∨ s.roe.pstate = .s1) then refuseCmd s 0x72
  else f c s

/-- Every command of Table MGT-5 is the common decision with its own rule. -/
theorem exec_mailboxRow {m t : Nat} (hm : m < 8) {x : Instr × CmdRule × (Call → State → Verdict)} (row : x ∈ mailboxRows m t)
    (s : State) : exec x.1 s = .next ((s.tick t).command m x.2.1 x.2.2) := by
  have unit : exec x.1 s = onUnit (decide (m < 8)) ((s.tick t).command m x.2.1 x.2.2) := by
    simp only [mailboxRows, List.cons_append, List.nil_append, List.mem_cons, List.not_mem_nil, or_false] at row
    rcases row with rfl | rfl | rfl | rfl | rfl | rfl | rfl | rfl | rfl | rfl | rfl | rfl | rfl | rfl | rfl | rfl | rfl | rfl |
      rfl | rfl | rfl | rfl | rfl | rfl | rfl <;> rfl
  rw [unit, onUnit, if_pos (decide_eq_true hm)]

/-- A request that is not at the head of the order, or not of this command, waits, and so does every one while the MP does
not serve (R531, R534). -/
theorem State.command_waits {s : State} {m : Nat} {k : CmdRule}
    (waits : s.mpServes = false ∨ s.mp.triggers.head? ≠ some m ∨ (s.box m).reqOp ≠ k.op) (f : Call → State → Verdict) :
    s.command m k f = s := by
  refine if_neg fun h => ?_
  obtain ⟨serves, at_⟩ := Bool.and_eq_true_iff.1 h
  obtain ⟨head, op⟩ := of_decide_eq_true at_
  exact waits.elim (by simp [serves]) fun w => w.elim (· head) (· op)

/-- The request at the head of the order is answered with the verdict on it (R531). -/
theorem State.command_decides {s : State} {m : Nat} {k : CmdRule} (serves : s.mpServes = true)
    (head : s.mp.triggers.head? = some m) (op : (s.box m).reqOp = k.op) (f : Call → State → Verdict) :
    let b := s.box m
    let c : Call := { req := { mbx := m, seq := b.reqSeq, op := k.op }, part := if m = 0 then none else b.part,
                      args := memRead b.req 8 b.reqAlen }
    let v := k.verdict m f c s
    s.command m k f = settleHead 8 (v.st.respondMbx m v.status v.defer v.body) :=
  if_pos (Bool.and_eq_true_iff.2 ⟨serves, decide_eq_true ⟨head, op⟩⟩)

section Verdict
variable {s : State} {m : Nat} {k : CmdRule} (f : Call → State → Verdict) (c : Call)

/-- Arguments of another length: ARG_FAULT. -/
theorem CmdRule.verdict_length (other : (s.box m).reqAlen ≠ k.alen) : k.verdict m f c s = refuseCmd s 0x71 := if_pos other

variable (length : (s.box m).reqAlen = k.alen)
include length

/-- A command of mailbox 0 by another one, or a mailbox without a partition: DENIED. -/
theorem CmdRule.verdict_denied (apart : m ≠ 0) (denied : k.admin = true ∨ (s.box m).part = none) :
    k.verdict m f c s = refuseCmd s 0x43 :=
  (if_neg (not_not_intro length)).trans (if_pos ⟨apart, denied⟩)

variable (may : m = 0 ∨ (k.admin = false ∧ (s.box m).part ≠ none))
include may

/-- A request of the right length by a mailbox that may give it. -/
theorem CmdRule.verdict_may : k.verdict m f c s =
    if s.plans.active.isNone ∧ !k.noPlan then refuseCmd s 0x75
    else if k.p0 ∧ (s.roe.pstate = .p1 ∨ s.roe.pstate = .s1) then refuseCmd s 0x72
    else f c s := by
  refine (if_neg (not_not_intro length)).trans (if_neg ?_)
  rintro ⟨apart, denied⟩
  obtain ⟨plain, part⟩ := may.resolve_left apart
  exact denied.elim (by simp [plain]) part

end Verdict

/-- Settles O44: every command of the table is the common decision (`exec_mailboxRow`). -/
theorem mailboxCommandsAreDecidedInOrder : Obligations.MailboxCommandsAreDecidedInOrder := by
  unfold Obligations.MailboxCommandsAreDecidedInOrder
  intro s m t x hm row s1 b k c answer refuse light
  have run := exec_mailboxRow hm row s
  refine ⟨fun serves head op => ?_, fun waits => by rw [run, State.command_waits waits]⟩
  have decided := run.trans (congrArg _ (State.command_decides serves head op x.2.2))
  have answered : ∀ v : Verdict, k.verdict m x.2.2 c s1 = v → answer v := fun v h => by rw [← h]; exact decided
  refine ⟨fun other => answered _ (CmdRule.verdict_length _ _ other),
    fun length apart denied => answered _ (CmdRule.verdict_denied _ _ length apart denied), fun length may => ?_⟩
  have verdict := CmdRule.verdict_may x.2.2 c length may
  refine ⟨fun none_ needs => answered _ (verdict.trans (if_pos (by simp [none_, needs]))), fun planned => ?_⟩
  rw [if_neg (by rintro ⟨none_, needs⟩; exact planned.elim (· (Option.isNone_iff_eq_none.1 none_)) (by simpa using needs))]
    at verdict
  exact ⟨fun p0 low => answered _ (verdict.trans (if_pos ⟨p0, low⟩)), fun runs => answered _ (verdict.trans (if_neg
    fun ⟨p0, low⟩ => runs.elim (fun free => Bool.false_ne_true (free.symm.trans p0)) (· low)))⟩

end Sys2Proof.Machine

/-!
PROOFS. The I3C sideband (R529, R535, R569, R570, R571).
-/
namespace Sys2Proof.Machine

/-- A word of a diagnostic window draws a free value at most (Table MGT-21). -/
theorem State.diagWord_state (s : State) (w p : Nat) : ∃ n, (s.diagWord w p).2 = { s with free := n } := by
  unfold State.diagWord
  split
  · exact ⟨_, rfl⟩
  · split
    · split <;> exact ⟨_, rfl⟩
    · split
      · exact ⟨_, rfl⟩
      · split <;> exact ⟨_, rfl⟩

/-! ### Where the sideband works (R569) -/

/-- A sideband command where the sideband works. -/
theorem onSideband_of_works {s : State} (works : s.sideband = true) (f : State → State) : onSideband s f = .next (f s) :=
  congrArg _ (if_pos works)

section Sideband
variable {s : State} (works : s.sideband = true)
include works

/-- The commands that assign a dynamic address do so to a target that has none; SETNEWDA changes the one there is. -/
theorem exec_dynamicAddress (a : Nat) :
    let assigned : State := { s with i3c := { s.i3c with dyn := some (a % 128) } }
    exec (.entdaa a) s = .next (if s.i3c.dyn.isSome then s else assigned) ∧
    exec (.setdasa a) s = .next (if s.i3c.dyn.isSome then s else assigned) ∧
    exec (.setnewda a) s = .next (if s.i3c.dyn.isSome then assigned else s) := by
  simp only [exec, execEntdaa, execSetdasa, execSetnewda, onSideband_of_works works, and_self]

/-- The commands that take the address back, keep the byte of RSTACT, or return what R569 names. -/
theorem exec_commonCode (v : BitVec 8) :
    exec .rstdaa s = .next { s with i3c := { s.i3c with dyn := none } } ∧
    exec .getpid s = .next { s with i3c := { s.i3c with rdata := (toLE 6 Config.i3cPid.toNat).reverse } } ∧
    exec .getbcr s = .next { s with i3c := { s.i3c with rdata := toLE 1 Config.i3cBcr.toNat } } ∧
    exec .getdcr s = .next { s with i3c := { s.i3c with rdata := toLE 1 Config.i3cDcr.toNat } } ∧
    exec .getstatus s = .next { s with i3c := { s.i3c with
      rdata := (toLE 2 (Config.i3cStatus s.i3c.nstat).toNat).reverse, nstat := s.i3c.nstat + 1 } } ∧
    exec (.rstact v) s = .next { s with i3c := { s.i3c with rstact := v } } := by
  simp only [exec, execRstdaa, execGetpid, execGetbcr, execGetdcr, execGetstatus, execRstact, onSideband_of_works works,
    State.answerI3c, and_self]

/-- ENEC and DISEC look at bit 0 of their byte. -/
theorem exec_ibiEnable (v : BitVec 8) :
    exec (.enec v) s = .next { s with i3c := { s.i3c with ibiOn := s.i3c.ibiOn || bit v.toNat 0 } } ∧
    exec (.disec v) s = .next { s with i3c := { s.i3c with ibiOn := s.i3c.ibiOn && !bit v.toNat 0 } } := by
  have run := onSideband_of_works works
  refine ⟨(run _).trans (congrArg _ ?_), (run _).trans (congrArg _ ?_)⟩
  all_goals
    cases bit v.toNat 0
    · simp
    · simp

/-- REGISTER_WRITE notes its address and gives the value to its register (R570). -/
theorem execRegisterWrite_works (a : Nat) (w : BitVec 32) : exec (.registerWrite a w) s = .next (
    if a = 0x0004 then (s.wroteAt a).writeRoeCtrl w
    else if a = 0x0008 then { s.wroteAt a with roe := { s.roe with event := s.roe.event &&& ~~~w } }
    else if a = 0x0020 then { s.wroteAt a with i3c := { (s.wroteAt a).i3c with win := fld w 3 0, ptr := fld w 19 4 } }
    else if 0x1000 ≤ a ∧ a ≤ 0x1FFF then (s.wroteAt a).i3cMailbox (a / 4 * 4) (toLE 4 w.toNat)
    else s.wroteAt a) := by
  simp only [exec, execRegisterWrite, onSideband_of_works works]
  rfl

/-- A write to a register that is read only, or to a reserved address, changes no register (R570). -/
theorem execRegisterWrite_reserved {a : Nat} (ctrl : a ≠ 0x0004) (event : a ≠ 0x0008) (sel : a ≠ 0x0020)
    (apart : a < 0x1000 ∨ 0x2000 ≤ a) (w : BitVec 32) : exec (.registerWrite a w) s = .next (s.wroteAt a) := by
  have outside : ¬(0x1000 ≤ a ∧ a ≤ 0x1FFF) := by omega
  rw [execRegisterWrite_works works, if_neg ctrl, if_neg event, if_neg sel, if_neg outside]

/-- DIAG_DATA_READ returns four bytes and steps the pointer (R571). -/
theorem execDiagDataRead_works : ∃ n bs, bs.length = 4 ∧ exec .diagDataRead s = .next { s with
    free := n, i3c := { s.i3c with rdata := bs, ptr := (s.i3c.ptr + 1) % 65536, addr := 0x0028 } } := by
  obtain ⟨n, drawn⟩ := s.diagWord_state s.i3c.win s.i3c.ptr
  refine ⟨n, _, length_toLE 4 (s.diagWord s.i3c.win s.i3c.ptr).1, ?_⟩
  simp only [exec, execDiagDataRead, onSideband_of_works works, drawn]
  rfl

end Sideband

/-! ### Mailbox 0 over I3C (R529, R535, R569) -/

/-- A write over I3C reaches the request area when the MP serves, source class 0 has its right and the mailbox is IDLE. -/
theorem State.i3cMailbox_eq (s : State) (a : Nat) (data : List Byte) : s.i3cMailbox a data =
    if s.mpServes = true ∧ bit (s.rights 0) 0 = true ∧ (s.box 0).busy = false
    then s.writeReq 0 (a - 0x1000) (data.take (0x2000 - a)) none else s := by
  refine ite_refused ?_ _ _
  cases s.mpServes <;> cases bit (s.rights 0) 0 <;> cases (s.box 0).busy <;> decide

/-- I3C_MAILBOX_WRITE of whole words from a word of the request area. -/
theorem execI3cMailboxWrite_aligned {s : State} {a t : Nat} {data : List Byte} (works : (s.tick t).sideband = true)
    (low : 0x1000 ≤ a) (high : a < 0x2000) (aligned : a % 4 = 0) (whole : data.length % 4 = 0) :
    exec (.i3cMailboxWrite a data t) s = .next (((s.tick t).wroteAt a).i3cMailbox a data) := by
  have addr : a / 4 * 4 = a := by omega
  have bytes : data.length / 4 * 4 = data.length := by omega
  simp only [exec, execI3cMailboxWrite, onSideband_of_works works, addr, bytes, List.take_length]
  exact congrArg _ (if_pos ⟨low, by omega⟩)

/-- Settles O49: every command is its function where the sideband works (`onSideband_of_works`), given for each by its lemma. -/
theorem sidebandCommands : Obligations.SidebandCommands := by
  unfold Obligations.SidebandCommands
  intro s a t v w data works i set
  obtain ⟨taken, pid, bcr, dcr, status, kept⟩ := exec_commonCode works v
  obtain ⟨ent, das, new⟩ := exec_dynamicAddress works a
  obtain ⟨enable, disable⟩ := exec_ibiEnable works v
  refine ⟨fun fresh => ?fresh, fun addressed => ?addressed, taken, pid, bcr, dcr, status, enable, disable, kept,
    execRegisterWrite_works works _ _, execRegisterWrite_works works _ _,
    fun ctrl event sel apart => execRegisterWrite_reserved works ctrl event sel apart w, ?diag,
    fun low high aligned whole works1 => ?mailbox⟩
  case fresh =>
    have none_ : ¬s.i3c.dyn.isSome = true := by rw [show s.i3c.dyn = none from fresh]; exact Bool.false_ne_true
    rw [if_neg none_] at ent das new
    exact ⟨ent, das, new⟩
  case addressed =>
    have some_ : s.i3c.dyn.isSome = true := Option.isSome_iff_ne_none.2 addressed
    rw [if_pos some_] at ent das new
    exact ⟨ent, das, new⟩
  case diag =>
    obtain ⟨n, bs, four, read⟩ := execDiagDataRead_works works
    exact ⟨_, read, rfl, rfl, four, rfl, rfl⟩
  case mailbox =>
    have reached := execI3cMailboxWrite_aligned works1 low high aligned whole
    rw [State.i3cMailbox_eq] at reached
    exact ⟨fun open_ => reached.trans (congrArg _ (if_pos open_)), fun shut => reached.trans (congrArg _ (if_neg shut))⟩

end Sys2Proof.Machine

/-!
SUPPORT. What a report of the management processor leaves alone (R513, R542, R543): everything but the traffic, the mailboxes and
the health figures.
-/
namespace Sys2Proof.Machine

/-! ### The state beside what the MP reports -/

/-- The state without its traffic, the mailboxes and the health figures. -/
def State.told (s : State) : State :=
  { s.still with mp := { s.mp with boxes := [], debt := 0, health := [] } }

section
variable {s t : State} (h : t.told = s.told)
include h

theorem State.fuse_of_told : t.fuse = s.fuse := (congrArg State.fuse h :)
theorem State.boot_of_told : t.boot = s.boot := (congrArg State.boot h :)
theorem State.roe_of_told : t.roe = s.roe := (congrArg State.roe h :)
theorem State.time_of_told : t.time = s.time := (congrArg State.time h :)
theorem State.mem_of_told : t.mem = s.mem := (congrArg State.mem h :)
theorem State.parts_of_told : t.mp.parts = s.mp.parts := (congrArg (·.mp.parts) h :)
theorem State.coll_of_told : t.coll = s.coll := (congrArg State.coll h :)

end

theorem State.told_of_still {s t : State} (h : t.still = s.still) : t.told = s.told :=
  (congrArg (fun u : State => { u with mp := { u.mp with boxes := [], debt := 0, health := [] } }) h :)

theorem foldl_told {α : Type} {f : State → α → State} (h : ∀ s x, (f s x).told = s.told) (l : List α) (s : State) :
    (l.foldl f s).told = s.told := by
  induction l generalizing s with
  | nil => rfl
  | cons a l ih => exact (ih (f s a)).trans (h s a)

/-! ### Reports -/

@[simp] theorem State.setBox_told (s : State) (m : Nat) (b : Mbox) : (s.setBox m b).told = s.told := rfl

@[simp] theorem State.count_told (s : State) (c : Ctr) (i j : Nat) : (s.count c i j).told = s.told := rfl

@[simp] theorem State.fromMp_told (s : State) (vc part : Nat) (p : Packet) : (s.fromMp vc part p).told = s.told :=
  State.told_of_still (originate_still _ _)

@[simp] theorem State.eventTo_told (s : State) (m code status op seq detail : Nat) :
    (s.eventTo m code status op seq detail).told = s.told := by
  unfold State.eventTo
  dsimp only
  split
  · rw [State.fromMp_told, State.setBox_told]
  · split
    · rw [State.setBox_told]
    · rw [State.count_told, State.setBox_told]

/-- An event record leaves alone what is not traffic or a mailbox. -/
@[simp] theorem State.event_told (s : State) (code status detail : Nat) (parts : List Nat) :
    (s.event code status detail parts).told = s.told := by
  unfold State.event
  split
  · exact foldl_told (fun _ _ => State.eventTo_told _ _ _ _ _ _ _) _ _
  · rfl

/-- A COMPLETION leaves alone what is not traffic or a mailbox. -/
@[simp] theorem State.complete_told (s : State) (r : Req) (status detail : Nat) :
    (s.complete r status detail).told = s.told := by
  unfold State.complete
  split
  · exact foldl_told (fun _ _ => State.eventTo_told _ _ _ _ _ _ _) _ _
  · rfl

/-- A health event changes the health figures alone. -/
@[simp] theorem State.health_told (s : State) (row n : Nat) : (s.health row n).told = s.told := by
  unfold State.health
  split <;> rfl

end Sys2Proof.Machine

/-!
PROOFS. The throttle levels and the stacks (R562, R563, R597, R610).
-/
namespace Sys2Proof.Machine

/-! ### A step of a level (R562, R563, R597) -/

/-- The report of a step: THROTTLE of the Roe block, to the MP and as a health event. -/
def State.reportThrottle (s : State) (cause : Nat) : State := ((s.roeEvent 0).throttled cause).health hThrottle 1

/-- A bit of ROE_EVENT and its IBI change nothing of the boot ROM and the fuses. -/
theorem State.roeEvent_boot (s : State) (i : Nat) : (s.roeEvent i).boot = s.boot ∧ (s.roeEvent i).fuse = s.fuse := by
  unfold State.roeEvent
  dsimp only
  split
  · exact ⟨rfl, rfl⟩
  · split <;> exact ⟨rfl, rfl⟩

/-- After its bit of ROE_EVENT a report leaves alone what the MP's reports do. -/
theorem State.reportThrottle_told (s : State) (cause : Nat) : (s.reportThrottle cause).told = (s.roeEvent 0).told := by
  unfold State.reportThrottle State.throttled
  rw [State.health_told, State.event_told]

/-- Of the Roe block a report changes ROE_EVENT. -/
theorem State.reportThrottle_roe (s : State) (cause : Nat) :
    (s.reportThrottle cause).roe = { s.roe with event := (s.roeEvent 0).roe.event } :=
  (State.roe_of_told (s.reportThrottle_told cause)).trans (State.roeEvent_parts s 0).1

/-- A report leaves the set points alone. -/
theorem State.reportThrottle_setPoint (s : State) (cause l : Nat) : (s.reportThrottle cause).setPoint l = s.setPoint l := by
  have told := s.reportThrottle_told cause
  obtain ⟨boot, fuse⟩ := s.roeEvent_boot 0
  unfold State.setPoint State.fusesRead
  rw [State.boot_of_told told, State.fuse_of_told told, boot, fuse]

/-- What the regulator follows: the clock and the voltage of the level, when no change is in progress (R597). -/
theorem State.followLevel_roe (s : State) :
    s.followLevel.roe.tlevel = s.roe.tlevel ∧ s.followLevel.roe.plevel = s.roe.plevel ∧ s.followLevel.roe.cap = s.roe.cap ∧
      s.followLevel.roe.event = s.roe.event ∧ (s.roe.avs = .idle →
        s.followLevel.roe.vcore = (if s.level = s.roe.applied then s.roe.vcore else s.setPoint s.level) ∧
        s.followLevel.roe.applied = if s.roe.applied < s.level then s.level else s.roe.applied) := by
  unfold State.followLevel
  split
  next busy => simp [busy]
  next idle =>
    rcases Nat.lt_trichotomy s.roe.applied s.level with rises | same | falls
    · simp [rises, Nat.ne_of_gt rises]
    · simp [same]
    · simp [falls, Nat.not_lt_of_gt falls, Nat.ne_of_lt falls]

/-- A step of a level keeps both levels and CAP, is reported when it leaves 0, and the clock and the voltage follow it. -/
theorem State.levelMoved_roe (s old : State) (cause : Nat) :
    let v := s.levelMoved old cause
    v.roe.tlevel = s.roe.tlevel ∧ v.roe.plevel = s.roe.plevel ∧ v.roe.cap = s.roe.cap ∧
      (old.level = 0 → 0 < s.level → bit v.roe.event.toNat 0 = true) ∧ (s.roe.avs = .idle →
        v.roe.vcore = (if s.level = s.roe.applied then s.roe.vcore else s.setPoint s.level) ∧
        v.roe.applied = if s.roe.applied < s.level then s.level else s.roe.applied) := by
  dsimp only
  by_cases reports : old.level = 0 ∧ 0 < s.level
  · have moved : s.levelMoved old cause = (s.reportThrottle cause).followLevel := congrArg State.followLevel (if_pos reports)
    obtain ⟨tlevel, plevel, cap, event, follows⟩ := (s.reportThrottle cause).followLevel_roe
    have level : (s.reportThrottle cause).level = s.level := by rw [State.level, State.reportThrottle_roe]; rfl
    rw [State.reportThrottle_setPoint, level] at follows
    rw [State.reportThrottle_roe] at tlevel plevel cap event follows
    rw [moved, tlevel, plevel, cap, event]
    exact ⟨rfl, rfl, rfl, fun _ _ => State.roeEvent_bit s (by omega), follows⟩
  · have moved : s.levelMoved old cause = s.followLevel := congrArg State.followLevel (if_neg reports)
    obtain ⟨tlevel, plevel, cap, -, follows⟩ := s.followLevel_roe
    rw [moved]
    exact ⟨tlevel, plevel, cap, fun zero rises => absurd ⟨zero, rises⟩ reports, follows⟩

/-- A step is due when the Roe block judges, no C6 stop stands and the last step is long enough ago. -/
theorem State.stepDue_iff (s : State) (last : Option Nat) (ns : Nat) :
    s.stepDue last ns = true ↔ s.roeJudges = true ∧ s.roe.c6 = false ∧ ∀ a, last = some a → a + ns ≤ s.now := by
  cases last <;> simp [State.stepDue, and_assoc]

/-- The hottest sensor noted has no part in what a step is judged by. -/
theorem State.noteTemp_roe (s : State) (x : Nat) :
    ∃ m, s.noteTemp x = { s with roe := { s.roe with tmax := m } } := by
  unfold State.noteTemp
  split
  · exact ⟨_, rfl⟩
  · exact ⟨s.roe.tmax, rfl⟩

/-- A choice by a Bool and a decided proposition. -/
theorem when_and_decide (c : Bool) {q : Prop} [Decidable q] (s u : State) :
    when_ (c && decide q) s u = if c = true ∧ q then u else s :=
  when_eq_ite (by rw [Bool.and_eq_true, decide_eq_true_eq]) _ _

section Levels
variable (s : State) (t x : Nat)

/-- THERMAL_LEVEL_UP and THERMAL_LEVEL_DOWN note the sensor and judge the step (R563). -/
theorem exec_thermalLevel :
    let u := (s.tick t).noteTemp x
    let at_ (tl : Nat) : State := { u with roe := { u.roe with tlevel := tl, tlevelAt := some u.now } }
    exec (.thermalLevelUp x t) s = .next (
      if u.stepDue u.roe.tlevelAt 100000 = true ∧ 400 ≤ x ∧ u.roe.tlevel < 10
      then (at_ (u.roe.tlevel + 1)).levelMoved u 0 else u) ∧
    exec (.thermalLevelDown x t) s = .next (
      if u.stepDue u.roe.tlevelAt 1000000 = true ∧ x ≤ 388 ∧ 0 < u.roe.tlevel
      then (at_ (u.roe.tlevel - 1)).levelMoved u 0 else u) :=
  ⟨congrArg _ (when_and_decide _ _ _), congrArg _ (when_and_decide _ _ _)⟩

/-- POWER_LEVEL_UP and POWER_LEVEL_DOWN judge the step by CAP (R563). -/
theorem exec_powerLevel :
    let u := s.tick t
    let at_ (pl : Nat) : State := { u with roe := { u.roe with plevel := pl, plevelAt := some u.now } }
    exec (.powerLevelUp x t) s = .next (
      if u.stepDue u.roe.plevelAt 1000000 = true ∧ u.roe.cap ≠ 0 ∧ 1000 * u.roe.cap < u.packagePower x ∧ u.roe.plevel < 10
      then (at_ (u.roe.plevel + 1)).levelMoved u 1 else u) ∧
    exec (.powerLevelDown x t) s = .next (
      if u.stepDue u.roe.plevelAt 10000000 = true ∧ (u.roe.cap = 0 ∨ u.packagePower x < 950 * u.roe.cap) ∧ 0 < u.roe.plevel
      then (at_ (u.roe.plevel - 1)).levelMoved u 1 else u) :=
  ⟨congrArg _ (when_and_decide _ _ _), congrArg _ (when_and_decide _ _ _)⟩

/-- AVS_CONFIRM and AVS_CONFIRM_TIMEOUT while the regulator raises the voltage (R597). -/
theorem exec_avs {l at_ : Nat} (raises : (s.tick t).roe.avs = .raising l at_) :
    exec (.avsConfirm t) s = .next ((s.tick t).avsDone l) ∧
    exec (.avsConfirmTimeout t) s = .next (if at_ + 50000 ≤ (s.tick t).now then (s.tick t).avsDone l else s.tick t) := by
  simp only [exec, execAvsConfirm, execAvsConfirmTimeout, raises, and_self]

end Levels

/-! ### A stack (R562, R610) -/

section Stack
variable {s : State} (t x : Nat) {d : Nat} (unit : d < 4) (judges : (s.tick t).roeJudges = true)
include unit

/-- A throttled stack reports, and its refresh rate follows. -/
theorem execDramThrottleOn_judged : exec (.dramThrottleOn d x t) s = .next (
    if (s.tick t).roeJudges = true ∧ (s.tick t).roe.dramThr.contains d = false ∧ 380 ≤ x
    then ((({ s.tick t with roe := { (s.tick t).roe with dramThr := listed true d (s.tick t).roe.dramThr } } : State).refreshRate
      d x).throttled 2) else s.tick t) := by
  simp only [exec, execDramThrottleOn, onUnit, unit, decide_true, if_true, when_and_decide, Bool.and_eq_true, Bool.not_eq_true',
    and_assoc]

/-- A stack that is no longer throttled. -/
theorem execDramThrottleOff_judged : exec (.dramThrottleOff d x t) s = .next (
    if (s.tick t).roeJudges = true ∧ (s.tick t).roe.dramThr.contains d = true ∧ x ≤ 368
    then ({ s.tick t with roe := { (s.tick t).roe with dramThr := listed false d (s.tick t).roe.dramThr } } : State).refreshRate d x
    else s.tick t) := by
  simp only [exec, execDramThrottleOff, onUnit, unit, decide_true, if_true, when_and_decide, Bool.and_eq_true, and_assoc]

include judges

/-- The refresh rate follows the sensor and the throttle. -/
theorem execRefreshRateDoubled_judges :
    exec (.refreshRateDoubled d x t) s = .next ((s.tick t).refreshRate d x) := by
  simp only [exec, execRefreshRateDoubled, onUnit, unit, decide_true, if_true, when_, judges]

end Stack

/-- A list holds the number put into it, and not the number taken out of it. -/
theorem contains_listed (on : Bool) (x : Nat) (xs : List Nat) : (listed on x xs).contains x = on := by
  cases on <;> simp [listed]

/-- A stack put among the throttled ones, or taken out of them, and its refresh rate. -/
theorem State.refreshRate_listed (s : State) (on : Bool) (d x : Nat) :
    let v := ({ s with roe := { s.roe with dramThr := listed on d s.roe.dramThr } } : State).refreshRate d x
    v.roe.dramThr.contains d = on ∧ v.roe.refresh2.contains d = (on || decide (340 ≤ x)) :=
  ⟨contains_listed on d s.roe.dramThr, (contains_listed _ d s.roe.refresh2).trans (by rw [contains_listed])⟩

/-- Settles O46: a step of a level by `levelMoved_roe` and the equation of its command, the clock by `exec_avs`, a stack by its
three equations. -/
theorem throttleLevelsFollowTheSensors : Obligations.ThrottleLevelsFollowTheSensors := by
  unfold Obligations.ThrottleLevelsFollowTheSensors
  intro s t x s1 s2 power ready moved
  obtain ⟨hotter, cooler⟩ := exec_thermalLevel s t x
  obtain ⟨tooMuch, spare⟩ := exec_powerLevel s t x
  obtain ⟨m, noted⟩ := (s.tick t).noteTemp_roe x
  rw [noted] at hotter cooler
  have judged : ∀ {at_ : Option Nat} {ns : Nat}, ready at_ ns → s1.stepDue at_ ns = true := (State.stepDue_iff _ _ _).2
  refine ⟨fun due hot below => ?up, fun not_ => ?upNot, fun due cool above => ?down, fun not_ => ?downNot,
    fun due capped high below => ?powerUp, fun not_ => ?powerNot, fun due low above => ?powerDown,
    fun l at_ raises => ?avs, fun d unit judges => ⟨fun free hot => ?on, fun cool => ?onNot, fun throttled cool => ?off,
      fun hot => ?offNot, fun doubled => ?double, fun cool free => ?halve⟩⟩
  case up =>
    have run := outcome_of_pos hotter ⟨judged due, hot, below⟩
    obtain ⟨tl, pl, cap, reported, follows⟩ := State.levelMoved_roe _ _ _
    exact ⟨_, run, tl, pl, execThermalLevelUp_keep _ _ _ _ run, cap, reported, follows⟩
  case upNot =>
    refine (outcome_of_neg hotter fun ⟨_, hot, below⟩ => ?_).trans (congrArg _ noted.symm)
    exact not_.elim (Nat.not_lt.mpr hot) (Nat.ne_of_lt below)
  case down =>
    have run := outcome_of_pos cooler ⟨judged due, cool, above⟩
    obtain ⟨tl, pl, cap, reported, follows⟩ := State.levelMoved_roe _ _ _
    exact ⟨_, run, tl, pl, execThermalLevelDown_keep _ _ _ _ run, cap, reported, follows⟩
  case downNot =>
    refine (outcome_of_neg cooler fun ⟨_, cool, above⟩ => ?_).trans (congrArg _ noted.symm)
    exact not_.elim (Nat.not_lt.mpr cool) (Nat.ne_of_gt above)
  case powerUp =>
    have run := outcome_of_pos tooMuch ⟨judged due, capped, high, below⟩
    obtain ⟨tl, pl, cap, reported, follows⟩ := State.levelMoved_roe _ _ _
    exact ⟨_, run, tl, pl, execPowerLevelUp_keep _ _ _ _ run, cap, reported, follows⟩
  case powerNot =>
    exact outcome_of_neg tooMuch fun ⟨_, capped, high, _⟩ => not_.elim capped (Nat.not_le.mpr high)
  case powerDown =>
    have run := outcome_of_pos spare ⟨judged due, low, above⟩
    obtain ⟨tl, pl, cap, reported, follows⟩ := State.levelMoved_roe _ _ _
    exact ⟨_, run, tl, pl, execPowerLevelDown_keep _ _ _ _ run, cap, reported, follows⟩
  case avs =>
    obtain ⟨confirmed, silent⟩ := exec_avs s t raises
    exact ⟨confirmed, outcome_of_pos silent, fun early => outcome_of_neg silent (Nat.not_le.mpr early)⟩
  case on =>
    have run := outcome_of_pos (execDramThrottleOn_judged t x unit) ⟨judges, free, hot⟩
    obtain ⟨listed_, doubled⟩ := (s.tick t).refreshRate_listed true d x
    refine ⟨_, run, ?_, ?_, execDramThrottleOn_keep _ _ _ _ _ run⟩
    all_goals rw [State.throttled, State.roe_of_told (State.event_told _ _ _ _ _)]
    · exact listed_
    · exact doubled
  case onNot =>
    exact outcome_of_neg (execDramThrottleOn_judged t x unit) fun ⟨_, _, hot⟩ => Nat.not_lt.mpr hot cool
  case off =>
    have run := outcome_of_pos (execDramThrottleOff_judged t x unit) ⟨judges, throttled, cool⟩
    obtain ⟨listed_, rate⟩ := (s.tick t).refreshRate_listed false d x
    exact ⟨_, run, listed_, rate, execDramThrottleOff_keep _ _ _ _ _ run⟩
  case offNot =>
    exact outcome_of_neg (execDramThrottleOff_judged t x unit) fun ⟨_, _, cool⟩ => Nat.not_lt.mpr cool hot
  case double =>
    have rate : (s1.roe.dramThr.contains d || decide (340 ≤ x)) = true := by
      rw [Bool.or_eq_true, decide_eq_true_eq]
      exact doubled.symm
    rw [execRefreshRateDoubled_judges t x unit judges, State.refreshRate, rate]
    rfl
  case halve =>
    rw [execRefreshRateDoubled_judges t x unit judges, State.refreshRate, free,
      decide_eq_false (Nat.not_le.mpr cool)]
    rfl

end Sys2Proof.Machine

/-!
SUPPORT. What the end of an instance, of a message and of a link leaves alone (R207, R235, R304, R359, R435): the partitions,
the regions and their restore, and the fuses. A fence is made of such ends.
-/
namespace Sys2Proof.Machine

/-! ### The packets of a link that stops (R435) -/

@[simp] theorem ite_still {c : Prop} [Decidable c] (a b : State) : (if c then a else b).still = if c then a.still else b.still := by
  split <;> rfl

@[simp] theorem State.setLink_still (s : State) (l : Nat) (k : Link) : (s.setLink l k).still = s.still := rfl
@[simp] theorem State.setChan_still (s : State) (l v : Nat) (c : Chan) : (s.setChan l v c).still = s.still := rfl
@[simp] theorem State.setWfq_still (s : State) (l : Nat) (w : Wfq) : (s.setWfq l w).still = s.still := rfl

@[simp] theorem State.setBufPkt_still (s : State) (old new : BufPkt) : (s.setBufPkt old new).still = s.still :=
  (foldl_still (fun _ _ => State.beginRequests_still _ _ _) _ _).trans (release_still _ _ _)

@[simp] theorem State.endCopy_still (s : State) (id k : Nat) (cause : Option Nat) : (s.endCopy id k cause).still = s.still := by
  unfold State.endCopy
  split
  · rfl
  · split
    · rfl
    · dsimp only
      split
      · rfl
      · exact State.setBufPkt_still _ _ _

@[simp] theorem State.rehome_still (s : State) (b : BufPkt) (k : Nat) (cp : Copy) : (s.rehome b k cp).still = s.still := by
  unfold State.rehome
  split
  · split
    · rw [State.setBufPkt_still]; rfl
    · simp
  · simp

/-- The packets that wait for a link are traffic. -/
@[simp] theorem State.flushLink_still (s : State) (l : Nat) (keep : Bool) : (s.flushLink l keep).still = s.still := by
  unfold State.flushLink
  dsimp only
  refine (foldl_still (fun _ _ => foldl_still (fun _ _ => ?_) _ _) _ _).trans ?_
  · repeat' split
    all_goals simp
  · rw [ite_still, State.setWfq_still, ite_self]
    refine foldl_still (fun _ _ => ?_) _ _
    cases keep with
    | true =>
      simp only [if_true, State.setChan_still]
      repeat' split
      all_goals simp
    | false =>
      simp only [Bool.false_eq_true, if_false, ite_still, State.count_still, State.setChan_still, ite_self]
      repeat' split
      all_goals simp

@[simp] theorem State.trailSend_still (s : State) (type plane : Nat) (payload : List Byte) :
    (s.trailSend type plane payload).still = s.still := by
  unfold State.trailSend State.trailPut
  split <;> rfl

/-! ### What stands firm -/

/-- The fuses, the partitions, the regions and the reads that restore them. -/
def State.firm (s : State) : Fuse × AMap Nat Part × AMap Nat RegDyn × List (Nat × BulkRead) :=
  (s.fuse, s.mp.parts, s.mem.regs, s.mem.restore)

section
variable {s t : State}

theorem State.firm_of_told (h : t.told = s.told) : t.firm = s.firm :=
  (congrArg (fun u : State => (u.fuse, u.mp.parts, u.mem.regs, u.mem.restore)) h :)

theorem State.firm_of_still (h : t.still = s.still) : t.firm = s.firm := State.firm_of_told (State.told_of_still h)

variable (h : t.firm = s.firm)
include h

theorem State.fuse_of_firm : t.fuse = s.fuse := (congrArg (·.1) h :)
theorem State.parts_of_firm : t.mp.parts = s.mp.parts := (congrArg (·.2.1) h :)
theorem State.regs_of_firm : t.mem.regs = s.mem.regs := (congrArg (·.2.2.1) h :)
theorem State.restore_of_firm : t.mem.restore = s.mem.restore := (congrArg (·.2.2.2) h :)

end

@[simp] theorem ite_firm {c : Prop} [Decidable c] (a b : State) : (if c then a else b).firm = if c then a.firm else b.firm := by
  split <;> rfl

theorem foldl_firm {α : Type} {f : State → α → State} (h : ∀ s x, (f s x).firm = s.firm) (xs : List α) (s : State) :
    (xs.foldl f s).firm = s.firm :=
  List.foldlRecOn (motive := fun u => u.firm = s.firm) xs f rfl fun u hu x _ => (h u x).trans hu

theorem foldl_firm_fst {α β : Type} {f : State × β → α → State × β} (h : ∀ x a, (f x a).1.firm = x.1.firm) (xs : List α)
    (x : State × β) : (xs.foldl f x).1.firm = x.1.firm :=
  List.foldlRecOn (motive := fun u => u.1.firm = x.1.firm) xs f rfl fun u hu a _ => (h u a).trans hu

/-! ### Counts, reports and packets -/

@[simp] theorem State.count_firm (s : State) (c : Ctr) (i j : Nat) : (s.count c i j).firm = s.firm := rfl
@[simp] theorem State.countN_firm (s : State) (c : Ctr) (i j n : Nat) : (s.countN c i j n).firm = s.firm := rfl
@[simp] theorem State.setLink_firm (s : State) (l : Nat) (k : Link) : (s.setLink l k).firm = s.firm := rfl
@[simp] theorem State.setCore_firm (s : State) (g : Nat) (c : Core) : (s.setCore g c).firm = s.firm := rfl
@[simp] theorem State.setCh_firm (s : State) (e : CEnv) (c : ChunkSt) : (s.setCh e c).firm = s.firm := rfl

@[simp] theorem State.event_firm (s : State) (code status detail : Nat) (parts : List Nat) :
    (s.event code status detail parts).firm = s.firm := State.firm_of_told (State.event_told _ _ _ _ _)

@[simp] theorem State.complete_firm (s : State) (r : Req) (status detail : Nat) : (s.complete r status detail).firm = s.firm :=
  State.firm_of_told (State.complete_told _ _ _ _)

@[simp] theorem State.health_firm (s : State) (row n : Nat) : (s.health row n).firm = s.firm :=
  State.firm_of_told (State.health_told _ _ _)

@[simp] theorem State.fromCluster_firm (s : State) (cl vc part : Nat) (p : Packet) (refusal : Bool) :
    (s.fromCluster cl vc part p refusal).firm = s.firm := State.firm_of_still (State.fromCluster_still _ _ _ _ _ _)

@[simp] theorem State.sendRsp_firm (s : State) (cl : Nat) (p : Packet) (refusal : Bool) : (s.sendRsp cl p refusal).firm = s.firm :=
  State.firm_of_still (State.sendRsp_still _ _ _ _)

@[simp] theorem State.trailSend_firm (s : State) (type plane : Nat) (payload : List Byte) :
    (s.trailSend type plane payload).firm = s.firm := State.firm_of_still (State.trailSend_still _ _ _ _)

@[simp] theorem State.flushLink_firm (s : State) (l : Nat) (keep : Bool) : (s.flushLink l keep).firm = s.firm :=
  State.firm_of_still (State.flushLink_still _ _ _)

@[simp] theorem State.collSend_firm (s : State) (e : CEnv) (p : Packet) : (s.collSend e p).firm = s.firm := by
  unfold State.collSend
  simp

/-! ### Digests (R467 to R469, R499) -/

@[simp] theorem shadowCompare_firm (s : State) (plane : Nat) (t r : BitVec 256) : (shadowCompare s plane t r).firm = s.firm := by
  unfold shadowCompare
  split
  · rfl
  · split
    · rfl
    · simp only [State.trailSend_firm, State.event_firm, State.health_firm]
      rfl

@[simp] theorem shadowPair_firm (s : State) (x : CmpEntry) : (shadowPair s x).firm = s.firm := by
  unfold shadowPair
  split
  · rfl
  · simp only [ite_firm, shadowCompare_firm, ite_self]
    rfl

@[simp] theorem State.ringPut_firm (s : State) (slot : Nat) (e : BitVec 256) : (s.ringPut slot e).firm = s.firm := by
  unfold State.ringPut
  dsimp only
  split
  · split
    · rfl
    · exact shadowPair_firm _ _
  · split
    · split
      · rfl
      · split
        · exact State.trailSend_firm _ _ _ _
        · rfl
    · rfl

@[simp] theorem State.closeDigest_firm (s : State) (o : OpenDigest) (isPartial : Bool) :
    (s.closeDigest o isPartial).firm = s.firm := State.ringPut_firm _ _ _

@[simp] theorem State.digestAdd_firm (s : State) (e : CEnv) (inst : Nat) (sum : Word) (failed : Option Nat) (flags : Nat) :
    (s.digestAdd e inst sum failed flags).firm = s.firm := by
  unfold State.digestAdd
  split
  · rfl
  · split
    · rfl
    · dsimp only
      split
      · exact State.closeDigest_firm _ _ _
      · rfl

/-! ### Writes to the DRAM -/

@[simp] theorem State.eccUncorr_firm (s : State) (cl n : Nat) : (s.eccUncorr cl n).firm = s.firm := by
  unfold State.eccUncorr
  simp

@[simp] theorem State.granPut_firm (s : State) (cl g off : Nat) (bs : List Byte) : (s.granPut cl g off bs).1.firm = s.firm := by
  unfold State.granPut
  split
  · exact State.eccUncorr_firm _ _ _
  · rfl

@[simp] theorem State.dramPut_firm (s : State) (cl a : Nat) (bs : List Byte) : (s.dramPut cl a bs).1.firm = s.firm := by
  unfold State.dramPut
  refine foldl_firm_fst (fun _ _ => ?_) _ _
  exact State.granPut_firm _ _ _ _ _

@[simp] theorem State.flagWrite_firm (s : State) (e : CEnv) (r : Rec) : (s.flagWrite e r).firm = s.firm := by
  unfold State.flagWrite
  simp

@[simp] theorem State.doneWrite_firm (s : State) (e : CEnv) (inst etag st flags : Nat) :
    (s.doneWrite e inst etag st flags).firm = s.firm := by
  unfold State.doneWrite
  split
  · rfl
  · exact State.fromCluster_firm _ _ _ _ _ _

/-! ### Instances (R201 to R207, R232 to R245) -/

@[simp] theorem sendPos_firm (s : State) (e : CEnv) (r : Rec) (d : Nat) (sel : OutAsm → Nat → Nat → Bool) :
    (sendPos s e r d sel).1.firm = s.firm := by
  unfold sendPos
  dsimp only
  split
  · rfl
  · refine foldl_firm_fst (fun _ _ => ?_) _ _
    split
    · rfl
    · exact State.collSend_firm _ _ _

@[simp] theorem State.pumpOutputs_firm (s : State) (e : CEnv) (inst : Nat) : (s.pumpOutputs e inst).firm = s.firm := by
  unfold State.pumpOutputs
  split
  · rfl
  · split
    · exact foldl_firm_fst (fun _ _ => sendPos_firm _ _ _ _ _) _ _
    · rfl

@[simp] theorem State.cstat_firm (s : State) (e : CEnv) (inst etag cause missing : Nat) :
    (s.cstat e inst etag cause missing).firm = s.firm := by
  unfold State.cstat
  simp only [ite_firm, State.collSend_firm, ite_self]
  exact foldl_firm (fun _ _ => State.collSend_firm _ _ _) _ _

@[simp] theorem State.toPeers_firm (s : State) (e : CEnv) (inst : Nat) (p : Option Lane) : (s.toPeers e inst p).firm = s.firm := by
  refine foldl_firm (fun _ _ => ?_) _ _
  rfl

@[simp] theorem State.withdraw_firm (s : State) (e : CEnv) (inst : Nat) : (s.withdraw e inst).firm = s.firm := rfl

@[simp] theorem State.dropWork_firm (s : State) (e : CEnv) (inst : Nat) : (s.dropWork e inst).firm = s.firm := by
  refine (foldl_firm (fun _ _ => ?_) _ _).trans rfl
  rfl

/-- The end of a failed instance. -/
@[simp] theorem State.endFail_firm (s : State) (e : CEnv) (inst etag cause : Nat) (missing : Option Nat) :
    (s.endFail e inst etag cause missing).firm = s.firm := by
  unfold State.endFail
  simp

@[simp] theorem State.fusedSend_firm (s : State) (e : CEnv) (inst : Nat) : (s.fusedSend e inst).firm = s.firm := by
  unfold State.fusedSend
  dsimp only
  split
  · split
    · rfl
    · split
      · simp
      · split <;> simp
  · rfl

@[simp] theorem State.fusedRound_firm (s : State) (e : CEnv) (r : Rec) : (s.fusedRound e r).firm = s.firm := by
  unfold State.fusedRound
  simp

@[simp] theorem State.barrier_firm (s : State) (e : CEnv) (r : Rec) : (s.barrier e r).firm = s.firm := by
  unfold State.barrier
  simp

@[simp] theorem State.runCurrent_firm (s : State) (e : CEnv) (inst : Nat) : (s.runCurrent e inst).firm = s.firm := by
  unfold State.runCurrent
  split <;> simp

@[simp] theorem settle_firm (e : CEnv) (n : Nat) (s : State) : (settle e n s).firm = s.firm := by
  induction n generalizing s with
  | zero => rfl
  | succ n ih =>
    unfold settle
    dsimp only
    split
    · rfl
    · split
      · rw [ih, State.setCh_firm]
      · split
        · rw [ih, State.endFail_firm]
        · split
          · rfl
          · simp [ih]

@[simp] theorem State.settled_firm (s : State) (e : CEnv) : (s.settled e).firm = s.firm := settle_firm _ _ _

@[simp] theorem State.fail_firm (s : State) (e : CEnv) (inst etag cause : Nat) (missing : Option Nat) :
    (s.fail e inst etag cause missing).firm = s.firm :=
  (State.settled_firm _ _).trans (State.endFail_firm _ _ _ _ _ _)

/-- The end of every instance of some slots. -/
@[simp] theorem State.failWhere_firm (s : State) (pick : CEnv → Bool) (cause : Nat) : (s.failWhere pick cause).firm = s.firm := by
  refine foldl_firm (fun _ _ => foldl_firm (fun _ _ => ?_) _ _) _ _
  split
  · rfl
  · simp

/-! ### Messages and links (R304, R359, R435) -/

@[simp] theorem State.putMsg_firm (s : State) (m : Msg) : (s.putMsg m).firm = s.firm := rfl

@[simp] theorem State.failMsg_firm (s : State) (m : Msg) (st : Nat) : (s.failMsg m st).firm = s.firm := by
  unfold State.failMsg
  cases m.held <;> simp

@[simp] theorem State.failMsgs_firm (s : State) (part st : Nat) : (s.failMsgs part st).firm = s.firm := by
  refine foldl_firm (fun _ _ => ?_) _ _
  simp

/-- A link that is moved to STOPPING. -/
@[simp] theorem State.linkStop_firm (s : State) (l : Nat) : (s.linkStop l).firm = s.firm := by
  unfold State.linkStop State.toState
  dsimp only
  rw [State.flushLink_firm, State.setLink_firm, State.setLink_firm]
  split <;> simp

@[simp] theorem State.stopEndpoints_firm (s : State) (part : Nat) : (s.stopEndpoints part).firm = s.firm := by
  unfold State.stopEndpoints
  split
  · rfl
  · exact foldl_firm (fun _ _ => by simp) _ _

end Sys2Proof.Machine

/-!
PROOFS. Time without a parent, open digests, errors of units and the health debt (R454, R468, R489, R513).
-/
namespace Sys2Proof.Machine

/-! ### The fence (R489) -/

/-- The ends that a fence makes, of instances, messages and links, leave the firm part of the state alone. -/
theorem State.fenceEnds_firm (s : State) (part cause : Nat) :
    (((s.failWhere (fun e => !isShadow e.slot && decide (e.part = part)) cause).failMsgs part stFence).stopEndpoints part).firm =
      s.firm := by simp

/-- A fence marks its partition, and changes no other. -/
theorem State.fence_parts (s : State) (part cls cause : Nat) (dies : List Nat) :
    (s.fence part cls cause dies).mp.parts = s.mp.parts.put part
      { s.part part with fenced := true, c5 := if cls = 5 then (s.part part).c5 ++ dies else (s.part part).c5 } := by
  have ended := State.parts_of_firm (s.fenceEnds_firm part cause)
  unfold State.fence
  rw [State.parts_of_told (State.event_told _ _ _ _ _)]
  simp only [State.setPart, State.part, ended]

/-- A fence of a partition leaves it fenced, and every fence stays. -/
theorem State.fence_fenced {s : State} {q part cls cause : Nat} {dies : List Nat} (h : (s.part q).fenced = true ∨ q = part) :
    ((s.fence part cls cause dies).part q).fenced = true := by
  rw [State.part, State.fence_parts]
  by_cases same : part = q
  · rw [same, AMap.at_put_same]
  · rw [AMap.at_put_other _ same]
    exact h.resolve_right (Ne.symm same)

/-- After a fence of each of some partitions they are all fenced. -/
theorem State.foldl_fence_fenced (cls cause : Nat) (dies ps : List Nat) {s : State} {q : Nat}
    (h : (s.part q).fenced = true ∨ q ∈ ps) : ((ps.foldl (fun s p => s.fence p cls cause dies) s).part q).fenced = true := by
  induction ps generalizing s with
  | nil => exact h.resolve_right List.not_mem_nil
  | cons p ps ih =>
    refine ih ?_
    rcases h with fenced | among
    · exact .inl (State.fence_fenced (.inl fenced))
    · rcases List.mem_cons.1 among with rfl | later
      · exact .inl (State.fence_fenced (.inr rfl))
      · exact .inr later

/-- An error of a unit fences every partition in its reach (R489). -/
theorem State.unitError_fenced (s : State) (u : UnitRef) {p : Nat} (h : p ∈ s.reach u) :
    ((s.unitError u).part p).fenced = true :=
  State.foldl_fence_fenced _ _ _ _ (.inr h)

/-! ### A fence writes no memory (R489) -/

@[simp] theorem shadowCompare_coll (s : State) (plane : Nat) (t r : BitVec 256) : (shadowCompare s plane t r).coll = s.coll := by
  unfold shadowCompare
  split
  · rfl
  · split
    · rfl
    · rw [State.coll_of_told (State.told_of_still (State.trailSend_still _ _ _ _)), State.coll_of_told (State.event_told _ _ _ _ _),
        State.coll_of_told (State.health_told _ _ _)]

@[simp] theorem shadowPair_coll (s : State) (x : CmpEntry) : (shadowPair s x).coll = s.coll := by
  unfold shadowPair
  split
  · rfl
  · dsimp only
    split <;> exact shadowCompare_coll _ _ _ _

theorem State.ringPut_chunks (s : State) (slot : Nat) (e : BitVec 256) : (s.ringPut slot e).coll.chunks = s.coll.chunks := by
  unfold State.ringPut
  dsimp only
  split
  · split
    · rfl
    · rw [shadowPair_coll]
  · split
    · split
      · rfl
      · split
        · rw [State.coll_of_told (State.told_of_still (State.trailSend_still _ _ _ _))]
        · rfl
    · rfl

/-- What a chunk adds to its digest changes no chunk. -/
theorem State.digestAdd_chunks (s : State) (e : CEnv) (inst : Nat) (sum : Word) (failed : Option Nat) (flags : Nat) :
    (s.digestAdd e inst sum failed flags).coll.chunks = s.coll.chunks := by
  unfold State.digestAdd
  split
  · rfl
  · split
    · rfl
    · dsimp only
      split
      · exact State.ringPut_chunks _ _ _
      · rfl

/-- The chunk-done record changes no chunk. -/
theorem State.doneWrite_chunks (s : State) (e : CEnv) (inst etag st flags : Nat) :
    (s.doneWrite e inst etag st flags).coll.chunks = s.coll.chunks := by
  unfold State.doneWrite
  split
  · rfl
  · dsimp only
    rw [State.coll_of_told (State.told_of_still (State.fromCluster_still _ _ _ _ _ _))]
    rfl

/-- A chunk that goes on to its next instance keeps its records. -/
theorem State.advance_recs (s : State) (e : CEnv) (c : ChunkSt) (inst : Nat) : (s.advance e c inst).recs = c.recs := by
  unfold State.advance
  simp only [apply_ite ChunkSt.recs, ite_self]

theorem State.advanceFailed_recs (s : State) (e : CEnv) (c : ChunkSt) (inst : Nat) :
    (s.advanceFailed e c inst).recs = c.recs :=
  (State.advance_recs _ _ _ _).trans (by simp only [apply_ite ChunkSt.recs, ite_self])

/-- A failed instance leaves its chunk the records of the others. -/
theorem State.endFail_recs (s : State) (e : CEnv) (inst etag cause : Nat) (missing : Option Nat) :
    ((s.endFail e inst etag cause missing).ch e).recs = (s.ch e).recs.filter fun x => !decide (x.inst = inst) := by
  unfold State.endFail
  dsimp only
  rw [State.ch, State.chunk, State.doneWrite_chunks, State.digestAdd_chunks]
  refine (congrArg ChunkSt.recs (State.ch_setCh _ _ _)).trans ?_
  simp only [apply_ite ChunkSt.recs, State.advanceFailed_recs, ite_self]

/-- A chunk without records is taken up without a write. -/
theorem settle_keep_of_noRecs (e : CEnv) (n : Nat) {s : State} (h : (s.ch e).recs = []) : (settle e n s).keep = s.keep := by
  induction n generalizing s with
  | zero => rfl
  | succ n ih =>
    unfold settle
    dsimp only
    split
    · rfl
    · split
      · rw [ih, State.setCh_keep]
        rw [State.ch_setCh, State.advanceFailed_recs]
        exact h
      · split
        · rw [ih, State.endFail_keep]
          rw [State.endFail_recs, h]
          rfl
        · have none_ : ∀ i, (s.ch e).recOf i = none := fun i => by rw [ChunkSt.recOf, h]; rfl
          rw [none_]

/-- The end of every instance of some slots writes no memory. -/
theorem State.failWhere_keep (s : State) (pick : CEnv → Bool) (cause : Nat) : (s.failWhere pick cause).keep = s.keep := by
  refine foldl_keep _ (fun _ _ => foldl_keep _ (fun _ _ => ?_) _ _) _ _
  split
  · rfl
  · split
    · dsimp only
      split
      next none_ => exact (settle_keep_of_noRecs _ _ (List.isEmpty_iff.1 none_)).trans (State.endFail_keep _ _ _ _ _ _)
      next => exact State.endFail_keep _ _ _ _ _ _
    · rfl

/-- A fence writes no memory. -/
theorem State.fence_keep (s : State) (part cls cause : Nat) (dies : List Nat) : (s.fence part cls cause dies).keep = s.keep := by
  simp only [State.fence, State.event_keep, State.setPart_keep, State.stopEndpoints_keep, State.failMsgs_keep, State.failWhere_keep]

/-- An error of a unit writes no memory. -/
theorem State.unitError_keep (s : State) (u : UnitRef) : (s.unitError u).keep = s.keep :=
  (foldl_keep _ (fun _ _ => State.fence_keep _ _ _ _ _) _ _).trans ((State.event_keep _ _ _ _ _).trans (State.health_keep _ _ _))

/-! ### Time states (R454) -/

/-- A time state entered is reported, which leaves time alone. -/
theorem State.enterTime_time (s : State) : (s.enterTime .holdover).time =
      { s.time with st := .holdover, good := 0, holdAt := s.now, remove := 0 } ∧
    (s.enterTime .unset).time = { s.time with st := .unset, good := 0, depth := 0xFF, remove := 0, freq := 0 } :=
  ⟨State.time_of_told (State.event_told _ _ _ _ _), State.time_of_told (State.event_told _ _ _ _ _)⟩

/-- A choice by one decided proposition. -/
theorem when_decide {p : Prop} [Decidable p] (s u : State) : when_ (decide p) s u = if p then u else s :=
  when_eq_ite decide_eq_true_iff s u

/-- HOLDOVER_ENTRY and HOLDOVER_EXPIRY judge the time since the last usable TSYNC, and since HOLDOVER began. -/
theorem exec_holdover (s : State) (t : Nat) :
    let s1 := s.tick t
    exec (.holdoverEntry t) s = .next (
      if (s1.time.st = .acquire ∨ s1.time.st = .locked) ∧ s1.time.usable + 100000 ≤ s1.now then s1.enterTime .holdover else s1) ∧
    exec (.holdoverExpiry t) s = .next (
      if s1.time.st = .holdover ∧ s1.time.holdAt + 1000000000 ≤ s1.now then s1.enterTime .unset else s1) :=
  ⟨congrArg _ (when_decide _ _), congrArg _ (when_decide _ _)⟩

/-! ### Open digests and the health debt (R468, R513) -/

/-- HEALTH_DECAY at a minute of FT. -/
theorem execHealthDecay_judged (s : State) (t : Nat) :
    let s1 := s.tick t
    exec (.healthDecay t) s = .next (
      if s1.mp.running = true ∧ s1.ftNow / 60000000000 ≠ s1.mp.decayed
      then { s1 with mp := { s1.mp with debt := s1.mp.debt - cdiv s1.mp.debt 128, decayed := s1.ftNow / 60000000000 } }
      else s1) :=
  congrArg _ (when_eq_ite (by rw [Bool.and_eq_true, decide_eq_true_eq]) _ _)

/-- DIGEST_ENTRY_TIMEOUT of an open entry. -/
theorem execDigestEntryTimeout_open {s : State} {slot inst t : Nat} {o : OpenDigest} {c : SlotCfg}
    (found : ((s.tick t).coll.open_.find? fun x : OpenDigest => decide (x.slot = slot ∧ x.inst = inst)) = some o)
    (cfg : (((s.tick t).planOfSlot slot).bind fun p => p.slot slot) = some c) :
    exec (.digestEntryTimeout slot inst t) s = .next (
      if o.since + 2 * c.timeout ≤ (s.tick t).now then (s.tick t).closeDigest o true else s.tick t) := by
  simp only [exec, execDigestEntryTimeout, found, cfg, when_decide]

/-- UNIT_ERROR of a unit that exists. -/
theorem execUnitError_unit (s : State) {u : UnitRef} (t : Nat) (unit : unitOk u = true) :
    exec (.unitError u t) s = .next ((s.tick t).unitError u) :=
  if_pos unit

/-- Settles O38: the time states by `enterTime_time`, the fences by `unitError_fenced`, the rest by the equations of their
commands. -/
theorem timeErrorAndHealthTimers : Obligations.TimeErrorAndHealthTimers := by
  unfold Obligations.TimeErrorAndHealthTimers
  intro s t s1 debt
  obtain ⟨entry, expiry⟩ := exec_holdover s t
  obtain ⟨held, unset⟩ := s1.enterTime_time
  have decay := execHealthDecay_judged s t
  refine ⟨fun synced => ⟨fun late => ?entry, fun early => outcome_of_neg entry fun ⟨_, late⟩ => Nat.not_le.mpr early late⟩,
    fun holds => ⟨fun late => ?expiry, fun early => outcome_of_neg expiry fun ⟨_, late⟩ => Nat.not_le.mpr early late⟩,
    fun slot inst o c found cfg => ⟨outcome_of_pos (execDigestEntryTimeout_open found cfg),
      fun early => outcome_of_neg (execDigestEntryTimeout_open found cfg) (Nat.not_le.mpr early)⟩,
    fun u unit => ?unit, fun runs due => outcome_of_pos decay ⟨runs, due⟩,
    fun same => outcome_of_neg decay fun ⟨_, due⟩ => due same⟩
  case entry =>
    have run := outcome_of_pos entry ⟨synced, late⟩
    exact ⟨_, run, by rw [held], by rw [held], by rw [held], by rw [held], execHoldoverEntry_keep _ _ _ run⟩
  case expiry =>
    have run := outcome_of_pos expiry ⟨holds, late⟩
    exact ⟨_, run, by rw [unset], by rw [unset], execHoldoverExpiry_keep _ _ _ run⟩
  case unit =>
    have run := execUnitError_unit s t unit
    exact ⟨_, run, fun p reached => State.unitError_fenced _ _ reached, (State.unitError_keep _ _).trans (State.tick_keep _ _)⟩

end Sys2Proof.Machine

/-!
PROOFS. The takeover and the restore of mirrored regions (R507, R508, R511, R558).
-/
namespace Sys2Proof.Machine

/-! ### The commit of a takeover (R32, R507) -/

/-- TAKEOVER of a promotion plan whose arm point has passed: the MP carries it out at its FT. -/
theorem execTakeover_passed {s : State} {t : Nat} {a : Arm} {p : Plan} (arm : (s.tick t).plans.arm = some a)
    (passed : a.passed = true) (staged : (s.tick t).plans.staged = some p) (ftSet : (s.tick t).ftSet = true)
    (promotes : a.promote = true) :
    exec (.takeover t) s = .next (if (s.tick t).mpServes = true ∧ a.c ≤ (s.tick t).ftNow
      then ((s.tick t).install p a.c (some a.o) true).afterTakeover p a else s.tick t) := by
  simp only [exec, execTakeover, State.commitNow, State.armPoint_passed arm passed, arm, staged, passed, ftSet, promotes,
    true_and, and_true]

/-! ### The reads of a restore (R508, R558) -/

/-- A good answer to a restore read lands in its region. -/
def State.restoreLands (s : State) (e : Nat) (w : BulkRead) (bs : List Byte) : State :=
  let r := s.regionEnt e
  let u := (s.dramPut (servingCluster (reBase r)) (64 * reBase r + w.off) bs).1
  { u with mem := { u.mem with restore := u.mem.restore.filter fun y : Nat × BulkRead => !decide (y.2.tag = w.tag) } }

section Response
variable {s s2 : State} {t : Nat} {x : Steered} {e : Nat} {w : BulkRead}
  (taken : (s.tick t).takeMp (fun y => decide (hKind y.pkt.hdr = 6) && ((s.tick t).restoreRead (hTag y.pkt.hdr)).isSome) =
    some (x, s2))
  (check : hCheck x.pkt.hdr = checkOf x.pkt.payload) (read : s2.restoreRead (hTag x.pkt.hdr) = some (e, w))
include taken check read

/-- An answer of another status, or of another length, is a failure of the buddy (R511). -/
theorem execRestoreReadResponse_bad (bad : hStatus x.pkt.hdr ≠ 0 ∨ x.pkt.payload.length ≠ w.len) :
    exec (.restoreReadResponse t) s = .next s2.buddyFail := by
  simp only [exec, execRestoreReadResponse, taken, State.mpPacket_of_check _ _ check, read, if_pos bad]

/-- A good answer lands, and the region serves once the last granule has (R508). -/
theorem execRestoreReadResponse_good (ok : hStatus x.pkt.hdr = 0) (whole : x.pkt.payload.length = w.len) {next landed : Nat}
    (restores : ((s2.restoreLands e w x.pkt.payload).reg e).phase = .restoring next landed) :
    exec (.restoreReadResponse t) s = .next (
      let u := s2.restoreLands e w x.pkt.payload
      let n := landed + w.len / 64
      if reLen (s2.regionEnt e) ≤ n then (u.setReg e {}).promoteDone 0 0
      else (u.setReg e { u.reg e with phase := .restoring next n }).restoreNext e) := by
  have good : ¬(hStatus x.pkt.hdr ≠ 0 ∨ x.pkt.payload.length ≠ w.len) := by simp [ok, whole]
  simp only [State.restoreLands] at restores
  simp only [exec, execRestoreReadResponse, taken, State.mpPacket_of_check _ _ check, read, if_neg good, State.restoreLands,
    restores]

end Response

/-- RESTORE_READ_RESEND of a read that waits. -/
theorem execRestoreReadResend_waits {s : State} {tag t e : Nat} {w : BulkRead}
    (read : (s.tick t).restoreRead tag = some (e, w)) :
    let s1 := s.tick t
    let again := fun y : Nat × BulkRead => (y.1, { y.2 with sentAt := s1.now, resends := y.2.resends + 1 })
    let rs := modWhere (fun y : Nat × BulkRead => decide (y.2.tag = tag)) again s1.mem.restore
    let r := s1.regionEnt e
    exec (.restoreReadResend tag t) s = .next (if s1.now < w.sentAt + resendNs then s1
      else ({ s1 with mem := { s1.mem with restore := rs } } : State).mpRead (rePart r) (reBuddy r <<< 32 + reBbase r) w) := by
  simp only [exec, execRestoreReadResend, read]

/-! ### The failure of the buddy (R511) -/

/-- A fence changes neither a region nor the restore. -/
theorem State.fence_mem (s : State) (part cls cause : Nat) (dies : List Nat) :
    (s.fence part cls cause dies).mem.regs = s.mem.regs ∧ (s.fence part cls cause dies).mem.restore = s.mem.restore := by
  have ended := s.fenceEnds_firm part cause
  unfold State.fence
  rw [State.mem_of_told (State.event_told _ _ _ _ _)]
  exact ⟨(State.regs_of_firm ended :), (State.restore_of_firm ended :)⟩

theorem State.foldl_fence_mem (cls cause : Nat) (dies ps : List Nat) (s : State) :
    (ps.foldl (fun s p => s.fence p cls cause dies) s).mem.regs = s.mem.regs ∧
      (ps.foldl (fun s p => s.fence p cls cause dies) s).mem.restore = s.mem.restore := by
  induction ps generalizing s with
  | nil => exact ⟨rfl, rfl⟩
  | cons p ps ih =>
    obtain ⟨regs, restore⟩ := ih (s.fence p cls cause dies)
    obtain ⟨regs', restore'⟩ := s.fence_mem p cls cause dies
    exact ⟨regs.trans regs', restore.trans restore'⟩

/-- The completion of a promotion changes neither a region nor the restore. -/
theorem State.promoteDone_firm (s : State) (status detail : Nat) : (s.promoteDone status detail).firm = s.firm := by
  unfold State.promoteDone
  split
  · rfl
  · split
    · rfl
    · exact State.complete_firm _ _ _ _

/-- Regions marked LOST one after the other are all LOST. -/
theorem State.foldl_setReg_lost (es : List Nat) {s : State} {e : Nat} (h : (s.reg e).phase = .lost ∨ e ∈ es) :
    ((es.foldl (fun s e => s.setReg e { s.reg e with phase := .lost }) s).reg e).phase = .lost := by
  induction es generalizing s with
  | nil => exact h.resolve_right List.not_mem_nil
  | cons x es ih =>
    refine ih ?_
    by_cases same : x = e
    · exact .inl (by rw [same, State.reg_setReg])
    · refine h.imp (fun lost => ?_) fun among => (List.mem_cons.1 among).resolve_left (Ne.symm same)
      exact (congrArg RegDyn.phase (AMap.at_put_other _ same _ _)).trans lost

/-- The failure of the buddy leaves no restore, and every region that was restored is LOST. -/
theorem State.buddyFail_lost {s : State} (some_ : (s.mem.regs.any fun x : Nat × RegDyn => x.2.restores) = true) :
    s.buddyFail.mem.restore = [] ∧
      ∀ e, (∃ d, (e, d) ∈ s.mem.regs ∧ d.restores = true) → (s.buddyFail.reg e).phase = .lost := by
  have lost : ∀ e, (∃ d, (e, d) ∈ s.mem.regs ∧ d.restores = true) →
      e ∈ (s.mem.regs.filter fun x : Nat × RegDyn => x.2.restores).map fun x : Nat × RegDyn => x.1 :=
    fun e ⟨d, listed_, restores⟩ =>
    List.mem_map.2 ⟨(e, d), List.mem_filter.2 ⟨listed_, restores⟩, rfl⟩
  obtain ⟨⟨e, d⟩, listed_, restores⟩ := List.any_eq_true.1 some_
  have some' : ¬((s.mem.regs.filter fun x : Nat × RegDyn => x.2.restores).map fun x : Nat × RegDyn => x.1).isEmpty = true :=
    fun empty =>
    List.not_mem_nil (List.isEmpty_iff.1 empty ▸ lost e ⟨d, listed_, restores⟩)
  unfold State.buddyFail
  dsimp only
  rw [if_neg some']
  refine ⟨?_, fun e among => ?_⟩
  · rw [(State.foldl_fence_mem _ _ _ _ _).2, State.restore_of_firm (State.promoteDone_firm _ _ _)]
  · rw [State.reg, (State.foldl_fence_mem _ _ _ _ _).1, State.regs_of_firm (State.promoteDone_firm _ _ _)]
    exact State.foldl_setReg_lost _ (.inr (lost e among))

/-- BUDDY_TIMEOUT while a read is 100 ms old, or the buddy is in bypass. -/
theorem execBuddyTimeout_due {s : State} {t : Nat}
    (due : (∃ w ∈ (s.tick t).mem.restore, w.2.first + 100000000 ≤ (s.tick t).now) ∨
      ∃ e d, (e, d) ∈ (s.tick t).mem.regs ∧ d.restores = true ∧
        ((s.tick t).member (cPlane (reBuddy ((s.tick t).regionEnt e)))).present = false) :
    exec (.buddyTimeout t) s = .next (s.tick t).buddyFail := by
  refine congrArg _ (if_pos (Bool.or_eq_true_iff.2 (due.imp ?_ ?_)))
  · exact fun ⟨w, waits, late⟩ => List.any_eq_true.2 ⟨w, waits, decide_eq_true late⟩
  · exact fun ⟨e, d, listed_, restores, absent⟩ => List.any_eq_true.2 ⟨(e, d), listed_, by simp only [restores, absent]; rfl⟩

/-- Settles O41: the commit, each answer and each resend by the equation of its command, the failure by `buddyFail_lost`. -/
theorem takeoverRestoresMirroredRegions : Obligations.TakeoverRestoresMirroredRegions := by
  unfold Obligations.TakeoverRestoresMirroredRegions
  intro s t s1
  refine ⟨fun a p arm passed staged ftSet promotes => ?commit,
    fun x s2 e w next landed taken check read => ⟨fun ok whole restores => ?good, fun bad => ?bad⟩,
    fun tag e w read => ?resend, fun due some_ => ?gone⟩
  case commit =>
    have run := execTakeover_passed arm passed staged ftSet promotes
    exact ⟨fun silent => outcome_of_neg run fun ⟨serves, _⟩ => Bool.false_ne_true (silent.symm.trans serves),
      fun due serves => outcome_of_pos run ⟨serves, due⟩, fun early => outcome_of_neg run fun ⟨_, due⟩ => Nat.not_le.mpr early due⟩
  case good =>
    have run := execRestoreReadResponse_good taken check read ok whole restores
    exact ⟨outcome_of_pos run, fun more => outcome_of_neg run (Nat.not_le.mpr more)⟩
  case bad => exact execRestoreReadResponse_bad taken check read bad
  case resend =>
    have run := execRestoreReadResend_waits read
    exact ⟨fun late => outcome_of_neg run (Nat.not_lt.mpr late), outcome_of_pos run⟩
  case gone =>
    obtain ⟨none_, lost⟩ := State.buddyFail_lost some_
    exact ⟨_, execBuddyTimeout_due due, rfl, none_, lost⟩

end Sys2Proof.Machine

/-!
PROOFS. Enables and disables by the state of the function (R516, R517, R525, Table RES-8).
-/
namespace Sys2Proof.Machine

/-! ### What an enable does (Table RES-8) -/

theorem Fn.onEnable_off {f : Fn} (h : f.st = .off) : f.onEnable = .start := by rw [Fn.onEnable, h]
theorem Fn.onEnable_stopping {f : Fn} (h : f.st = .stopping) : f.onEnable = .queue := by rw [Fn.onEnable, h]
theorem Fn.onEnable_up {f : Fn} (h : f.st = .starting ∨ f.st = .on) : f.onEnable = .keep := by
  obtain h | h := h <;> rw [Fn.onEnable, h]

/-- The lifecycle just written to a cluster. -/
@[simp] theorem State.clusterFn_setCluster (s : State) (cl : Nat) (f : Fn) : (s.setCluster cl f).clusterFn cl = f :=
  AMap.at_put_same _ _ _ _

/-! ### Clusters -/

section Cluster
variable {s : State} {c : Call}

theorem clusterEnable_beyond (beyond : Config.clusters ≤ c.arg 0 0) : clusterEnable c s = refuseCmd s 0x71 := if_pos beyond

variable (unit : c.arg 0 0 < Config.clusters)
include unit

/-- CLUSTER_ENABLE starts a cluster that is OFF. -/
theorem clusterEnable_off (off : (s.clusterFn (c.arg 0 0)).st = .off) :
    clusterEnable c s = deferred (s.setCluster (c.arg 0 0) { st := .starting, start := some c.req }) := by
  simp only [clusterEnable, if_neg (Nat.not_le.mpr unit), Fn.onEnable_off off]

/-- One that starts or is ON stays as it is. -/
theorem clusterEnable_up (up : (s.clusterFn (c.arg 0 0)).st = .starting ∨ (s.clusterFn (c.arg 0 0)).st = .on) :
    clusterEnable c s = noChange s := by
  simp only [clusterEnable, if_neg (Nat.not_le.mpr unit), Fn.onEnable_up up]

/-- Behind a stop the enable is queued. -/
theorem clusterEnable_stopping (stops : (s.clusterFn (c.arg 0 0)).st = .stopping) :
    let x := (s.clusterFn (c.arg 0 0)).enqueue c.req [] s
    clusterEnable c s = queuedV (x.2.setCluster (c.arg 0 0) x.1) := by
  simp only [clusterEnable, if_neg (Nat.not_le.mpr unit), Fn.onEnable_stopping stops]

/-- CLUSTER_DISABLE of a cluster that owns nothing in the active plan. -/
theorem clusterDisable_unit
    (idle : (s.plans.active.any fun p : Plan => p.ownersUsed.contains (c.arg 0 0)) = false) :
    clusterDisable c s = if (s.clusterFn (c.arg 0 0)).st = .off then noChange s
      else deferred (((s.clusterFn (c.arg 0 0)).disable c.req s).2.setCluster (c.arg 0 0)
        ((s.clusterFn (c.arg 0 0)).disable c.req s).1) := by
  rw [clusterDisable, if_neg (Nat.not_le.mpr unit), if_neg (Bool.eq_false_iff.1 idle)]

end Cluster

/-! ### Ports -/

section Port
variable {s : State} {c : Call}

/-- A link that the plan does not name is refused. -/
theorem State.portArg_unnamed (f : Nat → Verdict) (no : s.namesLink (c.arg 1 0) = false) : s.portArg c f = refuseCmd s 0x71 := by
  simp [State.portArg, no]

/-- A link that it names is given to a request of mailbox 0. -/
theorem State.portArg_named (f : Nat → Verdict) (yes : s.namesLink (c.arg 1 0) = true) (admin : c.part = none) :
    s.portArg c f = f (c.arg 1 0) := by
  simp [State.portArg, yes, Call.foreign, admin]

/-- A link that is moved to STOPPING is there. -/
theorem State.linkStop_st (s : State) (l : Nat) : ((s.linkStop l).link l).st = .stopping := by
  unfold State.linkStop
  dsimp only
  rw [State.st_of_calm (State.flushLink_calm _ _ _)]
  exact congrArg Link.st (State.link_setLink _ _ _)

variable (yes : s.namesLink (c.arg 1 0) = true) (admin : c.part = none)
include yes admin

/-- PORT_ENABLE starts a link that is DISABLED. -/
theorem portEnable_disabled (off : (s.link (c.arg 1 0)).st = .disabled) :
    let k := s.link (c.arg 1 0)
    portEnable c s = deferred ((s.setLink (c.arg 1 0)
      { k with fn := { k.fn with start := some c.req }, awaited := some s.now }).startOff (c.arg 1 0)) := by
  simp only [portEnable, State.portArg_named _ yes admin, off]

/-- Behind a stop it is queued. -/
theorem portEnable_stopping (stops : (s.link (c.arg 1 0)).st = .stopping) :
    let k := s.link (c.arg 1 0)
    let x := k.fn.enqueue c.req [] s
    portEnable c s = queuedV (x.2.setLink (c.arg 1 0) { k with fn := x.1 }) := by
  simp only [portEnable, State.portArg_named _ yes admin, stops]

/-- A link in any other state stays as it is. -/
theorem portEnable_enabled (on : (s.link (c.arg 1 0)).st ≠ .disabled) (live : (s.link (c.arg 1 0)).st ≠ .stopping) :
    portEnable c s = noChange s := by
  simp only [portEnable, State.portArg_named _ yes admin]

/-- PORT_DISABLE of a link that is DISABLED. -/
theorem portDisable_disabled (off : (s.link (c.arg 1 0)).st = .disabled) : portDisable c s = noChange s :=
  (State.portArg_named _ yes admin).trans (if_pos off)

/-- PORT_DISABLE of any other link completes deferred, and the link stops. -/
theorem portDisable_enabled (on : (s.link (c.arg 1 0)).st ≠ .disabled) :
    (portDisable c s).defer = true ∧ ((portDisable c s).st.link (c.arg 1 0)).st = .stopping := by
  rw [portDisable, State.portArg_named _ yes admin, if_neg on]
  refine ⟨rfl, ?_⟩
  dsimp only [deferred]
  split
  next stops =>
    rw [State.link_setLink]
    dsimp only
    split
    · exact stops
    · exact (State.st_of_calm (State.complete_calm _ _ _ _) _).trans stops
  next => exact State.linkStop_st _ _

end Port

/-! ### Partitions (R525) -/

section Partition
variable {s : State} {c : Call}

section Create
variable (part : c.arg 0 0 < 64) (mbx : c.arg 1 1 < 8)
include part mbx

/-- PART_CREATE of a partition that may not be created. -/
theorem partCreate_refused (no : s.partRefused (c.arg 0 0) = true) : partCreate c s = refuseCmd s 0x43 := by
  rw [partCreate, if_neg (by omega), if_pos no]

variable (may : s.partRefused (c.arg 0 0) = false)
include may

/-- PART_CREATE of a partition that is OFF, by its mailbox. -/
theorem partCreate_off (off : (s.part (c.arg 0 0)).fn.st = .off) : partCreate c s =
    if s.mbxTaken (c.arg 0 0) (c.arg 1 1) = true then refuseCmd s 0x43
    else deferred (s.partStart (c.arg 0 0) (c.arg 1 1) c.req) := by
  have known : ¬(63 < c.arg 0 0 ∨ 7 < c.arg 1 1) := by omega
  simp only [partCreate, if_neg known, may, Fn.onEnable_off off, Bool.false_eq_true, if_false]

/-- A partition that starts or is ON stays as it is; its mailbox must be the same. -/
theorem partCreate_up (up : (s.part (c.arg 0 0)).fn.st = .starting ∨ (s.part (c.arg 0 0)).fn.st = .on) : partCreate c s =
    if c.arg 1 1 ≠ (s.part (c.arg 0 0)).mbx then refuseCmd s 0x71 else noChange s := by
  have known : ¬(63 < c.arg 0 0 ∨ 7 < c.arg 1 1) := by omega
  simp only [partCreate, if_neg known, may, Fn.onEnable_up up, Bool.false_eq_true, if_false]

/-- Behind a stop it is queued with its mailbox. -/
theorem partCreate_stopping (stops : (s.part (c.arg 0 0)).fn.st = .stopping) :
    let x := s.part (c.arg 0 0)
    let y := x.fn.enqueue c.req [c.arg 1 1] s
    partCreate c s = queuedV (y.2.setPart (c.arg 0 0) { x with fn := y.1 }) := by
  have known : ¬(63 < c.arg 0 0 ∨ 7 < c.arg 1 1) := by omega
  simp only [partCreate, if_neg known, may, Fn.onEnable_stopping stops, Bool.false_eq_true, if_false]

end Create

/-- PART_DESTROY of a partition that is OFF takes its fence. -/
theorem partDestroy_off (part : c.arg 0 0 < 64) (off : (s.part (c.arg 0 0)).fn.st = .off) :
    partDestroy c s = noChange (s.setPart (c.arg 0 0) { s.part (c.arg 0 0) with fenced := false, c5 := [] }) := by
  rw [partDestroy, if_neg (by omega)]
  exact if_pos off

end Partition

/-- Settles O45: each clause is one branch of the equation of its command. -/
theorem enablesAndDisablesFollowTableRES8 : Obligations.EnablesAndDisablesFollowTableRES8 := by
  unfold Obligations.EnablesAndDisablesFollowTableRES8
  intro s c cl f l k p mb y v w z
  refine ⟨fun beyond => ?beyond, fun unit => ⟨fun off => ?off, fun up => ?up, fun stops => ?stops, fun off idle => ?clOff,
      fun on idle => ?clOn⟩, fun no => ?unnamed, fun yes admin => ⟨fun off => ?pOff, fun stops => ?pStops,
      fun on live => ?pOn, fun off => ?dOff, fun on => portDisable_enabled yes admin on⟩, fun part mbx no => ?refused,
      fun part mbx may => ⟨fun off free => ?create, fun off taken => ?taken, fun up => ?created, fun stops => ?queued⟩,
      fun part off => ?destroy⟩
  case beyond => rw [show v = _ from clusterEnable_beyond beyond]; exact ⟨rfl, rfl⟩
  case off => rw [show v = _ from clusterEnable_off unit off]; exact ⟨rfl, rfl, rfl⟩
  case up => rw [show v = _ from clusterEnable_up unit up]; exact ⟨rfl, rfl, rfl⟩
  case stops =>
    rw [show v = _ from clusterEnable_stopping unit stops]
    exact ⟨rfl, congrArg Fn.queued (State.clusterFn_setCluster _ _ _)⟩
  case clOff => rw [clusterDisable_unit unit idle, if_pos off]; exact ⟨rfl, rfl⟩
  case clOn =>
    have disabled := (clusterDisable_unit unit idle).trans (if_neg on)
    have fn : (clusterDisable c s).st.clusterFn cl = (f.disable c.req s).1 :=
      (congrArg (fun u : Verdict => u.st.clusterFn cl) disabled).trans (State.clusterFn_setCluster _ _ _)
    rw [fn, disabled]
    exact ⟨rfl, rfl, rfl, rfl⟩
  case unnamed => rw [show w = _ from State.portArg_unnamed _ no]; exact ⟨rfl, rfl⟩
  case pOff => rw [show w = _ from portEnable_disabled yes admin off]; exact ⟨rfl, rfl, rfl⟩
  case pStops =>
    rw [show w = _ from portEnable_stopping yes admin stops]
    exact ⟨rfl, congrArg (·.fn.queued) (State.link_setLink _ _ _)⟩
  case pOn => rw [show w = _ from portEnable_enabled yes admin on live]; exact ⟨rfl, rfl, rfl⟩
  case dOff => rw [portDisable_disabled yes admin off]; exact ⟨rfl, rfl⟩
  case refused => rw [show z = _ from partCreate_refused part mbx no]; exact ⟨rfl, rfl⟩
  case create =>
    rw [show z = _ from (partCreate_off part mbx may off).trans (if_neg (Bool.eq_false_iff.1 free))]
    exact ⟨rfl, rfl, rfl⟩
  case taken => rw [show z = _ from (partCreate_off part mbx may off).trans (if_pos taken)]; exact ⟨rfl, rfl⟩
  case created =>
    rw [show z = _ from partCreate_up part mbx may up]
    split <;> exact ⟨rfl, rfl⟩
  case queued =>
    rw [show z = _ from partCreate_stopping part mbx may stops]
    exact ⟨rfl, congrArg (·.fn.queued) (State.part_setPart _ _ _)⟩
  case destroy =>
    rw [partDestroy_off part off]
    exact ⟨rfl, congrArg Part.fenced (State.part_setPart _ _ _)⟩

end Sys2Proof.Machine

/-!
SUPPORT. The sampled straps (R592). Only the release of PORST_N writes them; every operation beneath a command leaves them alone.
`State.keep` says it for the operations that write neither a fuse nor a byte memory, `State.firm` for the end of an instance, and
this file for the rest.
-/
namespace Sys2Proof.Machine

/-! ### The straps among what is kept -/

/-- The sampled straps. -/
def strapsIn (k : List Instr × Fuse × List Host.Cell × List Host.Cell) : Straps := k.2.1.straps

/-- The straps of a state written out are those of its fuse bank. -/
@[simp] theorem strapsIn_mk (q : List Instr) (f : Fuse) (bo : Boot) (ro : Roe) (ic : I3c) (tr : Trail) (ti : TimeSt) (pl : Plans)
    (mp : Mp) (fa : Fawn) (li : AMap Nat Link) (sw : Switch) (co : Coll) (cs : AMap Nat Core) (me : MemSt) (cn : AMap CKey Nat)
    (fr : Nat) : strapsIn (State.mk q f bo ro ic tr ti pl mp fa li sw co cs me cn fr).keep = f.straps := rfl

/-- The straps are looked at through what is kept. -/
@[simp] theorem straps_fold (s : State) : s.fuse.straps = strapsIn s.keep := rfl

@[simp] theorem strapsIn_ite {c : Prop} [Decidable c] (a b : State) :
    strapsIn (if c then a else b).keep = if c then strapsIn a.keep else strapsIn b.keep := by
  split <;> rfl

theorem strapsIn_of_firm {s t : State} (h : t.firm = s.firm) : strapsIn t.keep = strapsIn s.keep :=
  congrArg Fuse.straps (State.fuse_of_firm h)

theorem foldl_straps {α : Type} {f : State → α → State} (h : ∀ s x, strapsIn (f s x).keep = strapsIn s.keep) (xs : List α)
    (s : State) : strapsIn (xs.foldl f s).keep = strapsIn s.keep :=
  List.foldlRecOn (motive := fun u => strapsIn u.keep = strapsIn s.keep) xs f rfl fun u hu x _ => (h u x).trans hu

theorem foldl_straps_fst {α β : Type} {f : State × β → α → State × β} (h : ∀ x a, strapsIn (f x a).1.keep = strapsIn x.1.keep)
    (xs : List α) (x : State × β) : strapsIn (xs.foldl f x).1.keep = strapsIn x.1.keep :=
  List.foldlRecOn (motive := fun u => strapsIn u.1.keep = strapsIn x.1.keep) xs f rfl fun u hu a _ => (h u a).trans hu

/-! ### Memory units -/

@[simp] theorem State.dramPut_straps (s : State) (cl a : Nat) (bs : List Byte) :
    strapsIn (s.dramPut cl a bs).1.keep = strapsIn s.keep := strapsIn_of_firm (State.dramPut_firm _ _ _ _)

@[simp] theorem State.trySignal_straps (s : State) (m : Msg) : strapsIn (s.trySignal m).keep = strapsIn s.keep := by
  unfold State.trySignal
  dsimp only
  split
  · rfl
  · split
    · rfl
    · split
      · simp [State.failMsg_keep, State.eccUncorr_keep]
      · split <;> simp [State.sendRsp_keep, State.mirrorChange_keep, State.count_keep, State.putMsg_keep]

@[simp] theorem State.trySignals_straps (s : State) : strapsIn s.trySignals.keep = strapsIn s.keep :=
  foldl_straps State.trySignal_straps _ _

@[simp] theorem State.mirrorFail_straps (s : State) (w : MirrorWr) : strapsIn (s.mirrorFail w).keep = strapsIn s.keep := by
  unfold State.mirrorFail
  simp [State.failGrp_keep, State.goSolo_keep, State.health_keep, State.count_keep, State.dropMirror_keep]

@[simp] theorem State.mirrorOk_straps (s : State) (w : MirrorWr) : strapsIn (s.mirrorOk w).keep = strapsIn s.keep := by
  unfold State.mirrorOk
  simp [State.resyncNext_keep, State.confirmLater_keep, State.confirm_keep, State.dropMirror_keep]

@[simp] theorem State.absorbMsg_straps (s : State) (q : MReq) (e : Nat) (r : BitVec 256) (ok : Bool) (gs : List Nat) :
    strapsIn (s.absorbMsg q e r ok gs).keep = strapsIn s.keep := by
  unfold State.absorbMsg
  simp [State.settleWrite_keep, State.mirrorChange_keep, State.sendRsp_keep, State.putMsg_keep]

@[simp] theorem State.xaccRead_straps (s : State) (q : MReq) (r : BitVec 256) :
    strapsIn (s.xaccRead q r).keep = strapsIn s.keep := by
  have cleared (gs : List Nat) (u : State) :
      strapsIn (gs.foldl (fun s g => (s.dramPut q.cl (64 * g) (zeros 64)).1) u).keep = strapsIn u.keep :=
    foldl_straps (fun _ _ => State.dramPut_straps _ _ _ _) _ _
  unfold State.xaccRead
  simp [cleared, State.respond_keep, State.health_keep, State.sendRsp_keep, State.eccUncorr_keep, State.count_keep]

@[simp] theorem State.xaccWrite_straps (s : State) (cl : Nat) (r : BitVec 256) (e0 : Nat) (bs : List Byte) :
    strapsIn (s.xaccWrite cl r e0 bs).keep = strapsIn s.keep :=
  foldl_straps (fun _ _ => State.dramPut_straps _ _ _ _) _ _

@[simp] theorem State.accumulate_straps (s : State) (cl : Nat) (r : BitVec 256) (e0 : Nat) (fs : List (Lane → Lane)) :
    strapsIn (s.accumulate cl r e0 fs).1.keep = strapsIn s.keep := by
  unfold State.accumulate
  refine foldl_straps_fst (fun _ _ => ?_) _ _
  dsimp only
  split
  · simp [State.eccUncorr_keep]
  · simp

/-- A memory request is decided by what its target does. -/
theorem State.decideMem_straps {f : Target → State → State} (h : ∀ t u, strapsIn (f t u).keep = strapsIn u.keep) (s : State)
    (q : MReq) (ups : List (Nat × Nat)) : strapsIn (s.decideMem q ups f).keep = strapsIn s.keep := by
  unfold State.decideMem
  dsimp only
  split
  · simp [State.refuseMem_keep, State.msgTimers_keep]
  · split
    · simp [State.refuseMem_keep, State.noteMsg_keep, State.checkInt_keep, State.msgTimers_keep]
    · simp [h, State.readErrors_keep, State.msgTimers_keep]

/-! ### Plans -/

@[simp] theorem State.installSram_straps (s : State) (p : Plan) : strapsIn (s.installSram p).keep = strapsIn s.keep := by
  unfold State.installSram
  refine foldl_straps (fun _ _ => ?_) _ _
  rfl

@[simp] theorem State.installRegion_straps (s : State) (old : Option Plan) (promote : Bool) (e : Nat) (r : BitVec 256) :
    strapsIn (s.installRegion old promote e r).keep = strapsIn s.keep := by
  have cleared (u : State) : strapsIn (u.clearBacking r).keep = strapsIn u.keep := rfl
  unfold State.installRegion
  dsimp only
  split
  · rfl
  · split
    · simp [cleared, State.failLater_keep, State.setReg_keep]
    · split
      · simp [cleared, State.resyncNext_keep, State.setReg_keep]
      · split <;> simp [cleared, State.failLater_keep, State.setReg_keep]

@[simp] theorem State.installRegions_straps (s : State) (old : Option Plan) (p : Plan) (promote : Bool) :
    strapsIn (s.installRegions old p promote).keep = strapsIn s.keep := by
  unfold State.installRegions
  exact (foldl_straps (fun _ _ => State.installRegion_straps _ _ _ _ _) _ _).trans rfl

/-- A plan installed leaves the straps alone. -/
@[simp] theorem State.install_straps (s : State) (p : Plan) (c : Nat) (o : Option Nat) (promote : Bool) :
    strapsIn (s.install p c o promote).keep = strapsIn s.keep := by
  have gates (old : Option Plan) (u : State) : strapsIn ((List.range 580).foldl (fun s l =>
      (s.installGate old p c l).awaitStart l) u).keep = strapsIn u.keep :=
    foldl_straps (fun _ _ => by simp [State.awaitStart_keep, State.installGate_keep]) _ _
  unfold State.install
  simp [gates, State.clearRecords_keep, State.installChunks_keep, State.installTime_keep, State.installRoute_keep,
    State.pruneOld_keep]

@[simp] theorem planCommit_straps (c : Call) (s : State) : strapsIn (planCommit c s).st.keep = strapsIn s.keep := by
  unfold planCommit
  dsimp only
  repeat' split
  all_goals simp [refuseCmd_keep, State.complete_keep]

/-- The commit of an armed plan, and what follows it. -/
theorem State.commitNow_straps {after : Plan → Arm → State → State} (h : ∀ p a u, strapsIn (after p a u).keep = strapsIn u.keep)
    (s : State) (promote : Bool) : strapsIn (s.commitNow promote after).keep = strapsIn s.keep := by
  unfold State.commitNow
  dsimp only
  split
  · simp [h, State.armPoint_keep]
  · simp [State.armPoint_keep]

/-! ### Instances -/

@[simp] theorem State.fail_straps (s : State) (e : CEnv) (inst etag cause : Nat) (missing : Option Nat) :
    strapsIn (s.fail e inst etag cause missing).keep = strapsIn s.keep := strapsIn_of_firm (State.fail_firm _ _ _ _ _ _)

@[simp] theorem State.settled_straps (s : State) (e : CEnv) : strapsIn (s.settled e).keep = strapsIn s.keep :=
  strapsIn_of_firm (State.settled_firm _ _)

@[simp] theorem State.flagWrite_straps (s : State) (e : CEnv) (r : Rec) : strapsIn (s.flagWrite e r).keep = strapsIn s.keep :=
  strapsIn_of_firm (State.flagWrite_firm _ _ _)

@[simp] theorem State.fusedSend_straps (s : State) (e : CEnv) (inst : Nat) : strapsIn (s.fusedSend e inst).keep = strapsIn s.keep :=
  strapsIn_of_firm (State.fusedSend_firm _ _ _)

@[simp] theorem State.chunkTimer_straps (s : State) (e : CEnv) : strapsIn (s.chunkTimer e).keep = strapsIn s.keep := by
  unfold State.chunkTimer
  dsimp only
  split
  · split
    · split <;> simp
    · rfl
  · rfl

@[simp] theorem State.timed_straps (s : State) (e : CEnv) : strapsIn (s.timed e).keep = strapsIn s.keep := by
  unfold State.timed
  split
  · rfl
  · simp

@[simp] theorem State.sparseFlush_straps (s : State) (e : CEnv) (r : Rec) : strapsIn (s.sparseFlush e r).keep = strapsIn s.keep := by
  have sent (n : Nat) (d : Dest) (xs : List (List Byte × Nat)) (u : State) : strapsIn (xs.foldl
      (fun s (p : List Byte × Nat) => s.collSend e (resultPkt s e d (sparseFmt e.cfg) r.etag r.inst p.2 n p.1)) u).keep =
        strapsIn u.keep := foldl_straps (fun _ _ => by simp [State.collSend_keep]) _ _
  unfold State.sparseFlush
  dsimp only
  split
  · simp [State.health_keep]
  · split
    · simp
    · split <;> simp [sent, State.setCh_keep]

@[simp] theorem State.flush_straps (s : State) (e : CEnv) (r : Rec) : strapsIn (s.flush e r).keep = strapsIn s.keep := by
  have positional (ds : List Nat) (x : State × Rec) : strapsIn (ds.foldl (fun acc d =>
      sendPos acc.1 e acc.2 d fun _ _ _ => true) x).1.keep = strapsIn x.1.keep :=
    foldl_straps_fst (fun _ _ => by rw [sendPos_keep]) _ _
  have append (ds : List Nat) (r : Rec) (u : State) : strapsIn (ds.foldl (fun s d => sendApp s e r d) u).keep = strapsIn u.keep :=
    foldl_straps (fun _ _ => by rw [sendApp_keep]) _ _
  unfold State.flush
  simp [positional, append, State.setCh_keep]

@[simp] theorem State.absorb_straps (s : State) (e : CEnv) (d inst : Nat) (h : BitVec 256) (pay : List Byte)
    (sl : List (Nat × List Byte)) : strapsIn (s.absorb e d inst h pay sl).keep = strapsIn s.keep := by
  unfold State.absorb
  dsimp only
  split
  · simp [State.createRec_keep]
  · simp [apply_ite Prod.fst, State.createRec_keep, State.setCh_keep, State.count_keep, State.present_keep, State.sparseAbsorb_keep]

@[simp] theorem State.contribTests_straps (s : State) (e : CEnv) (p : Packet) :
    strapsIn (s.contribTests e p).keep = strapsIn s.keep := by
  unfold State.contribTests
  simp [State.refuse_keep, State.count_keep, State.takeInst_keep]

/-- A collective packet that passes the tests of its slot does what its KIND does. -/
theorem State.decide13_straps {f : CEnv → State → State} (h : ∀ e u, strapsIn (f e u).keep = strapsIn u.keep) (s : State) (cl : Nat)
    (x : Steered) : strapsIn (s.decide13 cl x f).keep = strapsIn s.keep := by
  unfold State.decide13
  dsimp only
  split
  · simp [State.powerRefuse_keep]
  · split
    · simp [State.sendAnswer_keep, State.count_keep]
    · split
      · simp [State.refuse_keep, State.checkInt_keep]
      · simp [h]

@[simp] theorem State.unitError_straps (s : State) (u : UnitRef) : strapsIn (s.unitError u).keep = strapsIn s.keep := by
  rw [State.unitError_keep]

@[simp] theorem State.buddyFail_straps (s : State) : strapsIn s.buddyFail.keep = strapsIn s.keep := by
  have marked (es : List Nat) (u : State) : strapsIn (es.foldl (fun s e => s.setReg e { s.reg e with phase := .lost }) u).keep =
      strapsIn u.keep := foldl_straps (fun _ _ => by rw [State.setReg_keep]) _ _
  have fenced (ps : List Nat) (u : State) : strapsIn (ps.foldl (fun s p => s.fence p 0 stMirror []) u).keep = strapsIn u.keep :=
    foldl_straps (fun _ _ => by rw [State.fence_keep]) _ _
  unfold State.buddyFail
  simp [marked, fenced, State.promoteDone_keep]

@[simp] theorem partDestroy_straps (c : Call) (s : State) : strapsIn (partDestroy c s).st.keep = strapsIn s.keep := by
  unfold partDestroy
  dsimp only
  repeat' split
  all_goals
    simp [refuseCmd_keep, noChange_keep, deferred_keep, State.setPart_keep, State.stopEndpoints_keep, State.failMsgs_keep,
      State.failWhere_keep, Fn.disable_keep]

@[simp] theorem State.leaving_straps (s : State) (dest : PState) : strapsIn (s.leaving dest).keep = strapsIn s.keep := by
  have failed (u : State) : strapsIn ((List.range 64).foldl (fun s p => s.failMsgs p stAborted) u).keep = strapsIn u.keep :=
    foldl_straps (fun _ _ => by rw [State.failMsgs_keep]) _ _
  unfold State.leaving
  simp [failed, State.failWhere_keep, State.stopLinks_keep]

@[simp] theorem powerStateSet_straps (c : Call) (s : State) : strapsIn (powerStateSet c s).st.keep = strapsIn s.keep := by
  unfold powerStateSet
  dsimp only
  repeat' split
  all_goals simp [refuseCmd_keep, deferred_keep]

/-! ### Cores -/

@[simp] theorem State.sramWrite_straps (s : State) (ws : List (Nat × List Byte)) : strapsIn (s.sramWrite ws).keep = strapsIn s.keep :=
  rfl

@[simp] theorem State.applyTsi_straps (s : State) (e : Env) (r : TsiRes) : strapsIn (s.applyTsi e r).keep = strapsIn s.keep := by
  unfold State.applyTsi
  split
  · simp [State.modRun_keep]
  · simp [State.flow_keep, State.residueFail_keep, State.foldFlagsAt_keep, State.setCore_keep]

/-- An instruction of a core. -/
@[simp] theorem State.tsi_straps (s : State) (g op : Nat) (f : TsiFields) (usesC : Bool) (eff : Env → Core → State → TsiRes) :
    strapsIn (s.tsi g op f usesC eff).keep = strapsIn s.keep := by
  unfold State.tsi
  split
  · rfl
  · simp [State.flow_keep]

theorem State.emitOp_straps {eff : State → Env → State} (h : ∀ u e, (eff u e).keep = u.keep) (s : State) (g op : Nat)
    (f : TsiFields) : strapsIn (s.emitOp g op f eff).keep = strapsIn s.keep := by
  unfold State.emitOp
  split
  · rfl
  · simp [h, State.flow_keep]

theorem State.ctlOp_straps {eff : State → Env → State} (h : ∀ u e, strapsIn (eff u e).keep = strapsIn u.keep) (s : State) (g op : Nat)
    (f : TsiFields) : strapsIn (s.ctlOp g op f eff).keep = strapsIn s.keep := by
  unfold State.ctlOp
  split
  · rfl
  · exact h _ _

@[simp] theorem State.parkOut_straps (s : State) (g : Nat) : strapsIn (s.parkOut g).keep = strapsIn s.keep := by
  unfold State.parkOut
  dsimp only
  split
  · rfl
  · split <;> rfl

@[simp] theorem State.dispatch_straps (s : State) (g : Nat) (x : Ctx) (p : Plan) (q : ProgCfg) (k : HKind) (pc : Nat)
    (sl : Option Slice) : strapsIn (s.dispatch g x p q k pc sl).keep = strapsIn s.keep := by
  unfold State.dispatch
  simp [State.setCore_keep]

@[simp] theorem State.coreEcc_straps (s : State) (g : Nat) (id : CtxId) : strapsIn (s.coreEcc g id).keep = strapsIn s.keep := by
  unfold State.coreEcc
  simp [State.setCore_keep, State.faultAt_keep]

@[simp] theorem State.localWrite_straps (s : State) (g : Nat) (d : BitVec 128) (off : Nat) (bs : List Byte) :
    strapsIn (s.localWrite g d off bs).keep = strapsIn s.keep := rfl

@[simp] theorem State.landFetch_straps (s : State) (g : Nat) (r : Run) (q : CoreReq) (st : Nat) (data : List Byte) :
    strapsIn (s.landFetch g r q st data).keep = strapsIn s.keep := by
  unfold State.landFetch
  dsimp only
  split <;> simp [State.resumeWait_keep, State.setRun_keep]

/-! ### The MP, the Trail and the boot ROM -/

/-- A packet for the MP has its own effect. -/
theorem State.mpPacket_straps {f : State → State} (h : ∀ u, strapsIn (f u).keep = strapsIn u.keep) (s : State) (x : Steered) :
    strapsIn (s.mpPacket x f).keep = strapsIn s.keep := by
  unfold State.mpPacket
  simp [h, State.checkInt_keep, State.count_keep]

/-- A command of a mailbox has the effect of its verdict. -/
theorem State.command_straps {f : Call → State → Verdict} (h : ∀ c u, strapsIn (f c u).st.keep = strapsIn u.keep) (s : State) (m : Nat)
    (k : CmdRule) : strapsIn (s.command m k f).keep = strapsIn s.keep := by
  unfold State.command
  dsimp only
  split
  · rw [settleHead_keep, State.respondMbx_keep]
    repeat' split
    all_goals simp [h, refuseCmd_keep]
  · rfl

/-- A frame of the Trail that is taken has the effect of its TYPE. -/
theorem State.trailRx_straps {take : State → State} (h : ∀ u, strapsIn (take u).keep = strapsIn u.keep) (s : State) (f : Frame)
    (mine : Bool) : strapsIn (s.trailRx f mine take).keep = strapsIn s.keep := by
  have taken (u : State) (g : State → State) (hg : ∀ u, strapsIn (g u).keep = strapsIn u.keep) :
      strapsIn (u.takeFrame f g).keep = strapsIn u.keep := by
    unfold State.takeFrame
    simp [hg, State.count_keep]
  have chosen (u : State) : strapsIn (if mine then take u else u).keep = strapsIn u.keep := by simp [h]
  unfold State.trailRx
  simp [taken _ _ chosen, State.count_keep, State.forward_keep]

theorem State.trailMp_straps {take : State → State} (h : ∀ u, strapsIn (take u).keep = strapsIn u.keep) (s : State) (f : Frame)
    (type : Nat) (sub : Option Nat) : strapsIn (s.trailMp f type sub take).keep = strapsIn s.keep :=
  State.trailRx_straps (fun _ => by simp [h]) _ _ _

/-- The identity of the firmware takes an LMS leaf, and no strap. -/
@[simp] theorem State.identity_straps (s : State) (m : BitVec 384) (svn : Nat) :
    strapsIn (s.identity m svn).keep = strapsIn s.keep := by
  unfold State.identity
  simp

@[simp] theorem State.bootRun_straps (s : State) (im : List Byte) : strapsIn (s.bootRun im).keep = strapsIn s.keep := by
  unfold State.bootRun
  simp

@[simp] theorem State.bootLanded_straps (s : State) : strapsIn s.bootLanded.keep = strapsIn s.keep := by
  unfold State.bootLanded
  dsimp only
  split
  · simp [State.bootFail_keep]
  · split
    · split <;> simp [State.bootFail_keep]
    · simp [State.bootIssue_keep]

@[simp] theorem State.bootAnswer_straps (s : State) (r : BulkRead) (status : Nat) (data : List Byte) :
    strapsIn (s.bootAnswer r status data).keep = strapsIn s.keep := by
  unfold State.bootAnswer
  simp [State.fetchEnd_keep]

/-- A reset holds the fuses. -/
@[simp] theorem State.heldReset_straps (s : State) (aon : Bool) : strapsIn (s.heldReset aon).keep = strapsIn s.keep := rfl

end Sys2Proof.Machine

/-!
PROOFS. The fuses over a step (R572, R573, R592): what the fuse bank may become (`exec_kept`), and the one command that samples
the straps.
-/
namespace Sys2Proof.Machine

/-! ### Outcomes -/

theorem next_straps {s a t : State} (kept : strapsIn a.keep = strapsIn s.keep) (h : (Host.Outcome.next a : Out State) = .next t) :
    strapsIn t.keep = strapsIn s.keep := by
  injection h with h
  rw [← h, kept]

theorem onUnit_straps {c : Bool} {s a t : State} (kept : strapsIn a.keep = strapsIn s.keep) (h : onUnit c a = .next t) :
    strapsIn t.keep = strapsIn s.keep := by
  unfold onUnit at h
  split at h
  · exact next_straps kept h
  · cases h

/-- The passage of time samples no strap. -/
theorem strapsIn_of_tick {s t : State} (x : Nat) (h : strapsIn t.keep = strapsIn (s.tick x).keep) :
    strapsIn t.keep = strapsIn s.keep := by
  rw [h, State.tick_keep]

theorem when_straps {c : Bool} {s u : State} (kept : strapsIn u.keep = strapsIn s.keep) :
    strapsIn (when_ c s u).keep = strapsIn s.keep := by
  unfold when_
  split
  · exact kept
  · rfl

theorem strapsIn_of_keep {s t : State} (h : t.keep = s.keep) : strapsIn t.keep = strapsIn s.keep := congrArg strapsIn h

/-! ### Cores -/

section Cores
variable {s t : State} {g slot inst chunk n : Nat} {ecc : Bool}

theorem execOutputRoomResume_straps (h : execOutputRoomResume g n s = .next t) : strapsIn t.keep = strapsIn s.keep := by
  refine strapsIn_of_tick n (onUnit_straps ?_ h)
  dsimp only
  split
  · simp [drainWait_keep]
  · split
    · split
      · simp [drainWait_keep, State.setRun_keep]
      · simp [State.emitOp_straps State.emitEff_keep, State.emitOp_straps State.emitaEff_keep,
          State.emitOp_straps State.emscEff_keep, State.emitOp_straps State.xcencEff_keep, drainWait_keep, State.setRun_keep]
    · simp [drainWait_keep]

theorem execInitHandler_straps (h : execInitHandler g slot inst chunk s = .next t) : strapsIn t.keep = strapsIn s.keep := by
  refine onUnit_straps ?_ h
  split
  · rfl
  · split
    · rfl
    · simp

theorem execSliceHandler_straps (h : execSliceHandler g ecc n s = .next t) : strapsIn t.keep = strapsIn s.keep := by
  refine strapsIn_of_tick n (onUnit_straps ?_ h)
  dsimp only
  split
  · rfl
  · split
    · rfl
    · split
      · simp [State.setCore_keep]
      · split <;> simp [State.setCore_keep]

theorem execFinalHandler_straps (h : execFinalHandler g slot inst chunk ecc n s = .next t) : strapsIn t.keep = strapsIn s.keep := by
  refine strapsIn_of_tick n (onUnit_straps ?_ h)
  dsimp only
  split
  · simp [State.setCore_keep]
  · rfl

theorem execDirectAccumulate_straps (h : execDirectAccumulate g s = .next t) : strapsIn t.keep = strapsIn s.keep := by
  refine onUnit_straps ?_ h
  dsimp only
  split
  · rfl
  · split
    · split
      · rfl
      · simp [State.faultAt_keep, State.setCore_keep]
    · rfl

end Cores

/-! ### Collectives -/

section Collectives
variable {s t : State} {cl slot inst h n : Nat}

theorem execContribRx_straps (r : execContribRx cl n s = .next t) : strapsIn t.keep = strapsIn s.keep := by
  refine strapsIn_of_tick n (onUnit_straps ?_ r)
  split
  · rfl
  next taken =>
    refine Eq.trans ?_ (strapsIn_of_keep (State.takeSteered_keep _ _ _ _ taken))
    split
    · rfl
    · exact State.decide13_straps (fun _ _ => State.contribTests_straps _ _ _) _ _ _

theorem execCstatMemberRx_straps (r : execCstatMemberRx cl n s = .next t) : strapsIn t.keep = strapsIn s.keep := by
  refine strapsIn_of_tick n (onUnit_straps ?_ r)
  split
  · rfl
  next taken =>
    refine Eq.trans ?_ (strapsIn_of_keep (State.takeSteered_keep _ _ _ _ taken))
    refine State.decide13_straps (fun _ _ => ?_) _ _ _
    simp [State.count_keep]

theorem execResultRelay_straps (r : execResultRelay cl n s = .next t) : strapsIn t.keep = strapsIn s.keep := by
  refine strapsIn_of_tick n (onUnit_straps ?_ r)
  split
  · rfl
  next taken =>
    refine Eq.trans ?_ (strapsIn_of_keep (State.takeSteered_keep _ _ _ _ taken))
    exact State.decide13_straps (fun _ _ => by rw [State.relay_keep]) _ _ _

theorem execChunkTimeout_straps (r : execChunkTimeout cl slot h n s = .next t) : strapsIn t.keep = strapsIn s.keep := by
  refine strapsIn_of_tick n (onUnit_straps ?_ r)
  split
  · rfl
  · simp

theorem execCstatSend_straps (r : execCstatSend cl slot inst h n s = .next t) : strapsIn t.keep = strapsIn s.keep := by
  refine strapsIn_of_tick n (onUnit_straps ?_ r)
  split
  · rfl
  · split
    · rfl
    · simp [when_]

theorem execChunkOutputFlush_straps (r : execChunkOutputFlush cl slot inst h n s = .next t) :
    strapsIn t.keep = strapsIn s.keep := by
  refine strapsIn_of_tick n (onUnit_straps ?_ r)
  split
  · rfl
  · simp [when_]

theorem execChunkEnd_straps (r : execChunkEnd cl slot inst h n s = .next t) : strapsIn t.keep = strapsIn s.keep := by
  refine strapsIn_of_tick n (onUnit_straps ?_ r)
  split
  · rfl
  · simp [when_, State.endOk_keep]

theorem execQPartialRx_straps (r : execQPartialRx cl n s = .next t) : strapsIn t.keep = strapsIn s.keep := by
  refine strapsIn_of_tick n (onUnit_straps ?_ r)
  split
  · rfl
  next taken =>
    refine Eq.trans ?_ (strapsIn_of_keep (State.takeSide_keep _ _ _ _ taken))
    split
    · simp [State.setCh_keep]
    · rfl

theorem execSideAbortRx_straps (r : execSideAbortRx cl n s = .next t) : strapsIn t.keep = strapsIn s.keep := by
  refine strapsIn_of_tick n (onUnit_straps ?_ r)
  split
  · rfl
  next taken =>
    refine Eq.trans ?_ (strapsIn_of_keep (State.takeSide_keep _ _ _ _ taken))
    split
    · rfl
    · dsimp only
      split <;> simp [State.setCh_keep]

theorem execQPartialTimeout_straps (r : execQPartialTimeout cl slot inst h n s = .next t) :
    strapsIn t.keep = strapsIn s.keep := by
  refine strapsIn_of_tick n (onUnit_straps ?_ r)
  split
  · rfl
  · simp [when_]

end Collectives

/-! ### Memory -/

section Memory
variable {s t : State} {cl tag n : Nat} {x : MemTime}

theorem execRead_straps (h : execRead cl x s = .next t) : strapsIn t.keep = strapsIn s.keep := by
  refine strapsIn_of_tick x.t (onUnit_straps ?_ h)
  split
  · rfl
  next taken =>
    refine (State.decideMem_straps (fun target u => ?_) _ _ _).trans (strapsIn_of_keep (State.takeReq_keep _ _ _ _ taken))
    cases target <;> simp [State.plainRead_keep, State.viewRead_keep]

theorem execWrite_straps (h : execWrite cl x s = .next t) : strapsIn t.keep = strapsIn s.keep := by
  refine strapsIn_of_tick x.t (onUnit_straps ?_ h)
  split
  · rfl
  next taken =>
    refine (State.decideMem_straps (fun target u => ?_) _ _ _).trans (strapsIn_of_keep (State.takeReq_keep _ _ _ _ taken))
    cases target <;> simp [State.respond_keep, State.settleWrite_keep, State.count_keep]

theorem execWriteSignal_straps (h : execWriteSignal cl x s = .next t) : strapsIn t.keep = strapsIn s.keep := by
  refine strapsIn_of_tick x.t (onUnit_straps ?_ h)
  split
  · rfl
  next taken =>
    refine (State.decideMem_straps (fun target u => ?_) _ _ _).trans (strapsIn_of_keep (State.takeReq_keep _ _ _ _ taken))
    cases target <;> simp [State.count_keep]

theorem execAtomic_straps (h : execAtomic cl x s = .next t) : strapsIn t.keep = strapsIn s.keep := by
  refine strapsIn_of_tick x.t (onUnit_straps ?_ h)
  split
  · rfl
  next taken =>
    refine (State.decideMem_straps (fun target u => ?_) _ _ _).trans (strapsIn_of_keep (State.takeReq_keep _ _ _ _ taken))
    cases target with
    | window _ _ => rfl
    | region _ _ =>
      dsimp only
      split <;> simp [State.respond_keep, State.settleWrite_keep, State.eccUncorr_keep, State.count_keep]

theorem execAccum_straps (h : execAccum cl x s = .next t) : strapsIn t.keep = strapsIn s.keep := by
  refine strapsIn_of_tick x.t (onUnit_straps ?_ h)
  split
  · rfl
  next taken =>
    refine (State.decideMem_straps (fun target u => ?_) _ _ _).trans (strapsIn_of_keep (State.takeReq_keep _ _ _ _ taken))
    cases target <;> simp [State.respond_keep, State.count_keep]

theorem execAccumSignal_straps (h : execAccumSignal cl x s = .next t) : strapsIn t.keep = strapsIn s.keep := by
  refine strapsIn_of_tick x.t (onUnit_straps ?_ h)
  split
  · rfl
  next taken =>
    refine (State.decideMem_straps (fun target u => ?_) _ _ _).trans (strapsIn_of_keep (State.takeReq_keep _ _ _ _ taken))
    cases target <;> simp [State.count_keep]

theorem execMirrorResponse_straps (h : execMirrorResponse cl n s = .next t) : strapsIn t.keep = strapsIn s.keep := by
  refine strapsIn_of_tick n (onUnit_straps ?_ h)
  split
  · rfl
  next taken =>
    refine Eq.trans ?_ (strapsIn_of_keep (State.takeMem_keep _ _ _ _ taken))
    split
    · rfl
    · simp [State.msgTimers_keep]

theorem execMirrorTimeout_straps (h : execMirrorTimeout cl tag n s = .next t) : strapsIn t.keep = strapsIn s.keep := by
  refine strapsIn_of_tick n (onUnit_straps ?_ h)
  split
  · rfl
  · simp [when_]

theorem execSnapshotRestoreReadResp_straps (h : execSnapshotRestoreReadResp n s = .next t) :
    strapsIn t.keep = strapsIn s.keep := by
  refine strapsIn_of_tick n (next_straps ?_ h)
  split
  · rfl
  next taken =>
    refine Eq.trans ?_ (strapsIn_of_keep (State.takeMp_keep _ _ _ taken))
    split
    · rfl
    · refine State.mpPacket_straps (fun _ => ?_) _ _
      split
      · rfl
      · split
        · rfl
        · simp [State.setSnap_keep, State.failRestore_keep, State.restorePump_keep]

theorem execExportWriteResponse_straps (h : execExportWriteResponse n s = .next t) : strapsIn t.keep = strapsIn s.keep := by
  refine strapsIn_of_tick n (next_straps ?_ h)
  split
  · rfl
  next taken =>
    refine Eq.trans ?_ (strapsIn_of_keep (State.takeMp_keep _ _ _ taken))
    split
    · rfl
    · refine State.mpPacket_straps (fun _ => ?_) _ _
      split
      · rfl
      · split
        · rfl
        · simp [State.setSnap_keep, State.endSnap_keep, State.exportPump_keep, State.freeCode_keep]

theorem execFetchResponse_straps (h : execFetchResponse cl n s = .next t) : strapsIn t.keep = strapsIn s.keep := by
  refine strapsIn_of_tick n (onUnit_straps ?_ h)
  split
  · rfl
  next taken =>
    refine Eq.trans ?_ (strapsIn_of_keep (State.takeMem_keep _ _ _ _ taken))
    split
    · rfl
    · simp

theorem execRequestResend_straps (h : execRequestResend cl tag n s = .next t) : strapsIn t.keep = strapsIn s.keep := by
  refine strapsIn_of_tick n (onUnit_straps ?_ h)
  split
  · simp [State.fromCluster_keep, State.setRun_keep]
  · split
    · rfl
    · simp [State.fromCluster_keep, State.setCore_keep, State.landWrite_keep]

end Memory

/-! ### The MP and the plans -/

section Mp
variable {s t : State} {n : Nat}

theorem execRestoreReadResponse_straps (h : execRestoreReadResponse n s = .next t) : strapsIn t.keep = strapsIn s.keep := by
  refine strapsIn_of_tick n (next_straps ?_ h)
  split
  · rfl
  next taken =>
    refine (State.mpPacket_straps (fun _ => ?_) _ _).trans (strapsIn_of_keep (State.takeMp_keep _ _ _ taken))
    split
    · rfl
    · dsimp only
      split
      · simp
      · split <;> simp [State.promoteDone_keep, State.restoreNext_keep, State.setReg_keep]

theorem execStageReadResponse_straps (h : execStageReadResponse n s = .next t) : strapsIn t.keep = strapsIn s.keep := by
  refine strapsIn_of_tick n (next_straps ?_ h)
  split
  · rfl
  next taken =>
    refine Eq.trans ?_ (strapsIn_of_keep (State.takeMp_keep _ _ _ taken))
    split
    · rfl
    · refine State.mpPacket_straps (fun _ => ?_) _ _
      split
      · rfl
      · split
        · rfl
        · simp [State.setStage_keep, State.endStage_keep, State.stagePump_keep]

theorem execMbwr_straps (h : execMbwr n s = .next t) : strapsIn t.keep = strapsIn s.keep := by
  refine strapsIn_of_tick n (next_straps ?_ h)
  split
  · rfl
  next taken =>
    refine Eq.trans ?_ (strapsIn_of_keep (State.takeMp_keep _ _ _ taken))
    split
    · exact State.mpPacket_straps (fun _ => by rw [State.mbwr_keep]) _ _
    · rfl

theorem execMbrd_straps (h : execMbrd n s = .next t) : strapsIn t.keep = strapsIn s.keep := by
  refine strapsIn_of_tick n (next_straps ?_ h)
  split
  · rfl
  next taken =>
    refine Eq.trans ?_ (strapsIn_of_keep (State.takeMp_keep _ _ _ taken))
    split
    · exact State.mpPacket_straps (fun _ => by rw [State.mbrd_keep]) _ _
    · rfl

theorem execBootFetchResponse_straps (h : execBootFetchResponse n s = .next t) : strapsIn t.keep = strapsIn s.keep := by
  refine strapsIn_of_tick n (next_straps ?_ h)
  split
  · rfl
  · split
    · rfl
    next taken =>
      refine (State.mpPacket_straps (fun _ => ?_) _ _).trans (strapsIn_of_keep (State.takeMp_keep _ _ _ taken))
      split
      · rfl
      · simp

theorem execPllLockLoss_straps {u : PllRef} (h : execPllLockLoss u n s = .next t) : strapsIn t.keep = strapsIn s.keep := by
  refine strapsIn_of_tick n ?_
  unfold execPllLockLoss at h
  cases u with
  | die d => exact onUnit_straps (by simp [State.c6Stop_keep, State.tick_keep]) h
  | trail => exact next_straps (by simp [State.bypass_keep, State.tick_keep]) h
  | lane l lane => exact onUnit_straps (by simp [when_, State.laneFailed_keep]) h

theorem execMemberAbsent_straps {p : Nat} (h : execMemberAbsent p n s = .next t) : strapsIn t.keep = strapsIn s.keep := by
  refine strapsIn_of_tick n (onUnit_straps ?_ h)
  simp [State.setMember_keep]

end Mp

/-! ### The Trail -/

section Trail
variable {s t : State} {n : Nat} {f : Frame}

theorem execTrailPktFrame_straps (h : execTrailPktFrame f n s = .next t) : strapsIn t.keep = strapsIn s.keep := by
  refine strapsIn_of_tick n (next_straps (State.trailRx_straps (fun _ => ?_) _ _ _) h)
  simp [arrive_keep, State.health_keep, State.count_keep]

theorem execTrailTsyncFrame_straps (h : execTrailTsyncFrame f n s = .next t) : strapsIn t.keep = strapsIn s.keep := by
  refine strapsIn_of_tick n (next_straps (State.trailRx_straps (fun _ => ?_) _ _ _) h)
  dsimp only
  split
  · rw [State.trailTsync_keep]
  · split
    · split <;> simp [State.useOffset_keep, State.count_keep]
    · rw [State.trailTsync_keep]

theorem execTrailDigestFrame_straps (h : execTrailDigestFrame f n s = .next t) : strapsIn t.keep = strapsIn s.keep := by
  refine strapsIn_of_tick n (next_straps (State.trailRx_straps (fun _ => ?_) _ _ _) h)
  simp [State.digestResult_keep, State.setMember_keep]

theorem execCensusFrame_straps (h : execCensusFrame f n s = .next t) : strapsIn t.keep = strapsIn s.keep := by
  refine strapsIn_of_tick n (next_straps (State.trailRx_straps (fun _ => ?_) _ _ _) h)
  simp [State.bootLead_keep, State.event_keep, State.setMember_keep]

theorem execWakeFrame_straps (h : execWakeFrame f n s = .next t) : strapsIn t.keep = strapsIn s.keep := by
  refine strapsIn_of_tick n (next_straps (State.trailRx_straps (fun _ => ?_) _ _ _) h)
  simp [State.wakeUp_keep]

theorem execShadowResult_straps (h : execShadowResult f n s = .next t) : strapsIn t.keep = strapsIn s.keep := by
  refine strapsIn_of_tick n (next_straps (State.trailMp_straps (fun _ => ?_) _ _ _ _) h)
  simp [State.event_keep, State.health_keep]

theorem execPlanNone_straps (h : execPlanNone f n s = .next t) : strapsIn t.keep = strapsIn s.keep := by
  refine strapsIn_of_tick n (next_straps (State.trailMp_straps (fun _ => ?_) _ _ _ _) h)
  simp

theorem execBootRead_straps (h : execBootRead f n s = .next t) : strapsIn t.keep = strapsIn s.keep := by
  refine strapsIn_of_tick n (next_straps (State.trailRx_straps (fun _ => ?_) _ _ _) h)
  simp [State.sendImage_keep]

theorem execBootData_straps (h : execBootData f n s = .next t) : strapsIn t.keep = strapsIn s.keep := by
  refine strapsIn_of_tick n (next_straps (State.trailRx_straps (fun _ => ?_) _ _ _) h)
  split
  · rfl
  · split <;> simp

theorem execBootNone_straps (h : execBootNone f n s = .next t) : strapsIn t.keep = strapsIn s.keep := by
  refine strapsIn_of_tick n (next_straps (State.trailRx_straps (fun _ => ?_) _ _ _) h)
  simp

end Trail

/-! ### The dispatch (R592) -/

/-- Only the release of PORST_N samples the straps. -/
theorem exec_straps (c : Instr) {s t : State} (h : exec c s = .next t) (apart : ∀ st, c ≠ .porstNRelease st) :
    strapsIn t.keep = strapsIn s.keep := by
  cases c with
  | recv | ldv | stv | lds | movi | saddi | vmov | movm | vsplat | xadd | xcin | xclr | xmov | xfold | xpadd | xssum
  | vbit | dot | ssq | xpsum | expand | rnd | cvt | mxq | vmax | vmin | hmax | hmin | vflag | vcmp | vcmps | mlog |
  mpop | filt | fidx | vsel | mkrec | rinit | sort | merge | topk | unrec | gath | scat | ksel | br | bz | bm | loop
  | scalc | skip | stat | raise =>
    exact onUnit_straps (State.tsi_straps _ _ _ _ _ _) h
  | xcenc => exact onUnit_straps (State.emitOp_straps State.xcencEff_keep _ _ _ _) h
  | emit => exact onUnit_straps (State.emitOp_straps State.emitEff_keep _ _ _ _) h
  | emita => exact onUnit_straps (State.emitOp_straps State.emitaEff_keep _ _ _ _) h
  | emsc => exact onUnit_straps (State.emitOp_straps State.emscEff_keep _ _ _ _) h
  | endHandler => exact onUnit_straps (State.ctlOp_straps (fun _ _ => by rw [State.flow_keep]) _ _ _ _) h
  | fetch => exact onUnit_straps (State.ctlOp_straps (fun _ _ => by rw [State.fetchEff_keep]) _ _ _ _) h
  | waitf => exact onUnit_straps (State.ctlOp_straps (fun _ _ => by rw [State.waitfEff_keep]) _ _ _ _) h
  | pcnt => exact onUnit_straps (State.ctlOp_straps (fun _ _ => by rw [State.pcntEff_keep]) _ _ _ _) h
  | outputRoomResume => exact execOutputRoomResume_straps h
  | initHandler => exact execInitHandler_straps h
  | sliceHandler => exact execSliceHandler_straps h
  | finalHandler => exact execFinalHandler_straps h
  | watchdogTimeout => exact strapsIn_of_keep (execWatchdogTimeout_keep _ _ _ _ h)
  | directAccumulate => exact execDirectAccumulate_straps h
  | sparseRunDecode => exact strapsIn_of_keep (execSparseRunDecode_keep _ _ _ h)
  | contribRx => exact execContribRx_straps h
  | cstatMemberRx => exact execCstatMemberRx_straps h
  | resultRelay => exact execResultRelay_straps h
  | chunkTimeout => exact execChunkTimeout_straps h
  | cstatSend => exact execCstatSend_straps h
  | chunkOutputFlush => exact execChunkOutputFlush_straps h
  | chunkEnd => exact execChunkEnd_straps h
  | qPartialRx => exact execQPartialRx_straps h
  | sideAbortRx => exact execSideAbortRx_straps h
  | qPartialTimeout => exact execQPartialTimeout_straps h
  | tbarrierRelease => exact strapsIn_of_keep (execTbarrierRelease_keep _ _ _ _ h)
  | read => exact execRead_straps h
  | write => exact execWrite_straps h
  | writeSignal => exact execWriteSignal_straps h
  | atomic => exact execAtomic_straps h
  | accum => exact execAccum_straps h
  | accumSignal => exact execAccumSignal_straps h
  | messageTimeout => exact strapsIn_of_keep (execMessageTimeout_keep _ _ _ _ _ _ h)
  | messageEntryFree => exact strapsIn_of_keep (execMessageEntryFree_keep _ _ _ _ _ _ h)
  | mirrorResponse => exact execMirrorResponse_straps h
  | mirrorTimeout => exact execMirrorTimeout_straps h
  | patrolScrub => exact strapsIn_of_keep (execPatrolScrub_keep _ _ _ _ h)
  | snapshotTakeDone => exact strapsIn_of_keep (execSnapshotTakeDone_keep _ _ _ _ h)
  | snapshotRestoreReadResp => exact execSnapshotRestoreReadResp_straps h
  | exportWriteResponse => exact execExportWriteResponse_straps h
  | fetchResponse => exact execFetchResponse_straps h
  | memwrResponse => exact strapsIn_of_keep (execMemwrResponse_keep _ _ _ _ h)
  | requestResend => exact execRequestResend_straps h
  | blockTx => exact strapsIn_of_keep (execBlockTx_keep _ _ _ _ _ h)
  | blockRx => exact strapsIn_of_keep (execBlockRx_keep _ _ _ _ _ _ h)
  | replayTimeout => exact strapsIn_of_keep (execReplayTimeout_keep _ _ _ _ h)
  | nakRepeat => exact strapsIn_of_keep (execNakRepeat_keep _ _ _ _ h)
  | laneFail => exact strapsIn_of_keep (execLaneFail_keep _ _ _ _ _ h)
  | degradeRepeat => exact strapsIn_of_keep (execDegradeRepeat_keep _ _ _ _ h)
  | degradeTimeout => exact strapsIn_of_keep (execDegradeTimeout_keep _ _ _ _ h)
  | retrainDone => exact strapsIn_of_keep (execRetrainDone_keep _ _ _ _ _ _ h)
  | signalDetect => exact strapsIn_of_keep (execSignalDetect_keep _ _ _ _ h)
  | equaliseDone => exact strapsIn_of_keep (execEqualiseDone_keep _ _ _ _ _ h)
  | equaliseTimeout => exact strapsIn_of_keep (execEqualiseTimeout_keep _ _ _ _ _ h)
  | fecLockDone => exact strapsIn_of_keep (execFecLockDone_keep _ _ _ _ _ h)
  | fecLockTimeout => exact strapsIn_of_keep (execFecLockTimeout_keep _ _ _ _ h)
  | discoverTimeout => exact strapsIn_of_keep (execDiscoverTimeout_keep _ _ _ _ h)
  | initTimeout => exact strapsIn_of_keep (execInitTimeout_keep _ _ _ _ h)
  | linkRestart => exact strapsIn_of_keep (execLinkRestart_keep _ _ _ _ h)
  | stoppingAbortTimeout => exact strapsIn_of_keep (execStoppingAbortTimeout_keep _ _ _ _ h)
  | stoppingDone => exact strapsIn_of_keep (execStoppingDone_keep _ _ _ _ h)
  | helloRepeat => exact strapsIn_of_keep (execHelloRepeat_keep _ _ _ _ h)
  | tsyncSend => exact strapsIn_of_keep (execTsyncSend_keep _ _ _ _ h)
  | digestHeartbeat => exact strapsIn_of_keep (execDigestHeartbeat_keep _ _ _ h)
  | digestMissing => exact strapsIn_of_keep (execDigestMissing_keep _ _ _ _ h)
  | replayAgeTimeout => exact strapsIn_of_keep (execReplayAgeTimeout_keep _ _ _ _ h)
  | neighbourMissingTimeout => exact strapsIn_of_keep (execNeighbourMissingTimeout_keep _ _ _ _ h)
  | packetIngress => exact strapsIn_of_keep (execPacketIngress_keep _ _ _ _ _ _ h)
  | packetAgeTimeout => exact strapsIn_of_keep (execPacketAgeTimeout_keep _ _ _ _ h)
  | routeSetDiscard => exact strapsIn_of_keep (execRouteSetDiscard_keep _ _ _ h)
  | outputArbitration => exact strapsIn_of_keep (execOutputArbitration_keep _ _ _ _ _ h)
  | holdCut => exact strapsIn_of_keep (execHoldCut_keep _ _ _ _ _ _ h)
  | starve => exact strapsIn_of_keep (execStarve_keep _ _ _ _ _ _ h)
  | shaperRefill => exact strapsIn_of_keep (execShaperRefill_keep _ _ _ h)
  | gateTakeover => exact strapsIn_of_keep (execGateTakeover_keep _ _ _ _ h)
  | quRefresh => exact strapsIn_of_keep (execQuRefresh_keep _ _ _ h)
  | cmapTake => exact strapsIn_of_keep (execCmapTake_keep _ _ _ h)
  | holdoverEntry => exact strapsIn_of_keep (execHoldoverEntry_keep _ _ _ h)
  | holdoverExpiry => exact strapsIn_of_keep (execHoldoverExpiry_keep _ _ _ h)
  | digestEntryTimeout => exact strapsIn_of_keep (execDigestEntryTimeout_keep _ _ _ _ _ h)
  | unitError => exact strapsIn_of_tick _ (onUnit_straps (State.unitError_straps _ _) h)
  | healthDecay => exact strapsIn_of_keep (execHealthDecay_keep _ _ _ h)
  | shadowActivation => exact strapsIn_of_keep (execShadowActivation_keep _ _ _ h)
  | shadowImageTimeout => exact strapsIn_of_keep (execShadowImageTimeout_keep _ _ _ h)
  | shadowNotice => exact strapsIn_of_keep (execShadowNotice_keep _ _ _ h)
  | shadowRotate => exact strapsIn_of_keep (execShadowRotate_keep _ _ _ h)
  | shadowCompareTimeout => exact strapsIn_of_keep (execShadowCompareTimeout_keep _ _ _ _ _ _ h)
  | planReadResend => exact strapsIn_of_keep (execPlanReadResend_keep _ _ _ _ h)
  | fusedQueryResend => exact strapsIn_of_keep (execFusedQueryResend_keep _ _ _ h)
  | takeover => exact strapsIn_of_tick _ (next_straps (State.commitNow_straps (fun _ _ _ => by rw [State.afterTakeover_keep]) _ _) h)
  | restoreReadResponse => exact execRestoreReadResponse_straps h
  | restoreReadResend => exact strapsIn_of_keep (execRestoreReadResend_keep _ _ _ _ h)
  | buddyTimeout => exact strapsIn_of_tick _ (next_straps (when_straps (State.buddyFail_straps _)) h)
  | armPoint => exact strapsIn_of_keep (execArmPoint_keep _ _ _ h)
  | commit => exact strapsIn_of_tick _ (next_straps (State.commitNow_straps (fun _ _ _ => by rw [State.complete_keep]) _ _) h)
  | overlapEnd => exact strapsIn_of_keep (execOverlapEnd_keep _ _ _ h)
  | stageReadResponse => exact execStageReadResponse_straps h
  | stageReadResend => exact strapsIn_of_keep (execStageReadResend_keep _ _ _ _ h)
  | stageComplete => exact strapsIn_of_keep (execStageComplete_keep _ _ _ h)
  | partStarted => exact strapsIn_of_keep (execPartStarted_keep _ _ _ _ h)
  | partStopped => exact strapsIn_of_keep (execPartStopped_keep _ _ _ _ h)
  | clusterStarted => exact strapsIn_of_keep (execClusterStarted_keep _ _ _ _ h)
  | clusterStopped => exact strapsIn_of_keep (execClusterStopped_keep _ _ _ _ h)
  | shadowStopped => exact strapsIn_of_keep (execShadowStopped_keep _ _ _ h)
  | mbwr => exact execMbwr_straps h
  | mbrd => exact execMbrd_straps h
  | planStage => exact strapsIn_of_keep (execPlanStage_keep _ _ _ _ h)
  | planCommit => exact strapsIn_of_tick _ (onUnit_straps (State.command_straps planCommit_straps _ _ _) h)
  | planAbort => exact strapsIn_of_keep (execPlanAbort_keep _ _ _ _ h)
  | partCreate => exact strapsIn_of_keep (execPartCreate_keep _ _ _ _ h)
  | partDestroy => exact strapsIn_of_tick _ (onUnit_straps (State.command_straps partDestroy_straps _ _ _) h)
  | portEnable => exact strapsIn_of_keep (execPortEnable_keep _ _ _ _ h)
  | portDisable => exact strapsIn_of_keep (execPortDisable_keep _ _ _ _ h)
  | clusterEnable => exact strapsIn_of_keep (execClusterEnable_keep _ _ _ _ h)
  | clusterDisable => exact strapsIn_of_keep (execClusterDisable_keep _ _ _ _ h)
  | memRegionMap => exact strapsIn_of_keep (execMemRegionMap_keep _ _ _ _ h)
  | shadowStart => exact strapsIn_of_keep (execShadowStart_keep _ _ _ _ h)
  | shadowStop => exact strapsIn_of_keep (execShadowStop_keep _ _ _ _ h)
  | reservePromote => exact strapsIn_of_keep (execReservePromote_keep _ _ _ _ h)
  | snapshotTake => exact strapsIn_of_keep (execSnapshotTake_keep _ _ _ _ h)
  | snapshotRestore => exact strapsIn_of_keep (execSnapshotRestore_keep _ _ _ _ h)
  | snapshotExport => exact strapsIn_of_keep (execSnapshotExport_keep _ _ _ _ h)
  | digestRead => exact strapsIn_of_keep (execDigestRead_keep _ _ _ _ h)
  | counterRead => exact strapsIn_of_keep (execCounterRead_keep _ _ _ _ h)
  | telemConfig => exact strapsIn_of_keep (execTelemConfig_keep _ _ _ _ h)
  | sampleSet => exact strapsIn_of_keep (execSampleSet_keep _ _ _ _ h)
  | healthRead => exact strapsIn_of_keep (execHealthRead_keep _ _ _ _ h)
  | timeSet => exact strapsIn_of_keep (execTimeSet_keep _ _ _ _ h)
  | powerStateSet => exact strapsIn_of_tick _ (onUnit_straps (State.command_straps powerStateSet_straps _ _ _) h)
  | attestGet => exact strapsIn_of_keep (execAttestGet_keep _ _ _ _ h)
  | fwInfo => exact strapsIn_of_keep (execFwInfo_keep _ _ _ _ h)
  | mpHeartbeat => exact strapsIn_of_keep (execMpHeartbeat_keep _ _ _ h)
  | mpstop => exact strapsIn_of_keep (execMpstop_keep _ _ _ h)
  | thermalLevelUp => exact strapsIn_of_keep (execThermalLevelUp_keep _ _ _ _ h)
  | thermalLevelDown => exact strapsIn_of_keep (execThermalLevelDown_keep _ _ _ _ h)
  | powerLevelUp => exact strapsIn_of_keep (execPowerLevelUp_keep _ _ _ _ h)
  | powerLevelDown => exact strapsIn_of_keep (execPowerLevelDown_keep _ _ _ _ h)
  | avsConfirm => exact strapsIn_of_keep (execAvsConfirm_keep _ _ _ h)
  | avsConfirmTimeout => exact strapsIn_of_keep (execAvsConfirmTimeout_keep _ _ _ h)
  | dramThrottleOn => exact strapsIn_of_keep (execDramThrottleOn_keep _ _ _ _ _ h)
  | dramThrottleOff => exact strapsIn_of_keep (execDramThrottleOff_keep _ _ _ _ _ h)
  | thermalTrip => exact strapsIn_of_keep (execThermalTrip_keep _ _ _ _ _ h)
  | railFault => exact strapsIn_of_keep (execRailFault_keep _ _ _ _ _ h)
  | refclkLoss => exact strapsIn_of_keep (execRefclkLoss_keep _ _ _ _ h)
  | laserFault => exact strapsIn_of_keep (execLaserFault_keep _ _ _ _ _ h)
  | laserClear => exact strapsIn_of_keep (execLaserClear_keep _ _ _ _ _ h)
  | pllLock => exact strapsIn_of_keep (execPllLock_keep _ _ _ _ h)
  | pllLockLoss => exact execPllLockLoss_straps h
  | powerTransitionDone => exact strapsIn_of_keep (execPowerTransitionDone_keep _ _ _ h)
  | edgeWakeDetect => exact strapsIn_of_keep (execEdgeWakeDetect_keep _ _ _ _ _ h)
  | roeWakeWrite => exact strapsIn_of_keep (execRoeWakeWrite_keep _ _ _ _ h)
  | forcebypWrite => exact strapsIn_of_keep (execForcebypWrite_keep _ _ _ _ h)
  | diagDataRead => exact strapsIn_of_keep (execDiagDataRead_keep _ _ h)
  | i3cMailboxWrite => exact strapsIn_of_keep (execI3cMailboxWrite_keep _ _ _ _ _ h)
  | registerWrite => exact strapsIn_of_keep (execRegisterWrite_keep _ _ _ _ h)
  | entdaa => exact strapsIn_of_keep (execEntdaa_keep _ _ _ h)
  | setdasa => exact strapsIn_of_keep (execSetdasa_keep _ _ _ h)
  | setnewda => exact strapsIn_of_keep (execSetnewda_keep _ _ _ h)
  | rstdaa => exact strapsIn_of_keep (execRstdaa_keep _ _ h)
  | getpid => exact strapsIn_of_keep (execGetpid_keep _ _ h)
  | getbcr => exact strapsIn_of_keep (execGetbcr_keep _ _ h)
  | getdcr => exact strapsIn_of_keep (execGetdcr_keep _ _ h)
  | getstatus => exact strapsIn_of_keep (execGetstatus_keep _ _ h)
  | enec => exact strapsIn_of_keep (execEnec_keep _ _ _ h)
  | disec => exact strapsIn_of_keep (execDisec_keep _ _ _ h)
  | rstact => exact strapsIn_of_keep (execRstact_keep _ _ _ h)
  | trailPktFrame => exact execTrailPktFrame_straps h
  | trailTsyncFrame => exact execTrailTsyncFrame_straps h
  | trailDigestFrame => exact execTrailDigestFrame_straps h
  | censusFrame => exact execCensusFrame_straps h
  | censusSend => exact strapsIn_of_keep (execCensusSend_keep _ _ _ h)
  | memberAbsent => exact execMemberAbsent_straps h
  | wakeFrame => exact execWakeFrame_straps h
  | shadowEntry => exact strapsIn_of_tick _ (next_straps (State.trailMp_straps (fun _ => by rw [State.shadowEntry_keep]) _ _ _ _) h)
  | shadowResult => exact execShadowResult_straps h
  | planRead => exact strapsIn_of_tick _ (next_straps (State.trailMp_straps (fun _ => by rw [State.planRead_keep]) _ _ _ _) h)
  | planData => exact strapsIn_of_tick _ (next_straps (State.trailMp_straps (fun _ => by rw [State.planData_keep]) _ _ _ _) h)
  | planNone => exact execPlanNone_straps h
  | fusedQuery => exact strapsIn_of_tick _ (next_straps (State.trailMp_straps (fun _ => by rw [State.fusedQuery_keep]) _ _ _ _) h)
  | fusedStateRecord => exact strapsIn_of_keep (execFusedStateRecord_keep _ _ _ h)
  | fusedState => exact strapsIn_of_tick _ (next_straps (State.trailMp_straps (fun _ => by rw [State.fusedState_keep]) _ _ _ _) h)
  | bootRead => exact execBootRead_straps h
  | bootData => exact execBootData_straps h
  | bootNone => exact execBootNone_straps h
  | bootNoneRetry => exact strapsIn_of_keep (execBootNoneRetry_keep _ _ _ h)
  | leadWaitTimeout => exact strapsIn_of_keep (execLeadWaitTimeout_keep _ _ _ h)
  | trailInsert => exact strapsIn_of_keep (execTrailInsert_keep _ _ _ h)
  | porstNAssert => exact next_straps (when_straps (State.heldReset_straps _ _)) h
  | porstNRelease st => exact absurd rfl (apart st)
  | vddAonUp => exact next_straps (when_straps (State.heldReset_straps _ _)) h
  | bootFetchResponse => exact execBootFetchResponse_straps h
  | bootReadResend => exact strapsIn_of_keep (execBootReadResend_keep _ _ _ _ h)
  | bootRetry => exact strapsIn_of_keep (execBootRetry_keep _ _ _ h)
  | snapshotRestoreReadResend => exact strapsIn_of_keep (execSnapshotRestoreReadResend_keep _ _ _ _ h)
  | bootTrainTimeout => exact strapsIn_of_keep (execBootTrainTimeout_keep _ _ _ h)
  | vddAonDown => exact next_straps (State.heldReset_straps _ _) h
  | mpStopsExecuting => exact strapsIn_of_keep (execMpStopsExecuting_keep _ _ h)
  | refreshRateDoubled => exact strapsIn_of_keep (execRefreshRateDoubled_keep _ _ _ _ _ h)

/-- Settles O56: the bank by `step_kept`, the straps by `exec_straps`, and by `State.idle_keep` on an empty queue. -/
theorem fusesOnlyGrow : Obligations.FusesOnlyGrow := by
  intro s t h
  obtain ⟨-, grows, -⟩ := step_kept h
  refine ⟨grows, fun apart => ?_⟩
  cases queue : s.pending with
  | nil =>
    rw [step_of_nil queue, Host.Outcome.next.injEq] at h
    rw [← h]
    exact strapsIn_of_keep (State.idle_keep s)
  | cons c q =>
    rw [step_of_cons queue] at h
    exact (exec_straps c h fun st same => apart st q (by rw [queue, same]) :)

end Sys2Proof.Machine

/-!
The scalar instructions and the branches, and the registers and word fields that they name (R93, R178, R179, R184).
-/
namespace Sys2Proof.Machine

/-! ### Instructions without a descriptor -/

section Plain
variable {s : State} {g op : Nat} {f : TsiFields} {e : Env} (h : s.Runs g op f e)
include h

/-- A TSI command that names no descriptor: its effect applied. -/
theorem State.tsi_plain (eff : Env → Core → State → TsiRes) :
    onUnit (decide (g < Config.cores)) (s.tsi g op f false eff) = .next (s.applyTsi e (eff e (s.core g) s)) :=
  State.tsi_runs h (fun no => nomatch no)

/-- One that only changes registers. -/
theorem State.tsi_regs {eff : Env → Core → State → TsiRes} {c : Core} {n : Nat} (he : eff e (s.core g) s = Sys2Proof.Machine.reg c n) :
    onUnit (decide (g < Config.cores)) (s.tsi g op f false eff) = .next (s.goesOn e c n) :=
  State.tsi_reg h (fun no => nomatch no) he

/-- A branch: two cycles to its target when taken, else one to the next offset. -/
theorem State.tsi_branch {eff : Env → Core → State → TsiRes} {c : Core} {taken : Bool}
    (he : eff e (s.core g) s = branchEff e c taken) :
    onUnit (decide (g < Config.cores)) (s.tsi g op f false eff) =
      .next (if taken then s.onward e c (target f) 2 else s.onward e c (e.run.pc + 1) 1) := by
  obtain ⟨rfl, rfl, hr, -⟩ := State.tsiEnv_spec h.2
  rw [State.tsi_plain h, he]
  cases taken with
  | true => rw [State.applyTsi_goto hr rfl rfl rfl rfl rfl rfl]; rfl
  | false => rw [State.applyTsi_next hr rfl rfl rfl rfl]; rfl

end Plain

/-! ### Scalar instructions -/

/-- The operations of Table TSO-5 by their code. -/
theorem scalcOp_eq {op : Nat} (h : op < 8) (a b : Word) : scalcOp op a b =
    if op = 0 then a + b else if op = 1 then a - b else if op = 2 then a &&& b else if op = 3 then a ||| b
      else if op = 4 then a ^^^ b else if op = 5 then a <<< (b.toNat % 64) else if op = 6 then a >>> (b.toNat % 64) else a * b := by
  interval_cases op <;> rfl

/-- What STAT reads of a context that its core holds. -/
theorem statEff_eq {e : Env} {c : Core} {x : Ctx} (h : c.ctxs.find? (fun k => decide (k.id = e.run.ctx)) = some x) :
    statEff e c = reg (c.ws (sReg e.f.d) (BitVec.ofNat 64 (x.status + min x.later 0xFFFF * 256))) 1 := by
  rw [statEff, h, show (256 : Nat) = 2 ^ 8 from rfl, ← Nat.shiftLeft_eq]

/-- Settles O1: each instruction is its effect on the registers (`State.tsi_regs`). -/
theorem scalarInstructionsWriteOneRegister : Obligations.ScalarInstructionsWriteOneRegister := by
  intro s g f e
  refine ⟨fun h => ?_, fun h => ?_, fun h => ?_, fun h hop => ?_, fun x h hx => ?_⟩ <;>
    obtain ⟨rfl, rfl, -⟩ := State.tsiEnv_spec h.2
  · exact State.tsi_regs h rfl
  · exact State.tsi_regs h rfl
  · exact State.tsi_regs h rfl
  · exact State.tsi_regs h (congrArg (fun x => reg ((s.core e.g).ws (sReg e.f.d) x) _) (scalcOp_eq hop _ _))
  · exact State.tsi_regs h (statEff_eq hx)

/-! ### Branches -/

/-- A condition that a bit selects: on non-zero when it is set, on zero when it is clear. -/
theorem beq_decide_ne_iff {α : Type} [DecidableEq α] (b : Bool) (x z : α) :
    (b == decide (x ≠ z)) = true ↔ if b then x ≠ z else x = z := by
  cases b <;> simp

/-- Settles O12: BR goes to its target, the others are one conditional branch (`State.tsi_branch`). -/
theorem branches : Obligations.Branches := by
  intro s g f e
  refine ⟨fun h => ?_, fun h => ?_, fun h => ?_, fun h => ?_⟩ <;>
    obtain ⟨rfl, rfl, hr, -⟩ := State.tsiEnv_spec h.2
  · refine (State.tsi_plain h _).trans ?_
    rw [State.applyTsi_goto hr rfl rfl rfl rfl rfl rfl]
    rfl
  · exact (State.tsi_branch h rfl).trans (congrArg _ (if_congr (beq_decide_ne_iff _ _ _) rfl rfl))
  · exact (State.tsi_branch h rfl).trans (congrArg _ (if_congr (beq_decide_ne_iff _ _ _) rfl rfl))
  · exact (State.tsi_branch h rfl).trans (congrArg _ (if_congr decide_eq_true_iff rfl rfl))

/-! ### Instruction words (Table TSI-6) -/

/-- A bit vector joined to a lower one, as numbers. -/
theorem toNat_append_mul {n m : Nat} (x : BitVec n) (y : BitVec m) : (x ++ y).toNat = x.toNat * 2 ^ m + y.toNat := by
  rw [BitVec.toNat_append, ← Nat.shiftLeft_add_eq_or_of_lt y.isLt, Nat.shiftLeft_eq]

/-- An instruction word as a number. -/
theorem toNat_encWord (op : Nat) (f : TsiFields) : (encWord op f).toNat =
    (((((((((op % 2 ^ 8 * 2 ^ 5 + f.d.toNat) * 2 ^ 5 + f.a.toNat) * 2 ^ 5 + f.b.toNat) * 2 ^ 4 + f.c.toNat) * 2 ^ 4 +
      f.fa.toNat) * 2 ^ 4 + f.fd.toNat) * 2 ^ 3 + f.rm.toNat) * 2 ^ 1 + f.rms.toNat) * 2 ^ 3 + f.msk.toNat) * 2 ^ 22 +
      f.imm.toNat := by
  unfold encWord
  rw [toNat_append_mul, toNat_append_mul, toNat_append_mul, toNat_append_mul, toNat_append_mul, toNat_append_mul,
    toNat_append_mul, toNat_append_mul, toNat_append_mul, toNat_append_mul, BitVec.toNat_ofNat]

/-- The fields of an instruction word are those it was made of. -/
@[simp] theorem wordFields_encWord (op : Nat) (f : TsiFields) : wordFields (encWord op f) = f := by
  obtain ⟨d, a, b, c, fa, fd, rm, rms, msk, imm⟩ := f
  simp only [wordFields, TsiFields.mk.injEq, ← BitVec.toNat_inj, BitVec.extractLsb'_toNat, toNat_encWord,
    Nat.shiftRight_eq_div_pow]
  omega

/-- The opcode of an instruction word. -/
theorem fld_encWord_op {op : Nat} (h : op < 256) (f : TsiFields) : fld (encWord op f) 63 56 = op := by
  simp only [fld, bits, toNat_encWord, Nat.shiftRight_eq_div_pow]
  omega

/-- The registers and the immediate of an instruction word. -/
theorem fld_encWord (op : Nat) (f : TsiFields) : fld (encWord op f) 55 51 = f.d.toNat ∧ fld (encWord op f) 50 46 = f.a.toNat ∧
    fld (encWord op f) 45 41 = f.b.toNat ∧ fld (encWord op f) 21 0 = f.imm.toNat := by
  simp only [fld, bits, toNat_encWord, Nat.shiftRight_eq_div_pow]
  omega

/-- A word is its opcode with its fields. -/
theorem encWord_wordFields (w : Word) : encWord (fld w 63 56) (wordFields w) = w := by
  have top : BitVec.ofNat 8 (fld w 63 56) = w.extractLsb' 56 8 := by
    simp [fld, bits, BitVec.extractLsb', ← BitVec.toNat_inj]
  have join (lo k n : Nat) : w.extractLsb' (lo + k) n ++ w.extractLsb' lo k = w.extractLsb' lo (n + k) :=
    BitVec.extractLsb'_append_extractLsb'_eq_extractLsb' rfl
  unfold encWord wordFields
  rw [top, join 51 5, join 46 5, join 41 5, join 37 4, join 33 4, join 29 4, join 26 3, join 25 1, join 22 3, join 0 22]
  exact BitVec.extractLsb'_eq_self

/-! ### Writes of registers -/

/-- A write of a scalar register changes the scalar registers alone. -/
theorem Core.ws_frame (c : Core) (n : Nat) (x : Word) : c.ws n x = { c with s := (c.ws n x).s } := by
  unfold Core.ws; split <;> rfl

/-- A write of a mask register changes the mask registers alone. -/
theorem Core.wm_frame (c : Core) (n x : Nat) : c.wm n x = { c with m := (c.wm n x).m } := by
  unfold Core.wm; split <;> rfl

/-- A write of a V register changes the V registers alone. -/
theorem Core.wv_frame (c : Core) (n x : Nat) : c.wv n x = { c with v := (c.wv n x).v } := by
  unfold Core.wv; split <;> rfl

/-- Settles O60: reads after writes with their frames, and the word by its fields. -/
theorem coreRegistersAndWordFields : Obligations.CoreRegistersAndWordFields := by
  intro c n k x v op f w
  refine ⟨rfl, rfl, rfl, rfl, fun h0 h => ⟨?_, fun hk => Core.rs_ws_other c hk.symm v, Core.ws_frame c n v⟩,
    fun h0 h => ⟨?_, fun hk => Core.rm_wm_other c hk.symm x, Core.wm_frame c n x⟩,
    fun h => ⟨Core.rv_wv c h x, fun hk => Core.rv_wv_other c hk.symm x, Core.wv_frame c n x⟩,
    fun h => ⟨wordFields_encWord op f, fld_encWord_op h f, fld_encWord op f⟩, encWord_wordFields w⟩
  · rw [Core.rs_ws c h, if_neg h0.ne']
  · rw [Core.rm_wm c h, if_neg h0.ne']

end Sys2Proof.Machine

/-!
What is packed into V registers, element by element (Tables TSI-1 and TSI-7, R47, R95).
-/
namespace Sys2Proof.Machine

/-! ### Elements of a register that an instruction packs -/

/-- Element `k` of the elements `f 0` to `f (n − 1)` packed, zero past the last. -/
theorem elemAt_packRange {w : Nat} (hw : 0 < w) (n : Nat) (f : Nat → Nat) (k : Nat) :
    elemAt (packElems w ((List.range n).map f)) w k = if k < n then f k % 2 ^ w else 0 := by
  rw [elemAt_packElems w hw]
  by_cases h : k < n <;> simp [h]

/-- What is packed into a register fits it. -/
theorem packElems_lt_reg {w : Nat} {es : List Nat} (h : w * es.length ≤ 512) : packElems w es < 2 ^ 512 :=
  (packElems_lt w es).trans_le (Nat.pow_le_pow_right Nat.two_pos h)

/-- The elements of a width fill a V register or leave its high part. -/
theorem mul_elemsOfV_le {w : Nat} (h : w = 4 ∨ w = 6 ∨ w = 8 ∨ w = 16 ∨ w = 32) : w * elemsOfV w ≤ 512 := by
  rcases h with rfl | rfl | rfl | rfl | rfl <;> decide

/-- A masked write of lists of elements, element by element. -/
theorem merged_range (m w n : Nat) (old new : Nat → Nat) :
    merged m w ((List.range n).map old) ((List.range n).map new) =
      (List.range n).map fun k => if governs m w k then new k else old k := by
  refine List.ext_getElem (by simp [merged_length]) fun k hk hk' => ?_
  simp [merged]

/-- Element `k` of a write to a register, masked by the rule for elements of width `v`. -/
theorem elemAt_packMerged {w v : Nat} (hw : 0 < w) (m n old : Nat) (new : Nat → Nat) (k : Nat) :
    elemAt (packElems w (merged m v (elemsAt old w n) ((List.range n).map new))) w k =
      if k < n then (if governs m v k then new k % 2 ^ w else elemAt old w k) else 0 := by
  rw [elemsAt, merged_range, elemAt_packRange hw]
  congr 1
  split
  · rfl
  · exact Nat.mod_eq_of_lt (elemAt_lt old w k hw)

/-- A masked write of the elements of a width fits a V register. -/
theorem packMerged_lt {w : Nat} (h : w = 4 ∨ w = 6 ∨ w = 8 ∨ w = 16 ∨ w = 32) (m old : Nat) (new : List Nat) :
    packElems w (merged m w (elemsAt old w (elemsOfV w)) new) < 2 ^ 512 := by
  refine packElems_lt_reg ((Nat.mul_le_mul_left w ?_).trans (mul_elemsOfV_le h))
  rw [merged_length, elemsAt_length]
  exact Nat.min_le_left _ _

/-- Elements paired with those of another register. -/
theorem elemsAt_zip (a b w n : Nat) : (elemsAt a w n).zip (elemsAt b w n) = (List.range n).map fun k => (elemAt a w k, elemAt b w k) :=
  List.zip_map' ..

/-- Elements with their numbers. -/
theorem elemsAt_zipIdx (x w n : Nat) : (elemsAt x w n).zipIdx = (List.range n).map fun k => (elemAt x w k, k) := by
  refine List.ext_getElem (by simp) fun k hk hk' => ?_
  simp [elemsAt]

/-- A multiple of 2^(w·n) above them leaves the first `n` elements. -/
theorem elemAt_add_high {w k n : Nat} (hw : 0 < w) (h : k < n) (x y : Nat) : elemAt (x + y <<< (w * n)) w k = elemAt x w k := by
  obtain ⟨d, rfl⟩ : ∃ d, n = k + (1 + d) := ⟨n - k - 1, by omega⟩
  have split : w * (k + (1 + d)) = w * k + (w + w * d) := by rw [Nat.mul_add, Nat.mul_add, Nat.mul_one]
  rw [elemAt_eq _ _ _ hw, elemAt_eq _ _ _ hw, Nat.shiftLeft_eq, split, Nat.pow_add, Nat.pow_add, Nat.mul_left_comm,
    Nat.add_mul_div_left _ _ (Nat.two_pow_pos _), Nat.mul_left_comm, Nat.add_mul_mod_self_left]

/-! ### Splats, logic and counts -/

/-- VSPLAT with elements that fill the register: every element is the scalar's low bits. -/
theorem vsplatEff_full {e : Env} {c : Core} (fw : Nat) {w : Nat} (hw : elemBits e.f.fa.toNat = w)
    (four : w = 4 ∨ w = 8 ∨ w = 16 ∨ w = 32) :
    ∃ x, vsplatEff fw e c = reg (c.wv e.f.d.toNat x) 1 ∧ x < 2 ^ 512 ∧
      ∀ k, w * k < 512 → elemAt x w k = (c.rs (sReg e.f.a)).toNat % 2 ^ w := by
  have fills : w * (512 / w) = 512 ∧ 0 < w ∧ w ≠ 6 := by rcases four with rfl | rfl | rfl | rfl <;> decide
  obtain ⟨fills, pos, not6⟩ := fills
  refine ⟨packElems w (List.replicate (512 / w) ((c.rs (sReg e.f.a)).toNat % 2 ^ w)), ?_, packElems_lt_reg ?_, fun k hk => ?_⟩
  · simp [vsplatEff, hw, not6, pos.ne']
  · rw [List.length_replicate, fills]
  · have inside : k < 512 / w := Nat.lt_of_mul_lt_mul_left (hk.trans_eq fills.symm)
    rw [elemAt_packElems w pos]
    simp [inside]

/-- VSPLAT with 6-bit elements: the 64 elements, and above them a free value. -/
theorem vsplatEff_six {e : Env} {c : Core} (fw : Nat) (hw : elemBits e.f.fa.toNat = 6) :
    ∃ x, vsplatEff fw e c = { core := c.wv e.f.d.toNat x, drew := true } ∧
      ∀ k, k < 64 → elemAt x 6 k = (c.rs (sReg e.f.a)).toNat % 2 ^ 6 := by
  refine ⟨packElems 6 (List.replicate 64 ((c.rs (sReg e.f.a)).toNat % 2 ^ 6)) + (fw % 2 ^ 128) <<< (6 * 64), ?_, fun k hk => ?_⟩
  · simp [vsplatEff, hw]
  · rw [elemAt_add_high (by omega) hk, elemAt_packElems 6 (by omega), List.getElem?_replicate, if_pos hk]
    exact Nat.mod_mod _ _

/-- Settles O2: the register moves by `State.tsi_reg`, VSPLAT by what it packs (`vsplatEff_full`, `vsplatEff_six`). -/
theorem vectorAndMaskMoves : Obligations.VectorAndMaskMoves := by
  intro s g f e
  refine ⟨fun h => ?_, fun h _ => ?_, fun h hw => ?_, fun h hw => ?_, fun h => ?_, fun h => ?_⟩ <;>
    obtain ⟨rfl, rfl, hr, -⟩ := State.tsiEnv_spec h.2
  · exact State.tsi_regs h rfl
  · exact State.tsi_regs h rfl
  · obtain ⟨x, eff, fits, elems⟩ := vsplatEff_full (e := e) (c := s.core e.g) (Config.freeWord s.free).toNat rfl hw
    exact ⟨x, State.tsi_regs h eff, fits, elems⟩
  · obtain ⟨x, eff, elems⟩ := vsplatEff_six (e := e) (c := s.core e.g) (Config.freeWord s.free).toNat hw
    refine ⟨x, (State.tsi_plain h _).trans ?_, fun k hk => ?_⟩
    · rw [eff, State.applyTsi_drew hr rfl rfl rfl rfl]
      rfl
    · rw [hw]
      exact elems k hk
  · exact State.tsi_regs h rfl
  · exact State.tsi_regs h rfl

/-! ### The larger and the smaller of two registers (R133, R146) -/

section Elementwise
variable {w : Nat} (hw : w = 8 ∨ w = 16 ∨ w = 32)
include hw

/-- VMAX and VMIN: the picked element where the mask governs. -/
theorem vpickEff_elems {e : Env} {c : Core} (mx : Bool) (hfa : elemBits e.f.fa.toNat = w) :
    ∃ x, vpickEff mx e c = reg (c.wv e.f.d.toNat x) 1 ∧ x < 2 ^ 512 ∧ ∀ k, k < elemsOfV w → elemAt x w k =
      if governs (c.rm e.f.msk.toNat) w k then
        pick mx e.f.fa.toNat (elemAt (c.rv e.f.a.toNat) w k) (elemAt (c.rv e.f.b.toNat) w k) % 2 ^ w
      else elemAt (c.rv e.f.d.toNat) w k := by
  subst hfa
  refine ⟨_, rfl, packMerged_lt (by tauto) _ _ _, fun k hk => ?_⟩
  rw [elemsAt_zip, List.map_map, elemAt_packMerged (by omega), if_pos hk]
  rfl

/-- VSEL: one register's element where the mask governs, the other's elsewhere. -/
theorem vselEff_elems {e : Env} {c : Core} (hfa : elemBits e.f.fa.toNat = w) :
    ∃ x, vselEff e c = reg (c.wv e.f.d.toNat x) 1 ∧ x < 2 ^ 512 ∧ ∀ k, k < elemsOfV w → elemAt x w k =
      if governs (c.rm e.f.msk.toNat) w k then elemAt (c.rv e.f.a.toNat) w k else elemAt (c.rv e.f.b.toNat) w k := by
  subst hfa
  refine ⟨_, rfl, packMerged_lt (by tauto) _ _ _, fun k hk => ?_⟩
  have pos : 0 < elemBits e.f.fa.toNat := by omega
  rw [elemsAt.eq_def (c.rv e.f.a.toNat), elemAt_packMerged pos, if_pos hk, Nat.mod_eq_of_lt (elemAt_lt _ _ _ pos)]
  rfl

end Elementwise

/-! ### The best element of a register (R134) -/

/-- The place of an element in the order that HMAX (`mx`) or HMIN selects the highest of. -/
def rankKey (mx : Bool) (fa raw : Nat) : Int := if mx then (elemVal fa raw).key else -(elemVal fa raw).key

/-- The best of a list of numbered elements is one of them and no NaN, none ranks above it, and among equals it is the first;
there is none when all are NaN. -/
theorem bestOf_spec (mx : Bool) (fa : Nat) (ps : List (Nat × Nat)) (rising : (ps.map (·.2)).Pairwise (· < ·)) :
    match bestOf mx fa ps with
    | none => ∀ p ∈ ps, (elemVal fa p.1).isNan = true
    | some q => q ∈ ps ∧ (elemVal fa q.1).isNan = false ∧ ∀ p ∈ ps, (elemVal fa p.1).isNan = false →
        rankKey mx fa p.1 < rankKey mx fa q.1 ∨ (rankKey mx fa p.1 = rankKey mx fa q.1 ∧ q.2 ≤ p.2) := by
  induction ps with
  | nil => simp [bestOf]
  | cons p ps ih =>
    rw [List.map_cons, List.pairwise_cons] at rising
    obtain ⟨first, rising⟩ := rising
    have ih := ih rising
    have later : ∀ y ∈ ps, p.2 < y.2 := fun y hy => first y.2 (List.mem_map_of_mem hy)
    cases hb : bestOf mx fa ps with
    | none =>
      rw [hb] at ih
      cases hp : (elemVal fa p.1).isNan with
      | true => simpa [bestOf, hb, hp] using ih
      | false => simp only [bestOf, hb, hp]; grind
    | some q =>
      rw [hb] at ih
      have := later q ih.1
      cases hp : (elemVal fa p.1).isNan with
      | true => simp only [bestOf, hb, hp]; grind
      | false =>
        simp only [bestOf, hb, hp, rankKey] at ih ⊢
        cases mx <;> grind

/-- The unmasked elements of a register with their numbers, in ascending order. -/
def onNumbered (m w x : Nat) : List (Nat × Nat) :=
  ((List.range (elemsOfV w)).filter fun k => governs m w k).map fun k => (elemAt x w k, k)

/-- The numbered elements that a mask leaves. -/
theorem filter_zipIdx_elemsAt (m w x : Nat) :
    ((elemsAt x w (elemsOfV w)).zipIdx).filter (fun p => governs m w p.2) = onNumbered m w x := by
  rw [elemsAt_zipIdx, List.filter_map]
  rfl

/-- Which numbered elements a mask leaves. -/
theorem mem_onNumbered {m w x a k : Nat} :
    (a, k) ∈ onNumbered m w x ↔ k < elemsOfV w ∧ governs m w k = true ∧ elemAt x w k = a := by
  simp only [onNumbered, List.mem_map, List.mem_filter, List.mem_range, Prod.mk.injEq]
  constructor
  · rintro ⟨k, ⟨hk, on⟩, rfl, rfl⟩
    exact ⟨hk, on, rfl⟩
  · rintro ⟨hk, on, rfl⟩
    exact ⟨k, ⟨hk, on⟩, rfl, rfl⟩

/-- Their numbers rise. -/
theorem onNumbered_rising (m w x : Nat) : ((onNumbered m w x).map (·.2)).Pairwise (· < ·) := by
  have numbers : (onNumbered m w x).map (·.2) = (List.range (elemsOfV w)).filter fun k => governs m w k := by
    simp [onNumbered, Function.comp_def]
  exact numbers ▸ List.pairwise_lt_range.filter _

/-- What HMAX and HMIN write: the best element and its number, or what stands for none. -/
theorem hpickEff_eq (mx : Bool) (e : Env) (c : Core) {b : Option (Nat × Nat)}
    (h : bestOf mx e.f.fa.toNat (onNumbered (c.rm e.f.msk.toNat) (elemBits e.f.fa.toNat) (c.rv e.f.a.toNat)) = b) :
    hpickEff mx e c = reg ((c.wv e.f.d.toNat (b.elim (noBest mx e.f.fa.toNat) fun p => asRead e.f.fa.toNat p.1)).ws e.f.c.toNat
      (BitVec.ofNat 64 (b.elim 0 (·.2)))) 2 := by
  unfold hpickEff Env.mask
  simp only [filter_zipIdx_elemsAt, h]
  cases b <;> rfl

/-- HMAX and HMIN select the first of the unmasked elements that rank highest, NaNs aside. -/
theorem hpickEff_spec (mx : Bool) (e : Env) (c : Core) :
    let fa := e.f.fa.toNat
    let elem := elemAt (c.rv e.f.a.toNat) (elemBits fa)
    let on := fun k => k < elemsOfV (elemBits fa) ∧ governs (c.rm e.f.msk.toNat) (elemBits fa) k = true ∧
      (elemVal fa (elem k)).isNan = false
    ∃ x q, hpickEff mx e c = reg ((c.wv e.f.d.toNat x).ws e.f.c.toNat (BitVec.ofNat 64 q)) 2 ∧
      ((on q ∧ x = asRead fa (elem q) ∧ ∀ k, on k → rankKey mx fa (elem k) < rankKey mx fa (elem q) ∨
          (rankKey mx fa (elem k) = rankKey mx fa (elem q) ∧ q ≤ k)) ∨
        ((∀ k, ¬on k) ∧ x = noBest mx fa ∧ q = 0)) := by
  intro fa elem on
  have best := bestOf_spec mx fa _ (onNumbered_rising (c.rm e.f.msk.toNat) (elemBits fa) (c.rv e.f.a.toNat))
  cases found : bestOf mx fa (onNumbered (c.rm e.f.msk.toNat) (elemBits fa) (c.rv e.f.a.toNat)) with
  | none =>
    rw [found] at best
    refine ⟨_, _, hpickEff_eq mx e c found, .inr ⟨fun k ⟨hk, governed, number⟩ => ?_, rfl, rfl⟩⟩
    rw [best (elem k, k) (mem_onNumbered.mpr ⟨hk, governed, rfl⟩)] at number
    cases number
  | some p =>
    obtain ⟨a, q⟩ := p
    rw [found] at best
    obtain ⟨isOn, number, first⟩ := best
    obtain ⟨hp, governed, rfl⟩ := mem_onNumbered.mp isOn
    exact ⟨_, _, hpickEff_eq mx e c found, .inl ⟨⟨hp, governed, number⟩, rfl, fun k ⟨hk, on, isNum⟩ =>
      first (elem k, k) (mem_onNumbered.mpr ⟨hk, on, rfl⟩) isNum⟩⟩

/-- Settles O3: element by element (`vpickEff_elems`, `vselEff_elems`), and the selection of `hpickEff_spec`. -/
theorem maxMinAndSelect : Obligations.MaxMinAndSelect := by
  intro s g f e c fa w va vb vd m n hw
  refine ⟨fun h => ?_, fun h => ?_, fun h => ?_, fun mx h => ?_⟩ <;> obtain ⟨rfl, rfl, -⟩ := State.tsiEnv_spec h.2
  · obtain ⟨x, eff, elems⟩ := vpickEff_elems hw (e := e) (c := c) true rfl
    exact ⟨x, State.tsi_regs h eff, elems⟩
  · obtain ⟨x, eff, elems⟩ := vpickEff_elems hw (e := e) (c := c) false rfl
    exact ⟨x, State.tsi_regs h eff, elems⟩
  · obtain ⟨x, eff, elems⟩ := vselEff_elems hw (e := e) (c := c) rfl
    exact ⟨x, State.tsi_regs h eff, elems⟩
  · obtain ⟨x, q, eff, selected⟩ := hpickEff_spec mx e c
    refine ⟨x, q, ?_, selected⟩
    cases mx <;> exact State.tsi_regs h eff

/-! ### Conditions and filters (R141, R143, R145) -/

/-- The number whose one bits below `n` are those that pass a test. -/
theorem foldl_two_pow_spec (p : Nat → Bool) (n : Nat) :
    ((List.range n).filter p).foldl (fun a k => a + 2 ^ k) 0 < 2 ^ n ∧
      ∀ i, (((List.range n).filter p).foldl (fun a k => a + 2 ^ k) 0).testBit i = (decide (i < n) && p i) := by
  induction n with
  | zero => simp
  | succ n ih =>
    obtain ⟨below, bits⟩ := ih
    rw [List.range_succ, List.filter_append, List.foldl_append]
    generalize ((List.range n).filter p).foldl (fun a k => a + 2 ^ k) 0 = x at below bits
    cases hp : p n with
    | false =>
      rw [List.filter_cons_of_neg (by simp [hp])]
      refine ⟨below.trans (Nat.pow_lt_pow_succ Nat.one_lt_two), fun i => (bits i).trans ?_⟩
      grind
    | true =>
      rw [List.filter_cons_of_pos hp]
      have sum : List.foldl (fun a k => a + 2 ^ k) x [n] = 2 ^ n + x := Nat.add_comm _ _
      have upper : 2 ^ n + x < 2 ^ (n + 1) := by rw [Nat.pow_succ]; omega
      rw [List.filter_nil, sum]
      refine ⟨upper, fun i => ?_⟩
      rcases Nat.lt_trichotomy i n with lt | rfl | gt
      · rw [Nat.testBit_two_pow_add_gt lt, bits]
        grind
      · rw [Nat.testBit_two_pow_add_eq, bits]
        grind
      · rw [Nat.testBit_lt_two_pow (upper.trans_le (Nat.pow_le_pow_right Nat.two_pos gt))]
        grind

/-- A comparison's mask: its bits are those of the unmasked elements that meet the condition. -/
theorem cmpMask_spec (w m : Nat) (holds : Nat → Bool) : cmpMask w m holds < 2 ^ 32 ∧ ∀ k, k < 32 → bit (cmpMask w m holds) k =
    (bit m k && (if w = 32 then decide (k < 16) && holds k else if w = 16 then holds k else holds (2 * k) && holds (2 * k + 1))) := by
  obtain ⟨below, bits⟩ := foldl_two_pow_spec (fun k => bit m k && (if w = 32 then decide (k < 16) && holds k
    else if w = 16 then holds k else holds (2 * k) && holds (2 * k + 1))) 32
  exact ⟨below, fun k hk => (bits k).trans (by rw [decide_eq_true hk, Bool.true_and])⟩

/-- A filter keeps no more than the elements of a register. -/
theorem length_onElems_le (e : Env) (c : Core) : (onElems e c).length ≤ elemsOfV (elemBits e.f.fa.toNat) :=
  (List.length_filter_le _ _).trans_eq List.length_range

/-- Element `k` of what is packed of a list: that of its member `k`, zero past the last. -/
theorem elemAt_packMap {w : Nat} (hw : 0 < w) (l : List Nat) (f : Nat → Nat) (k : Nat) :
    elemAt (packElems w (l.map f)) w k = match l[k]? with | some j => f j % 2 ^ w | none => 0 := by
  rw [elemAt_packElems w hw, List.getElem?_map]
  cases l[k]? <;> simp

/-- Settles O4: the masks by `cmpMask_spec`, what FILT and FIDX pack by `elemAt_packMap`. -/
theorem compareAndFilter : Obligations.CompareAndFilter := by
  intro s g f e c fa w va m n holds on hw
  have wide : 0 < w := by omega
  refine ⟨fun h => ?_, fun h => ?_, fun h => ?_, fun h => ?_⟩ <;> obtain ⟨rfl, rfl, -⟩ := State.tsiEnv_spec h.2
  · exact ⟨_, State.tsi_regs h rfl, cmpMask_spec w m _⟩
  · exact ⟨_, State.tsi_regs h rfl, cmpMask_spec w m _⟩
  · refine ⟨_, State.tsi_regs h rfl, packElems_lt_reg ?_, fun k _ => ?_⟩
    · rw [List.length_map]
      exact (Nat.mul_le_mul_left _ (length_onElems_le e c)).trans (mul_elemsOfV_le (by tauto))
    · rw [elemAt_packMap wide]
      rw [show onElems e c = on from rfl]
      cases on[k]? with
      | none => rfl
      | some j => exact Nat.mod_eq_of_lt (elemAt_lt _ _ _ wide)
  · refine ⟨_, State.tsi_regs h rfl, fun k => ?_⟩
    rw [elemAt_packMap (by omega)]
    rfl

end Sys2Proof.Machine

/-!
The exact accumulators, lane by lane: what moves, sums and additions leave in them (R116, R120 to R125).
-/
namespace Sys2Proof.Machine

/-! ### Lanes -/

/-- Two lanes of a register file are the same place when register and lane are. -/
theorem laneKey_eq_iff {n m k j : Nat} (hk : k < 16) (hj : j < 16) : 16 * n + k = 16 * m + j ↔ n = m ∧ k = j := by omega

/-- What a table holds after a write. -/
theorem AMap.at_put {κ α : Type} [DecidableEq κ] (m : AMap κ α) (k q : κ) (a d : α) :
    AMap.at (AMap.put m k a) q d = if k = q then a else AMap.at m q d := by
  split
  · next h => rw [← h, AMap.at_put_same]
  · next h => exact AMap.at_put_other m h a d

/-- A write of an XS lane changes that lane alone. -/
theorem Core.rx_wx (c : Core) {n m k j : Nat} (hk : k < 16) (hj : j < 16) (l : Lane) :
    (c.wx n k l).rx m j = if n < 8 ∧ n = m ∧ k = j then l else c.rx m j := by
  unfold Core.wx Core.rx
  by_cases hn : n < 8
  · rw [if_pos hn, AMap.at_put]
    exact if_congr (by rw [laneKey_eq_iff hk hj]; simp [hn]) rfl rfl
  · simp [hn]

/-- A write of an XP lane changes that lane alone. -/
theorem Core.rp_wp (c : Core) {n m k j : Nat} (hk : k < 16) (hj : j < 16) (l : Lane) :
    (c.wp n k l).rp m j = if n < 4 ∧ n = m ∧ k = j then l else c.rp m j := by
  unfold Core.wp Core.rp
  by_cases hn : n < 4
  · rw [if_pos hn, AMap.at_put]
    exact if_congr (by rw [laneKey_eq_iff hk hj]; simp [hn]) rfl rfl
  · simp [hn]

/-- A write of an XS lane changes the XS lanes alone. -/
theorem Core.wx_frame (c : Core) (n k : Nat) (l : Lane) : c.wx n k l = { c with xs := (c.wx n k l).xs } := by
  unfold Core.wx; split <;> rfl

/-- A write of an XP lane changes the XP lanes alone. -/
theorem Core.wp_frame (c : Core) (n k : Nat) (l : Lane) : c.wp n k l = { c with xp := (c.wp n k l).xp } := by
  unfold Core.wp; split <;> rfl

theorem xReg_lt (r : BitVec 5) : xReg r < 8 := Nat.mod_lt _ (by decide)

theorem pReg_lt (r : BitVec 5) : pReg r < 4 := Nat.mod_lt _ (by decide)

/-! ### Folds over lanes -/

@[simp] theorem foldRange_succ {α : Type} (n : Nat) (step : Nat → α → α) (a : α) :
    foldRange (n + 1) step a = step n (foldRange n step a) := by
  simp [foldRange, List.range_succ]

/-- What a fold leaves of a part of its state, when each step changes that part by itself. -/
theorem foldRange_read {α β : Type} (read : α → β) {step : Nat → α → α} {change : Nat → β → β} {n : Nat}
    (h : ∀ k a, k < n → read (step k a) = change k (read a)) (a : α) :
    read (foldRange n step a) = foldRange n change (read a) := by
  induction n with
  | zero => rfl
  | succ n ih => rw [foldRange_succ, foldRange_succ, h n _ n.lt_succ_self, ih fun k a hk => h k a (by omega)]

/-- A fold of changes each at its own place: the place `j` is changed once. -/
theorem foldRange_once {β : Type} (change : Nat → β → β) (j n : Nat) (x : β) :
    foldRange n (fun k y => if k = j then change k y else y) x = if j < n then change j x else x := by
  induction n with
  | zero => rfl
  | succ n ih =>
    rw [foldRange_succ, ih]
    by_cases h : n = j
    · subst h; simp
    · rw [if_neg h]
      exact if_congr (by omega) rfl rfl

/-- A fold of changes each in its own block of `per`: the block `i` gets its own, in order. -/
theorem foldRange_block {β : Type} (change : Nat → β → β) {per : Nat} (hp : 0 < per) (i n : Nat) (x : β) :
    foldRange (per * n) (fun k y => if k / per = i then change k y else y) x =
      if i < n then ((List.range per).map (per * i + ·)).foldl (fun y k => change k y) x else x := by
  induction n with
  | zero => rfl
  | succ n ih =>
    have hblock : ∀ k ∈ (List.range per).map (per * n + ·), k / per = n := by
      intro k hk
      obtain ⟨q, hq, rfl⟩ := List.mem_map.1 hk
      rw [Nat.mul_add_div hp, Nat.div_eq_of_lt (List.mem_range.1 hq), Nat.add_zero]
    rw [Nat.mul_succ, foldRange, List.range_add, List.foldl_append, ← foldRange, ih]
    by_cases h : n = i
    · subst h
      rw [if_neg (Nat.lt_irrefl n), if_pos n.lt_succ_self]
      exact List.foldl_ext _ _ _ fun y k hk => if_pos (hblock k hk)
    · rw [List.foldl_ext _ (fun y _ => y) _ fun y k hk => if_neg fun hi => h (hblock k hk ▸ hi), List.foldl_fixed]
      exact if_congr (by omega) rfl rfl

/-- A fold whose steps leave a part of its state leaves it. -/
theorem foldRange_kept {α β : Type} (read : α → β) {step : Nat → α → α} {n : Nat}
    (h : ∀ k a, k < n → read (step k a) = read a) (a : α) : read (foldRange n step a) = read a :=
  (foldRange_read read h a).trans (List.foldl_fixed ..)

/-- A fold whose steps change the XS lanes alone changes them alone. -/
theorem foldRange_xs {step : Nat → Core → Core} (h : ∀ k a, step k a = { a with xs := (step k a).xs }) (n : Nat) (c : Core) :
    foldRange n step c = { c with xs := (foldRange n step c).xs } :=
  List.foldlRecOn (motive := fun a : Core => a = { c with xs := a.xs }) _ _ rfl fun a ha k _ => by
    rw [h k a, ha]

/-- A fold whose steps change the XP lanes alone changes them alone. -/
theorem foldRange_xp {step : Nat → Core → Core} (h : ∀ k a, step k a = { a with xp := (step k a).xp }) (n : Nat) (c : Core) :
    foldRange n step c = { c with xp := (foldRange n step c).xp } :=
  List.foldlRecOn (motive := fun a : Core => a = { c with xp := a.xp }) _ _ rfl fun a ha k _ => by
    rw [h k a, ha]

/-- The 16 lanes of register `d` of a file of lanes, each changed by itself. -/
theorem lanes_foldRange {read : Core → Nat → Nat → Lane} {write : Core → Nat → Nat → Lane → Core} {d n j : Nat}
    (h : ∀ a k l, k < 16 → read (write a d k l) n j = if n = d ∧ k = j then l else read a n j)
    (change : Nat → Lane → Lane) (c : Core) (hj : j < 16) :
    read (foldRange 16 (fun k a => write a d k (change k (read a d k))) c) n j =
      if n = d then change j (read c n j) else read c n j := by
  refine (foldRange_read (fun a => read a n j)
    (change := fun k l => if k = j then (if n = d then change k l else l) else l) (fun k a hk => ?_) c).trans ?_
  · rw [h a k _ hk]
    by_cases hkj : k = j
    · subst hkj
      by_cases hn : n = d
      · subst hn; simp
      · simp [hn]
    · simp [hkj]
  · rw [foldRange_once (fun k l => if n = d then change k l else l), if_pos hj]

/-- The 16 lanes of an XS register, each changed by itself. -/
theorem rx_foldRange {d : Nat} (hd : d < 8) (change : Nat → Lane → Lane) (c : Core) (n : Nat) {j : Nat} (hj : j < 16) :
    (foldRange 16 (fun k a => a.wx d k (change k (a.rx d k))) c).rx n j =
      if n = d then change j (c.rx n j) else c.rx n j :=
  lanes_foldRange (read := Core.rx) (write := Core.wx)
    (fun a k l hk => by rw [Core.rx_wx a hk hj]; simp [hd, eq_comm]) change c hj

/-- The 16 lanes of an XP register, each changed by itself. -/
theorem rp_foldRange {d : Nat} (hd : d < 4) (change : Nat → Lane → Lane) (c : Core) (n : Nat) {j : Nat} (hj : j < 16) :
    (foldRange 16 (fun k a => a.wp d k (change k (a.rp d k))) c).rp n j =
      if n = d then change j (c.rp n j) else c.rp n j :=
  lanes_foldRange (read := Core.rp) (write := Core.wp)
    (fun a k l hk => by rw [Core.rp_wp a hk hj]; simp [hd, eq_comm]) change c hj

/-- Writes of XS lanes change the XS lanes alone. -/
theorem foldRange_wx (d : Nat) (new : Nat → Core → Lane) (n : Nat) (c : Core) :
    foldRange n (fun k a => a.wx d k (new k a)) c = { c with xs := (foldRange n (fun k a => a.wx d k (new k a)) c).xs } :=
  foldRange_xs (fun k a => Core.wx_frame a d k _) n c

/-- Writes of XP lanes change the XP lanes alone. -/
theorem foldRange_wp (d : Nat) (new : Nat → Core → Lane) (n : Nat) (c : Core) :
    foldRange n (fun k a => a.wp d k (new k a)) c = { c with xp := (foldRange n (fun k a => a.wp d k (new k a)) c).xp } :=
  foldRange_xp (fun k a => Core.wp_frame a d k _) n c

/-! ### Moves and sums of whole lanes -/

/-- What a table without the keys of some registers reads: those registers at their reset value. -/
theorem at_filter_lanes (xs : AMap Nat Lane) (clear : Nat → Bool) (n : Nat) {k : Nat} (hk : k < 16) :
    AMap.at (xs.filter fun p => !clear (p.1 / 16)) (16 * n + k) {} =
      if clear n then {} else AMap.at xs (16 * n + k) {} := by
  have hq : (16 * n + k) / 16 = n := by omega
  induction xs with
  | nil => simp [AMap.at, AMap.find]
  | cons p xs ih =>
    obtain ⟨key, l⟩ := p
    by_cases hkey : key = 16 * n + k
    · subst hkey
      rw [List.filter_cons]
      cases hc : clear n with
      | true => simpa [hq, hc] using ih
      | false => simp [hq, hc, AMap.at, AMap.find]
    · have htail : AMap.at ((key, l) :: xs) (16 * n + k) {} = AMap.at xs (16 * n + k) {} := by
        simp [AMap.at, AMap.find, hkey]
      rw [htail, ← ih, List.filter_cons]
      split
      · simp [AMap.at, AMap.find, hkey]
      · rfl

/-- Settles O5: each instruction writes the lanes of one register file, one lane a step (`rx_foldRange`, `rp_foldRange`). -/
theorem accumulatorMoves : Obligations.AccumulatorMoves := by
  intro s g f e
  refine ⟨fun h => ?_, fun h => ?_, fun h => ?_, fun h => ?_, fun h => ?_⟩ <;>
    obtain ⟨rfl, rfl, -⟩ := State.tsiEnv_spec h.2 <;>
    refine ⟨_, State.tsi_regs h rfl, ?_⟩
  · exact ⟨fun n k _ hk => at_filter_lanes _ _ n hk, fun n k _ hk => at_filter_lanes _ _ n hk, rfl⟩
  · refine ⟨fun n k _ hk => ?_, foldRange_wx ..⟩
    exact (rx_foldRange (xReg_lt _) (fun k _ => (s.core e.g).rx (xReg e.f.a) k) _ n hk).trans (by split <;> rfl)
  · refine ⟨fun n k _ hk => ?_, foldRange_wp ..⟩
    exact rp_foldRange (pReg_lt _) (fun k l => l.plus ((s.core e.g).rx (xReg e.f.a) k).toXp) _ n hk
  · refine ⟨fun n k _ hk => ?_, foldRange_wx ..⟩
    exact rx_foldRange (xReg_lt _) (fun k _ => if k = 0 then _ else {}) _ n hk
  · refine ⟨fun n k _ hk => ?_, foldRange_wp ..⟩
    exact rp_foldRange (pReg_lt _) (fun k _ => if k = 0 then _ else {}) _ n hk

/-! ### Exact accumulation -/

/-- The element widths that XADD, DOT and SSQ take: the elements of a register fill whole rows of 16 lanes. -/
theorem elemsOfV_sixteens {w : Nat} (hw : w = 8 ∨ w = 16 ∨ w = 32) : elemsOfV w = elemsOfV w / 16 * 16 ∧ 0 < elemsOfV w / 16 := by
  rcases hw with rfl | rfl | rfl <;> decide

/-- The lane of an element is its own, and no other element's. -/
theorem laneOf_eq_iff {d k j : Nat} : d + k / 16 = d + j / 16 ∧ k % 16 = j % 16 ↔ k = j := by omega

/-- XADD's loop: the elements below `n` that pass a test, each added into its lane of the registers from `d` on. -/
def addElems (on : Nat → Bool) (val : Nat → Val) (d n : Nat) (c : Core) : Core :=
  foldRange n (fun k a => if on k then
    a.wx (d + k / 16) (k % 16) ((a.rx (d + k / 16) (k % 16)).add wXS (val k)) else a) c

section AddElems
variable (on : Nat → Bool) (val : Nat → Val) (c : Core)

/-- What XADD leaves in the lane of element `j`. -/
theorem rx_addElems (d : Nat) {n j : Nat} (hj : j < n) (hlane : d + j / 16 < 8) :
    (addElems on val d n c).rx (d + j / 16) (j % 16) =
      if on j then (c.rx (d + j / 16) (j % 16)).add wXS (val j) else c.rx (d + j / 16) (j % 16) := by
  have lane (k : Nat) : k % 16 < 16 := Nat.mod_lt _ (by decide)
  refine (foldRange_read (fun a => a.rx (d + j / 16) (j % 16))
    (change := fun k l => if k = j then (if on k then l.add wXS (val k) else l) else l) (fun k a _ => ?_) c).trans ?_
  · by_cases hk : k = j
    · subst hk
      split
      · rw [Core.rx_wx a (lane k) (lane k), if_pos ⟨hlane, rfl, rfl⟩, if_pos rfl]
      · rw [if_pos rfl]
    · rw [if_neg hk]
      split
      · rw [Core.rx_wx a (lane k) (lane j), if_neg fun h => hk (laneOf_eq_iff.1 h.2)]
      · rfl
  · rw [foldRange_once (fun k (l : Lane) => if on k then l.add wXS (val k) else l), if_pos hj]

/-- XADD leaves the registers below and above those that its elements have lanes in. -/
theorem rx_addElems_other {d n q j : Nat} (hn : n = n / 16 * 16) (hq : q < d ∨ d + n / 16 ≤ q) (hj : j < 16) :
    (addElems on val d n c).rx q j = c.rx q j := by
  refine foldRange_kept (fun a => a.rx q j) (fun k a hk => ?_) c
  split
  · rw [Core.rx_wx a (Nat.mod_lt _ (by decide)) hj, if_neg (by omega)]
  · rfl

/-- XADD changes the XS lanes alone. -/
theorem addElems_frame (d n : Nat) : addElems on val d n c = { c with xs := (addElems on val d n c).xs } := by
  refine foldRange_xs (fun k a => ?_) n c
  split
  · exact Core.wx_frame ..
  · rfl

end AddElems

/-- DOT and SSQ change the XP lanes alone. -/
theorem dotInto_frame (e : Env) (c : Core) (prod : Nat → Val) :
    dotInto e c prod = { c with xp := (dotInto e c prod).xp } := by
  refine foldRange_xp (fun k a => ?_) _ c
  split
  · exact Core.wp_frame ..
  · rfl

section DotInto
variable {e : Env} {c : Core} {prod : Nat → Val}
  (hw : elemBits e.f.fa.toNat = 8 ∨ elemBits e.f.fa.toNat = 16 ∨ elemBits e.f.fa.toNat = 32)
include hw

/-- What DOT and SSQ leave in a lane of their register: the unmasked products of its elements, added in order. -/
theorem rp_dotInto {i : Nat} (hi : i < 16) :
    let w := elemBits e.f.fa.toNat
    let per := elemsOfV w / 16
    (dotInto e c prod).rp (pReg e.f.d) i = ((List.range per).map (per * i + ·)).foldl
      (fun l k => if governs (e.mask c) w k then l.addProd (prod k) else l) (c.rp (pReg e.f.d) i) := by
  intro w per
  obtain ⟨hn, hp⟩ := elemsOfV_sixteens hw
  refine (foldRange_read (fun a => a.rp (pReg e.f.d) i)
    (change := fun k l => if k / per = i then (if governs (e.mask c) w k then l.addProd (prod k) else l) else l)
    (fun k a hk => ?_) c).trans ?_
  · have hlane : k / per < 16 := Nat.div_lt_of_lt_mul (by rw [hn] at hk; exact hk)
    split
    · rw [Core.rp_wp a hlane hi]
      by_cases hki : k / per = i
      · rw [if_pos ⟨pReg_lt _, rfl, hki⟩, if_pos hki, hki]
      · rw [if_neg fun h => hki h.2.2, if_neg hki]
    · rw [ite_self]
  · rw [hn, foldRange_block (fun k (l : Lane) => if governs (e.mask c) w k then l.addProd (prod k) else l) hp, if_pos hi]

/-- DOT and SSQ leave the other registers' lanes. -/
theorem rp_dotInto_other {q i : Nat} (hq : q ≠ pReg e.f.d) (hi : i < 16) :
    (dotInto e c prod).rp q i = c.rp q i := by
  obtain ⟨hn, hp⟩ := elemsOfV_sixteens hw
  refine foldRange_kept (fun a => a.rp q i) (fun k a hk => ?_) c
  split
  · rw [Core.rp_wp a (Nat.div_lt_of_lt_mul (by rw [hn] at hk; exact hk)) hi, if_neg fun h => hq h.2.1.symm]
  · rfl

/-- DOT and SSQ add the products of each lane's elements to it, and change nothing else. -/
theorem dotInto_lanes :
    let w := elemBits e.f.fa.toNat
    let per := elemsOfV w / 16
    (∀ i, i < 16 → (dotInto e c prod).rp (pReg e.f.d) i = ((List.range per).map (per * i + ·)).foldl
      (fun l k => if governs (e.mask c) w k then l.addProd (prod k) else l) (c.rp (pReg e.f.d) i)) ∧
    (∀ q i, q ≠ pReg e.f.d → i < 16 → (dotInto e c prod).rp q i = c.rp q i) ∧
      dotInto e c prod = { c with xp := (dotInto e c prod).xp } :=
  ⟨fun _ hi => rp_dotInto hw hi, fun _ _ hq hi => rp_dotInto_other hw hq hi, dotInto_frame e c prod⟩

end DotInto

/-- Two cycles for a format of code 0, else one. -/
theorem dotCycles_eq (f : TsiFields) : dotCycles f = if f.fa.toNat = 0 then 2 else 1 :=
  if_congr (BitVec.toNat_inj (y := 0#4)).symm rfl rfl

/-- XFOLD of lanes whose residues agree. -/
theorem xfoldEff_eq {e : Env} {c : Core} (h : ((List.range 16).all fun k => (c.rp (pReg e.f.a) k).resOk) = true) :
    xfoldEff e c = reg (foldRange 16
      (fun k a => a.wx (xReg e.f.d) k (foldLane (c.rx (xReg e.f.d) k) (c.rp (pReg e.f.a) k))) c) 2 := by
  have hbad : ((List.range 16).any fun k => !(c.rp (pReg e.f.a) k).resOk) = false := by
    rw [← Bool.not_eq_true', List.not_any_eq_all_not]
    simpa using h
  simp only [xfoldEff, hbad, reg]

/-- XCIN of a slice that holds the 16 elements. -/
theorem xcinEff_eq {e : Env} {c : Core} {sl : Slice} (hsl : e.run.slice = some sl) :
    let cur := c.cursor e.f.c.toNat
    let r := xcinLoop (xReg e.f.d) 16 0 (sl.data.drop (64 * cur)) c 0 0
    r.2.2.2 = true → xcinEff e c = reg (r.1.setCursor e.f.c.toNat (cur + cdiv r.2.1 64)) (4 + 2 * r.2.2.1) := by
  intro cur r hr
  simp only [xcinEff, hsl, reg]
  rw [if_pos hr, if_pos hr]

/-- Settles O6: XADD and the products lane by lane (`rx_addElems`, `rp_dotInto`), XFOLD as a lane-wise write. -/
theorem exactAccumulation : Obligations.ExactAccumulation := by
  intro s g f e c fa w va vb m n d per hw
  obtain ⟨hn, hp⟩ := elemsOfV_sixteens hw
  refine ⟨fun h => ?_, fun h => ?_, fun h => ?_, fun h hres => ?_, fun sl h hd hsl hr => ?_⟩ <;>
    obtain ⟨rfl, rfl, -⟩ := State.tsiEnv_spec h.2
  · exact ⟨_, State.tsi_regs h rfl, fun k hk hlane => rx_addElems _ _ c d hk hlane,
      fun q k hq hk => rx_addElems_other _ _ c hn hq hk, addElems_frame ..⟩
  · exact ⟨_, State.tsi_regs h (congrArg (reg _) (dotCycles_eq _)), dotInto_lanes hw⟩
  · exact ⟨_, State.tsi_regs h (congrArg (reg _) (dotCycles_eq _)), dotInto_lanes hw⟩
  · have fold := rx_foldRange (xReg_lt e.f.d) (fun k _ => foldLane (c.rx d k) (c.rp (pReg e.f.a) k)) c
    refine ⟨_, State.tsi_regs h (xfoldEff_eq hres), fun k hk => ?_, fun q k hq hk => ?_, foldRange_wx ..⟩
    · exact (fold _ hk).trans (if_pos rfl)
    · exact (fold q hk).trans (if_neg hq)
  · exact State.tsi_reg h (fun _ => hd) (xcinEff_eq hsl hr)

end Sys2Proof.Machine

/-!
Conversions (R126 to R135): each value once, under the mask, and its flags.
-/
namespace Sys2Proof.Machine

/-! ### Instructions that fold flags -/

section Flags
variable {s : State} {g op : Nat} {f : TsiFields} {e : Env} (h : s.Runs g op f e) (hd : dKind e.descC ≠ 0)
include h hd

/-- An instruction that writes registers and folds flags. -/
theorem State.tsi_flags {eff : Env → Core → State → TsiRes} {c : Core} {n : Nat} {fl : List (Nat × Nat)}
    (he : eff e (s.core g) s = { core := c, cycles := n, flags := fl }) :
    onUnit (decide (g < Config.cores)) (s.tsi g op f true eff) = .next ((s.foldFlagsAt e fl).goesOn e c n) := by
  obtain ⟨rfl, -, hr, -⟩ := State.tsiEnv_spec h.2
  rw [State.tsi_runs h fun _ => hd, he, State.applyTsi_next hr rfl rfl rfl rfl, State.sramWrite_nil]

/-- One that also draws a free word. -/
theorem State.tsi_flags_drew {eff : Env → Core → State → TsiRes} {c : Core} {n : Nat} {fl : List (Nat × Nat)}
    (he : eff e (s.core g) s = { core := c, cycles := n, flags := fl, drew := true }) :
    onUnit (decide (g < Config.cores)) (s.tsi g op f true eff) =
      .next ((({ s with free := s.free + 1 } : State).foldFlagsAt e fl).goesOn e c n) := by
  obtain ⟨rfl, -, hr, -⟩ := State.tsiEnv_spec h.2
  rw [State.tsi_runs h fun _ => hd, he, State.applyTsi_drew hr rfl rfl rfl rfl, State.sramWrite_nil]

end Flags

/-- The flags of the elements below `n` that pass a test, by element index. -/
def resultFlags (base n : Nat) (on : Nat → Bool) (out : Nat → Nat × Nat) : List (Nat × Nat) :=
  ((List.range n).filter on).map fun k => (base + k, (out k).2)

/-- They may be read from the list of all results. -/
theorem resultFlags_eq (base n : Nat) (on : Nat → Bool) (out : Nat → Nat × Nat) :
    (((List.range n).filter on).map fun k => (base + k, ((((List.range n).map out)[k]?).getD (0, 0)).2)) =
      resultFlags base n on out := by
  refine List.map_congr_left fun k hk => ?_
  have hk : k < n := List.mem_range.1 (List.mem_filter.1 hk).1
  simp [hk]

/-- No unit of output is withheld when every lane's residue agrees. -/
theorem no_bad_unit {n : Nat} {lane : Nat → Lane} (h : ∀ k, k < n → (lane k).resOk = true) (base : Nat) :
    ((List.range n).filter fun k => !(lane k).resOk).map (fun k => (base + k) / 1024) = [] := by
  rw [List.map_eq_nil_iff, List.filter_eq_nil_iff]
  intro k hk
  simp [h k (List.mem_range.1 hk)]

/-! ### RND and CVT -/

/-- The result of RND for element `k`. -/
def rndOut (e : Env) (c : Core) (k : Nat) : Nat × Nat :=
  convert e.f.fd.toNat (rndOpt e (elemBase e c + k)) ((rndLane e c k).1.val (rndLane e c k).2)

/-- RND of lanes whose residues agree: the register and the flags it leaves. -/
theorem rndEff_eq {e : Env} {c : Core}
    (hres : ∀ k, k < elemsOfV (elemBits e.f.fd.toNat) → (rndLane e c k).1.resOk = true) :
    let w := elemBits e.f.fd.toNat
    let n := elemsOfV w
    rndEff e c = {
      core := c.wv e.f.d.toNat (packElems w
        (merged (e.mask c) w (elemsAt (c.rv e.f.d.toNat) w n) ((List.range n).map fun k => (rndOut e c k).1)))
      cycles := if w = 32 then 1 else if w = 16 then 2 else 4
      flags := recFlags e (resultFlags (elemBase e c) n (governs (e.mask c) w) (rndOut e c)) } := by
  intro w n
  simp only [rndEff, no_bad_unit hres, List.map_map]
  rw [← resultFlags_eq]
  rfl

/-- The result of CVT for element `k`. -/
def cvtOut (e : Env) (c : Core) (k : Nat) : Nat × Nat :=
  let wa := elemBits e.f.fa.toNat
  convert e.f.fd.toNat (rndOpt e (elemBase e c + k))
    (elemVal e.f.fa.toNat (elemAt (c.rvGroup e.f.a.toNat (groupOf32 wa)) wa k))

/-- The 32 elements that CVT leaves, of results where the mask has their bit and of a register or pair elsewhere. -/
def cvtElems (e : Env) (c : Core) (old : Nat) : Nat :=
  let wd := elemBits e.f.fd.toNat
  packElems wd (merged (e.mask c) 16 (elemsAt old wd 32) ((List.range 32).map fun k => (cvtOut e c k).1))

/-- The bits that CVT leaves above 32 narrow elements. -/
def cvtTop (fw wd : Nat) : Nat := if wd < 16 then (fw % 2 ^ (512 - 32 * wd)) <<< (wd * 32) else 0

/-- The flags of CVT. -/
def cvtFlags (e : Env) (c : Core) : List (Nat × Nat) :=
  recFlags e (resultFlags (elemBase e c) 32 (bit (e.mask c)) (cvtOut e c))

/-- CVT: the registers, the flags and whether it draws a free word. -/
theorem cvtEff_eq (fw : Nat) (e : Env) (c : Core) :
    let wd := elemBits e.f.fd.toNat
    let group := groupOf32 wd
    cvtEff fw e c = {
      core := c.wvGroup e.f.d.toNat (cvtElems e c (c.rvGroup e.f.d.toNat group) + cvtTop fw wd) group
      cycles := 2
      flags := cvtFlags e c
      drew := decide (wd < 16) } := by
  intro wd group
  simp only [cvtEff, List.map_map, decide_eq_true_eq]
  rw [cvtFlags, ← resultFlags_eq]
  simp only [cvtTop, Nat.mul_comm wd 32]
  rfl

/-- CVT to 16 or 32 bits fills its registers. -/
theorem cvtEff_wide {fw : Nat} {e : Env} {c : Core} (h : 16 ≤ elemBits e.f.fd.toNat) :
    let group := groupOf32 (elemBits e.f.fd.toNat)
    cvtEff fw e c = {
      core := c.wvGroup e.f.d.toNat (cvtElems e c (c.rvGroup e.f.d.toNat group)) group
      cycles := 2
      flags := cvtFlags e c } := by
  rw [cvtEff_eq, cvtTop, if_neg (Nat.not_lt.2 h), decide_eq_false (Nat.not_lt.2 h), Nat.add_zero]

/-- CVT to less leaves a free value in the bits above the elements, and writes one register. -/
theorem cvtEff_narrow {fw : Nat} {e : Env} {c : Core} (h : elemBits e.f.fd.toNat < 16) :
    cvtEff fw e c = {
      core := c.wvGroup e.f.d.toNat (cvtElems e c (c.rv e.f.d.toNat) + cvtTop fw (elemBits e.f.fd.toNat)) 1
      cycles := 2
      flags := cvtFlags e c
      drew := true } := by
  have one : groupOf32 (elemBits e.f.fd.toNat) = 1 := if_neg (by omega)
  have old : c.rvGroup e.f.d.toNat 1 = c.rv e.f.d.toNat := by simp [Core.rvGroup]
  rw [cvtEff_eq, decide_eq_true h, one, old]

/-- The elements that CVT leaves. -/
theorem elemAt_cvtElems {e : Env} (wide : 0 < elemBits e.f.fd.toNat) (c : Core) (old : Nat) {k : Nat} (hk : k < 32) :
    elemAt (cvtElems e c old) (elemBits e.f.fd.toNat) k =
      if bit (e.mask c) k then (cvtOut e c k).1 % 2 ^ elemBits e.f.fd.toNat else elemAt old (elemBits e.f.fd.toNat) k :=
  (elemAt_packMerged wide ..).trans (if_pos hk)

/-! ### MXQ, VFLAG and EXPAND -/

/-- MXQ of lanes whose residues agree: the block quantised once. -/
theorem mxqEff_eq {e : Env} {c : Core} :
    let fa := e.f.fa.toNat
    let wd := elemBits e.f.fd.toNat
    let base := elemBase e c
    let lane := fun k => c.rx (xReg e.f.a + k / 16) (k % 16)
    let src := c.rvGroup e.f.a.toNat (groupOf32 (elemBits fa))
    let v := fun k => if fa = 0xE then (lane k).val wXS else elemVal fa (elemAt src (elemBits fa) k)
    let q := mxBlock e.f.fd.toNat (fun k => rndOpt e (base + k)) ((List.range 32).map v)
    (fa = 0xE → ∀ k, k < 32 → (lane k).resOk = true) → mxqEff e c = {
      core := (c.wv e.f.d.toNat (packElems wd (q.2.map (·.1)))).ws (fld e.f.imm 19 16) (BitVec.ofNat 64 q.1)
      cycles := 2
      flags := recFlags e (q.2.zipIdx.map fun p => (base + p.2, p.1.2)) } := by
  intro fa wd base lane src v q hres
  have hbad : (if fa = 0xE then
      ((List.range 32).filter fun k => !(lane k).resOk).map fun k => (base + k) / 1024 else []) = [] := by
    split
    · next hfa => exact no_bad_unit (hres hfa) base
    · rfl
  unfold mxqEff
  dsimp only
  rw [hbad]

/-- The flag of a value that VFLAG records. -/
def specialFlag (v : Val) : Nat := match v with | .nan => flNan | .inf _ => flInf | _ => 0

/-- VFLAG: a flag for each unmasked NaN or infinity. -/
theorem vflagEff_eq (e : Env) (c : Core) :
    let fa := e.f.fa.toNat
    let w := elemBits fa
    vflagEff e c = {
      core := c
      flags := recFlags e (((List.range (elemsOfV w)).filter fun k => governs (e.mask c) w k).map fun k =>
        (elemBase e c + k, specialFlag (elemVal fa (elemAt (c.rv e.f.a.toNat) w k)))) } := by
  intro fa w
  unfold vflagEff
  dsimp only
  rw [filter_zipIdx_elemsAt, onNumbered, List.map_map]
  rfl

/-- EXPAND: 64 elements converted, each pair under its mask bit. -/
theorem expandEff_eq (e : Env) (c : Core) :
    let fa := e.f.fa.toNat
    let w := elemBits fa
    let half := if w = 4 ∧ bit e.f.imm.toNat 0 then c.rv e.f.a.toNat >>> 256 else c.rv e.f.a.toNat
    let z : Int := if bit e.f.imm.toNat 1 then sext 8 ((c.rs e.f.c.toNat).toNat) else 0
    let out := fun q : Nat =>
      if fa = 0x9 then elemAt (c.rv e.f.b.toNat) 16 q
      else if intBits fa ≠ 0 then bf16Of (.fin (decide (sext w q - z < 0)) (sext w q - z).natAbs 0)
      else bf16Of (elemVal fa q)
    expandEff e c = reg (c.wvGroup e.f.d.toNat (packElems 16 (merged (e.mask c) 8 (elemsAt (c.rvGroup e.f.d.toNat 2) 16 64)
      ((List.range 64).map fun k => out (elemAt half w k)))) 2) 2 := by
  intro fa w half z out
  rfl

/-- Settles O7: RND and CVT by their masked writes (`elemAt_packMerged`) and flags, the others by their effect. -/
theorem roundAndConvert : Obligations.RoundAndConvert := by
  intro s g f e c fa fd wd n m base rec_ hd
  refine ⟨fun h hw hres => ?_, fun h hw => ?_, fun h hw => ?_, fun h => ?_, fun h => ?_, fun h hw => ?_⟩ <;>
    obtain ⟨rfl, rfl, -⟩ := State.tsiEnv_spec h.2
  · have pos : 0 < wd := by omega
    refine ⟨_, State.tsi_flags h hd (rndEff_eq hres), packMerged_lt hw _ _ _, fun k hk => ?_, fun k hk => ?_⟩
    · exact (elemAt_packMerged pos ..).trans (if_pos hk)
    · exact (elemAt_packMerged pos ..).trans (if_neg (Nat.not_lt.2 hk))
  · have wide : 16 ≤ wd := by omega
    have pos : 0 < wd := by omega
    exact ⟨_, State.tsi_flags h hd (cvtEff_wide wide), fun k hk => elemAt_cvtElems pos _ _ hk⟩
  · have narrow : wd < 16 := by omega
    have pos : 0 < wd := by omega
    refine ⟨_, State.tsi_flags_drew h hd (cvtEff_narrow narrow), fun k hk => ?_⟩
    rw [cvtTop, if_pos narrow, elemAt_add_high pos hk]
    exact elemAt_cvtElems pos _ _ hk
  · intro lane src v hres q
    exact State.tsi_flags h hd (mxqEff_eq hres)
  · exact State.tsi_flags h hd (vflagEff_eq e c)
  · refine ⟨_, State.tsi_regs h (expandEff_eq e _), ?_, fun k hk => ?_⟩
    · exact (packElems_lt ..).trans_le (Nat.pow_le_pow_right Nat.two_pos (by simp [merged_length]))
    · exact (elemAt_packMerged (by decide) ..).trans (if_pos hk)

end Sys2Proof.Machine

/-!
Records (R147 to R155): their order is that of a rank, and the sort puts them into it.
-/
namespace Sys2Proof.Machine

/-! ### The order of records -/

/-- The place of a value that is no NaN in the order of R83 (ascending) or R84 (descending). -/
def Val.place (desc : Bool) (v : Val) : Int := if desc then -v.key else v.key

/-- The place of a value in the order of R83 or R84: NaN last, the others by their key. -/
def Val.rank (desc : Bool) (v : Val) : List Int := if v.isNan then [1, 0] else [0, v.place desc]

/-- Of two values that are no NaN, the one of the lower place stands before the other. -/
theorem Val.before_iff {desc : Bool} {u v : Val} (hu : u.isNan = false) (hv : v.isNan = false) :
    u.before desc v = decide (u.place desc < v.place desc) := by
  cases desc <;> simp [Val.before, Val.place, hu, hv]

/-- The place of a record in the order of R150: sentinels last, the others by value, contributor, element and payload. -/
def recRank (desc : Bool) (r : Nat) : List Int :=
  if rFmt r = 0xF then [1] else 0 :: ((rVal r).rank desc ++ [(rCon r : Int), rElem r, rPay r])

/-- The order by value is that of the rank, with what stands after it. -/
theorem Val.rank_append_lt (desc : Bool) (u v : Val) (x y : List Int) :
    u.rank desc ++ x < v.rank desc ++ y ↔
      u.before desc v = true ∨ (u.before desc v = false ∧ v.before desc u = false ∧ x < y) := by
  cases hu : u.isNan with
  | true => cases hv : v.isNan <;> simp [Val.rank, Val.before, List.cons_lt_cons_iff, hu, hv]
  | false =>
    cases hv : v.isNan with
    | true => simp [Val.rank, Val.before, List.cons_lt_cons_iff, hu, hv]
    | false =>
      rw [Val.before_iff hu hv, Val.before_iff hv hu]
      rcases lt_trichotomy (u.place desc) (v.place desc) with h | h | h
      · simp [Val.rank, List.cons_lt_cons_iff, hu, hv, h]
      · simp [Val.rank, hu, hv, h]
      · simp [Val.rank, List.cons_lt_cons_iff, hu, hv, h, h.le, h.ne']

/-- The order of R150 is that of the rank. -/
theorem recBefore_eq (desc : Bool) (a b : Nat) : recBefore desc a b = decide (recRank desc a < recRank desc b) := by
  unfold recBefore recRank
  by_cases ha : rFmt a = 0xF
  · by_cases hb : rFmt b = 0xF <;> simp [ha, hb, List.cons_lt_cons_iff]
  · by_cases hb : rFmt b = 0xF
    · simp [ha, hb, List.cons_lt_cons_iff]
    · simp only [ha, hb, decide_false, if_false, List.cons_lt_cons_iff, Val.rank_append_lt]
      cases (rVal a).before desc (rVal b) <;> cases (rVal b).before desc (rVal a) <;> simp

/-! ### The sort -/

section Sorting
variable (lt : Nat → Nat → Bool)

/-- An insertion keeps the records. -/
theorem insRec_perm (r : Nat) (rs : List Nat) : (insRec lt r rs).Perm (r :: rs) := by
  induction rs with
  | nil => exact .refl _
  | cons x xs ih =>
    rw [insRec]
    split
    · exact (ih.cons x).trans (.swap r x xs)
    · exact .refl _

/-- The sort keeps the records. -/
theorem sortRecs_perm (rs : List Nat) : (sortRecs lt rs).Perm rs := by
  induction rs with
  | nil => exact .refl _
  | cons r rs ih => exact (insRec_perm lt r _).trans (ih.cons r)

/-- A list in which no record stands before one that is ahead of it. -/
def Ordered (rs : List Nat) : Prop := rs.Pairwise fun a b => lt b a = false

variable {lt} (asymm : ∀ a b, lt a b = true → lt b a = false)
  (trans : ∀ a b c, lt b a = false → lt c b = false → lt c a = false)
include asymm trans

/-- An insertion keeps the order. -/
theorem insRec_ordered (r : Nat) (rs : List Nat) (h : Ordered lt rs) : Ordered lt (insRec lt r rs) := by
  induction rs with
  | nil => exact List.pairwise_singleton ..
  | cons x xs ih =>
    obtain ⟨hx, hxs⟩ := List.pairwise_cons.1 h
    rw [insRec]
    split
    · next before =>
      refine List.pairwise_cons.2 ⟨fun y hy => ?_, ih hxs⟩
      rcases List.mem_cons.1 ((insRec_perm lt r xs).mem_iff.1 hy) with rfl | hy
      · exact asymm x _ before
      · exact hx y hy
    · next after =>
      have after := Bool.eq_false_iff.2 after
      refine List.pairwise_cons.2 ⟨fun y hy => ?_, h⟩
      rcases List.mem_cons.1 hy with rfl | hy
      · exact after
      · exact trans r x y after (hx y hy)

/-- The sort puts the records into order. -/
theorem sortRecs_ordered (rs : List Nat) : Ordered lt (sortRecs lt rs) := by
  induction rs with
  | nil => exact .nil
  | cons r rs ih => exact insRec_ordered asymm trans r _ ih

end Sorting

/-- Settles O9: an insertion sort by a rank (`recBefore_eq`). -/
theorem recordSortIsAnOrderedPermutation : Obligations.RecordSortIsAnOrderedPermutation := by
  intro desc fa rs _
  refine ⟨sortRecs_perm _ rs, sortRecs_ordered (fun a b h => ?_) (fun a b c h h' => ?_) rs⟩
  · rw [recBefore_eq, decide_eq_true_eq] at h
    rw [recBefore_eq, decide_eq_false_iff_not]
    exact h.asymm
  · rw [recBefore_eq, decide_eq_false_iff_not, not_lt] at *
    exact h.trans h'

/-! ### The record instructions -/

/-- Settles O8: each instruction is its effect on the registers, with the checks of R151 and R153 passed. -/
theorem recordInstructions : Obligations.RecordInstructions := by
  intro s g f e c fa w r lt cost ga gb gd
  refine ⟨fun h => ?_, fun h => ?_, fun h hfmt => ?_, fun h hfmt ha hb => ?_, fun h hfmt hd => ?_, fun h hfmt => ?_⟩ <;>
    obtain ⟨rfl, rfl, -⟩ := State.tsiEnv_spec h.2
  · exact State.tsi_regs h rfl
  · exact State.tsi_regs h rfl
  · exact State.tsi_regs h (if_pos hfmt)
  · exact State.tsi_regs h (if_pos (Bool.and_eq_true_iff.2 ⟨Bool.and_eq_true_iff.2 ⟨hfmt, ha⟩, hb⟩))
  · exact State.tsi_regs h (if_pos (Bool.and_eq_true_iff.2 ⟨hfmt, hd⟩))
  · exact State.tsi_regs h (if_pos hfmt)

end Sys2Proof.Machine

/-!
Loads, stores, gather, scatter and dispatch: what they read and leave of a data SRAM (R117, R118, R156 to R160, R183).
-/
namespace Sys2Proof.Machine

/-! ### Byte strings -/

/-- Byte `i` of a number. -/
theorem getElem_toLE {n i : Nat} (x : Nat) (h : i < (toLE n x).length) : (toLE n x)[i] = BitVec.ofNat 8 (x / 2 ^ (8 * i)) := by
  induction n generalizing i x with
  | zero => exact absurd h (Nat.not_lt_zero i)
  | succ n ih =>
    cases i with
    | zero => simp [toLE]
    | succ i =>
      have : 2 ^ (8 * (i + 1)) = 256 * 2 ^ (8 * i) := by rw [Nat.mul_succ, Nat.pow_add, Nat.mul_comm]
      simp only [toLE, List.getElem_cons_succ, ih, this, Nat.div_div_eq_div_mul]

/-- The number in a byte string has eight bits for each byte. -/
theorem ofLE_lt (bs : List Byte) : ofLE bs < 2 ^ (8 * bs.length) := by
  induction bs with
  | nil => exact Nat.one_pos
  | cons b bs ih =>
    have : 2 ^ (8 * (b :: bs).length) = 256 * 2 ^ (8 * bs.length) := by
      rw [List.length_cons, Nat.mul_succ, Nat.pow_add, Nat.mul_comm]
    rw [ofLE, this]
    have := b.isLt
    omega

/-- A slice has the length asked for. -/
theorem length_slice (bs : List Byte) (off n : Nat) : (slice bs off n).length = n := by
  simp [slice, zeros]

/-! ### Beats written one after another -/

/-- A memory after beats `x 0` to `x (n − 1)` are written from address `a` on. -/
def writeBeats (m : List Host.Cell) (a n : Nat) (x : Nat → Nat) : List Host.Cell :=
  (List.range n).foldl (fun m k => memWrite m (a + 64 * k) (toLE 64 (x k))) m

theorem writeBeats_succ (m : List Host.Cell) (a n : Nat) (x : Nat → Nat) :
    writeBeats m a (n + 1) x = memWrite (writeBeats m a n x) (a + 64 * n) (toLE 64 (x n)) := by
  simp [writeBeats, List.range_succ]

theorem writeBeats_wf {m : List Host.Cell} (w : Memory.wf m = true) (a n : Nat) (x : Nat → Nat) :
    Memory.wf (writeBeats m a n x) = true :=
  memWrite_foldl_wf _ _ _ w

/-- Beats written leave every address outside them alone. -/
theorem memGet_writeBeats_other {m : List Host.Cell} (w : Memory.wf m = true) {a n b : Nat} (x : Nat → Nat)
    (h : b < a ∨ a + 64 * n ≤ b) : memGet (writeBeats m a n x) b = memGet m b := by
  induction n with
  | zero => rfl
  | succ n ih =>
    rw [writeBeats_succ, memGet_memWrite_other (writeBeats_wf w a n x) _ _ _ (by rw [length_toLE]; omega), ih (by omega)]

/-- Beats written stand at their places. -/
theorem memGet_writeBeats_same {m : List Host.Cell} (w : Memory.wf m = true) {a n k i : Nat} (x : Nat → Nat) (hk : k < n)
    (hi : i < 64) : memGet (writeBeats m a n x) (a + 64 * k + i) = BitVec.ofNat 8 (x k / 2 ^ (8 * i)) := by
  induction n with
  | zero => omega
  | succ n ih =>
    rw [writeBeats_succ]
    by_cases last : k = n
    · subst last
      rw [memGet_memWrite_same (writeBeats_wf w a k x) _ i _ (by rwa [length_toLE]), getElem_toLE]
    · rw [memGet_memWrite_other (writeBeats_wf w a n x) _ _ _ (Or.inl (by omega)), ih (by omega)]

/-! ### Loads and stores -/

/-- An instruction that writes registers and a data SRAM. -/
theorem State.tsi_stores {s : State} {g op : Nat} {f : TsiFields} {e : Env} (h : s.Runs g op f e) (hd : dKind e.descC ≠ 0)
    {eff : Env → Core → State → TsiRes} {c : Core} {n : Nat} {ws : List (Nat × List Byte)}
    (he : eff e (s.core g) s = { core := c, cycles := n, store := ws }) :
    onUnit (decide (g < Config.cores)) (s.tsi g op f true eff) = .next ((s.sramWrite ws).goesOn e c n) := by
  obtain ⟨rfl, -, hr, -⟩ := State.tsiEnv_spec h.2
  rw [State.tsi_runs h fun _ => hd, he, State.applyTsi_next hr rfl rfl rfl rfl, State.foldFlagsAt_nil]

/-- Folds with steps that agree below the bound. -/
theorem foldRange_congr {α : Type} {n : Nat} {step step' : Nat → α → α} (h : ∀ k a, k < n → step k a = step' k a) (a : α) :
    foldRange n step a = foldRange n step' a :=
  List.foldl_ext _ _ _ fun _ k hk => h k _ (List.mem_range.1 hk)

/-- RECV of beats that the slice holds. -/
theorem recvEff_eq {e : Env} {c : Core} (h : c.cursor e.f.c.toNat + immN e.f ≤ (c.rs 5).toNat) :
    let cur := c.cursor e.f.c.toNat
    let n := immN e.f
    recvEff e c = reg ((foldRange n (fun k x =>
      x.wv (e.f.d.toNat + k) (ofLE (slice e.sliceBytes (64 * (cur + k)) 64))) c).setCursor e.f.c.toNat (cur + n)) n := by
  intro cur n
  unfold recvEff
  dsimp only
  rw [if_neg (Nat.not_lt.2 h), foldRange_congr fun k a hk => by rw [if_pos (by omega)]]
  rfl

/-- SKIP within the slice. -/
theorem skipEff_eq {e : Env} {c : Core} {a : Nat} (ha : a = (c.rs (sReg e.f.a)).toNat + imm16 e.f)
    (h : c.cursor e.f.c.toNat + a ≤ (c.rs 5).toNat) :
    skipEff e c = reg (c.setCursor e.f.c.toNat (c.cursor e.f.c.toNat + a)) 1 := by
  subst ha
  unfold skipEff
  dsimp only
  rw [Nat.add_assoc, if_neg (Nat.not_lt.2 h)]

/-- LDV of beats inside the region that no fetch will write. -/
theorem ldvEff_eq {e : Env} {c : Core} {s : State} (h : ldBeat e c + immN e.f ≤ dLen e.descC)
    (hf : e.fetchHits e.descC (ldBeat e c) (immN e.f) = false) :
    ldvEff e c s = reg (foldRange (immN e.f) (fun k x =>
      x.wv (e.f.d.toNat + k) (ofLE (s.localRead e.g e.descC (64 * (ldBeat e c + k)) 64))) c) (immN e.f) := by
  unfold ldvEff
  simp only [h, hf, decide_true, Bool.and_false, Bool.false_eq_true, if_false, if_true]
  rfl

/-- STV of beats inside the region that no fetch will write. -/
theorem stvEff_eq {e : Env} {c : Core} (h : ldBeat e c + immN e.f ≤ dLen e.descC)
    (hf : e.fetchHits e.descC (ldBeat e c) (immN e.f) = false) :
    stvEff e c = { core := c, cycles := immN e.f, store := (List.range (immN e.f)).map fun k =>
      (sramBase e.g + dAddr e.descC + 64 * (ldBeat e c + k), toLE 64 (c.rv (e.f.d.toNat + k))) } := by
  unfold stvEff
  simp only [h, hf, if_true, Bool.false_eq_true, if_false]

/-- LDS of 8 aligned bytes of a region that no fetch will write. -/
theorem ldsEff_local {e : Env} {c : Core} {s : State} (hk : dKind e.descC = 2) (ha : ldBeat e c % 8 = 0)
    (hin : ldBeat e c + 8 ≤ 64 * dLen e.descC) (hf : e.fetchHits e.descC (ldBeat e c / 64) 1 = false) :
    ldsEff e c s = reg (c.ws (sReg e.f.d) (BitVec.ofNat 64 (ofLE (s.localRead e.g e.descC (ldBeat e c) 8)))) 1 := by
  unfold ldBeat at ha hin hf
  simp [ldsEff, hk, ha, hin, hf, ldBeat]

/-- LDS of 8 aligned bytes of the slice. -/
theorem ldsEff_slice {e : Env} {c : Core} {s : State} (hk : dKind e.descC ≠ 2) (ha : ldBeat e c % 8 = 0)
    (hin : ldBeat e c + 8 ≤ e.sliceData.length) :
    ldsEff e c s = reg (c.ws (sReg e.f.d) (BitVec.ofNat 64 (ofLE (slice e.sliceData (ldBeat e c) 8)))) 1 := by
  unfold ldBeat at ha hin
  simp [ldsEff, hk, ha, hin, ldBeat]

/-- The beats that STV stores. -/
theorem sramWrite_beats (s : State) (base a n : Nat) (x : Nat → Nat) :
    s.sramWrite ((List.range n).map fun k => (base + 64 * (a + k), toLE 64 (x k))) =
      { s with coll := { s.coll with sram := writeBeats s.coll.sram (base + 64 * a) n x } } := by
  simp only [State.sramWrite, writeBeats, List.foldl_map, Nat.mul_add, Nat.add_assoc]

/-- Settles O10: the effects above, and the beats of STV by `writeBeats`. -/
theorem loadsStoresAndReceive : Obligations.LoadsStoresAndReceive := by
  intro s g f e c n d a base cur hd
  refine ⟨fun h hin => ?_, fun h hin => ?_, fun h hin hf => ?_, fun h hin hf wf => ?_, fun h hk ha hin hf => ?_,
    fun h hk ha hin => ?_⟩ <;> obtain ⟨rfl, rfl, -⟩ := State.tsiEnv_spec h.2
  · exact State.tsi_reg h (fun _ => hd) (recvEff_eq hin)
  · exact State.tsi_reg h (fun _ => hd) (skipEff_eq rfl hin)
  · exact State.tsi_reg h (fun _ => hd) (ldvEff_eq hin hf)
  · have stv := State.tsi_stores (eff := fun e c _ => stvEff e c) h hd (stvEff_eq hin hf)
    rw [sramWrite_beats] at stv
    refine ⟨_, stv, rfl, fun k i hk hi => ?_, fun b hb => ?_⟩
    · rw [Nat.mul_add 64, ← Nat.add_assoc]
      exact memGet_writeBeats_same wf _ hk hi
    · exact memGet_writeBeats_other wf _ (by rwa [Nat.mul_add 64 a n, ← Nat.add_assoc] at hb)
  · exact State.tsi_reg h (fun _ => hd) (ldsEff_local hk ha hin hf)
  · exact State.tsi_reg h (fun _ => hd) (ldsEff_slice hk ha hin)

/-! ### Gather, scatter and dispatch -/

/-- GATH of lanes that lie inside the stream and that no fetch will write. -/
theorem gathEff_eq {e : Env} {c : Core} {s : State} :
    let w := elemBits e.f.fa.toNat
    let d := e.descC
    let idx := fun k => laneIndex (c.rs (sReg e.f.b)) (c.rv e.f.a.toNat) k
    let len := if dKind d = 2 then 64 * dLen d else e.sliceData.length
    (∀ k, k ∈ onLanes e c → inStream (len * 8 / w) (idx k) = true ∧
      (dKind d = 2 → e.fetchHits d ((idx k).toNat * w / 512) 1 = false)) →
    gathEff e c s = reg (c.wv e.f.d.toNat (packElems w ((List.range 16).map fun k => if bit (e.mask c) k then
      (let o := (idx k).toNat * (w / 8)
       ofLE (if dKind d = 2 then s.localRead e.g d o (w / 8) else slice e.sliceData o (w / 8)))
      else elemAt (c.rv e.f.d.toNat) w k))) 2 := by
  intro w d idx len hon
  have hhit : ((onLanes e c).any fun k =>
      decide (dKind d = 2) && inStream (len * 8 / w) (idx k) && e.fetchHits d ((idx k).toNat * w / 512) 1) = false := by
    rw [List.any_eq_false]
    intro k hk
    by_cases hkind : dKind d = 2
    · simp [(hon k hk).2 hkind]
    · simp [hkind]
  have hall : ((onLanes e c).all fun k => inStream (len * 8 / w) (idx k)) = true :=
    List.all_eq_true.2 fun k hk => (hon k hk).1
  have hread : ∀ k, k ∈ List.range 16 → bit (e.mask c) k = true → inStream (len * 8 / w) (idx k) = true := fun k hk hbit =>
    (hon k (List.mem_filter.2 ⟨hk, hbit⟩)).1
  have hmap : ∀ rd : Nat → Nat, ((List.range 16).map fun k => if bit (e.mask c) k then
      (if inStream (len * 8 / w) (idx k) then rd k else 0) else elemAt (c.rv e.f.d.toNat) w k) =
      (List.range 16).map fun k => if bit (e.mask c) k then rd k else elemAt (c.rv e.f.d.toNat) w k := fun rd =>
    List.map_congr_left fun k hk => by split <;> simp_all
  unfold gathEff
  dsimp only
  rw [if_neg (ne_true_of_eq_false hhit), hmap, hall]
  simp only [← apply_ite ofLE]
  rfl

/-- SCAT of lanes that lie inside the region and that no fetch will write. -/
theorem scatEff_eq {e : Env} {c : Core} :
    let w := elemBits e.f.fa.toNat
    let d := e.descC
    let idx := fun k => laneIndex (c.rs (sReg e.f.d)) (c.rv e.f.b.toNat) k
    (∀ k, k ∈ onLanes e c → inStream (64 * dLen d * 8 / w) (idx k) = true ∧
      e.fetchHits d ((idx k).toNat * w / 512) 1 = false) →
    scatEff e c = { core := c, cycles := 2, store := (onLanes e c).map fun k =>
      (sramBase e.g + dAddr d + (idx k).toNat * (w / 8), toLE (w / 8) (elemAt (c.rv e.f.a.toNat) w k)) } := by
  intro w d idx hon
  have hhit : ((onLanes e c).any fun k =>
      inStream (64 * dLen d * 8 / w) (idx k) && e.fetchHits d ((idx k).toNat * w / 512) 1) = false := by
    rw [List.any_eq_false]
    intro k hk
    simp [(hon k hk).2]
  have hall : ((onLanes e c).all fun k => inStream (64 * dLen d * 8 / w) (idx k)) = true :=
    List.all_eq_true.2 fun k hk => (hon k hk).1
  have hin : (onLanes e c).filter (fun k => inStream (64 * dLen d * 8 / w) (idx k)) = onLanes e c :=
    List.filter_eq_self.2 fun k hk => (hon k hk).1
  unfold scatEff
  dsimp only
  rw [hhit, hall, hin]
  rfl

/-- KSEL of records of one format inside the region. -/
theorem kselEff_eq {e : Env} {c : Core} {s : State} :
    let n := (c.rs (sReg e.f.a)).toNat
    let cap := (c.rs (sReg e.f.b)).toNat
    let d := e.descC
    let b := imm16 e.f
    let rs := elemsAt (ofLE (s.localRead e.g d (64 * b) (16 * n))) 128 n
    64 * b + 16 * n ≤ 64 * dLen d → e.fetchHits d b (cdiv n 4) = false → fmtOk e.f.fa.toNat rs = true →
    kselEff e c s = {
      core := (c.ws (sReg e.f.d) (BitVec.ofNat 64 (min n cap))).ws (sReg e.f.d + 1) (BitVec.ofNat 64 (n - min n cap))
      cycles := 16 + cdiv n 4 * (clog2 (max n 2) + 2)
      store := [(sramBase e.g + dAddr d + 64 * b, toLE (16 * n) (packElems 128 (kselRecs cap rs)))] } := by
  intro n cap d b rs hin hf hfmt
  unfold kselEff
  dsimp only
  rw [if_neg (Nat.not_lt.2 hin), hf, if_neg Bool.false_ne_true, if_pos hfmt]

/-- Settles O11: the effects above; an element of a width has that many bits (`ofLE_lt`). -/
theorem gatherScatterAndDispatch : Obligations.GatherScatterAndDispatch := by
  intro s g f e c w d m base on hd hw
  have pos : 0 < w := by omega
  have byteWide : 8 ∣ w := by omega
  refine ⟨fun h hon => ?_, fun h hon => ?_, fun h => ?_⟩ <;>
    obtain ⟨rfl, rfl, -⟩ := State.tsiEnv_spec h.2
  · refine ⟨_, State.tsi_reg h (fun _ => hd) (gathEff_eq hon), fun k hk => ?_, fun k hk => ?_⟩
    · refine ((elemAt_packRange pos ..).trans (if_pos hk)).trans ?_
      refine (Nat.mod_eq_of_lt ?_).trans rfl
      split
      · refine (ofLE_lt _).trans_eq ?_
        dsimp only
        rw [apply_ite List.length, State.localRead, memRead_length, length_slice, ite_self, Nat.mul_div_cancel' byteWide]
      · exact elemAt_lt _ _ _ pos
    · exact (elemAt_packRange pos ..).trans (if_neg (Nat.not_lt.2 hk))
  · refine ⟨_, State.tsi_stores (eff := fun e c _ => scatEff e c) h hd (scatEff_eq hon), ?_⟩
    rw [State.sramWrite, List.foldl_map]
    rfl
  · intro n cap b rs hin hf hfmt ranked drop out
    have recs : out = kselRecs cap rs := by rw [kselRecs, elemsAt_length]
    rw [recs]
    exact State.tsi_stores h hd (kselEff_eq hin hf hfmt)

end Sys2Proof.Machine

/-!
The emit instructions, and the handler that waits for room in the output assembly (R165 to R177).
-/
namespace Sys2Proof.Machine

/-! ### Emit instructions -/

section Emits
variable {s : State} {g op : Nat} {f : TsiFields} {e : Env} (h : s.Runs g op f e)
include h

/-- An instruction that waits. -/
theorem State.flow_wait (w : Wait) (n : Nat) : s.flow e (.wait w) n = s.waitsFor e w := by
  obtain ⟨rfl, -, hr, -⟩ := State.tsiEnv_spec h.2
  simp only [State.flow, State.modRun, hr, State.waitsFor]

/-- With no room in the output assembly an emit instruction waits. -/
theorem State.emitOp_waits (eff : State → Env → State) (hd : dKind e.descC ≠ 0) (full : s.noRoom g = true) :
    onUnit (decide (g < Config.cores)) (s.emitOp g op f eff) = .next (s.waitsFor e .room) := by
  rw [onUnit, if_pos (decide_eq_true h.1), State.emitOp, h.2]
  dsimp only
  rw [if_neg hd, if_pos full, State.flow_wait h]

/-- With room it has its effect. -/
theorem State.emitOp_runs (eff : State → Env → State) (hd : dKind e.descC ≠ 0) (room : s.noRoom g = false) :
    onUnit (decide (g < Config.cores)) (s.emitOp g op f eff) = .next (eff s e) := by
  rw [onUnit, if_pos (decide_eq_true h.1), State.emitOp, h.2]
  dsimp only
  rw [if_neg hd, room, if_neg Bool.false_ne_true]

end Emits

section Effects
variable {s : State} {e : Env} {r : Rec} (hr : s.runRec e = some r)
include hr

/-- Bytes that were not written before go into the output assembly. -/
theorem State.posWrite_fresh {d off n : Nat} {bs : List Byte} (fresh : ((r.asm d).put off bs).2 = false) :
    s.posWrite e d off bs n =
      ((s.putRunRec e (r.putAsm ((r.asm d).put off bs).1)).pumpOutputs e.cenv e.run.ctx.inst).flow e .next n := by
  rw [State.posWrite, hr]
  dsimp only
  rw [fresh]
  rfl

/-- Whether a WRITE of `m` elements from element `i` on is withheld. -/
theorem State.keptBack_iff (i m : Nat) :
    s.keptBack e i m = true ↔ r.withAll = true ∨ ∃ t ∈ r.withheld, i < 1024 * (t + 1) ∧ 1024 * t < i + m := by
  rw [State.keptBack, hr]
  simp

/-- XCENC's WRITE, of no element, is withheld with every output. -/
theorem State.keptBack_none : s.keptBack e 0 0 = r.withAll := by
  rw [State.keptBack, hr]
  simp

end Effects

/-- EMIT to an output of whole beats inside its stream. -/
theorem State.emitEff_inside {s : State} {e : Env} :
    let c := s.core e.g
    let n := immN e.f
    let w := elemBits (dFmt e.descC)
    let i := (c.rs (sReg e.f.b)).toNat + imm16 e.f
    i * w % 512 = 0 → i * w / 512 + n ≤ dLen e.descC →
    s.emitEff e = if dKind e.descC = 4 then
        (if s.keptBack e i (n * 512 / w) then s else s.memwr e e.f.c.toNat (i * w / 512) (vBytes c e.f.a.toNat n)).flow e .next n
      else s.posWrite e e.f.c.toNat (64 * (i * w / 512)) (vBytes c e.f.a.toNat n) n := by
  intro c n w i whole inside
  rw [State.emitEff]
  exact if_neg (by rintro (h | h); exacts [h whole, Nat.not_lt.2 inside h])

/-- XCENC of lanes that agree with their residues, and that may run: a WRITE or a group of the core's segment. -/
theorem State.xcencEff_agrees {s : State} {e : Env} :
    let c := s.core e.g
    let xs := (List.range 16).map fun i => xcEnc (c.rx (xReg e.f.a) i)
    let padded := xs.flatten ++ zeros (roundUp xs.flatten.length 64 - xs.flatten.length)
    let cost := 4 + 2 * (xs.filter fun x => decide (x.length = 48)).length
    (dKind e.descC = 4 ∨ e.run.kind = .final) → ((List.range 16).all fun i => (c.rx (xReg e.f.a) i).resOk) = true →
    s.xcencEff e = if dKind e.descC = 4 then
        (let cur := c.wcur.at e.f.c.toNat 0
         let s1 := if s.keptBack e 0 0 then s else s.memwr e e.f.c.toNat cur padded
         let c1 := s1.core e.g
         (s1.setCore e.g { c1 with wcur := c1.wcur.put e.f.c.toNat (cur + padded.length / 64) }).flow e .next cost)
      else (s.segment e fun a => { a with groups := a.groups ++ [padded] }).flow e .next cost := by
  intro c xs padded cost may agree
  have lanes : ((List.range 16).map fun i => c.rx (xReg e.f.a) i).map xcEnc = xs := List.map_map ..
  have all : (!((List.range 16).map fun i => c.rx (xReg e.f.a) i).all Lane.resOk) = false := by
    rw [List.all_map, Bool.not_eq_false']; exact agree
  rw [State.xcencEff]
  dsimp only
  rw [if_neg (by tauto), all, if_neg Bool.false_ne_true, lanes, List.flatMap_id]

/-- Settles O13: the emit instructions one by one, with and without room. -/
theorem emitInstructions : Obligations.EmitInstructions := by
  intro s g f e r c d cd w n at_ b puts k xs bytes padded cost hd hr
  refine ⟨fun i hi op hop h full => ?_, fun room =>
    ⟨fun h whole inside h4 fresh => ?_, fun h whole inside h4 => ?_, fun h block => ?_, fun h final count => ?_,
     fun h h4 final agree => ?_, fun h h4 agree => ?_⟩⟩ <;> obtain ⟨rfl, rfl, -⟩ := State.tsiEnv_spec h.2
  · simp only [List.mem_cons, List.not_mem_nil, or_false] at hi
    rcases hi with rfl | rfl | rfl | rfl <;> subst hop <;> exact State.emitOp_waits h _ hd full
  · refine (State.emitOp_runs h _ hd room).trans (congrArg _ ?_)
    rw [State.emitEff_inside whole inside, if_neg h4]
    exact State.posWrite_fresh hr fresh
  · intro held
    have eff : exec (.emit e.g e.f) s = .next _ := State.emitOp_runs h _ hd room
    rw [State.emitEff_inside whole inside, if_pos h4] at eff
    have kept := State.keptBack_iff hr at_ (n * 512 / w)
    exact ⟨fun no => eff.trans (congrArg (fun u : State => Host.Outcome.next (u.flow e .next n)) (if_neg (mt kept.1 no))),
      fun yes => eff.trans (congrArg (fun u : State => Host.Outcome.next (u.flow e .next n)) (if_pos (kept.2 yes)))⟩
  · intro off bs fresh
    refine (State.emitOp_runs h _ hd room).trans (congrArg _ ?_)
    rw [State.emscEff]
    exact (if_neg (Nat.not_le.2 block)).trans (State.posWrite_fresh hr fresh)
  · refine (State.emitOp_runs h _ hd room).trans (congrArg _ ?_)
    rw [State.emitaEff]
    exact (if_neg (not_not.2 final)).trans (if_neg (Nat.not_lt.2 count))
  · refine (State.emitOp_runs h _ hd room).trans (congrArg _ ?_)
    rw [State.xcencEff_agrees (.inr final) agree]
    exact if_neg h4
  · refine (State.emitOp_runs h _ hd room).trans (congrArg _ ?_)
    rw [State.xcencEff_agrees (.inl h4) agree, State.keptBack_none hr]
    exact if_pos h4

/-! ### The handler that waits for room -/

/-- What a handler's instructions see rests on its context, not on the rest of the run. -/
theorem State.runEnv_of_ctx {s : State} {g : Nat} {r r' : Run} {f : TsiFields} {x : Env} (h : s.runEnv g r f = some x)
    (hctx : r'.ctx = r.ctx) (f' : TsiFields) : s.runEnv g r' f' = some { x with run := r', f := f' } := by
  unfold State.runEnv at h ⊢
  rw [hctx]
  split at h
  · cases h
  · split at h
    · cases h
    · split at h
      · cases h; rfl
      · cases h

/-- The handler of an environment, and the word at its offset. -/
theorem State.tsiEnv_word {s : State} {g op : Nat} {f : TsiFields} {e : Env} {r : Run} (h : s.tsiEnv g op f = some e)
    (hr : (s.core g).run = some r) : ∃ x, s.runEnv g r f = some x ∧ x.prog.code[r.pc]? = some (encWord op f) := by
  unfold State.tsiEnv at h
  rw [hr] at h
  dsimp only at h
  cases he : s.runEnv g r f with
  | none => rw [he] at h; cases h
  | some x =>
    rw [he] at h
    dsimp only at h
    split at h
    · next ready => exact ⟨x, rfl, ready.2.2.2⟩
    · cases h

section Resume
variable {g t : Nat} {s : State} (hg : g < Config.cores)
include hg

/-- OUTPUT_ROOM_RESUME completes. -/
theorem outputRoomResume_completes : Completes (exec (.outputRoomResume g t) s) :=
  ⟨_, if_pos (decide_eq_true hg)⟩

/-- Without a handler that waits for room, or without room, it only places the packets. -/
theorem outputRoomResume_idle
    (h : ∀ r, ((drainWait (s.tick t)).core g).run = some r → r.wait ≠ .room ∨ (drainWait (s.tick t)).noRoom g = true) :
    exec (.outputRoomResume g t) s = .next (drainWait (s.tick t)) := by
  refine (if_pos (decide_eq_true hg)).trans (congrArg _ ?_)
  dsimp only
  split
  · rfl
  · next r hr =>
    refine if_neg fun resumes => ?_
    rcases h r hr with waits | full
    · exact waits resumes.1
    · rw [resumes.2] at full; cases full

/-- With room, the handler that waited for it runs the emit instruction at its offset. -/
theorem outputRoomResume_runs {r : Run} {op : Nat} {f : TsiFields} {e : Env} (hop : op < 256)
    (hr : ((drainWait (s.tick t)).core g).run = some r) (waits : r.wait = .room) (room : (drainWait (s.tick t)).noRoom g = false) :
    let s2 := (drainWait (s.tick t)).setRun g (some { r with wait := .none })
    s2.tsiEnv g op f = some e → exec (.outputRoomResume g t) s = .next (
      if op = 0x80 then s2.emitOp g 0x80 f State.emitEff
      else if op = 0x81 then s2.emitOp g 0x81 f State.emitaEff
      else if op = 0x82 then s2.emitOp g 0x82 f State.emscEff
      else if op = 0x33 then s2.emitOp g 0x33 f State.xcencEff
      else s2) := by
  intro s2 he
  obtain ⟨x, hx, word⟩ := State.tsiEnv_word he (congrArg Core.run (State.core_setCore ..))
  have env := State.runEnv_of_ctx hx (r' := r) rfl (wordFields 0)
  refine (if_pos (decide_eq_true hg)).trans (congrArg _ ?_)
  dsimp only
  rw [hr]
  dsimp only
  rw [if_pos ⟨waits, room⟩, env]
  dsimp only at word ⊢
  rw [word, Option.getD_some, wordFields_encWord, fld_encWord_op hop]

end Resume

/-- Settles O14: the word at the handler's offset is the emit instruction that waited (`outputRoomResume_runs`). -/
theorem outputRoomResumeRunsTheEmit : Obligations.OutputRoomResumeRunsTheEmit := by
  intro g t s hg s1
  refine ⟨outputRoomResume_idle hg, fun r op f e hr waits room he => ?_⟩
  have onUnit_next : ∀ u : State, onUnit (decide (g < Config.cores)) u = .next u := fun u => if_pos (decide_eq_true hg)
  refine ⟨?_, ?_, ?_, ?_, outputRoomResume_completes hg⟩ <;> rintro rfl <;>
    exact (outputRoomResume_runs hg (by decide) hr waits room he).trans (onUnit_next _).symm

end Sys2Proof.Machine

/-!
How a handler goes on, stops and ends; its fetches and what stops it at run time (R97, R136, R180 to R186, Table TSI-9).
-/
namespace Sys2Proof.Machine

/-! ### How a handler goes on or stops -/

/-- A handler whose core has just been written goes on at the next offset. -/
theorem State.setCore_flow_next (s : State) {e : Env} {c : Core} (hr : c.run = some e.run) (hc : c.ctxs = (s.core e.g).ctxs)
    (n : Nat) : (s.setCore e.g c).flow e .next n = s.goesOn e c n := by
  unfold State.flow State.goesOn State.onward
  dsimp only
  rw [State.modRun_setCore _ _ _ e.run _ hr, ← hc]

/-- Writing a core as it stands before the run of the core is changed makes no difference. -/
theorem State.modRun_setCore_self (s : State) (g : Nat) (f : Run → Run) {r : Run} (hr : (s.core g).run = some r) :
    (s.setCore g (s.core g)).modRun g f = s.modRun g f := by
  rw [State.modRun_setCore _ _ _ r _ hr, State.modRun, hr]
  rfl

/-- The answers that a handler's fetches count as: a handler without fetches is left as it is. -/
theorem State.answerFetches_none {s : State} {g st : Nat} {r : Run} (hr : (s.core g).run = some r) (hf : r.fetches = []) :
    s.answerFetches g st = s.setCore g (s.core g) := by
  have same : { r with fetches := r.fetches.map fun q => if q.status.isNone then { q with status := some st } else q } = r := by
    rw [hf]
    cases r; simp_all
  rw [State.answerFetches, State.modRun, hr]
  dsimp only
  rw [same, State.setRun, ← hr]

/-- A handler without fetches is over at once. -/
theorem State.endRun_none {s : State} {g : Nat} {r : Run} (hr : (s.core g).run = some r) (hf : r.fetches = []) :
    s.endRun g = (s.setCore g (s.core g)).overRun g := by
  have pending : r.pendingFetch = false := by simp [Run.pendingFetch, hf]
  have fine : ((s.core g).run).bind Run.fetchFail = none := by simp [hr, Run.fetchFail, hf]
  rw [State.endRun, hr]
  dsimp only
  rw [pending, Bool.false_and, if_neg Bool.false_ne_true, State.answerFetches_none hr hf, State.core_setCore, fine]

section Flow
variable {s : State} {e : Env} (hr : (s.core e.g).run = some e.run)
include hr

/-- A handler goes on with its registers as they are. -/
theorem State.flow_next (n : Nat) : s.flow e .next n = s.goesOn e (s.core e.g) n := by
  rw [← State.setCore_flow_next s hr rfl]
  unfold State.flow
  dsimp only
  rw [State.modRun_setCore_self s _ _ hr]

/-- A handler stops with its registers as they are. -/
theorem State.flow_stop (st n : Nat) : s.flow e (.stop st) n = s.stopsOn e (s.core e.g) n st := by
  unfold State.flow State.stopsOn
  simp only [State.modRun, hr]
  rfl

/-- A handler with no fetch ends. -/
theorem State.flow_fin (hf : e.run.fetches = []) (n : Nat) :
    s.flow e .fin n = (s.setRun e.g (some (e.run.issue e.op e.f n))).overRun e.g := by
  have step : s.modRun e.g (fun r => { r.issue e.op e.f n with pc := e.run.pc }) =
      s.setRun e.g (some (e.run.issue e.op e.f n)) := by
    simp only [State.modRun, hr]
    rfl
  have run : ((s.setRun e.g (some (e.run.issue e.op e.f n))).core e.g).run = some (e.run.issue e.op e.f n) :=
    congrArg Core.run (State.core_setCore ..)
  refine (congrArg (State.endRun · e.g) step).trans ?_
  rw [State.endRun_none run hf, State.setRun, State.core_setCore, State.setCore_setCore]

end Flow

/-- A handler with instructions left goes on with what its core holds. -/
theorem State.core_flow_next {u : State} {e : Env} {c : Core} {r : Run} (hu : u.core e.g = { c with run := some r })
    (more : e.run.pc + 1 < e.prog.ninst) (n : Nat) :
    (u.flow e .next n).core e.g = { c with run := some { r.issue e.op e.f n with pc := e.run.pc + 1 } } := by
  have run : (u.core e.g).run = some r := congrArg Core.run hu
  unfold State.flow
  dsimp only
  rw [if_pos more, State.modRun, run]
  dsimp only
  rw [State.setRun, State.core_setCore, hu]

/-! ### Control instructions -/

section Control
variable {s : State} {g op : Nat} {f : TsiFields} {e : Env} (h : s.Runs g op f e)
include h

/-- A control instruction has its effect. -/
theorem State.ctlOp_runs (eff : State → Env → State) :
    onUnit (decide (g < Config.cores)) (s.ctlOp g op f eff) = .next (eff s e) := by
  rw [onUnit, if_pos (decide_eq_true h.1), State.ctlOp, h.2]

/-- WAITF of a handler with no fetch goes on. -/
theorem State.waitfEff_none (hf : e.run.fetches = []) : s.waitfEff e = s.goesOn e (s.core e.g) 1 := by
  obtain ⟨rfl, -, hr, -⟩ := State.tsiEnv_spec h.2
  have pending : e.run.pendingFetch = false := by simp [Run.pendingFetch, hf]
  have fine : ((s.core e.g).run).bind Run.fetchFail = none := by simp [hr, Run.fetchFail, hf]
  unfold State.waitfEff
  rw [pending, Bool.false_and, if_neg Bool.false_ne_true, State.answerFetches_none hr hf]
  dsimp only
  rw [State.core_setCore, fine]
  exact State.setCore_flow_next s hr rfl 1

end Control

/-! ### FETCH -/

/-- A packet of a cluster changes no core. -/
@[simp] theorem State.fromCluster_cores (s : State) (cl vc part : Nat) (p : Packet) (refusal : Bool) :
    (s.fromCluster cl vc part p refusal).cores = s.cores :=
  (congrArg State.cores (State.fromCluster_still s cl vc part p refusal) :)

/-- What FETCH asks of one READ of it: descriptor, beat and number of beats, not answered yet. -/
def CoreReq.asked (q : CoreReq) : Nat × Nat × Nat × Option Nat := (q.desc, q.beat, q.n, q.status)

/-- The request of one READ of a FETCH (R180). -/
def State.fetchReq (u : State) (e : Env) (etag no a b : Nat) (x : Nat × Nat) : CoreReq :=
  { tag := u.newTag.1, desc := fld e.f.d 3 0, beat := b + x.1, n := x.2, no := no, status := none, sentAt := u.now, resends := 0
    pkt := reqPkt mopRead etag u.newTag.1 (dFaddr e.descC) (64 * (a + x.1)) (64 * x.2) [] }

/-- One READ of a FETCH (R180): a fetch of the handler, and its packet unless the slot is a shadow. -/
def State.fetchRead (u : State) (e : Env) (etag no a b : Nat) (x : Nat × Nat) : State :=
  let q := u.fetchReq e etag no a b x
  let s := u.newTag.2.modRun e.g fun r => { r with fetches := r.fetches ++ [q] }
  if isShadow e.run.ctx.slot then s
  else s.fromCluster (clusterOf e.g) 3 (e.plan.partOf e.run.ctx.slot) q.pkt

/-- READs one after another add their fetches to the handler and leave the rest of its core. -/
theorem core_foldl_fetch {g : Nat} {c : Core} {step : State → Nat × Nat → State} {ask : Nat × Nat → Nat × Nat × Nat × Option Nat}
    (hstep : ∀ u x r, u.core g = { c with run := some r } → ∃ q : CoreReq, q.asked = ask x ∧
      (step u x).core g = { c with run := some { r with fetches := r.fetches ++ [q] } })
    (xs : List (Nat × Nat)) (u : State) (r : Run) (hu : u.core g = { c with run := some r }) :
    ∃ qs : List CoreReq, qs.map CoreReq.asked = xs.map ask ∧
      (xs.foldl step u).core g = { c with run := some { r with fetches := r.fetches ++ qs } } := by
  induction xs generalizing u r with
  | nil => exact ⟨[], rfl, by simpa using hu⟩
  | cons x xs ih =>
    obtain ⟨q, hq, hcore⟩ := hstep u x r hu
    obtain ⟨qs, hqs, hfold⟩ := ih (step u x) _ hcore
    exact ⟨q :: qs, by rw [List.map_cons, hq, hqs, List.map_cons], by simpa using hfold⟩

/-- A READ adds its fetch to the handler and leaves the rest of the core. -/
theorem State.core_fetchRead {u : State} {e : Env} {c : Core} {r : Run} (hu : u.core e.g = { c with run := some r })
    (etag no a b : Nat) (x : Nat × Nat) : ∃ q : CoreReq, q.asked = (fld e.f.d 3 0, b + x.1, x.2, none) ∧
      (u.fetchRead e etag no a b x).core e.g = { c with run := some { r with fetches := r.fetches ++ [q] } } := by
  have run : (u.newTag.2.core e.g).run = some r := congrArg Core.run hu
  have core : ((u.newTag.2.modRun e.g fun r => { r with fetches := r.fetches ++ [u.fetchReq e etag no a b x] }).core e.g) =
      { c with run := some { r with fetches := r.fetches ++ [u.fetchReq e etag no a b x] } } := by
    rw [State.modRun, run]
    dsimp only
    rw [State.setRun, State.core_setCore, show u.newTag.2.core e.g = u.core e.g from rfl, hu]
  refine ⟨u.fetchReq e etag no a b x, rfl, ?_⟩
  unfold State.fetchRead
  dsimp only
  split
  · exact core
  · rw [State.core, State.fromCluster_cores]
    exact core

/-- FETCH inside its streams: it waits for a fetch that writes its destination, and while eight are outstanding; else it
issues its READs and goes on. -/
theorem State.fetchEff_inside {s : State} {e : Env} :
    let c := s.core e.g
    let loc := fld e.f.d 3 0
    let n := fld e.f.imm 6 0
    let a := (c.rs (sReg e.f.a)).toNat
    let b := (c.rs (sReg e.f.b)).toNat
    dKind e.descC ≠ 0 → dKind (e.desc loc) ≠ 0 → a + n ≤ dLen e.descC → b + n ≤ dLen (e.desc loc) →
    s.fetchEff e = if e.fetchHits (e.desc loc) b n then s.flow e (.wait .landing) 0
      else if 8 ≤ e.run.fetchCount then s.flow e (.wait .fetchRoom) 0
      else ((fetchParts n).foldl (fun u x => u.fetchRead e (((c.ctx e.run.ctx).map (·.etag)).getD 0)
        ((e.run.fetches.map (·.no)).foldl max 0 + 1) a b x) s).flow e .next 2 := by
  intro c loc n a b hd hl ha hb
  rw [State.fetchEff]
  exact if_neg (by rintro (h | h | h | h); exacts [hd h, hl h, Nat.not_lt.2 ha h, Nat.not_lt.2 hb h])

/-- Settles O15: END and WAITF of a handler without fetches, and the READs of a FETCH one after another. -/
theorem handlerControl : Obligations.HandlerControl := by
  intro s g f e c a b loc n
  refine ⟨fun h hf => ?_, fun h hf => ?_, fun h hd hl ha hb => ⟨fun hits => ?_, fun hits full => ?_, fun hits room more => ?_⟩,
    fun h => ?_, fun h => ?_⟩ <;> obtain ⟨rfl, rfl, hr, -, hop⟩ := State.tsiEnv_spec h.2
  · refine ⟨_, (State.ctlOp_runs h _).trans (congrArg _ (State.flow_fin hr hf 1)), State.overRun_run .., ?_⟩
    rw [hop]
  · exact (State.ctlOp_runs h _).trans (congrArg _ (State.waitfEff_none h hf))
  · refine (State.ctlOp_runs h _).trans (congrArg _ ?_)
    rw [State.fetchEff_inside hd hl ha hb, if_pos hits, State.flow_wait h]
  · refine (State.ctlOp_runs h _).trans (congrArg _ ?_)
    rw [State.fetchEff_inside hd hl ha hb, hits, if_neg Bool.false_ne_true, if_pos full, State.flow_wait h]
  · have eff := State.ctlOp_runs h State.fetchEff
    rw [State.fetchEff_inside hd hl ha hb, hits, if_neg Bool.false_ne_true, if_neg (Nat.not_le.2 room)] at eff
    obtain ⟨qs, hqs, hcore⟩ := core_foldl_fetch (c := c) (ask := fun x => (loc, b.toNat + x.1, x.2, none))
      (fun u x r hu => State.core_fetchRead hu _ _ _ b.toNat x) (fetchParts n) s e.run (by rw [← hr])
    have core := State.core_flow_next hcore more 2
    refine ⟨_, qs, eff, ?_, ?_, ?_⟩
    · rw [core, hop]; rfl
    · refine hqs.trans ?_
      rw [fetchParts]
      split <;> rfl
    · rw [core]
      exact ⟨rfl, rfl, rfl, rfl, rfl⟩
  · refine (State.ctlOp_runs h _).trans (congrArg _ ?_)
    unfold State.pcntEff
    exact State.flow_next (by exact hr) 1
  · refine (State.tsi_plain h fun e c _ => raiseEff e c).trans (congrArg _ ?_)
    exact State.applyTsi_stop hr rfl rfl rfl rfl rfl rfl

end Sys2Proof.Machine

/-!
What stops a handler at run time (Table TSI-9, R136, R151, R153, R161).
-/
namespace Sys2Proof.Machine

section Stops
variable {s : State} {g op : Nat} {f : TsiFields} {e : Env} (h : s.Runs g op f e)
include h

/-- An instruction that stops its handler with the registers it has written. -/
theorem State.tsi_stops {usesC : Bool} (hc : usesC = true → dKind e.descC ≠ 0) {eff : Env → Core → State → TsiRes} {c : Core}
    {st n : Nat} (he : eff e (s.core g) s = { core := c, flow := .stop st, cycles := n }) :
    onUnit (decide (g < Config.cores)) (s.tsi g op f usesC eff) = .next (s.stopsOn e c n st) := by
  obtain ⟨rfl, -, hr, -⟩ := State.tsiEnv_spec h.2
  rw [State.tsi_runs h hc, he, State.applyTsi_stop hr rfl rfl rfl rfl rfl rfl]

/-- An instruction that names a descriptor of KIND NONE stops. -/
theorem State.tsi_none (hd : dKind e.descC = 0) (eff : Env → Core → State → TsiRes) :
    onUnit (decide (g < Config.cores)) (s.tsi g op f true eff) = .next (s.stopsOn e (s.core g) 1 stIndex) := by
  obtain ⟨rfl, -, hr, -⟩ := State.tsiEnv_spec h.2
  rw [onUnit, if_pos (decide_eq_true h.1), State.tsi, h.2]
  dsimp only
  rw [decide_eq_true hd, Bool.true_and, if_pos rfl, State.flow_stop hr]

/-- So does an emit instruction. -/
theorem State.emitOp_none (hd : dKind e.descC = 0) (eff : State → Env → State) :
    onUnit (decide (g < Config.cores)) (s.emitOp g op f eff) = .next (s.stopsOn e (s.core g) 1 stIndex) := by
  obtain ⟨rfl, -, hr, -⟩ := State.tsiEnv_spec h.2
  rw [onUnit, if_pos (decide_eq_true h.1), State.emitOp, h.2]
  dsimp only
  rw [if_pos hd, State.flow_stop hr]

end Stops

/-- RECV past the end of the slice. -/
theorem recvEff_past {e : Env} {c : Core} (h : (c.rs 5).toNat < c.cursor e.f.c.toNat + immN e.f) :
    let cur := c.cursor e.f.c.toNat
    let n := immN e.f
    recvEff e c = { core := (foldRange n (fun k x => x.wv (e.f.d.toNat + k)
        (if cur + k < (c.rs 5).toNat then ofLE (slice e.sliceBytes (64 * (cur + k)) 64) else 0)) c).setCursor e.f.c.toNat (cur + n)
                    flow := .stop stLength, cycles := n } := by
  intro cur n
  unfold recvEff
  dsimp only
  rw [if_pos h]

/-- SKIP past the end of the slice. -/
theorem skipEff_past {e : Env} {c : Core} {a : Nat} (ha : a = (c.rs (sReg e.f.a)).toNat + imm16 e.f)
    (h : (c.rs 5).toNat < c.cursor e.f.c.toNat + a) :
    skipEff e c = { core := c.setCursor e.f.c.toNat (c.rs 5).toNat, flow := .stop stLength } := by
  subst ha
  unfold skipEff
  dsimp only
  rw [Nat.add_assoc, if_pos h]

/-- LDV of a beat outside the region. -/
theorem ldvEff_outside {e : Env} {c : Core} {s : State} (h : dLen e.descC < ldBeat e c + immN e.f) :
    ldvEff e c s = { core := foldRange (immN e.f) (fun k x => x.wv (e.f.d.toNat + k) 0) c, flow := .stop stIndex, cycles := immN e.f } := by
  unfold ldvEff
  simp [Nat.not_le.2 h]

/-- STV of a beat outside the region. -/
theorem stvEff_outside {e : Env} {c : Core} (h : dLen e.descC < ldBeat e c + immN e.f) :
    stvEff e c = { core := c, flow := .stop stIndex, cycles := immN e.f } := by
  unfold stvEff
  exact if_neg (Nat.not_le.2 h)

/-- LDS of bytes that are not aligned or not in the region. -/
theorem ldsEff_outside {e : Env} {c : Core} {s : State} (hk : dKind e.descC = 2)
    (h : ldBeat e c % 8 ≠ 0 ∨ 64 * dLen e.descC < ldBeat e c + 8) :
    ldsEff e c s = { core := c.ws (sReg e.f.d) 0, flow := .stop stIndex } := by
  unfold ldBeat at h
  unfold ldsEff
  simp only [hk, if_true]
  exact if_neg (by omega)

/-- Settles O16: each instruction's check fails, and its effect is to stop. -/
theorem runTimeFaultsStopTheHandler : Obligations.RunTimeFaultsStopTheHandler := by
  intro s g f e c n d a cur r
  refine ⟨fun hd op i hi h => ?_, fun hd => ⟨fun h past => ?_, fun h past => ?_, fun h past => ?_, fun h past => ?_,
    fun h hk past => ?_, fun h past => ?_⟩, fun h bad => ?_, fun h bad => ?_, fun h bad => ?_⟩ <;>
    obtain ⟨rfl, rfl, -⟩ := State.tsiEnv_spec h.2
  · simp only [List.mem_cons, List.not_mem_nil, or_false, Prod.mk.injEq] at hi
    rcases hi with ⟨rfl, rfl⟩ | ⟨rfl, rfl⟩ | ⟨rfl, rfl⟩ | ⟨rfl, rfl⟩ | ⟨rfl, rfl⟩ | ⟨rfl, rfl⟩ | ⟨rfl, rfl⟩ | ⟨rfl, rfl⟩ |
      ⟨rfl, rfl⟩ | ⟨rfl, rfl⟩ | ⟨rfl, rfl⟩ | ⟨rfl, rfl⟩ | ⟨rfl, rfl⟩ | ⟨rfl, rfl⟩ | ⟨rfl, rfl⟩ | ⟨rfl, rfl⟩ | ⟨rfl, rfl⟩
    iterate 12 exact State.tsi_none h hd _
    iterate 4 exact State.emitOp_none h hd _
    exact State.tsi_none h hd _
  · exact State.tsi_stops h (fun _ => hd) (recvEff_past past)
  · exact State.tsi_stops h (fun _ => hd) (skipEff_past rfl past)
  · exact State.tsi_stops h (fun _ => hd) (ldvEff_outside past)
  · exact State.tsi_stops h (fun _ => hd) (stvEff_outside past)
  · exact State.tsi_stops h (fun _ => hd) (ldsEff_outside hk past)
  · exact ⟨_, State.tsi_stops h (fun _ => hd) (if_pos past)⟩
  · exact ⟨_, State.tsi_stops (usesC := false) h (fun no => nomatch no) (if_neg (ne_true_of_eq_false bad))⟩
  · refine State.tsi_stops (usesC := false) h (fun no => nomatch no) (if_neg ?_)
    simp only [Bool.and_eq_true, not_and_or, Bool.not_eq_true, or_assoc]
    exact bad
  · exact State.tsi_stops (usesC := false) h (fun no => nomatch no) (if_neg (ne_true_of_eq_false bad))

end Sys2Proof.Machine

/-!
The dispatch of a handler: the register file of Table TSI-2, and what the three commands leave of the ring and of the
context (R96, R98, R99, R102).
-/
namespace Sys2Proof.Machine

/-! ### Parking -/

/-- Parking writes the data SRAM alone. -/
@[simp] theorem State.parkOut_cores (s : State) (g : Nat) : (s.parkOut g).cores = s.cores := by
  unfold State.parkOut
  dsimp only
  split
  · rfl
  · split <;> rfl

/-- Parking keeps the ring. -/
@[simp] theorem Core.parkAll_ring (c : Core) : c.parkAll.ring = c.ring := by
  unfold Core.parkAll
  split
  · rfl
  · split <;> rfl

/-- Parking keeps every context but the resident one. -/
theorem Core.parkAll_ctx {c : Core} {id : CtxId} (h : c.resident ≠ some id) : c.parkAll.ctx id = c.ctx id := by
  unfold Core.parkAll
  split
  · rfl
  · next rid hres =>
    split
    · rfl
    · next y hy => exact Core.ctx_putCtx_other fun hid => h (by rw [hres, ← Core.ctx_id hy]; exact congrArg some hid.symm)

/-- A lane whose register is not in the mask of a program reads as its reset value. -/
theorem at_keepLanes {mask n k : Nat} (hk : k < 16) (h : bit mask n = false) (xs : AMap Nat Lane) :
    AMap.at (keepLanes mask xs) (16 * n + k) {} = {} := by
  have cleared := at_filter_lanes xs (fun n => !bit mask n) n hk
  simp only [Bool.not_not, h, Bool.not_false, if_true] at cleared
  exact cleared

/-! ### The dispatch -/

section Dispatch
variable (s : State) (g : Nat) (x : Ctx) (p : Plan) (q : ProgCfg) (k : HKind) (pc : Nat) (sl : Option Slice)

/-- The core of a handler dispatched. -/
theorem State.core_dispatch : (s.dispatch g x p q k pc sl).core g = { entryCore (s.core g) p q g x sl with
    run := some { ctx := x.id, kind := k, pc := pc, cycles := 4, slice := sl, wait := .none, fetches := [] } } :=
  State.core_setCore ..

/-- Every other core stays as it is. -/
theorem State.core_dispatch_other {h : Nat} (hne : h ≠ g) : (s.dispatch g x p q k pc sl).core h = s.core h := by
  unfold State.dispatch
  dsimp only
  rw [State.core_setCore_other _ hne.symm]
  split
  · rfl
  · rw [State.core, State.parkOut_cores]; rfl

/-- A dispatch leaves the register file of Table TSI-2. -/
theorem State.dispatched_dispatch : s.Dispatched g x p q k pc sl (s.dispatch g x p q k pc sl) := by
  unfold State.Dispatched
  rw [State.core_dispatch]
  refine ⟨rfl, rfl, rfl, rfl, rfl, rfl, rfl, rfl, rfl, rfl, rfl, fun n low high => ?_, fun n j _ hj hbit => ?_, fun n j _ hj hbit => ?_,
    fun h hne => State.core_dispatch_other s g x p q k pc sl hne⟩
  · interval_cases n <;> rfl
  · exact at_keepLanes hj hbit _
  · exact at_keepLanes hj hbit _

/-- A dispatch keeps the ring. -/
theorem State.ring_dispatch : ((s.dispatch g x p q k pc sl).core g).ring = (s.core g).ring := by
  rw [State.core_dispatch]
  unfold entryCore
  dsimp only
  split
  · rfl
  · exact Core.parkAll_ring _

/-- A dispatch keeps the context that it makes resident. -/
theorem State.ctx_dispatch : ((s.dispatch g x p q k pc sl).core g).ctx x.id = (s.core g).ctx x.id := by
  rw [State.core_dispatch]
  change (if (s.core g).resident = some x.id then s.core g else (s.core g).parkAll).ctx x.id = _
  split
  · rfl
  · next away => exact Core.parkAll_ctx away

end Dispatch

/-- A dispatch from a state in which only its core differs. -/
theorem State.Dispatched.of_core {s s' : State} {g pc : Nat} {x : Ctx} {p : Plan} {q : ProgCfg} {k : HKind} {sl : Option Slice}
    {t : State} (h : s'.Dispatched g x p q k pc sl t) (same : ∀ i, i ≠ g → s'.core i = s.core i) :
    s.Dispatched g x p q k pc sl t := by
  obtain ⟨h1, h2, h3, h4, h5, h6, h7, h8, h9, h10, h11, h12, h13, h14, others⟩ := h
  exact ⟨h1, h2, h3, h4, h5, h6, h7, h8, h9, h10, h11, h12, h13, h14, fun i hi => (others i hi).trans (same i hi)⟩

/-- The context that is ready is the one the core holds under its identity. -/
theorem State.readyCtx_ctx {s : State} {g : Nat} {id : CtxId} {x : Ctx} {p : Plan} {q : ProgCfg}
    (h : s.readyCtx g id = some (x, p, q)) : (s.core g).ctx id = some x := by
  unfold State.readyCtx at h
  split at h
  · cases h
  · split at h
    · cases h
    · next y hy =>
      obtain ⟨pq, -, heq⟩ := Option.map_eq_some_iff.1 h
      cases heq
      exact hy

/-- Taking a slice out of the ring does not change which context is ready. -/
theorem State.readyCtx_setRing (s : State) (g : Nat) (ring : List Slice) (id : CtxId) :
    (s.setCore g { s.core g with ring := ring }).readyCtx g id = s.readyCtx g id := by
  unfold State.readyCtx
  rw [State.core_setCore]
  rfl

/-! ### The three commands -/

section Commands
variable {s : State} {g slot inst chunk t : Nat} {x : Ctx} {p : Plan} {q : ProgCfg} (hg : g < Config.cores)
include hg

/-- INIT_HANDLER of a context whose INIT has not run. -/
theorem execInitHandler_ready {pc : Nat} (ready : s.readyCtx g ⟨slot, inst, chunk⟩ = some (x, p, q)) (init : q.init = some pc)
    (fresh : x.initDone = false) : execInitHandler g slot inst chunk s = .next (s.dispatch g x p q .init pc none) := by
  rw [execInitHandler, onUnit, if_pos (decide_eq_true hg), ready]
  dsimp only
  rw [init]
  dsimp only
  rw [fresh, if_neg Bool.false_ne_true]

/-- SLICE_HANDLER with a slice that may be handled. -/
theorem execSliceHandler_ready {sl : Slice} {rest : List Slice}
    (first : takeFirst (fun y : Slice => !(s.tick t).instDead g y.ctx) ((s.tick t).core g).ring = some (sl, rest))
    (may : (s.tick t).sliceReady g sl = true) (ready : (s.tick t).readyCtx g sl.ctx = some (x, p, q)) :
    execSliceHandler g false t s = .next (((s.tick t).setCore g { (s.tick t).core g with ring := rest }).dispatch g x p q .slice
      q.slice (some sl)) := by
  rw [execSliceHandler]
  dsimp only
  rw [onUnit, if_pos (decide_eq_true hg), first]
  dsimp only
  rw [may, Bool.not_true, if_neg Bool.false_ne_true, if_neg Bool.false_ne_true, State.readyCtx_setRing, ready]

/-- FINAL_HANDLER of a complete chunk with no slice left of the context. -/
theorem execFinalHandler_ready {r : Rec} (ready : (s.tick t).readyCtx g ⟨slot, inst, chunk⟩ = some (x, p, q))
    (hr : ((s.tick t).chunk (clusterOf g) slot chunk).recOf inst = some r) (done : x.initDone = true)
    (fresh : x.finalStarted = false) (complete : r.st = .complete)
    (left : (((s.tick t).core g).ring.all fun y => decide (y.ctx ≠ ⟨slot, inst, chunk⟩)) = true) :
    execFinalHandler g slot inst chunk false t s = .next (((s.tick t).setCore g (((s.tick t).core g).putCtx
      { x with finalStarted := true })).dispatch g { x with finalStarted := true } p q .final q.final none) := by
  rw [execFinalHandler]
  dsimp only
  rw [onUnit, if_pos (decide_eq_true hg), ready, hr]
  dsimp only
  rw [done, fresh, decide_eq_true complete, left]
  rfl

end Commands

/-- Settles O17: each command is a dispatch, from the state without the slice or with the FINAL started. -/
theorem handlersAreDispatched : Obligations.HandlersAreDispatched := by
  intro s g slot inst chunk t x p q hg id
  refine ⟨fun pc ready init fresh => ?_, fun sl rest first may ready => ?_, fun r ready hr done fresh complete left => ?_⟩
  · exact ⟨_, execInitHandler_ready hg ready init fresh, State.dispatched_dispatch ..⟩
  · refine ⟨_, execSliceHandler_ready hg first may ready, ?_, ?_⟩
    · exact (State.dispatched_dispatch ..).of_core fun i hi => State.core_setCore_other _ hi.symm _
    · rw [State.ring_dispatch, State.core_setCore]
  · refine ⟨_, execFinalHandler_ready hg ready hr done fresh complete left, ?_, ?_⟩
    · exact (State.dispatched_dispatch _ g { x with finalStarted := true } p q .final q.final none).of_core
        fun i hi => State.core_setCore_other _ hi.symm _
    · have held := State.readyCtx_ctx ready
      have hid : x.id = id := Core.ctx_id held
      rw [← hid] at held ⊢
      have put : ((((s.tick t).core g).putCtx { x with finalStarted := true }).ctx x.id) = some { x with finalStarted := true } :=
        Core.ctx_putCtx_same (x := { x with finalStarted := true }) (by rw [held]; rfl)
      have kept := State.ctx_dispatch ((s.tick t).setCore g (((s.tick t).core g).putCtx { x with finalStarted := true })) g
        { x with finalStarted := true } p q .final q.final none
      rw [State.core_setCore] at kept
      rw [kept.trans put]
      rfl

end Sys2Proof.Machine

/-!
The answers to a cluster's own requests, and the ends of the lifecycle's transitions (R104, R174, R182, R490, R515 to R517,
R618).
-/
namespace Sys2Proof.Machine

/-! ### Answers to requests -/

section Answers
variable {s : State} {cl tag t : Nat} (hc : cl < Config.clusters)
include hc

/-- A response to an unanswered fetch: its status, or CHECK_FAIL for data of another length. -/
theorem fetchResponse_lands {x : Steered} {s2 : State} {g : Nat} {r : Run} {q : CoreReq}
    (hx : (s.tick t).takeMem cl (fun y => decide (hKind y.pkt.hdr = 6) && ((s.tick t).mirrorOf cl (hTag y.pkt.hdr)).isNone &&
      ((s.tick t).wrOf cl (hTag y.pkt.hdr)).isNone) = some (x, s2)) (hq : s2.fetchOf cl (hTag x.pkt.hdr) = some (g, r, q)) :
    execFetchResponse cl t s = .next (s2.landFetch g r q
      (if answerOf x.pkt = 0 ∧ x.pkt.payload.length ≠ 64 * q.n then stCheck else answerOf x.pkt) x.pkt.payload) := by
  rw [execFetchResponse]
  dsimp only
  rw [onUnit, if_pos (decide_eq_true hc), hx]
  dsimp only
  rw [hq]

/-- A response to an unanswered WRITE. -/
theorem memwrResponse_lands {x : Steered} {s2 : State} {g : Nat} {c : Ctx} {q : CoreReq}
    (hx : (s.tick t).takeMem cl (fun y => decide (hKind y.pkt.hdr = 6) && ((s.tick t).wrOf cl (hTag y.pkt.hdr)).isSome) =
      some (x, s2)) (hq : s2.wrOf cl (hTag x.pkt.hdr) = some (g, c, q)) :
    execMemwrResponse cl t s = .next (s2.landWrite g c q (answerOf x.pkt)) := by
  rw [execMemwrResponse]
  rw [onUnit, if_pos (decide_eq_true hc), hx]
  dsimp only
  rw [hq]

/-- REQUEST_RESEND of a fetch: nothing before its time, then at most four times, then TIMEOUT. -/
theorem requestResend_fetch {g : Nat} {r : Run} {q : CoreReq} (hq : (s.tick t).fetchOf cl tag = some (g, r, q)) :
    let s1 := s.tick t
    let again := fun x : CoreReq => ({ x with sentAt := s1.now, resends := x.resends + 1 } : CoreReq)
    let fs := modWhere (fun x : CoreReq => decide (x.tag = tag) && x.status.isNone) again r.fetches
    execRequestResend cl tag t s = .next (if s1.now < q.sentAt + resendNs then s1
      else if q.resends < 4 then
        (s1.setRun g (some { r with fetches := fs })).fromCluster cl 3 (s1.slotPart r.ctx.slot) q.pkt
      else s1.landFetch g r q stTimeout []) := by
  rw [execRequestResend]
  dsimp only
  rw [onUnit, if_pos (decide_eq_true hc), hq]
  rfl

/-- REQUEST_RESEND of a WRITE that has been resent four times. -/
theorem requestResend_write {g : Nat} {x : Ctx} {q : CoreReq} (hf : (s.tick t).fetchOf cl tag = none)
    (hq : (s.tick t).wrOf cl tag = some (g, x, q)) (late : q.sentAt + resendNs ≤ (s.tick t).now) (spent : 4 ≤ q.resends) :
    execRequestResend cl tag t s = .next ((s.tick t).landWrite g x q stTimeout) := by
  rw [execRequestResend]
  dsimp only
  rw [onUnit, if_pos (decide_eq_true hc), hf]
  dsimp only
  rw [hq]
  dsimp only
  rw [if_neg (Nat.not_lt.2 late), if_neg (Nat.not_lt.2 spent)]

end Answers

/-- Settles O28: the answers one command at a time. -/
theorem coreRequestsAreAnswered : Obligations.CoreRequestsAreAnswered := by
  intro s cl tag t hc s1
  refine ⟨fun x s2 g r q hx hq => ?_, fun x s2 g c q hx hq => memwrResponse_lands hc hx hq, fun g r q hq => ?_,
    fun g x q hf hq late spent => requestResend_write hc hf hq late spent⟩
  · have lands : exec (.fetchResponse cl t) s = .next _ := fetchResponse_lands hc hx hq
    refine ⟨fun ok len => ?_, fun ok len => ?_, fun failed => ?_⟩
    · rw [lands, if_neg fun h => h.2 len, ok]
    · rw [lands, if_pos ⟨ok, len⟩]; rfl
    · rw [lands, if_neg fun h => failed h.1]
  · have resend : exec (.requestResend cl tag t) s = .next _ := requestResend_fetch hc hq
    refine ⟨fun early => ?_, fun late spent => ?_, fun late left => ?_⟩
    · exact resend.trans (congrArg _ (if_pos early))
    · exact resend.trans (congrArg _ ((if_neg (Nat.not_lt.2 late)).trans (if_neg (Nat.not_lt.2 spent))))
    · exact resend.trans (congrArg _ ((if_neg (Nat.not_lt.2 late)).trans (if_pos left)))

/-! ### Ends of transitions -/

/-- A condition of the manual that holds, or does not. -/
theorem when_true {ok : Bool} (h : ok = true) (s s' : State) : when_ ok s s' = s' := if_pos h

theorem when_false {ok : Bool} (h : ok = false) (s s' : State) : when_ ok s s' = s := if_neg (ne_true_of_eq_false h)

section Transitions
variable {s : State} {i t : Nat} (serves : (s.tick t).mpServes = true)
include serves

/-- PART_STARTED of a partition in STARTING. -/
theorem partStarted_on (hi : i < 64) (h : ((s.tick t).part i).fn.st = .starting) :
    let x := (s.tick t).part i
    let u := (s.tick t).setPart i { x with fn := { x.fn with st := .on, start := none } }
    execPartStarted i t s = .next (x.fn.start.elim u fun r => u.complete r 0 0) := by
  refine (if_pos (decide_eq_true hi)).trans (congrArg _ ((if_pos ⟨h, serves⟩).trans ?_))
  cases ((s.tick t).part i).fn.start <;> rfl

/-- CLUSTER_STARTED of a cluster in STARTING. -/
theorem clusterStarted_on (hi : i < Config.clusters) (h : ((s.tick t).clusterFn i).st = .starting) :
    let u := (s.tick t).setCluster i { st := .on }
    execClusterStarted i t s = .next (((s.tick t).clusterFn i).start.elim u fun r => u.complete r 0 0) := by
  refine (if_pos (decide_eq_true hi)).trans (congrArg _ ((if_pos ⟨h, serves⟩).trans ?_))
  cases ((s.tick t).clusterFn i).start <;> rfl

/-- PART_STOPPED of a partition in STOPPING whose endpoint links are DISABLED. -/
theorem partStopped_off (hi : i < 64) (h : ((s.tick t).part i).fn.st = .stopping) (off : (s.tick t).endpointsOff i = true) :
    execPartStopped i t s = .next ((s.tick t).partOff i) :=
  (if_pos (decide_eq_true hi)).trans (congrArg _ (when_true (by rw [decide_eq_true h, off, serves]; rfl) _ _))

/-- CLUSTER_STOPPED of a cluster in STOPPING whose cores hold no context. -/
theorem clusterStopped_off (hi : i < Config.clusters) (h : ((s.tick t).clusterFn i).st = .stopping)
    (idle : (s.tick t).clusterIdle i = true) :
    let f := (s.tick t).clusterFn i
    let u := f.stops.foldl (fun v r => v.complete r 0 0) ((s.tick t).setCluster i { st := .off })
    execClusterStopped i t s = .next (f.queued.elim u fun r => u.setCluster i { st := .starting, start := some r.1 }) := by
  refine (if_pos (decide_eq_true hi)).trans (congrArg _ ((when_true (by rw [decide_eq_true h, idle, serves]; rfl) _ _).trans ?_))
  cases ((s.tick t).clusterFn i).queued <;> rfl

end Transitions

/-- Without a queued start a partition that is OFF is as at reset. -/
theorem State.part_partOff {s : State} {p : Nat} (h : (s.part p).fn.queued = none) : (s.partOff p).part p = {} := by
  unfold State.partOff
  dsimp only
  rw [h]
  exact State.part_setPart ..

/-- Settles O42: the transitions end, or nothing happens. -/
theorem lifecycleTransitionsEnd : Obligations.LifecycleTransitionsEnd := by
  intro s i t s1 x f serves
  refine ⟨fun hi => ⟨fun h => ?_, fun h => ?_, fun h off => ?_, fun h => ?_⟩,
    fun hi => ⟨fun h => ?_, fun h => ?_, fun h idle => ?_, fun h => ?_⟩⟩
  · have on : exec (.partStarted i t) s = .next _ := partStarted_on serves hi h
    exact ⟨fun r hr => by rw [on, hr]; rfl, fun hr => by rw [on, hr]; rfl⟩
  · refine (if_pos (decide_eq_true hi)).trans (congrArg _ ?_)
    exact if_neg fun yes => h yes.1
  · exact ⟨partStopped_off serves hi h off, State.part_partOff⟩
  · refine (if_pos (decide_eq_true hi)).trans (congrArg _ (when_false ?_ _ _))
    rcases h with h | h
    · rw [decide_eq_false h]; rfl
    · rw [h, Bool.and_false]; rfl
  · have on : exec (.clusterStarted i t) s = .next _ := clusterStarted_on serves hi h
    exact ⟨fun r hr => by rw [on, hr]; rfl, fun hr => by rw [on, hr]; rfl⟩
  · refine (if_pos (decide_eq_true hi)).trans (congrArg _ ?_)
    exact if_neg fun yes => h yes.1
  · have off : exec (.clusterStopped i t) s = .next _ := clusterStopped_off serves hi h idle
    exact ⟨fun hq => by rw [off, hq]; rfl, fun r a hq => by rw [off, hq]; rfl⟩
  · refine (if_pos (decide_eq_true hi)).trans (congrArg _ (when_false ?_ _ _))
    rcases h with h | h
    · rw [decide_eq_false h]; rfl
    · rw [h, Bool.and_false]; rfl

end Sys2Proof.Machine

/-!
The Roe block and the counter of FT: a link that starts or goes DOWN leaves both alone (R444, R567).
-/
namespace Sys2Proof.Machine

/-- The Roe block and the state of time. -/
def State.pace (s : State) : Roe × TimeSt := (s.roe, s.time)

theorem State.pace_of_told {s t : State} (h : t.told = s.told) : t.pace = s.pace :=
  Prod.ext (State.roe_of_told h) (State.time_of_told h)

theorem State.pace_of_still {s t : State} (h : t.still = s.still) : t.pace = s.pace :=
  State.pace_of_told (State.told_of_still h)

theorem foldl_pace {α : Type} {f : State → α → State} (h : ∀ s x, (f s x).pace = s.pace) (l : List α) (s : State) :
    (l.foldl f s).pace = s.pace := by
  induction l generalizing s with
  | nil => rfl
  | cons a l ih => exact (ih (f s a)).trans (h s a)

theorem ite_pace {c : Prop} [Decidable c] (a b : State) : (if c then a else b).pace = if c then a.pace else b.pace :=
  apply_ite ..

/-! ### Reports of the MP -/

@[simp] theorem State.health_pace (s : State) (row n : Nat) : (s.health row n).pace = s.pace :=
  State.pace_of_told (State.health_told _ _ _)

@[simp] theorem State.event_pace (s : State) (code status detail : Nat) (parts : List Nat) :
    (s.event code status detail parts).pace = s.pace :=
  State.pace_of_told (State.event_told _ _ _ _ _)

@[simp] theorem State.complete_pace (s : State) (r : Req) (status detail : Nat) : (s.complete r status detail).pace = s.pace :=
  State.pace_of_told (State.complete_told _ _ _ _)

@[simp] theorem State.partDegraded_pace (s : State) (r : Route) (f : List Nat) : (s.partDegraded r f).pace = s.pace :=
  foldl_pace (fun _ _ => by split <;> simp) _ _

@[simp] theorem State.reevalF_pace (s : State) : s.reevalF.pace = s.pace := by
  unfold State.reevalF
  refine (foldl_pace (fun _ _ => ?_) _ _).trans rfl
  dsimp only
  split <;> simp

@[simp] theorem State.setLink_pace (s : State) (l : Nat) (k : Link) : (s.setLink l k).pace = s.pace := rfl

@[simp] theorem State.setDisc_pace (s : State) (l : Nat) (d : Disc) : (s.setDisc l d).pace = s.pace := by
  unfold State.setDisc
  dsimp only
  split
  · rfl
  · cases d <;> simp

@[simp] theorem State.linkEvent_pace (s : State) (l : Nat) : (s.linkEvent l).pace = s.pace := State.event_pace _ _ _ _ _

@[simp] theorem State.completeEnable_pace (s : State) (l status : Nat) : (s.completeEnable l status).pace = s.pace := by
  unfold State.completeEnable
  dsimp only
  split <;> simp

/-! ### Packets that arrive -/

@[simp] theorem State.sampled_pace (s : State) (src : From) (vc : Nat) (counts : Bool) (hs : List Hit) (p : Packet) :
    (s.sampled src vc counts hs p).pace = s.pace := by
  unfold State.sampled State.sampleTick State.sample
  split
  · dsimp only
    repeat' split
    all_goals rfl
  · rfl

@[simp] theorem enter_still (s : State) (src : From) (vin vc total got : Nat) (p : Packet) (bad : Bool) (r : Option Route)
    (hs : List (BitVec 256 × Hit)) : (enter s src vin vc total got p bad r hs).1.still = s.still := by
  have placed : (hs.foldl (fun s x => deliverUnit s src vc { p with hdr := x.1 } bad x.2) s).still = s.still :=
    foldl_still (fun _ _ => deliverUnit_still _ _ _ _ _ _) _ _
  unfold enter
  dsimp only
  simp only [apply_ite Prod.fst, ite_still]
  simp [placed]

@[simp] theorem bootRefusal_still (s : State) (p : Packet) : (bootRefusal s p).still = s.still := by
  unfold bootRefusal
  split
  · exact originate_still _ _
  · rfl

@[simp] theorem fawnArrive_still (s : State) (l tp : Nat) (r : Route) (vc : Nat) (p : Packet) (bad : Bool) :
    (fawnArrive s l tp r vc p bad).still = s.still := by
  unfold fawnArrive
  split <;> simp

@[simp] theorem answerUnknown_still (s : State) (src : From) (hs : List (BitVec 256 × Hit)) :
    (answerUnknown s src hs).still = s.still := by
  refine foldl_still (fun u x => ?_) _ _
  split
  · unfold State.sendAnswer
    split <;> simp
  · rfl

@[simp] theorem arrive_pace (s : State) (src : From) (vc total got : Nat) (p : Packet) (bad : Bool) :
    (arrive s src vc total got p bad).1.pace = s.pace := by
  have unplanned (h : Hit) : (if h = .mp ∧ hKind p.hdr = 5 then
      (bootRefusal (s.sampled src vc (!malformed vc p.hdr) [h] p) p, none)
      else enter (s.sampled src vc (!malformed vc p.hdr) [h] p) src vc vc total got p bad none [(p.hdr, h)]).1.pace = s.pace := by
    split
    · rw [State.pace_of_still (bootRefusal_still _ _), State.sampled_pace]
    · rw [State.pace_of_still (enter_still _ _ _ _ _ _ _ _ _ _), State.sampled_pace]
  unfold arrive
  split
  · exact unplanned _
  · split
    · rw [State.pace_of_still (fawnArrive_still _ _ _ _ _ _ _), State.sampled_pace]
    · split
      · exact State.sampled_pace ..
      · dsimp only
        rw [State.pace_of_still (enter_still _ _ _ _ _ _ _ _ _ _), State.pace_of_still (answerUnknown_still _ _ _),
          State.sampled_pace]
        split <;> rfl

/-! ### A link that goes DOWN or starts -/

@[simp] theorem State.ingressAll_pace (s : State) (l : Nat) : (s.ingressAll l).pace = s.pace := by
  unfold State.ingressAll
  refine (foldl_pace (fun _ _ => ?_) _ _).trans rfl
  dsimp only
  split
  · exact arrive_pace ..
  · rw [State.pace_of_still (State.freeCredits_still _ _ _ _ _), arrive_pace]

@[simp] theorem State.endPacket_still (s : State) (id cause : Nat) : (s.endPacket id cause).still = s.still := by
  have copies (n : Nat) : ((List.range n).foldl (fun s k => s.endCopy id k (some cause)) s).still = s.still :=
    foldl_still (fun _ _ => by simp) _ _
  unfold State.endPacket
  split
  · rfl
  · dsimp only
    split <;> exact copies _

@[simp] theorem State.cutIngress_pace (s : State) (l cause : Nat) : (s.cutIngress l cause).pace = s.pace := by
  unfold State.cutIngress
  refine (State.setLink_pace ..).trans (foldl_pace (fun _ _ => ?_) _ _)
  split
  · exact State.pace_of_still (State.endPacket_still _ _ _)
  · rfl

@[simp] theorem State.staleCells_pace (s : State) (l : Nat) : (s.staleCells l).pace = s.pace := rfl

@[simp] theorem State.countN_pace (s : State) (c : Ctr) (i j n : Nat) : (s.countN c i j n).pace = s.pace := rfl

@[simp] theorem State.toState_pace (s : State) (l : Nat) (st : LState) (cause : Nat) : (s.toState l st cause).pace = s.pace := rfl

@[simp] theorem State.flushLink_pace (s : State) (l : Nat) (keep : Bool) : (s.flushLink l keep).pace = s.pace :=
  State.pace_of_still (State.flushLink_still _ _ _)

/-- A link that goes DOWN. -/
@[simp] theorem State.linkDown_pace (s : State) (l cause : Nat) : (s.linkDown l cause).pace = s.pace := by
  unfold State.linkDown
  simp only [State.completeEnable_pace, State.linkEvent_pace, ite_pace, State.setDisc_pace, State.health_pace, ite_self,
    State.flushLink_pace, State.toState_pace, State.setLink_pace, State.countN_pace, State.staleCells_pace,
    State.cutIngress_pace, State.ingressAll_pace]

/-- A link that starts. -/
@[simp] theorem State.startLink_pace (s : State) (l : Nat) : (s.startLink l).pace = s.pace := by
  have entered : (s.enterSignal l).pace = s.pace := rfl
  unfold State.startLink
  dsimp only
  split
  · rw [State.linkDown_pace, entered]
  · split
    · rw [State.linkDown_pace, entered]
    · exact entered

/-- A link that starts from DISABLED. -/
@[simp] theorem State.startOff_pace (s : State) (l : Nat) : (s.startOff l).pace = s.pace := by
  unfold State.startOff
  dsimp only
  split
  · rw [State.startLink_pace]; rfl
  · rw [State.completeEnable_pace]; rfl

end Sys2Proof.Machine

/-!
Resets, power states and the Trail bypass (R104, R444, R552, R554, R556, R567, R568, R592, R600, R601).
-/
namespace Sys2Proof.Machine

/-! ### The bypass -/

/-- Without VDD_AON and in OFF the bypass is undriven. -/
theorem State.bypass_dark {s : State} (old : State) (h : s.roe.aon = false ∨ s.roe.pstate = .off) :
    s.bypass old = { s with roe := { s.roe with bypN := none } } :=
  if_pos (h.imp (fun h => by rw [h]; rfl) id)

/-- What holds the part out of the ring closes the bypass. -/
theorem State.bypass_closed {s old : State} (aon : s.roe.aon = true) (on : s.roe.pstate ≠ .off) (bad : s.bypGood = false) :
    (s.bypass old).roe.bypN = some false :=
  congrArg (fun u : State => u.roe.bypN) ((if_neg (by simp [aon, on])).trans (if_pos (by rw [bad]; rfl)))

/-- The bypass changes the Roe block alone. -/
theorem State.bypass_frame (s old : State) : s.bypass old = { s with roe := (s.bypass old).roe } := by
  unfold State.bypass
  repeat' split
  all_goals rfl

/-! ### Resets -/

/-- The state in which the straps have been sampled and the edge ports start (R556, R592). -/
def State.strapped (s : State) (st : Straps) : State :=
  { s with fuse := { s.fuse with straps := st }, roe := { s.roe with porst := false }, links := State.reset.links }

/-- PORST_N_RELEASE: the straps are sampled, and then the bypass follows. -/
theorem porstNRelease_released {s : State} (st : Straps) (aon : s.roe.aon = true) (porst : s.roe.porst = true) :
    execPorstNRelease st s = .next ((s.strapped st).bypass s) := by
  rw [execPorstNRelease, when_true (by rw [aon, porst]; rfl)]
  rfl

/-! ### Wakes -/

/-- A bit of ROE_EVENT and its IBI change nothing of the time. -/
theorem State.roeEvent_time (s : State) (i : Nat) : (s.roeEvent i).time = s.time := by
  unfold State.roeEvent
  dsimp only
  repeat' split
  all_goals rfl

/-- The state in which a wake has reached WAKETO, its links still to train. -/
def State.awake (s : State) : State :=
  let s : State := { s with roe := { s.roe with pstate := s.roe.waketo, waking := false, wakeLinks := [], beatAt := s.now } }
  let s : State := { s with time := { s.time with stop := none, off := -(s.now : Int), frac := 0 } }
  (s.enterTime .unset).roeEvent 5

/-- The links that train again leave the Roe block and the time. -/
theorem State.woken_pace (s : State) : s.woken.pace = s.awake.pace :=
  foldl_pace (fun _ _ => (State.startOff_pace ..).trans (State.setLink_pace ..)) _ _

/-- A wake ends in WAKETO with FT UNSET and WOKE set. -/
theorem State.woken_parts (s : State) :
    s.woken.roe.pstate = s.roe.waketo ∧ s.woken.time.st = .unset ∧ bit s.woken.roe.event.toNat 5 = true := by
  have roe : s.woken.roe = s.awake.roe := congrArg Prod.fst s.woken_pace
  have time : s.woken.time = s.awake.time := congrArg Prod.snd s.woken_pace
  rw [roe, time]
  refine ⟨?_, ?_, State.roeEvent_bit _ (by decide)⟩
  · rw [State.awake, (State.roeEvent_parts _ _).1, State.roe_of_calm (State.enterTime_calm _ _)]
  · rw [State.awake, State.roeEvent_time, (State.enterTime_time _).2]

/-! ### Ends of power transitions -/

/-- A transition ends in its state; in OFF the MP is stopped and the bypass undriven. -/
theorem State.reached_parts (s : State) (dest : PState) (r : Req) :
    (s.reached dest r).roe.pstate = dest ∧ (s.reached dest r).roe.trans = none ∧
      (dest = .off → (s.reached dest r).mp.running = false ∧ (s.reached dest r).roe.bypN = none) := by
  have completed : (({ s with roe := { s.roe with trans := none } } : State).complete r 0 0).roe = { s.roe with trans := none } :=
    State.roe_of_told (State.complete_told _ _ _ _)
  unfold State.reached
  dsimp only
  by_cases off : dest = .off
  · subst off
    rw [if_pos rfl, if_pos (.inr rfl), State.bypass_dark _ (.inr rfl)]
    dsimp only
    rw [completed]
    exact ⟨rfl, rfl, fun _ => ⟨rfl, rfl⟩⟩
  · rw [if_neg off]
    refine ⟨?_, ?_, fun h => absurd h off⟩
    · split <;> rfl
    · split <;> exact congrArg Roe.trans completed

/-- A core holds a live context or runs a handler. -/
theorem State.coresIdle_iff (s : State) : s.coresIdle = true ↔ ¬∃ g k, (g, k) ∈ s.cores ∧ (k.ctxs ≠ [] ∨ k.run ≠ none) := by
  simp only [State.coresIdle, List.all_eq_true, Bool.and_eq_true, List.isEmpty_iff, Option.isNone_iff_eq_none, Prod.forall]
  constructor
  · rintro idle ⟨g, k, hk, held⟩
    obtain ⟨noCtx, noRun⟩ := idle g k hk
    exact held.elim (· noCtx) (· noRun)
  · intro idle g k hk
    by_contra busy
    exact idle ⟨g, k, hk, by tauto⟩

/-- POWER_TRANSITION_DONE outside a wake: the transition ends once its links and cores allow it. -/
theorem powerTransitionDone_trans {s : State} {t : Nat} {dest : PState} {r : Req} (c6 : (s.tick t).roe.c6 = false)
    (waking : (s.tick t).roe.waking = false) (trans : (s.tick t).roe.trans = some (dest, r)) :
    execPowerTransitionDone t s = .next (if ((dest = .s3 ∨ dest = .off) ∧ (s.tick t).allDisabled = false) ∨
      (dest ≠ .p0 ∧ (s.tick t).coresIdle = false) then s.tick t else (s.tick t).reached dest r) := by
  rw [execPowerTransitionDone]
  rw [c6, waking, if_neg Bool.false_ne_true, if_neg Bool.false_ne_true, trans]
  simp only [Bool.not_eq_true']

/-! ### ROE_CTRL -/

/-- A write of ROE_CTRL, before a wake that it may begin. -/
def State.ctrlled (s : State) (v : BitVec 32) : State :=
  ({ s with roe := { s.roe with edgewake := bit v.toNat 1, forcebyp := bit v.toNat 2 } } : State).bypass s

/-- What a write of ROE_CTRL leaves of the Roe block. -/
theorem State.ctrlled_roe (s : State) (v : BitVec 32) :
    (s.ctrlled v).roe = { s.roe with
      edgewake := bit v.toNat 1, forcebyp := bit v.toNat 2, bypN := (s.ctrlled v).roe.bypN, k28At := (s.ctrlled v).roe.k28At } :=
  (State.bypass_parts _ s).1

/-- A wake begins in S3 of a part that has not stopped. -/
theorem State.wakeUp_roe (s : State) :
    s.wakeUp.roe = { s.roe with waking := s.roe.waking || (decide (s.roe.pstate = .s3) && !s.roe.c6) } := by
  unfold State.wakeUp
  split
  · next sleeps => simp [sleeps]
  · next wakes =>
    have stays : (decide (s.roe.pstate = .s3) && !s.roe.c6) = false := by
      by_contra h
      exact wakes (by simpa using h)
    rw [stays, Bool.or_false]

/-- A write of ROE_CTRL: its fields are taken, the bypass follows, and a wake begins where it is asked for. -/
theorem State.writeRoeCtrl_roe (s : State) (v : BitVec 32) :
    (s.writeRoeCtrl v).roe = { (s.ctrlled v).roe with
      waking := s.roe.waking || (bit v.toNat 0 && decide (s.roe.pstate = .s3) && !s.roe.c6) } := by
  have roe := s.ctrlled_roe v
  change (if bit v.toNat 0 then (s.ctrlled v).wakeUp else s.ctrlled v).roe = _
  split
  · next asked => rw [State.wakeUp_roe, asked, roe, Bool.true_and]
  · next not =>
    rw [Bool.eq_false_iff.2 not, Bool.false_and, Bool.false_and, Bool.or_false, roe]

/-- FORCEBYP closes the bypass of a part that is not in OFF. -/
theorem State.ctrlled_forced {s : State} {v : BitVec 32} (force : bit v.toNat 2 = true) (aon : s.roe.aon = true)
    (on : s.roe.pstate ≠ .off) : (s.ctrlled v).roe.bypN = some false :=
  State.bypass_closed (by exact aon) (by exact on) (by simp [State.bypGood, force])

/-! ### The obligation -/

/-- TRAIL_INSERT without what it waits for changes nothing. -/
theorem trailInsert_same {s : State} {t : Nat} (h : (s.tick t).bypGood = false ∨ (s.tick t).now < (s.tick t).roe.k28At + 10000) :
    execTrailInsert t s = .next (s.tick t) := by
  refine congrArg Host.Outcome.next (when_false ?_ _ _)
  rcases h with bad | early
  · rw [bad, Bool.false_and]
  · rw [decide_eq_false fun h => Nat.not_le.2 early h.2, Bool.and_false]

/-- Settles O48: resets, wakes and transitions by what they leave (`State.woken_parts`, `State.reached_parts`), the ring by
the bypass. -/
theorem resetsPowerStatesAndTheRing : Obligations.ResetsPowerStatesAndTheRing := by
  intro s t s1 same
  have held (aon : Bool) : same (s.heldReset aon) := ⟨rfl, rfl, rfl, rfl, rfl, rfl, rfl, rfl, rfl, rfl, rfl, rfl, rfl, rfl⟩
  refine ⟨fun aon => ?_, fun aon => ?_, ⟨_, rfl, held false, rfl, rfl⟩, fun st aon porst => ?_, fun c6 => ⟨fun waking => ?_,
    fun dest r waking trans => ?_⟩, fun ep us hep => ⟨fun edge long s3 c6 => ?_, fun h => ?_⟩, fun low good => ⟨fun late => ?_,
    fun early => trailInsert_same (.inr early)⟩, fun bad => trailInsert_same (.inl bad), fun aon on => ?_,
    fun v works => ⟨?_, ?_⟩⟩
  · exact ⟨_, congrArg Host.Outcome.next (when_true aon _ _), held true, rfl, rfl⟩
  · exact ⟨_, congrArg Host.Outcome.next (when_true (by rw [aon]; rfl) _ _), held true, rfl, rfl⟩
  · refine ⟨_, porstNRelease_released st aon porst, ?_, ?_, ?_, ?_, ?_⟩
    · rw [State.bypass_frame]; rfl
    · rw [(State.bypass_parts _ s).1]; rfl
    · rw [State.bypass_frame]; rfl
    · rw [State.bypass_frame]; rfl
    · rw [State.bypass_frame]; rfl
  · exact ⟨congrArg Host.Outcome.next ((if_neg (ne_true_of_eq_false c6)).trans (if_pos waking)), s1.woken_parts⟩
  · intro holds
    have done : exec (.powerTransitionDone t) s = .next _ := powerTransitionDone_trans c6 waking trans
    have idle_iff : s1.coresIdle = true ↔ ¬holds := s1.coresIdle_iff
    refine ⟨fun links cores => ?_, fun deep some_up => ?_, fun low busy => ?_⟩
    · rw [if_neg] at done
      · obtain ⟨pstate, noTrans, off⟩ := s1.reached_parts dest r
        exact ⟨_, done, pstate, noTrans, (State.reached_keep ..).trans (State.tick_keep ..), off⟩
      · rintro (⟨deep, up⟩ | ⟨low, busy⟩)
        · rcases links with shallow | down
          · exact deep.elim shallow.1 shallow.2
          · rw [down] at up; cases up
        · rw [idle_iff.2 (cores.resolve_left low)] at busy; cases busy
    · exact done.trans (congrArg Host.Outcome.next (if_pos (.inl ⟨deep, some_up⟩)))
    · exact done.trans (congrArg Host.Outcome.next (if_pos (.inr ⟨low, Bool.eq_false_iff.2 fun idle => idle_iff.1 idle busy⟩)))
  · refine (if_pos (decide_eq_true hep)).trans (congrArg Host.Outcome.next ?_)
    rw [when_true (by rw [edge, decide_eq_true long]; rfl)]
    exact if_pos ⟨s3, c6⟩
  · refine (if_pos (decide_eq_true hep)).trans (congrArg Host.Outcome.next ?_)
    rcases h with h | h | h
    · exact when_false (by rw [h, Bool.false_and]) _ _
    · exact when_false (by rw [decide_eq_false (Nat.not_le.2 h), Bool.and_false]) _ _
    · rw [State.wakeUp, if_neg fun sleeps => h sleeps.1]
      exact ite_self _
  · exact congrArg Host.Outcome.next (when_true (by rw [good, decide_eq_true ⟨low, late⟩]; rfl) _ _)
  · refine ⟨_, rfl, State.bypass_closed (by exact aon) (by exact on) (by simp [State.bypGood]), ?_, State.bypass_keep ..⟩
    rw [(State.bypass_parts _ s1).1]
  · have roe := s1.writeRoeCtrl_roe v
    refine ⟨_, congrArg Host.Outcome.next (if_pos works), ?_, ?_, (State.writeRoeCtrl_keep ..).trans (State.tick_keep ..), fun force aon on => ?_⟩
    · exact (congrArg Roe.forcebyp roe).trans (congrArg Roe.forcebyp (s1.ctrlled_roe v))
    · exact (congrArg Roe.edgewake roe).trans (congrArg Roe.edgewake (s1.ctrlled_roe v))
    · exact (congrArg Roe.bypN roe).trans (State.ctrlled_forced force aon on)
  · exact ⟨_, congrArg Host.Outcome.next (if_pos works), (State.writeRoeCtrl_keep ..).trans (State.tick_keep ..),
      congrArg Roe.waking (s1.writeRoeCtrl_roe v)⟩

end Sys2Proof.Machine
